-- ==== Sys2Proof/Word.lean ====
section
/-!
DEFINITION. The node's words: bytes, 32-bit register words and 64-bit identities, and their plainest arithmetic.
-/

namespace Sys2Proof

/-- One byte. -/
abbrev Byte := BitVec 8
/-- One 32-bit register word (R10). -/
abbrev Word := BitVec 32

/-- Bits hi to lo of a number (R7: bit 0 is the least significant). -/
def bits (x hi lo : Nat) : Nat := x / 2 ^ lo % 2 ^ (hi - lo + 1)

/-- Bit i of a number. -/
def bit (x i : Nat) : Bool := x / 2 ^ i % 2 == 1

/-- A Bool as a one-bit number. -/
def b2n (b : Bool) : Nat := if b then 1 else 0

end Sys2Proof
end

