-- ==== Sys2Proof/Machine/Sparse.lean ====
section
/-!
DEFINITION. Sparse tables: lists of (key, value) pairs with strictly rising keys. The register file, the QSPI window,
the message RAM of the CAN controllers and the circular area of the tally book are held this way, so that equal
contents are equal data.
-/

namespace Sys2Proof.Machine

/-- The value listed under a key. -/
def Sparse.find {α : Type} (k : Nat) : List (Nat × α) → Option α
  | [] => none
  | e :: l => if e.1 = k then some e.2 else Sparse.find k l

/-- The list with a value under a key, in key order. -/
def Sparse.put {α : Type} (k : Nat) (v : α) : List (Nat × α) → List (Nat × α)
  | [] => [(k, v)]
  | e :: l =>
    if k < e.1 then (k, v) :: e :: l
    else if e.1 = k then (k, v) :: l
    else e :: Sparse.put k v l

/-- The list without a key. -/
def Sparse.del {α : Type} (k : Nat) : List (Nat × α) → List (Nat × α)
  | [] => []
  | e :: l => if e.1 = k then l else e :: Sparse.del k l

/-- Write a value, where a key that is not listed reads as `dflt`: that value is never listed. -/
def Sparse.write {α : Type} [DecidableEq α] (dflt : α) (k : Nat) (v : α) (l : List (Nat × α)) : List (Nat × α) :=
  if v = dflt then Sparse.del k l else Sparse.put k v l

/-- Every key of the list is above a bound, and the keys rise strictly. -/
def Sparse.sortedFrom {α : Type} : Option Nat → List (Nat × α) → Bool
  | _, [] => true
  | none, e :: l => Sparse.sortedFrom (some e.1) l
  | some b, e :: l => decide (b < e.1) && Sparse.sortedFrom (some e.1) l

/-- The keys rise strictly. -/
def Sparse.sorted {α : Type} (l : List (Nat × α)) : Bool := Sparse.sortedFrom none l

/-- Replace the element at a place, if there is one. -/
def listSet {α : Type} : List α → Nat → α → List α
  | [], _, _ => []
  | _ :: l, 0, v => v :: l
  | x :: l, i + 1, v => x :: listSet l i v

/-- Change the element at a place, if there is one. -/
def listMod {α : Type} : List α → Nat → (α → α) → List α
  | [], _, _ => []
  | x :: l, 0, f => f x :: l
  | x :: l, i + 1, f => x :: listMod l i f

end Sys2Proof.Machine
end

