-- ==== Sys2Proof/Machine/Frames.lean ====
section
/-!
DEFINITION. What crosses the node's boundary: line frames and their payloads (chapters 07 to 11, 16, 20, 21),
crosslink messages (13), consist and CAN frames (17, 18), descriptors (15), and the outputs the node emits.
Frames are held by their fields; Operands.lean lays them out as bytes.
-/

namespace Sys2Proof.Machine

/-- Frame kinds (Table 7-7). -/
inductive Kind where
  | static | dynamic | kickoff | directory | confirm | claim | hop
  deriving DecidableEq, Repr, Inhabited

/-- The line header's fields (Table 7-5); HCRC is computed (R159). -/
structure Hdr where
  flags : Nat
  sender : Nat
  turn : Nat
  icount : Nat
  slot : Nat
  /-- CORR, signed, in units of 2^-16 ns -/
  corr : Int
  seqGen : Nat
  epoch : Nat
  deriving DecidableEq, Repr, Inhabited

/-- One parcel (Table 7-8). -/
structure Parcel where
  func : Nat
  pseq : Nat
  age : Nat
  stale : Bool
  dflt : Bool
  data : List Byte
  deriving DecidableEq, Repr, Inhabited

/-- The relay word (Table 7-3). -/
structure RelayWord where
  hops : Nat
  mid : Bool
  merged : Bool
  origAddr : Nat
  /-- bits 31..0 of the originator's line UID -/
  origUid : Nat
  deriving DecidableEq, Repr, Inhabited

/-- KICKOFF payload (Table 9-3). -/
structure Kickoff where
  luid : Nat
  duid : Nat
  kcount : Nat
  paired : Bool
  hist : Bool
  deriving DecidableEq, Repr, Inhabited

/-- CONFIRM payload after the relay word (Table 10-4). PHASE: 0 RUN, 1 STOP_REQ, 2 STOP, 3 DISCOVER, 4 CONFIRM, 5 SYNTHESIZE, 6 YIELD. -/
structure Confirm where
  phase : Nat
  notReady : Bool
  mismatch : Bool
  stagedMixed : Bool
  attempt : Nat
  n : Nat
  adopt : Nat
  root : Nat
  digest : Nat
  staged : Nat
  deriving DecidableEq, Repr, Inhabited

/-- One claim record (Table 11-10). -/
structure ClaimRec where
  uid : Nat
  count : Nat
  home : Bool
  wait : Nat
  deriving DecidableEq, Repr, Inhabited

/-- CLAIM payload after the relay word (Table 11-10). -/
structure Claim where
  poolReset : Bool
  poolCrc : Nat
  recs : List ClaimRec
  deriving DecidableEq, Repr, Inhabited

/-- DIRECTORY entry (Table 10-3). -/
structure DirEntry where
  luid : Nat
  puid : Nat
  nbrE1 : Nat
  consist : Nat
  carIndex : Nat
  carCount : Nat
  paired : Bool
  cab : Bool
  frontE2 : Bool
  linkMin : Nat
  profMax : Nat
  hE1 : Nat
  hE2 : Nat
  icountMax : Nat
  cfgVer : Nat
  ftDigest : Nat
  lrActive : Nat
  lrStaged : Nat
  deriving DecidableEq, Repr, Inhabited

/-- The line-service parcel 0xFF20 of slot 3 (R570): salt share and fleet key identifiers. -/
structure Service where
  salt : Nat
  activeId : Nat
  stagedId : Nat
  flags : Nat
  deriving DecidableEq, Repr, Inhabited

/-- HOP payload (Table 7-11). -/
structure Hop where
  uid : Nat
  /-- end of the sending port: true is end 2 -/
  end2 : Bool
  chanB : Bool
  paired : Bool
  xlink : Bool
  profMax : Nat
  lstate : Nat
  /-- times in 2^-32 ns of the sender's node time -/
  tTx : Nat
  tEcho : Nat
  tRx : Nat
  credit : List Nat
  deriving DecidableEq, Repr, Inhabited

/-- The address word of a DYNAMIC frame and what follows it (Table 7-10). -/
structure Dyn where
  dest : Nat
  dkind : Nat
  life : Nat
  sel : Nat
  prio : Nat
  data : List Byte
  deriving DecidableEq, Repr, Inhabited

/-- What a line frame carries. -/
inductive Payload where
  | parcels (ps : List Parcel)
  | dyn (d : Dyn)
  | kickoff (k : Kickoff)
  | confirm (r : RelayWord) (c : Confirm)
  | claim (r : RelayWord) (c : Claim)
  | service (r : RelayWord) (s : Service)
  | directory (r : RelayWord) (e : DirEntry)
  | hop (seq : Nat) (h : Hop)
  deriving DecidableEq, Repr, Inhabited

/-- A frame on a line port or crosslink (Table 7-4). `tag` is the 64-bit tag (R177), `src` the UID bits 39..0 of the source address. -/
structure Frame where
  kind : Kind
  hdr : Hdr
  payload : Payload
  tag : Nat
  src : Nat
  deriving DecidableEq, Repr, Inhabited

/-- What of a received frame its fields do not say: version, kind code, LENGTH and header CRC as they stand in its line header, and its
FCS (R156 to R161), with its arrival. -/
structure RxCheck where
  version : Nat
  code : Nat
  length : Nat
  hcrc : Nat
  fcs : Nat
  /-- node time at which the start delimiter passes, in 2^-32 ns (R182) -/
  time : Nat
  /-- the same instant as a turn phase, in 2^-32 ns -/
  phase : Nat
  /-- a copy passed by the partner: it received the frame at its end 2 -/
  end2 : Bool
  deriving DecidableEq, Repr, Inhabited

/-- What a device tells its partner of a line port of its own (R131, R132, R229, R230): state, rate, neighbour UID, foreign, the
neighbour's LSTATE byte. -/
structure PPort where
  st : Nat
  rate : Nat
  nbr : Nat
  foreign : Bool
  ls : Nat
  deriving DecidableEq, Repr, Inhabited

/-- A full valid turn that a device has observed on a line port of its own (R216): kind, turn, line UID, hops and ICOUNT of the later
frame, the time since its implied tick in 2^-32 ns, the port, the neighbour's LSTATE byte and the salt last seen there. -/
structure FoundTurn where
  kind : Nat
  turn : Nat
  luid : Nat
  hops : Nat
  icount : Nat
  ago : Int
  port : Nat
  ls : Nat
  salt : Option Nat
  deriving DecidableEq, Repr, Inhabited

/-- Pair-state message (Table 13-3), with what the devices of a pair report to each other beside it (R229, R237, R252; log 37). -/
structure PairState where
  uid : Nat
  role : Nat
  pref : Bool
  fault : Bool
  fwRestart : Bool
  line : Nat
  epoch : Nat
  commit : Nat
  sentTurn : Nat
  /-- ports 0 to 3 -/
  ports : List PPort
  cab : Bool
  /-- turn phase at which the message leaves, in 2^-32 ns, and ICOUNT in force (R229) -/
  phase : Nat
  icount : Nat
  /-- triggers held pending (kind, port), and whether STOP_REQ or YIELD is due (R237, R245) -/
  asks : List (Nat × Nat)
  stopReq : Bool
  yield : Bool
  /-- the entry that the deciding device composes (R252) -/
  entry : Option DirEntry
  /-- a full valid turn observed -/
  found : Option FoundTurn
  deriving DecidableEq, Repr, Inhabited

/-- The leader's report on one descriptor of the follower (R401, R406). -/
structure SentReport where
  tenant : Nat
  queue : Nat
  idx : Nat
  status : Nat
  rlen : Nat
  rval : Nat
  deriving DecidableEq, Repr, Inhabited

/-- A CAN frame (18_can_controllers.md). -/
structure CanFrame where
  id : Nat
  ide : Bool
  rtr : Bool
  fdf : Bool
  brs : Bool
  esi : Bool
  dlc : Nat
  data : List Byte
  deriving DecidableEq, Repr, Inhabited

/-- What a wake detector sees on CANn_RXD (R504, R505): a dominant level of a length in 0.1 µs, a decoded frame, or a frame it
cannot decode. -/
inductive WakeSeen where
  | dominant (tenthUs : Nat)
  | frame (f : CanFrame)
  | undecodable
  deriving DecidableEq, Repr, Inhabited

/-- An Ethernet frame of the consist side (17_consist_ports_and_gateway.md). `vid` 0: untagged. -/
structure EthFrame where
  dst : Nat
  src : Nat
  vid : Nat
  pcp : Nat
  tagged : Bool
  etype : Nat
  data : List Byte
  fcsOk : Bool
  deriving DecidableEq, Repr, Inhabited

/-- A 32-byte submission descriptor by its fields (Table 15-6). -/
structure Desc where
  opcode : Nat
  flags : Nat
  reqId : Nat
  len : Nat
  buf : Nat
  arg0 : Nat
  arg1 : Nat
  deriving DecidableEq, Repr, Inhabited

/-- Who makes a register access (R620): a tenant's function (0 and 8 are the PFs, 16 the QSPI host) or a CPU pair. -/
inductive Requester where
  | tenant (t : Nat)
  | cpu (i : Nat)
  deriving DecidableEq, Repr, Inhabited

/-- Who meets an SRAM error, and in what (Tables 19-3 and 19-4): a scrubber; a CPU pair; the line engine in the frame buffer
of a port's queue place or in a cell (line UID, function); a host engine in a descriptor's data or in an image; the consist engine in
a frame of an ingress port; the CAN engine in a buffer; the gateway engine in a map entry, the far-access bridge, the tally engine in its oldest record,
the security engine. -/
inductive EccReader where
  | scrubber
  | cpu (i : Fin 2)
  | lineFrame (port : Fin 4) (place : Nat)
  | lineCell (uid func : Nat)
  | hostQueue (t : Fin 17) (q : Fin 16)
  | hostImage (t : Fin 17)
  | consist (port : Fin 12)
  | can (ctl : Fin 8) (buf : Fin 128)
  | gateway (entry : Nat)
  | far
  | tally
  | security
  deriving DecidableEq, Repr, Inhabited

/-- What the hardware measures beside the counting of operating time: VIN and the lowest VIN since the last measurement in 10 mV
(PWR_VIN), VOUT_3V3 within regulation, CLK_GX_PPM.DIFF at the end of a second, and the requests that masters present to the SRAM banks in
this cycle: master and SRAM offset (R510). -/
structure Sensed where
  vin : Nat
  vinMin : Nat
  voutOk : Bool
  gxPpm : Option Int
  requests : List (Fin 12 × Fin 33554432)
  deriving DecidableEq, Repr, Inhabited

/-- What a boot stage finds: the milliseconds since reset ended, the weirs whose logic self-test fails (R309), the level of FREEZE_N,
the entries of the secure store that fail their checks (Table 21-2), and the MRAM offset of a test write of the pointer block that fails (R549). -/
structure BootSeen where
  ms : Nat
  weirBad : Fin 4
  freezeLow : Bool
  storeBad : Fin 16
  ptrFail : Option Nat
  deriving DecidableEq, Repr, Inhabited

/-- A credited queue whose consumer grants credit (Table 1-5). -/
inductive CreditQueue where
  | hostRing (t : Fin 17) (q : Fin 16)
  | pcie (port : Fin 2)
  | fabric
  | hop (port : Fin 4)
  | consist (port : Fin 12)
  | can (ctl : Fin 8)
  | tally
  | farTags
  deriving DecidableEq, Repr, Inhabited

/-- What the node puts out. -/
inductive Out where
  /-- a frame starts on a line port at a turn phase (2^-32 ns); `stomp`: ended with an inverted FCS (R151) -/
  | line (port : Nat) (phase : Nat) (f : Frame) (stomp : Bool)
  /-- a message to the partner over the crosslinks (R320) -/
  | xlink (what : String) (body : List Byte)
  | pairState (p : PairState)
  /-- bytes written to a tenant's memory (host memory or the QSPI window) -/
  | hostWrite (tenant : Nat) (addr : Nat) (data : List Byte)
  /-- bytes asked from a tenant's memory -/
  | hostRead (tenant : Nat) (addr : Nat) (len : Nat)
  /-- an MSI-X vector signalled to a function -/
  | msix (tenant : Nat) (vec : Nat)
  /-- the value a register read returned -/
  | read (r : Requester) (off : Nat) (v : Word)
  /-- bytes the QSPI engine returned -/
  | qspi (data : List Byte)
  /-- a PCIe configuration request answered: none with retry, else normally; a read of the PF's SR-IOV capability then returns that NumVFs -/
  | cfgReply (port : Nat) (numVfs : Option Nat)
  /-- data returned to a BAR4 read -/
  | barRead (port : Nat) (data : List Byte)
  | eth (port : Nat) (f : EthFrame)
  /-- a frame starts on a CAN bus -/
  | can (ctl : Nat) (f : CanFrame)
  /-- what a CAN controller is sending is cut off recessive (R47) -/
  | canCut (ctl : Nat)
  /-- a CAN controller acknowledges a frame (R483) -/
  | canAck (ctl : Nat)
  /-- a CAN controller signals an error with an error frame (R478, R479, R483) -/
  | canError (ctl : Nat)
  /-- what a line port is sending is cut off, so that it fails its FCS at the neighbour (R53) -/
  | lineCut (port : Nat)
  | mdio (clause45 : Bool) (op phy reg data : Nat)
  | console (line : List Nat)
  | consoleByte (b : Nat)
  /-- the boundary-scan cells drive the balls (EXTEST) -/
  | balls (cells : List Byte)
  /-- bits shifted out of the debug port -/
  | tdo (data : List Byte)
  deriving DecidableEq, Repr, Inhabited

end Sys2Proof.Machine
end

