-- ==== Sys2Proof/Syntax.lean ====
section
/-!
DEFINITION. The commands of the block: one constructor per row of spec/opcode_table.json, with the operands the model gives it (log 2).
-/

namespace Sys2Proof

open Machine

/-- A command: an operation from outside, or an event the node meets. -/
inductive Instr where
  /-- POWER_ON_RESET (R57): VIN rises above 4.4 V for 2 ms with VOUT_3V3 in regulation. Power-on reset ends, the power-cycle count increments and boot begins. -/
  | powerOnReset (pair : Bool) (chanB : Bool) (pref : Bool) (refclk : Bool) (xt32 : Bool) (aoLost : Bool) (vback : Bool)
  /-- RESET_N_LOW (R45): RESET_N is held low for 1 µs or more and causes a full reset. -/
  | resetNLow
  /-- VIN_RST_REACHED (R57): VIN falls to VIN_RST and the node enters full reset, losing its SRAM queues. -/
  | vinRstReached (vin : Nat) (torn : Fin 3)
  /-- NODE_REF_LOST (R77): The node reference shows no edge for 1 µs and the node performs a full reset. -/
  | nodeRefLost
  /-- FATAL_FAULT (R98): An uncorrectable error in fabric control state or in the slot table causes a full reset. -/
  | fatalFault
  /-- RESET_ESCALATION (R103): Firmware is not up 500 ms after a restart began, or a third fault restart occurs within 10 min; the node performs a full reset with ESCALATE set. -/
  | resetEscalation
  /-- RST_CMD_FULL_RESET (R98): A PF writes RST_CMD with key 0xA5 and ACTION 2, and the node performs a full reset. -/
  | rstCmdFullReset (port : Fin 2)
  /-- RST_CMD_FW_RESTART (R98): A PF writes RST_CMD with key 0xA5 and ACTION 1, and the node performs a firmware restart. -/
  | rstCmdFwRestart (port : Fin 2)
  /-- BOOT_STAGE_COMPLETE (R108): A boot stage completes and BOOT_STAT.STAGE advances to the next milestone of the boot timeline. -/
  | bootStageComplete (b : BootSeen)
  /-- FW_WATCHDOG_EXPIRY (R98): The firmware watchdog goes 100 ms without service and triggers a firmware restart. -/
  | fwWatchdogExpiry
  /-- FW_EXCEPTION (R98): A firmware fatal exception, including an uncorrectable error read by a CPU pair, triggers a firmware restart. -/
  | fwException
  /-- FW_RESTART_COMPLETE (R102): The new firmware is up; it takes over the running blocks and acts on the doorbells and triggers held meanwhile. -/
  | fwRestartComplete
  /-- LOCKSTEP_MISMATCH (R106): The two cores of a CPU pair disagree; the pair stops and restarts from its last checkpoint, escalating where R106 states. -/
  | lockstepMismatch (i : Fin 2)
  /-- LOCKSTEP_RESTART_DONE (R106): A CPU pair resumes after its lockstep-pair restart and acts on the limits reached meanwhile. -/
  | lockstepRestartDone (i : Fin 2)
  /-- UPDATE_RESTART (R115): At the tick after CONFIG_ACTIVATE for firmware, the node performs a firmware restart into the staged bank. -/
  | updateRestart
  /-- FW_TRIAL_END (R116): The 10 s firmware trial ends; the new bank becomes active and the fuse counter advances, or the previous bank is restored. -/
  | fwTrialEnd
  /-- SLACK_ENTRY (R67): VIN stays below VIN_WARN for 2 µs; the node enters slack and starts no new MRAM write unit. -/
  | slackEntry (vin : Nat)
  /-- SLACK_PERSIST (R67): After the MRAM unit in progress completes, the node persists the operating time and then both copies of the tally pointers. -/
  | slackPersist (fail : Option Nat)
  /-- SLACK_SHED (R67): PWR_SHED.DELAY after slack entry, the selected domains are switched off, subject to Table 3-2. -/
  | slackShed
  /-- SLACK_EXIT (R72): VIN has stayed at or above VIN_WARN + 0.2 V for 1 ms; the node restores the shed domains, writes the dip record and drains the deferred writes. -/
  | slackExit (vin : Nat) (low : Nat) (dur : Nat)
  /-- DEFERRED_TRICKLE_UNIT (R71): In slack with 3,072 or more deferred writes, one write unit is written each 1 ms while VIN is above the trickle floor. -/
  | deferredTrickleUnit (vin : Nat) (fail : Option Nat)
  /-- VOUT_OVERLOAD (R60): VOUT_3V3 is in current limit for more than 1 ms; VOUT_OVL is set, ALARM_N is asserted and a record is written. -/
  | voutOverload (vin : Nat)
  /-- PWR_SW_REQUEST (R64): A write to PWR_SW requests PD4 to PD9 off or on; a request that breaks Table 3-2 is refused in PWR_SW_ERR. -/
  | pwrSwRequest (off : Fin 64)
  /-- DOMAIN_POWERED (R64): A domain switched on is powered within 2 ms, grants its initial credits, and has its settings restored from the ACTIVE configuration. -/
  | domainPowered (n : Fin 12)
  /-- GX_CRYSTAL_LOST (R77): The GX crystal shows no edge for 1 µs, which fails the weir self-check. -/
  | gxCrystalLost
  /-- GX_PPM_FAULT (R309): |CLK_GX_PPM.DIFF| stays above 300 ppm for 1 s, which fails both weirs. -/
  | gxPpmFault (diff : Int)
  /-- XT32_LOST (R77): XT32 shows no edge for 100 µs; CK_AO switches to the divider, XT32_LOST is set and ALARM_N is asserted. -/
  | xt32Lost
  /-- OPTIME_INCREMENT (R81): The CK_AO fraction accumulator reaches 32,768 and operating time increments by one 10 ms unit. -/
  | optimeIncrement (m : Sensed)
  /-- POINTER_PERSIST (R531): Every 6,000 units the operating time, power-cycle count and area pointers are persisted to MRAM and to the power die store. -/
  | pointerPersist (fail : Option Nat)
  /-- ANCHOR_PERIODIC (R535): Each TALLY_ANCHOR.HOURS of operating time, or at the first increment after UTC becomes set, anchor record 0x1001 is queued. -/
  | anchorPeriodic
  /-- REGISTER_WRITE (R12): A write to a register without a row of its own sets its fields by access code, lock and requester rules, or is ignored and flagged if malformed. -/
  | registerWrite (r : Requester) (bar2 : Bool) (off : Nat) (size : Nat) (v : Word) (given : List Byte)
  /-- READ_CLEAR (R12): A read of an RC field returns its value and clears it, or leaves the value its Meaning names. -/
  | readClear (r : Requester) (bar2 : Bool) (off : Nat) (size : Nat)
  /-- LATCHED_LOW_READ (R82): A read of a _LO register of a latched pair latches its _HI register for that requester. -/
  | latchedLowRead (r : Requester) (bar2 : Bool) (off : Nat)
  /-- LOCK_SET (R14): Writing 1 to a block's LOCK bit locks its RWL fields until power-on reset or full reset. -/
  | lockSet (r : Requester) (k : Fin 12)
  /-- TURN_LOAD_PEAK_CLEAR (R91): Writing TURN_LOAD.CLR clears PEAK of the selected job. -/
  | turnLoadPeakClear
  /-- TURN_ENABLE (R214): Firmware sets TURN_CTL.EN at boot milestone 0x5, letting the tick run and the line leave OFF. -/
  | turnEnable
  /-- GPIO_EDGE (R31): An accepted edge on a GPIO ball is latched in GPIO_EDGE and signalled by MSI-X where enabled. -/
  | gpioEdge (i : Fin 16) (rise : Bool)
  /-- TICK (R84): The turn phase reaches TURN_LEN_ACT; the turn number increments and the per-turn jobs start. -/
  | tick (loads : List (Option Nat)) (armed : Nat) (crcBad : Fin 4) (parityBad : Fin 4)
  /-- JOB_DEGRADED (R94): A job overruns in three consecutive turns and enters its degraded mode. -/
  | jobDegraded (u : Fin 10)
  /-- JOB_RESTORED (R94): A degraded job completes its run of good turns and leaves degraded mode. -/
  | jobRestored (u : Fin 10)
  /-- JOB_LATE_COMPLETION (R93): An overrun job completes late with its original inputs, and its output stands for the turn of completion. -/
  | jobLateCompletion (u : Fin 10) (load : Fin 1000)
  /-- CREDIT_RETURN (R24): A consumer grants credit, and a producer stalled for credit resumes. -/
  | creditReturn (c : CreditQueue)
  /-- NIT_CORRECTION (R194): In the first 8 µs of the NIT the node computes the midpoint and applies the offset correction. -/
  | nitCorrection
  /-- SELF_SILENT_EXIT (R203): After 8 consecutive good turns the node leaves SELF_SILENT and resumes transmitting. -/
  | selfSilentExit
  /-- WIDENING_END (R197): Eight turns after following the line begins, the widened acceptance windows end. -/
  | wideningEnd
  /-- RATE_PERSIST (R198): Every 65,536 converged turns, and at first convergence, r is persisted to MRAM. -/
  | ratePersist
  /-- PPS_OUT_PULSE (R205): Node time passes a whole second and PPS_OUT rises. -/
  | ppsOutPulse
  /-- TAI_ARM (R206): A PF writes TAI_CTL.ARM to align node time at the next PPS_IN edge. -/
  | taiArm
  /-- PPS_IN_EDGE (R206): A rising PPS_IN edge while armed aligns node time to TAI_SET_SEC and sets ORIGIN 0b01. -/
  | ppsInEdge
  /-- TAI_ARM_MISSED (R206): No PPS_IN edge arrives within 2 s of arming; ARM clears and MISSED is set. -/
  | taiArmMissed
  /-- GPTP_ALIGN (R207): Once per second, node time is aligned to the selected consist gPTP grandmaster. -/
  | gptpAlign (ns : Nat)
  /-- TIME_MESSAGE_SEND (R208): A node with its own TAI source sends a time message on stream 4 in turns whose number mod 64 is 0. -/
  | timeMessageSend
  /-- TIME_MESSAGE_RECEIVE (R208): A time message is received, and the node notes the line's time source. -/
  | timeMessageReceive (sender : Nat) (body : List Byte)
  /-- TAI_ALIGN_AT_TICK (R209): At the named tick k, node time is aligned to the time source by slew or by step. -/
  | taiAlignAtTick
  /-- PROBE_LISTEN_END (R123): The listen phase L_k elapses without a signal, and the port sends its ceiling rate as master. -/
  | probeListenEnd (n : Fin 4)
  /-- PROBE_MASTER_END (R123): The 100 ms master phase ends without response, and the port returns to listen with k + 1. -/
  | probeMasterEnd (n : Fin 4)
  /-- TRAINING_SIGNAL_DETECT (R124): A listening port detects an acceptable training signal and trains as slave. -/
  | trainingSignalDetect (n : Fin 4) (rate : Fin 5)
  /-- SLAVE_RESPONSE (R124): A master detects a responding slave and enters training. -/
  | slaveResponse (n : Fin 4)
  /-- TRAINING_FAIL (R125): No link up within 200 ms of training; the port lowers its ceiling and returns to PROBE. -/
  | trainingFail (n : Fin 4)
  /-- PHY_LINK_UP (R127): The PHY reports link up and the port or crosslink enters IDENTIFY. -/
  | phyLinkUp (n : Fin 4) (sqi : Fin 8)
  /-- IDENTIFY_TIMEOUT (R127): No neighbour identity arrives within 10 ms, and the port returns to PROBE with k = 0. -/
  | identifyTimeout (n : Fin 4)
  /-- PROBE_CEILING_RESET (R126): After 1 s in PROBE without any training signal, the ceiling returns to the fastest enabled rate. -/
  | probeCeilingReset (n : Fin 4)
  /-- LP_RETRY (R126): A write of 1 to LPn_CTL.RETRY resets the ceiling and returns the port to PROBE. -/
  | lpRetry (n : Fin 4)
  /-- LINK_LOSS (R638): A port leaves UP or HELD after PHY link loss of 2 ms, or for another cause; DOWNS increments and a trigger or record follows. -/
  | linkLoss (n : Fin 4)
  /-- KICKOFF_SEND (R155): A cold-starting node sends KICKOFF on every UP line port g/2 after its tick. -/
  | kickoffSend
  /-- RELAY_ORIGINATE (R153): A node at the start end of a direction originates relay frames in slots 1 to 3. -/
  | relayOriginate (slot : Fin 67) (corr : Int)
  /-- RELAY_MID_ORIGINATE (R153): No valid relay frame arrives from an UP upstream neighbour by the end of the acceptance window, so the node originates one with MID set. -/
  | relayMidOriginate (n : Fin 4) (slot : Fin 4) (corr : Int)
  /-- STATIC_SLOT_TRANSMIT (R149): At the slot's scheduled time, the owner transmits its STATIC frame on each UP line port of its channels. -/
  | staticSlotTransmit (slot : Nat) (corr : Int)
  /-- FRAME_BUILD (R354): Each own frame is built 1 µs before its first transmit time; a late fetch refreshes nothing. -/
  | frameBuild (slot : Nat)
  /-- PUBLISH_FETCH (R353): OFFSET µs before the earliest slot carrying the tenant's parcel, the node reads FLIP and the named publish buffer. -/
  | publishFetch (t : Fin 17) (flip : Nat)
  /-- PUBLISH_FETCH_DONE (R352): The publish fetch completes; the node refreshes changed parcels and writes ACK. -/
  | publishFetchDone (t : Fin 17) (data : List Byte)
  /-- DYNAMIC_SEGMENT (R166): From E_stat, each link direction's counter sends HOP, then the configured streams, then the pool, up to dyn_end. -/
  | dynamicSegment
  /-- HOP_EXTRA_SEND (R174): The buffer freed since the last HOP reaches a quarter of the share, and an extra HOP frame is sent. -/
  | hopExtraSend (n : Fin 4)
  /-- HOP_PERIODIC_SEND (R174): In IDENTIFY or without a tick, a HOP frame is sent on the port every 1 ms. -/
  | hopPeriodicSend (n : Fin 4)
  /-- STATIC_FRAME_RECEIVE (R150): A STATIC frame is checked, forwarded cut-through and stored in the millpond. -/
  | staticFrameReceive (n : Fin 4) (f : Frame) (c : RxCheck)
  /-- STATIC_HANDOFF_RECEIVE (R322): The follower receives the leader's frame over the crosslink and sends it on its channel at its own times. -/
  | staticHandoffReceive (n : Fin 4) (f : Frame) (c : RxCheck)
  /-- DYNAMIC_FRAME_RECEIVE (R171): A DYNAMIC frame is received whole, checked, delivered locally and queued for forwarding. -/
  | dynamicFrameReceive (n : Fin 4) (f : Frame) (c : RxCheck)
  /-- RECOVERY_STATE_TIMEOUT (R318): After 16 turns without a frame of a combination, its recovery state is reset. -/
  | recoveryStateTimeout
  /-- DYNAMIC_LIFETIME_EXPIRY (R172): A held DYNAMIC frame reaches LIFE turns and is discarded. -/
  | dynamicLifetimeExpiry (n : Fin 4)
  /-- HOP_FRAME_RECEIVE (R176): A HOP frame is received; it updates credit, neighbour identity and line state. -/
  | hopFrameReceive (n : Fin 4) (f : Frame) (c : RxCheck)
  /-- KICKOFF_RECEIVE (R220): A KICKOFF is received, flood-forwarded and used for start-up decisions. -/
  | kickoffReceive (n : Fin 4) (f : Frame) (c : RxCheck)
  /-- CONFIRM_FRAME_RECEIVE (R257): A CONFIRM frame is checked, read for phase and flags, and relayed with the node's own flags ORed in. -/
  | confirmFrameReceive (n : Fin 4) (f : Frame) (c : RxCheck)
  /-- CLAIM_FRAME_RECEIVE (R286): A CLAIM frame is stored and relayed, with the node's own claim record appended where due. -/
  | claimFrameReceive (n : Fin 4) (f : Frame) (c : RxCheck)
  /-- SERVICE_FRAME_RECEIVE (R570): A slot 3 frame with parcel 0xFF20 is checked, merged for salt and fleet key IDs, and relayed. -/
  | serviceFrameReceive (n : Fin 4) (f : Frame) (c : RxCheck)
  /-- DIRECTORY_FRAME_RECEIVE (R251): A DIRECTORY frame is stored and relayed during DISCOVER. -/
  | directoryFrameReceive (n : Fin 4) (f : Frame) (c : RxCheck)
  /-- LISTEN_TIMEOUT (R215): t_listen expires, and the node enters COLDSTART. -/
  | listenTimeout
  /-- KICKOFF_FLOOR_PERSIST (R572): The new KICKOFF floor is persisted, and only after this write does KICKOFF sending begin. -/
  | kickoffFloorPersist
  /-- INTEGRATION (R217): At the next tick after a full valid turn, the node takes the line's phase, turn number and ICOUNT. -/
  | integration
  /-- COLDSTART_INTEGRATE (R222): Relay frames with ICOUNT 0 are stored in 2 consecutive turns; the node enters INTEGRATING with a step of 0. -/
  | coldstartIntegrate
  /-- SOLITARY_ENTRY (R226): After 16 turns without an answer in COLDSTART, the node inaugurates itself as a train of one. -/
  | solitaryEntry
  /-- SOLITARY_REINAUGURATE (R639): A SOLITARY node acts on a trigger by re-inaugurating itself at its next tick. -/
  | solitaryReinaugurate
  /-- LINE_LOST (R224): A turn limit of Table 9-2 is reached (no midpoint, no convergence, or cold start given up), and the node enters LISTEN. -/
  | lineLost
  /-- YIELD_HOLD_END (R214): The 64-turn cold-start hold after a yield ends, and t_listen starts afresh. -/
  | yieldHoldEnd
  /-- PENDING_TRIGGER_ACT (R230): After 8 SYNCED turns with synced neighbours, or 64 SYNCED turns, a pending trigger acts. -/
  | pendingTriggerAct
  /-- COUPLER_INPUT_CHANGE (R235): A filtered change of CPL_E1 or CPL_E2 holds or releases that end's links and may raise a kind 3 trigger. -/
  | couplerInputChange (e : Fin 2) (level : Bool)
  /-- COUPLER_NO_LINK (R235): A coupler input rises with no neighbour and no port enters UP within 5 s; record 0x3509 is written. -/
  | couplerNoLink (e : Fin 2)
  /-- CAB_ACTIVE_CHANGE (R44): A filtered change of CAB_ACTIVE updates the cab flag used at the next DISCOVER. -/
  | cabActiveChange (level : Bool)
  /-- INAUG_INHIBIT_RISE (R239): Filtered INAUG_INHIBIT rises, and triggers are held pending. -/
  | inaugInhibitRise
  /-- INAUG_INHIBIT_FALL (R240): At the first tick after INAUG_INHIBIT falls, held links become UP and pending triggers act. -/
  | inaugInhibitFall
  /-- STOP_ENTRY (R237): At the tick after STOP_REQ is stored, the node enters STOP and the stopped layout. -/
  | stopEntry
  /-- INAUG_PHASE_CHANGE (R247): At a tick the inauguration phase changes as Table 10-2 states. -/
  | inaugPhaseChange
  /-- STOP_HOLD_OUT (R250): After 64 turns in STOP, links to neighbours that are not ready enter HELD with reason 10. -/
  | stopHoldOut
  /-- HOLD_OUT_END (R250): A held-out neighbour has been SYNCED for 8 turns, or reports LISTEN, COLDSTART or SOLITARY; a kind 7 trigger follows. -/
  | holdOutEnd (n : Fin 4)
  /-- YIELD (R245): At the tick after YIELD is stored, the node discards its directory and enters LISTEN with cold start held. -/
  | yield
  /-- ADOPTION (R263): At the adoption turn's tick, the new ICOUNT, directory, profile, schedule and session key take effect. -/
  | adoption
  /-- TABLE_FRAGMENT_RECEIVE (R280): A function table fragment is assembled, and the table is kept if its digest verifies. -/
  | tableFragmentReceive (body : List Byte)
  /-- SYNTHESIS_START (R281): At the first tick after the confirm turn with every table held, synthesis starts. -/
  | synthesisStart
  /-- SYNTHESIS_COMPLETE (R281): Synthesis completes on CPU pair 0 and the schedule is ready. -/
  | synthesisComplete (us : Nat)
  /-- SPARE_CLAIM (R285): In turns matching its position mod 4, a claimant appends its claim record to CLAIM frames. -/
  | spareClaim
  /-- CLAIM_RESOLVE (R287): During turn c + 1 every node merges the claims and grants the lowest free pool slots. -/
  | claimResolve
  /-- SPARE_GRANT_EFFECT (R287): Grants take effect at the tick of turn c + 3. -/
  | spareGrantEffect
  /-- POOL_RESET (R289): At tick x + 2 after POOL_RESET is stored, the pool is emptied and pending grants are dropped. -/
  | poolReset
  /-- WEIR_NIT_ADJUST (R294): In its own NIT the weir moves its phase by the mean δ and updates its turn length. -/
  | weirNitAdjust (w : Fin 2)
  /-- WEIR_STATE_TIMEOUT (R297): A weir reaches its ACQUIRE or HOLDOVER turn limit and is seeded again. -/
  | weirStateTimeout (w : Fin 2)
  /-- NODE_FENCED (R307): Own blocks reach 8 in 64 turns; both weirs fence the node and ALARM_N is asserted. -/
  | nodeFenced
  /-- PAIR_STATE_SEND (R321): At tick + 2 µs, or every 1 ms without a tick, each device sends its pair-state message. -/
  | pairStateSend
  /-- PAIR_STATE_RECEIVE (R321): A pair-state message is received from the partner. -/
  | pairStateReceive (p : PairState) (pubs : List (Nat × List Byte)) (cans : List (Nat × List Byte)) (done : List SentReport)
  /-- ROLE_TIMEOUT (R325): No pair state for 2 s after leaving OFF, and no partner claim witnessed; the device becomes leader. -/
  | roleTimeout
  /-- EPOCH_SNAPSHOT (R327): In turns whose number mod EPOCH_P is 0, the leader snapshots its car-service state and sends it in chunks. -/
  | epochSnapshot
  /-- EPOCH_CHUNK_RECEIVE (R329): The follower stores an epoch chunk in its shadow buffer. -/
  | epochChunkReceive (num : Nat) (index : Nat) (count : Nat) (ccrc : Nat) (data : List Byte)
  /-- EPOCH_END_MARKER_RECEIVE (R329): An end marker arrives and the complete, verified shadow is committed atomically. -/
  | epochEndMarkerReceive (num : Nat) (count : Nat) (dlen : Nat) (ecrc : Nat) (swap : Bool)
  /-- WITNESS_RECEIVE (R331): A witness message about this logical node is received. -/
  | witnessReceive (sender : Nat) (body : List Byte)
  /-- TAKEOVER (R333): At tick k + 1 the follower becomes leader with a new epoch and restores the committed epoch. -/
  | takeover
  /-- LEADER_YIELD (R337): A leader that sees its partner claim with a higher epoch becomes follower at the next tick. -/
  | leaderYield
  /-- SWAP_MESSAGE_RECEIVE (R340): The partner receives the swap message naming turn w. -/
  | swapMessageReceive (w : Nat)
  /-- SWAP_EPOCH_SNAPSHOT (R340): At tick w the leader snapshots a swap epoch and aborts its pending CAN buffers. -/
  | swapEpochSnapshot
  /-- SWAP_COMMIT_DEADLINE (R341): At tick w + 200 µs without a committed swap epoch, the swap is aborted. -/
  | swapCommitDeadline (committed : Bool)
  /-- SWAP_ROLE_EXCHANGE (R340): At tick w + 1 the devices exchange roles with epoch + 1. -/
  | swapRoleExchange
  /-- TI_ENABLE (R359): TI_CTL.EN changes from 0 to 1, and the node reads the subscription list. -/
  | tiEnable (t : Fin 17) (list : List Byte)
  /-- SUBSCRIPTION_RESOLVE (R360): At the next tick, and at each adoption turn, the subscription list is resolved into records. -/
  | subscriptionResolve (t : Fin 17)
  /-- QUEUE_ENABLE (R379): HQq_CTL.EN written from 0 to 1 resets and starts the queue, or refuses it with QSETUP. -/
  | queueEnable (t : Fin 17) (q : Fin 16)
  /-- QUEUE_DISABLE (R380): HQq_CTL.EN written 0 discards the queue's work in flight. -/
  | queueDisable (t : Fin 17) (q : Fin 16)
  /-- QUEUE_STOPPED (R380): The last outstanding request of a disabled queue ends, and RUN returns to 0. -/
  | queueStopped (t : Fin 17) (q : Fin 16)
  /-- DOORBELL (R388): A HOST_DB write makes the descriptors up to the new tail pending, or is ignored and flagged. -/
  | doorbell (t : Fin 17) (w : Word)
  /-- DESCRIPTOR_FETCH (R390): A pending descriptor is fetched once an in-flight place and a read tag are free. -/
  | descriptorFetch (t : Fin 17) (q : Fin 16) (tag : Bool) (given : List Byte)
  /-- MODERATION_TIMER (R392): HQq_MOD.TIME µs after the count became non-zero, the queue signals its vector. -/
  | moderationTimer (t : Fin 17) (q : Fin 16)
  /-- NOP (R395): NOP completes with OK and RVAL equal to ARG0. -/
  | nop (t : Fin 17) (q : Fin 16) (i : Nat)
  /-- LINE_SEND (R399): A LINE_SEND descriptor resolves its destination and queues one DYNAMIC frame. -/
  | lineSend (t : Fin 17) (q : Fin 16) (i : Nat) (data : List Byte)
  /-- LINE_RECV_POST (R402): A receive buffer is posted to a line receive queue and takes a held frame if one waits. -/
  | lineRecvPost (t : Fin 17) (q : Fin 16) (i : Nat)
  /-- CONSIST_SEND (R404): An Ethernet frame is transmitted on a consist port or handed to the consist switch. -/
  | consistSend (t : Fin 17) (q : Fin 16) (i : Nat) (data : List Byte)
  /-- CONSIST_RECV_POST (R405): A receive buffer is posted to a consist receive queue. -/
  | consistRecvPost (t : Fin 17) (q : Fin 16) (i : Nat)
  /-- CAN_SEND (R406): A CAN frame is placed in a free TX_HOST buffer and made pending. -/
  | canSend (t : Fin 17) (q : Fin 16) (i : Nat) (data : List Byte)
  /-- FAR_READ (R422): A far read is resolved to a target and split into transfers. -/
  | farRead (t : Fin 17) (q : Fin 16) (i : Nat)
  /-- FAR_WRITE (R422): A far write is resolved to a target and split into transfers. -/
  | farWrite (t : Fin 17) (q : Fin 16) (i : Nat) (data : List Byte)
  /-- TALLY_READ (R540): Records of one area are read into the buffer with a header. -/
  | tallyRead (t : Fin 17) (q : Fin 16) (i : Nat) (bad : List (Nat × Nat))
  /-- TALLY_MARK (R542): An application mark record is queued. -/
  | tallyMark (t : Fin 17) (q : Fin 16) (i : Nat)
  /-- TALLY_CLEAR (R544): A signed clear token is checked and the clear record is queued, or the clear is refused. -/
  | tallyClear (t : Fin 17) (q : Fin 16) (i : Nat) (data : List Byte) (sig : Bool)
  /-- ATTEST_REPORT (R564): ATTEST function 0 returns a signed attestation report, locally or from a remote target. -/
  | attestReport (t : Fin 17) (q : Fin 16) (i : Nat) (nonce : List Byte)
  /-- ATTEST_CHAIN (R563): ATTEST function 1 returns the certificate chain. -/
  | attestChain (t : Fin 17) (q : Fin 16) (i : Nat)
  /-- ATTEST_IMPORT (R557): ATTEST function 2 imports a configuration, maintainer or fleet key package. -/
  | attestImport (t : Fin 17) (q : Fin 16) (i : Nat) (data : List Byte) (sig : Bool) (gcm : Bool) (key : BitVec 256)
  /-- ATTEST_LIFECYCLE (R552): ATTEST function 3 checks a transition token and moves to the next life-cycle state with a full reset. -/
  | attestLifecycle (t : Fin 17) (q : Fin 16) (i : Nat) (token : List Byte) (sig : Bool)
  /-- ATTEST_REQUEST_RECEIVE (R565): A remote attestation request arrives on stream 2 and is answered in fragments. -/
  | attestRequestReceive (sender : Nat) (waiting : Fin 5) (body : List Byte)
  /-- ATTEST_RESPONSE_RECEIVE (R566): An attestation response fragment arrives at the requester. -/
  | attestResponseReceive (sender : Nat) (body : List Byte)
  /-- ATTEST_TIMEOUT (R566): A remote attestation has no full answer by its timeout turn, and completes with TIMEOUT. -/
  | attestTimeout (k : Nat)
  /-- CONFIG_STAGE (R396): One piece of a configuration or firmware image is written to MRAM; the last piece is checked. -/
  | configStage (t : Fin 17) (q : Fin 16) (i : Nat) (data : List Byte) (sig : Bool)
  /-- CONFIG_ACTIVATE (R589): The staged image is activated node-locally, armed as line rules, held, or refused as Table 22-3 states. -/
  | configActivate (t : Fin 17) (q : Fin 16) (i : Nat) (partner : Nat) (measured : Bool)
  /-- CONFIG_CONFIRM (R594): CONFIG_ACTIVATE with CONFIRM confirms the running trial of its kind. -/
  | configConfirm (t : Fin 17) (q : Fin 16) (i : Nat)
  /-- CONFIG_CANCEL (R592): CONFIG_ACTIVATE with CANCEL disarms an armed line-rule activation. -/
  | configCancel (t : Fin 17) (q : Fin 16) (i : Nat)
  /-- CONFIG_ROLLBACK (R595): A commanded rollback returns to the PREVIOUS image at a tick, or is held for line rules. -/
  | configRollback (t : Fin 17) (q : Fin 16) (i : Nat)
  /-- DIRECTORY_READ (R266): With argument 0 = 0, the directory header and entries are written to the buffer. -/
  | directoryRead (t : Fin 17) (q : Fin 16) (i : Nat)
  /-- UNSATISFIED_READ (R283): DIRECTORY_READ with argument 0 = 1 writes the unsatisfied demands. -/
  | unsatisfiedRead (t : Fin 17) (q : Fin 16) (i : Nat)
  /-- INAUG_REQUEST (R267): A tenant with the INAUG right raises a kind 4 trigger. -/
  | inaugRequest (t : Fin 17) (q : Fin 16) (i : Nat)
  /-- ROLE_SWAP (R340): A planned swap is accepted, naming turn w = n + 2, or refused. -/
  | roleSwap (t : Fin 17) (q : Fin 16) (i : Nat)
  /-- PCIE_CONFIG_REQUEST (R109): A PCIe configuration request is answered with CRS before STAGE 0x6, and normally after that. -/
  | pcieConfigRequest (port : Fin 2) (vfs : Option (Fin 8))
  /-- PERST_ASSERT (R46): PERST_N low resets its port and that port's tenants, discarding their work. -/
  | perstAssert (port : Fin 2)
  /-- PERST_RELEASE (R109): PERST_N goes high, and link training starts at the later of that and 125 ms after reset. -/
  | perstRelease (port : Fin 2)
  /-- PCIE_LINK_UP (R109): A PCIe port's data link comes up. -/
  | pcieLinkUp (port : Fin 2) (speed : Fin 5) (width : Fin 3)
  /-- PCIE_LINK_DOWN (R414): A PCIe link goes down or a hot reset occurs, discarding the port's tenants' work. -/
  | pcieLinkDown (port : Fin 2) (hot : Bool)
  /-- PCIE_ERROR (R414): A PCIe error on a ring, buffer or image stops that queue with ERR and DMA set. -/
  | pcieError (t : Fin 17) (q : Option (Fin 16)) (kind : Fin 4)
  /-- FUNCTION_LEVEL_RESET (R107): An FLR, or VF disable, resets one tenant's queues, page and images. -/
  | functionLevelReset (t : Fin 17) (vfDisable : Bool)
  /-- BUS_MASTER_ENABLE_CHANGE (R371): Bus Master Enable of a function changes, holding or resuming its requests. -/
  | busMasterEnableChange (t : Fin 17) (b : Bool)
  /-- READ_STATUS (R408): The QSPI READ_STATUS command returns the READY, interrupt and error bits. -/
  | readStatus
  /-- READ_WIN (R408): The QSPI READ_WIN command reads bytes from the tenant 16 window. -/
  | readWin (addr : Fin 262144) (n : Nat)
  /-- WRITE_WIN (R408): The QSPI WRITE_WIN command writes bytes into the tenant 16 window. -/
  | writeWin (addr : Fin 262144) (data : List Byte)
  /-- READ_REG (R408): The QSPI READ_REG command reads registers of the tenant 16 register space. -/
  | readReg (off : Nat) (n : Nat)
  /-- WRITE_REG (R408): The QSPI WRITE_REG command writes registers of the tenant 16 register space, including the doorbell. -/
  | writeReg (off : Nat) (data : List Byte)
  /-- TENANT_RESET (R411): The QSPI TENANT_RESET command with key 0xA5 resets tenant 16 and zeros its window. -/
  | tenantReset (key : Byte)
  /-- QSPI_INVALID_COMMAND (R408): An unknown or cut-short QSPI command is ignored and TN_ERR.QSPI is set. -/
  | qspiInvalidCommand
  /-- FAR_TRANSFER_START (R424): A transfer obtains a tag, is allowed by the order rules, and its request is sent on stream 1. -/
  | farTransferStart (k : Nat)
  /-- FAR_REQUEST_RECEIVE (R434): A far request enters the target queue, or is answered BUSY. -/
  | farRequestReceive (sender : Nat) (body : List Byte)
  /-- FAR_REQUEST_SERVE (R426): The target checks a queued request and performs its pieces in ascending order. -/
  | farRequestServe (ok : Nat) (given : List Byte)
  /-- FAR_RESPONSE_RECEIVE (R429): A matching far response completes its transfer, and the descriptor once all transfers end. -/
  | farResponseReceive (sender : Nat) (body : List Byte)
  /-- FAR_TRANSFER_TIMEOUT (R431): At the tick of turn q + 2d + TMO without a response, the transfer times out and its tag returns. -/
  | farTransferTimeout (k : Nat)
  /-- PREFETCH_EXPIRY (R439): Prefetched data reach the tick after the turn following their arrival and are discarded. -/
  | prefetchExpiry (i : Fin 16)
  /-- EXPORT_REGION (R419): The owner tenant writes FXw_LO with EN and exports a host region for a kind 1 window. -/
  | exportRegion (t : Fin 17) (w : Fin 16) (v : Word)
  /-- APERTURE_WRITE (R442): A memory write TLP to BAR4 becomes one numbered far transfer. -/
  | apertureWrite (port : Fin 2) (off : Nat) (data : List Byte) (whole : Bool)
  /-- APERTURE_READ (R445): A memory read TLP to BAR4 becomes one far transfer, completed with data on response. -/
  | apertureRead (port : Fin 2) (off : Nat) (len : Fin 513)
  /-- APERTURE_READ_TIMEOUT (R445): No response within 8 ms; the read returns all-ones and an error FIFO entry is made. -/
  | apertureReadTimeout (k : Nat)
  /-- APERTURE_ERROR_POP (R444): A read of FAR_AP_ERR_STAT pops the oldest error FIFO entry. -/
  | apertureErrorPop (port : Fin 2)
  /-- CONSIST_FRAME_INGRESS (R454): A frame arrives on a consist port and is admitted, switched, sent to the line or to a host, or dropped. -/
  | consistFrameIngress (n : Fin 12) (f : EthFrame) (time : Nat)
  /-- CONSIST_PORT_UP (R452): A consist port's link comes up and the port enters UP. -/
  | consistPortUp (n : Fin 12) (rate : Fin 5) (plca : Bool)
  /-- CONSIST_PORT_DOWN (R452): A consist port leaves UP and its queued frames are discarded. -/
  | consistPortDown (n : Fin 12)
  /-- FDB_AGEING (R453): A filtering-database entry ages out after CON_CTL.AGE seconds. -/
  | fdbAgeing (mac : Nat) (vid : Nat)
  /-- FOREIGN_BEACON (R451): A PLCA coordinator receives a BEACON it did not send, and record 0x3C05 is written. -/
  | foreignBeacon (n : Fin 12)
  /-- MDIO_FRAME (R450): Writing MDIO_CMD.GO issues a Clause 22 or Clause 45 MDIO frame. -/
  | mdioFrame (c45 : Bool) (op : Fin 4) (phy : Fin 32) (reg : Fin 32)
  /-- MDIO_FRAME_DONE (R450): The MDIO frame ends, BUSY clears and any read result is in MDIO_DATA. -/
  | mdioFrameDone (data : Fin 65536)
  /-- TRDP_PUBLISH (R466): After job 5 in a due turn, a publisher sends its process-data telegram. -/
  | trdpPublish (i : Fin 1024)
  /-- TRDP_TELEGRAM_RECEIVE (R467): A process-data telegram is checked and accepted into the subscriber's double buffer, or refused. -/
  | trdpTelegramReceive (src : Nat) (dst : Nat) (port : Nat) (vid : Nat) (d : List Byte)
  /-- TRDP_SUBSCRIBER_TIMEOUT (R468): A subscriber has no telegram for TIMEOUT turns and times out. -/
  | trdpSubscriberTimeout (i : Fin 1024)
  /-- ARP_REQUEST (R464): An ARP request for TRDP_IP is answered by the leader. -/
  | arpRequest (mac : Nat) (ip : Nat) (target : Nat)
  /-- IGMP_REPORT (R464): At enable and every 60 s, IGMPv2 membership reports are sent for each subscribed group. -/
  | igmpReport
  /-- CAN_FRAME_RECEIVE (R486): A valid CAN frame is stored in the lowest matching RX buffer, or dropped. -/
  | canFrameReceive (n : Fin 8) (f : CanFrame) (ns : Nat) (turn : Nat)
  /-- CAN_TX_START (R491): At bus idle the controller starts the pending frame that wins arbitration. -/
  | canTxStart (n : Fin 8)
  /-- CAN_TX_SUCCESS (R491): A frame is transmitted successfully; it leaves the pending set and is time-stamped. -/
  | canTxSuccess (n : Fin 8) (ns : Nat) (turn : Nat)
  /-- CAN_WINDOW_OPEN (R494): At turn phase OFF_c, a matrix window opens and makes its buffer pending. -/
  | canWindowOpen (n : Fin 8) (c : Fin 32)
  /-- CAN_WINDOW_MISS (R495): A window ends without its frame transmitted; the miss is flagged, counted and recorded. -/
  | canWindowMiss (n : Fin 8) (c : Fin 32)
  /-- CAN_BUS_ERROR (R497): A CAN error is detected and the error counters move under fault confinement. -/
  | canBusError (n : Fin 8) (tx : Bool) (lec : Fin 7) (dataPhase : Bool) (step : Fin 9) (res : Bool)
  /-- CAN_RECOVERY_DONE (R499): 128 occurrences of 11 recessive bits complete recovery; the controller returns to ACTIVE. -/
  | canRecoveryDone (n : Fin 8)
  /-- CAN_RECOVER_CMD (R499): A PF writes CANn_CMD.RECOVER to start bus-off recovery with AUTO_REC 0. -/
  | canRecoverCmd (n : Fin 8)
  /-- CAN_ALONE (R500): 32 consecutive acknowledge-error attempts set ALONE, and hold transmission with ALONE_HOLD. -/
  | canAlone (n : Fin 8)
  /-- CAN_BUS_INTEGRATED (R482): 11 consecutive recessive bits move an INTEGRATING controller to ACTIVE. -/
  | canBusIntegrated (n : Fin 8)
  /-- CAN_SLEEP_CMD (R503): A PF writes CANn_CMD.SLEEP and the controller enters SLEEP after the current frame. -/
  | canSleepCmd (n : Fin 8)
  /-- CAN_WAKE_CMD (R506): A PF writes CANn_CMD.WAKE, which wakes the controller with cause 4. -/
  | canWakeCmd (n : Fin 8)
  /-- CAN_WAKE_DETECT (R504): The PD0 wake detector sees a wake level or a matching wake frame and wakes the controller. -/
  | canWakeDetect (n : Fin 8) (w : WakeSeen)
  /-- MIRROR_TWIN_EXPIRY (R502): A mirror pair's twin expectation ends after MWIN without a twin frame. -/
  | mirrorTwinExpiry (n : Fin 8) (k : Nat)
  /-- CAN_BUFFER_NEW_WRITE (R493): A PF writes NEW of a TX_MATRIX buffer through the window, marking it for its next window. -/
  | canBufferNewWrite (n : Fin 8) (b : Fin 128)
  /-- SCRUB_LINE (R514): A scrubber reads and, where needed, corrects one SRAM line. -/
  | scrubLine (line : Fin 524288) (err : Option (Fin 8 × Bool)) (r : EccReader) (last : Bool)
  /-- SECURE_ACCESS_REFUSED (R517): An access to the secure bank set by another master is refused, counted and alarmed. -/
  | secureAccessRefused (m : Fin 12) (off : Fin 2097152)
  /-- SECURE_WIPE (R519): A wipe of the secure bank set starts for a cause of R518. -/
  | secureWipe (cause : Fin 4)
  /-- WIPE_COMPLETE (R520): A wipe completes its read-back; on a second failure the set is disabled. -/
  | wipeComplete (us : Nat) (bad : Nat)
  /-- MEM_COUNTER_CLEAR (R512): Writing MEM_CNT_CTL.CLR clears the conflict and stall counters of the selected masters. -/
  | memCounterClear (mask : Fin 4096) (run : Bool)
  /-- OVERFLOW_RECORD (R527): Queue places become free again, and one record 0x2004 is queued for each source with lost records. -/
  | overflowRecord
  /-- WRITE_UNIT_DONE (R528): An MRAM write unit completes and is read back for verification. -/
  | writeUnitDone (fail : Option Nat)
  /-- UTC_WRITE (R535): A PF writes TALLY_UTC, and an anchor is queued while UTC is set. -/
  | utcWrite (port : Fin 2) (valid : Bool) (offset : Fin 65536)
  /-- CLEAR_NONCE_NEW (R543): Writing TCL_CTL.NEW issues a fresh 32-byte clear nonce. -/
  | clearNonceNew (t : Fin 17)
  /-- CLEAR_NONCE_EXPIRY (R543): A clear nonce lapses after 60,000 units of operating time. -/
  | clearNonceExpiry (t : Fin 17)
  /-- TAMPER_EVENT (R577): A tamper source raises an event, and the configured response is applied. -/
  | tamperEvent (src : Fin 6) (now : Fin 64)
  /-- FLEET_KEY_SWITCH (R574): At the tick of SEC_ROLL_TURN, the staged fleet key becomes active and the keys are derived again. -/
  | fleetKeySwitch
  /-- RETIRED_KEY_ERASE (R574): 256 turns after a rollover, the retired fleet key is erased. -/
  | retiredKeyErase
  /-- CONFIG_ACTIVATION_TICK (R590): At a tick, or at once without a tick, the activation rewrites the slot record, loads the sections and starts the trial. -/
  | configActivationTick
  /-- CONFIG_TRIAL_END (R593): The configuration trial ends after 1,000 units, and passes if no criterion was met. -/
  | configTrialEnd
  /-- CONFIG_ROLLBACK_TICK (R595): At the tick after a trial criterion is met, the node returns to the PREVIOUS image. -/
  | configRollbackTick
  /-- FREEZE_N_LOW (R606): FREEZE_N is held low for 20 ns while FRZ_EN is 1, or the request is refused and recorded. -/
  | freezeNLow (held : Bool) (tear : Bool)
  /-- DEBUG_TOKEN_LAPSE (R609): A debug token reaches the end of its validity and FRZ_EN clears. -/
  | debugTokenLapse
  /-- BYPASS (R612): The IEEE 1149.1 BYPASS instruction selects the 1-bit register. -/
  | bypass (tdi : List Byte)
  /-- IDCODE (R612): The IDCODE instruction returns 0x2088_0001. -/
  | idcode
  /-- SAMPLE_PRELOAD (R612): The SAMPLE/PRELOAD instruction captures or loads the boundary scan register. -/
  | samplePreload (cells : List Byte)
  /-- EXTEST (R612): The EXTEST instruction drives the balls only while FROZEN is 1. -/
  | extest (cells : List Byte)
  /-- NONCE (R612): The NONCE instruction captures 32 fresh random bytes at Capture-DR. -/
  | nonce
  /-- TOKEN (R609): A debug token shifted into TOKEN is checked at Update-DR and accepted or refused. -/
  | token (tok : List Byte) (sig : Bool) (freezeLow : Bool) (tear : Bool)
  /-- DIAG_STATUS (R612): The DIAG_STATUS instruction captures DIAG_STAT. -/
  | diagStatus
  /-- FREEZE (R606): The FREEZE instruction at Update-IR applies the mill brake while FRZ_EN is 1. -/
  | freeze (tear : Bool)
  /-- RO_ADDR (R612): The RO_ADDR instruction sets the 8-byte-aligned read-out address. -/
  | roAddr (addr : Word)
  /-- RO_DATA (R613): While frozen, RO_DATA streams read-out words from RO_ADDR, advancing by 8. -/
  | roData (n : Nat)
  /-- RECOVERY_FRAME (R617): In ROM recovery, a console frame is received and acknowledged; complete images are verified and written. -/
  | recoveryFrame (l : List Byte) (whole : Option (Nat × Bool × Bool))
  /-- VBACK_RANGE_CHANGE (R582): VBACK enters or leaves 2.0 V to 3.6 V; PWR_STAT.VBACK_OK changes, SEC_CERT_MISS bit 3 is re-evaluated, and a fall of CERTIFIED writes record 0x5030. -/
  | vbackRangeChange (inRange : Bool)
  /-- LINE_KEEPALIVE_LOSS (R51): The line engine's keep-alive to the always-on logic stops, and BYP_E1_N and BYP_E2_N are released within 1 ms. -/
  | lineKeepaliveLoss
  /-- RESET_OUT_RELEASE (R45): 10 ms after power-on reset or full reset ends, RESET_OUT_N goes high and releases the external PHYs and transceivers. -/
  | resetOutRelease
  deriving DecidableEq, Repr

end Sys2Proof
end

