-- ==== Sys2Proof/Decode.lean ====
section
/-!
DEFINITION. The commands that a word of the opcode table spells. The table gives no row any bits: this block takes its commands as register
accesses, frames, pin events and descriptors, so no word spells one.
-/

namespace Sys2Proof

/-- The command that a word of the table's bits spells: none, as no row of the table has bits. -/
def decodeTableWord (_nbits _w : Nat) : Option Instr := none

end Sys2Proof
end

