-- ==== Sys2Proof/Machine/Operands.lean ====
section
/-!
DEFINITION. Operands and layouts: bytes of numbers in both orders (R8, R9), the CRCs the spec names, the byte layout of
line frames (Tables 7-3 to 7-11, 9-3, 10-3, 10-4, 11-10), and the argument fields of descriptors.
-/

namespace Sys2Proof.Machine

/-- n bytes of a number, least significant first (R9). -/
def leBytes : Nat → Nat → List Byte
  | 0, _ => []
  | n + 1, v => BitVec.ofNat 8 v :: leBytes n (v / 256)

/-- n bytes of a number, most significant first (R8). -/
def beBytes (n v : Nat) : List Byte := (leBytes n v).reverse

/-- The number whose bytes, least significant first, these are. -/
def leNat : List Byte → Nat
  | [] => 0
  | b :: l => b.toNat + 256 * leNat l

/-- The number whose bytes, most significant first, these are. -/
def beNat (l : List Byte) : Nat := leNat l.reverse

/-- n bytes from an offset, zeros where the list ends. -/
def slice (l : List Byte) (off n : Nat) : List Byte :=
  let x := (l.drop off).take n
  x ++ List.replicate (n - x.length) 0

/-- Little-endian field of a byte list. -/
def leAt (l : List Byte) (off n : Nat) : Nat := leNat (slice l off n)

/-- Big-endian field of a byte list. -/
def beAt (l : List Byte) (off n : Nat) : Nat := beNat (slice l off n)

/-- One bit step of a CRC shifted left: width w, polynomial, register, input bit. -/
def crcBit (w poly reg : Nat) (b : Bool) : Nat :=
  let top := reg / 2 ^ (w - 1) % 2 == 1
  let sh := reg * 2 % 2 ^ w
  if top != b then sh ^^^ poly else sh

/-- The header CRC of R159: CRC-16, polynomial 0x1021, initial 0xFFFF, not reflected. -/
def crc16 (l : List Byte) : Nat :=
  l.foldl (fun r b => (List.range 8).foldl (fun r i => crcBit 16 0x1021 r (bit b.toNat (7 - i))) r) 0xFFFF

/-- One bit step of a reflected CRC. -/
def crcBitR (poly reg : Nat) (b : Bool) : Nat :=
  let low := reg % 2 == 1
  if low != b then (reg / 2) ^^^ poly else reg / 2

/-- CRC-32C (R328): polynomial 0x1EDC6F41 reflected, initial and final XOR all ones. -/
def crc32c (l : List Byte) : Nat :=
  (l.foldl (fun r b => (List.range 8).foldl (fun r i => crcBitR 0x82F63B78 r (bit b.toNat i)) r) 0xFFFFFFFF) ^^^ 0xFFFFFFFF

/-- The FCS of IEEE 802.3 (R156): CRC-32, polynomial 0x04C11DB7 reflected, initial and final XOR all ones. -/
def crc32 (l : List Byte) : Nat :=
  (l.foldl (fun r b => (List.range 8).foldl (fun r i => crcBitR 0xEDB88320 r (bit b.toNat i)) r) 0xFFFFFFFF) ^^^ 0xFFFFFFFF

/-- A number rounded up to a multiple. -/
def roundUp (x m : Nat) : Nat := (x + m - 1) / m * m

/-- The bytes a parcel takes in a slot (R163). -/
def Parcel.len (p : Parcel) : Nat := 8 + 8 * ((p.data.length + 7) / 8)

/-- A parcel's bytes (Table 7-8, R163). -/
def Parcel.bytes (p : Parcel) : List Byte :=
  let b := beBytes 2 p.func ++ beBytes 2 p.data.length ++ beBytes 2 p.pseq ++ beBytes 1 p.age ++
    beBytes 1 (b2n p.stale + 2 * b2n p.dflt) ++ p.data
  b ++ List.replicate (p.len - b.length) 0

/-- The relay word's bytes (Table 7-3). -/
def RelayWord.bytes (r : RelayWord) : List Byte :=
  beBytes 1 r.hops ++ beBytes 1 (b2n r.mid + 2 * b2n r.merged) ++ beBytes 2 r.origAddr ++ beBytes 4 r.origUid

/-- KICKOFF payload bytes (Table 9-3). -/
def Kickoff.bytes (k : Kickoff) : List Byte :=
  beBytes 8 k.luid ++ beBytes 8 k.duid ++ beBytes 2 k.kcount ++ beBytes 1 (b2n k.paired + 2 * b2n k.hist) ++ beBytes 5 0

/-- CONFIRM payload bytes after the relay word (Table 10-4). -/
def Confirm.bytes (c : Confirm) : List Byte :=
  beBytes 1 c.phase ++ beBytes 1 (b2n c.notReady + 2 * b2n c.mismatch + 4 * b2n c.stagedMixed) ++ beBytes 1 c.attempt ++
  beBytes 1 c.n ++ beBytes 4 c.adopt ++ beBytes 8 c.root ++ beBytes 16 c.digest ++ beBytes 16 c.staged

/-- CLAIM payload bytes after the relay word (Table 11-10). -/
def Claim.bytes (c : Claim) : List Byte :=
  beBytes 1 (b2n c.poolReset) ++ beBytes 1 c.recs.length ++ beBytes 2 0 ++ beBytes 4 c.poolCrc ++
  c.recs.flatMap fun r => beBytes 8 r.uid ++ beBytes 1 r.count ++ beBytes 1 (b2n r.home) ++ beBytes 2 r.wait

/-- DIRECTORY entry bytes (Table 10-3). -/
def DirEntry.bytes (e : DirEntry) : List Byte :=
  beBytes 8 e.luid ++ beBytes 8 e.puid ++ beBytes 8 e.nbrE1 ++ beBytes 4 e.consist ++ beBytes 1 e.carIndex ++
  beBytes 1 e.carCount ++ beBytes 1 (b2n e.paired + 2 * b2n e.cab + 4 * b2n e.frontE2) ++
  beBytes 1 (e.linkMin + 16 * e.profMax) ++ beBytes 1 e.hE1 ++ beBytes 1 e.hE2 ++ beBytes 2 0 ++ beBytes 4 e.icountMax ++
  beBytes 4 e.cfgVer ++ beBytes 4 0 ++ beBytes 16 e.ftDigest ++ beBytes 16 e.lrActive ++ beBytes 16 e.lrStaged

/-- HOP payload bytes (Table 7-11). The unit of its times is not stated: they stand at the resolution of a time stamp (log 92). -/
def Hop.bytes (h : Hop) : List Byte :=
  beBytes 8 h.uid ++
  beBytes 1 (b2n h.end2 + 2 * b2n h.chanB + 4 * b2n h.paired + 8 * b2n h.xlink + 16 * h.profMax) ++
  beBytes 1 h.lstate ++ beBytes 6 0 ++ beBytes 8 (h.tTx / 2 ^ 30) ++ beBytes 8 (h.tEcho / 2 ^ 30) ++
  beBytes 8 (h.tRx / 2 ^ 30) ++ h.credit.flatMap (beBytes 2) ++ beBytes 4 0

/-- The address word's bytes and the data (Table 7-10). -/
def Dyn.bytes (d : Dyn) : List Byte :=
  beBytes 2 d.dest ++ beBytes 1 d.dkind ++ beBytes 1 d.life ++ beBytes 2 d.sel ++ beBytes 1 d.prio ++ beBytes 1 0 ++ d.data

/-- Payload bytes before padding. -/
def Payload.raw : Payload → List Byte
  | .parcels ps => ps.flatMap Parcel.bytes
  | .dyn d => d.bytes
  | .kickoff k => k.bytes
  | .confirm r c => r.bytes ++ c.bytes
  | .claim r c => r.bytes ++ c.bytes
  | .service r s => r.bytes ++ beBytes 2 0xFF20 ++ beBytes 2 32 ++ beBytes 4 0 ++ beBytes 16 s.salt ++ beBytes 4 s.activeId ++
      beBytes 4 s.stagedId ++ beBytes 1 s.flags ++ beBytes 7 0
  | .directory r e => r.bytes ++ e.bytes
  | .hop _ h => h.bytes

/-- Payload bytes: a multiple of 8 and at least 8 (R160). -/
def Payload.bytes (p : Payload) : List Byte :=
  let b := p.raw
  b ++ List.replicate (max 8 (roundUp b.length 8) - b.length) 0

/-- LENGTH of a payload (R160), without building it. -/
def Payload.len : Payload → Nat
  | .parcels ps => max 8 (ps.foldl (fun a p => a + p.len) 0)
  | .dyn d => max 8 (roundUp (8 + d.data.length) 8)
  | .kickoff _ => 24
  | .confirm _ _ => 56
  | .claim _ c => roundUp (16 + 12 * c.recs.length) 8
  | .service _ _ => 48
  | .directory _ _ => 104
  | .hop _ _ => 64

/-- The relay word of a relay frame. -/
def Payload.relay : Payload → Option RelayWord
  | .confirm r _ => some r
  | .claim r _ => some r
  | .service r _ => some r
  | .directory r _ => some r
  | _ => none

/-- Kind codes (Table 7-7). -/
def Kind.code : Kind → Nat
  | .static => 1 | .dynamic => 2 | .kickoff => 3 | .directory => 4 | .confirm => 5 | .claim => 6 | .hop => 7

/-- CORR as it stands on the wire: 64 bits in two's complement. -/
def corrBits (c : Int) : Nat := (c % (2 ^ 64 : Nat)).toNat

/-- Line header bytes 0 to 29 (Table 7-5), with a given version, kind code, LENGTH and CORR. -/
def Hdr.bytes (h : Hdr) (version code length : Nat) (corr : Int) : List Byte :=
  beBytes 1 (16 * version + code) ++ beBytes 1 h.flags ++ beBytes 2 h.sender ++ beBytes 4 h.turn ++
  beBytes 4 h.icount ++ beBytes 2 h.slot ++ beBytes 2 length ++ beBytes 8 (corrBits corr) ++
  beBytes 4 h.seqGen ++ beBytes 2 h.epoch

/-- Line header bytes 0 to 29 as the node sends them, with a given CORR. -/
def Frame.hdrBytes (f : Frame) (corr : Int) : List Byte := f.hdr.bytes 1 f.kind.code f.payload.len corr

/-- The header CRC of a frame as it goes out (R159). -/
def Frame.hcrc (f : Frame) : Nat := crc16 (f.hdrBytes f.hdr.corr)

/-- Destination, source address (0x02 and UID bits 39..0) and EtherType (Table 7-4). -/
def Frame.macBytes (f : Frame) : List Byte := beBytes 6 0x024C4A000001 ++ beBytes 1 2 ++ beBytes 5 f.src ++ beBytes 2 0x88B5

/-- The bytes a tag authenticates (R177): destination address to the end of the payload, CORR and HCRC as zero. -/
def Frame.aad (f : Frame) : List Byte := f.macBytes ++ f.hdrBytes 0 ++ beBytes 2 0 ++ f.payload.bytes

/-- The bytes of a frame that the FCS covers (R156), destination address to tag, with its line header as received. -/
def Frame.covered (f : Frame) (c : RxCheck) : List Byte :=
  f.macBytes ++ f.hdr.bytes c.version c.code c.length f.hdr.corr ++ beBytes 2 c.hcrc ++ f.payload.bytes ++ beBytes 8 f.tag

/-- A frame as the node sends it: header CRC and FCS over what it sends, the FCS inverted where it ends a copy so (R151, R156, R159). -/
def Frame.sealed (f : Frame) (stomp : Bool) : RxCheck :=
  let c : RxCheck := { (default : RxCheck) with version := 1, code := f.kind.code, length := f.payload.len, hcrc := f.hcrc }
  let x := crc32 (f.covered c)
  { c with fcs := if stomp then 2 ^ 32 - 1 - x else x }

/-- The bytes on the wire (Table 7-4): preamble and start delimiter, the covered bytes, and the FCS, its bits in the order of IEEE
802.3, least significant byte first. -/
def Frame.wire (f : Frame) (stomp : Bool) : List Byte :=
  let c := f.sealed stomp
  List.replicate 7 0x55#8 ++ [0xD5#8] ++ f.covered c ++ leBytes 4 c.fcs

/-- The FCS is good (R156). -/
def RxCheck.fcsOk (c : RxCheck) (f : Frame) : Bool := c.fcs == crc32 (f.covered c)

/-- The header CRC is good (R159). -/
def RxCheck.hcrcOk (c : RxCheck) (f : Frame) : Bool := c.hcrc == crc16 (f.hdr.bytes c.version c.code c.length f.hdr.corr)

/-- The greatest payload length of a kind (R160), with the slot payload of the timing in force. -/
def Kind.most (slotPayload : Nat) : Kind → Nat
  | .kickoff | .hop => 64
  | .dynamic => 1536
  | _ => slotPayload

/-- Version, kind and LENGTH are good (R160, R161). -/
def RxCheck.formOk (c : RxCheck) (f : Frame) (slotPayload : Nat) : Bool :=
  c.version == 1 && c.code == f.kind.code && c.length == f.payload.len && f.payload.len ≤ f.kind.most slotPayload

/-- A time stamp has a resolution of 0.25 ns (R182). -/
def RxCheck.stamp (c : RxCheck) : RxCheck :=
  { c with time := c.time - c.time % 2 ^ 30, phase := c.phase - c.time % 2 ^ 30 }

/-- The parcels that a receiver reads: up to LENGTH or a FUNC of 0x0000 (R163). -/
def readParcels (ps : List Parcel) : List Parcel := ps.takeWhile fun p => p.func != 0

/-- The IV of a tag (Table 7-12): the full turn number (or HOP sequence), the channel, and for relay kinds the end of
the transmitting port; for HOP the port index stands in place of the slot. -/
def Frame.iv (f : Frame) (turn64 : Nat) (chanB end2 : Bool) (port : Nat) : List Byte :=
  let relay := f.payload.relay.isSome
  let slot := if f.kind == .hop then port else f.hdr.slot % 512
  beBytes 8 turn64 ++
  beBytes 2 (f.kind.code * 4096 + b2n chanB * 2048 + (if relay then b2n end2 * 512 else 0) + slot) ++
  beBytes 2 (if f.kind == .dynamic then f.hdr.seqGen % 65536 else 0)

/-- Credit blocks of a frame of a payload length (R176). -/
def blocksOf (n : Nat) : Nat := (n + 63) / 64 + 1

/-- Credit class of a stream and priority (R176). -/
def classOf (stream prio : Nat) : Nat := if stream ≤ 4 then 0 else if stream < 256 then 1 else 2 + prio % 8

end Sys2Proof.Machine
end

