-- ==== Sys2Proof/Machine/Crypto.lean ====
section
/-!
DEFINITION. The cryptographic functions that the spec takes from published standards: SHA-384 (FIPS 180-4), HMAC-SHA-384, HKDF (RFC 5869),
AES-256, and the GMAC of NIST SP 800-38D (R177, R255, R271, R559, R560, R567).
-/

namespace Sys2Proof.Machine

/-! SHA-384 -/

/-- The round constants of SHA-512 and SHA-384. -/
def shaK : List Nat :=
  [0x428a2f98d728ae22, 0x7137449123ef65cd, 0xb5c0fbcfec4d3b2f, 0xe9b5dba58189dbbc,
   0x3956c25bf348b538, 0x59f111f1b605d019, 0x923f82a4af194f9b, 0xab1c5ed5da6d8118,
   0xd807aa98a3030242, 0x12835b0145706fbe, 0x243185be4ee4b28c, 0x550c7dc3d5ffb4e2,
   0x72be5d74f27b896f, 0x80deb1fe3b1696b1, 0x9bdc06a725c71235, 0xc19bf174cf692694,
   0xe49b69c19ef14ad2, 0xefbe4786384f25e3, 0x0fc19dc68b8cd5b5, 0x240ca1cc77ac9c65,
   0x2de92c6f592b0275, 0x4a7484aa6ea6e483, 0x5cb0a9dcbd41fbd4, 0x76f988da831153b5,
   0x983e5152ee66dfab, 0xa831c66d2db43210, 0xb00327c898fb213f, 0xbf597fc7beef0ee4,
   0xc6e00bf33da88fc2, 0xd5a79147930aa725, 0x06ca6351e003826f, 0x142929670a0e6e70,
   0x27b70a8546d22ffc, 0x2e1b21385c26c926, 0x4d2c6dfc5ac42aed, 0x53380d139d95b3df,
   0x650a73548baf63de, 0x766a0abb3c77b2a8, 0x81c2c92e47edaee6, 0x92722c851482353b] ++
  [0xa2bfe8a14cf10364, 0xa81a664bbc423001, 0xc24b8b70d0f89791, 0xc76c51a30654be30,
   0xd192e819d6ef5218, 0xd69906245565a910, 0xf40e35855771202a, 0x106aa07032bbd1b8,
   0x19a4c116b8d2d0c8, 0x1e376c085141ab53, 0x2748774cdf8eeb99, 0x34b0bcb5e19b48a8,
   0x391c0cb3c5c95a63, 0x4ed8aa4ae3418acb, 0x5b9cca4f7763e373, 0x682e6ff3d6b2b8a3,
   0x748f82ee5defb2fc, 0x78a5636f43172f60, 0x84c87814a1f0ab72, 0x8cc702081a6439ec,
   0x90befffa23631e28, 0xa4506cebde82bde9, 0xbef9a3f7b2c67915, 0xc67178f2e372532b,
   0xca273eceea26619c, 0xd186b8c721c0c207, 0xeada7dd6cde0eb1e, 0xf57d4f7fee6ed178,
   0x06f067aa72176fba, 0x0a637dc5a2c898a6, 0x113f9804bef90dae, 0x1b710b35131c471b,
   0x28db77f523047d84, 0x32caab7b40c72493, 0x3c9ebe0a15c9bebc, 0x431d67c49c100d4c,
   0x4cc5d4becb3e42b6, 0x597f299cfc657e2a, 0x5fcb6fab3ad6faec, 0x6c44198c4a475817]

/-- The initial hash value of SHA-384. -/
def shaInit : List Nat :=
  [0xcbbb9d5dc1059ed8, 0x629a292a367cd507, 0x9159015a3070dd17, 0x152fecd8f70e5939,
   0x67332667ffc00b31, 0x8eb44a8768581511, 0xdb0c2e0d64f98fa7, 0x47b5481dbefa4fa4]

/-- A 64-bit word turned right. -/
def rotr64 (x n : Nat) : Nat := x / 2 ^ n + x % 2 ^ n * 2 ^ (64 - n)

/-- The message as blocks of sixteen words: the message, a one bit, zeros and its length in bits. -/
def shaWords (l : List Byte) : List Nat :=
  let pad := (240 - (l.length + 1) % 128) % 128
  let b := l ++ [BitVec.ofNat 8 0x80] ++ List.replicate pad 0 ++ beBytes 16 (8 * l.length)
  (List.range (b.length / 8)).map fun i => beNat ((b.drop (8 * i)).take 8)

/-- The message schedule, latest word first, from the sixteen words of a block, also latest first. -/
def shaExpand : Nat → List Nat → List Nat
  | 0, w => w
  | n + 1, w =>
    let a := w.getD 1 0
    let b := w.getD 14 0
    let s1 := rotr64 a 19 ^^^ rotr64 a 61 ^^^ (a / 2 ^ 6)
    let s0 := rotr64 b 1 ^^^ rotr64 b 8 ^^^ (b / 2 ^ 7)
    shaExpand n ((s1 + w.getD 6 0 + s0 + w.getD 15 0) % 2 ^ 64 :: w)

/-- The eight working variables. -/
structure ShaVars where
  a : Nat
  b : Nat
  c : Nat
  d : Nat
  e : Nat
  f : Nat
  g : Nat
  h : Nat
  deriving DecidableEq, Repr

/-- One round with its constant plus schedule word. -/
def shaRound (v : ShaVars) (kw : Nat) : ShaVars :=
  let s1 := rotr64 v.e 14 ^^^ rotr64 v.e 18 ^^^ rotr64 v.e 41
  let ch := (v.e &&& v.f) ^^^ ((2 ^ 64 - 1 - v.e) &&& v.g)
  let t1 := v.h + s1 + ch + kw
  let s0 := rotr64 v.a 28 ^^^ rotr64 v.a 34 ^^^ rotr64 v.a 39
  let mj := (v.a &&& v.b) ^^^ (v.a &&& v.c) ^^^ (v.b &&& v.c)
  ⟨(t1 + s0 + mj) % 2 ^ 64, v.a, v.b, v.c, (v.d + t1) % 2 ^ 64, v.e, v.f, v.g⟩

/-- The compression of one block. -/
def shaBlock (hs : List Nat) (w : List Nat) : List Nat :=
  let sched := (shaExpand 64 w.reverse).reverse
  let h (i : Nat) : Nat := hs.getD i 0
  let v := (List.zipWith (· + ·) shaK sched).foldl shaRound ⟨h 0, h 1, h 2, h 3, h 4, h 5, h 6, h 7⟩
  List.zipWith (fun x y => (x + y) % 2 ^ 64) hs [v.a, v.b, v.c, v.d, v.e, v.f, v.g, v.h]

/-- The blocks of a message, one after the other. -/
def shaBlocks : Nat → List Nat → List Nat → List Nat
  | 0, hs, _ => hs
  | n + 1, hs, w => shaBlocks n (shaBlock hs (w.take 16)) (w.drop 16)

/-- SHA-384 of a byte string as a number of 384 bits, most significant byte first. -/
def sha384 (l : List Byte) : Nat :=
  let w := shaWords l
  ((shaBlocks (w.length / 16) shaInit w).take 6).foldl (fun a x => a * 2 ^ 64 + x % 2 ^ 64) 0

/-- HMAC-SHA-384: 48 bytes. -/
def hmac384 (key msg : List Byte) : List Byte :=
  let k := if key.length > 128 then beBytes 48 (sha384 key) else key
  let k := k ++ List.replicate (128 - k.length) 0
  beBytes 48 (sha384 (k.map (· ^^^ 0x5C#8) ++ beBytes 48 (sha384 (k.map (· ^^^ 0x36#8) ++ msg))))

/-- HKDF-SHA-384 with 32 bytes of output; an absent salt is 48 zero bytes (21_security_and_attestation.md, R557). -/
def hkdf (ikm : List Byte) (salt : Option (List Byte)) (info : List Byte) : List Byte :=
  let prk := hmac384 (salt.getD (List.replicate 48 0)) ikm
  (hmac384 prk (info ++ [1#8])).take 32

/-! AES-256 -/

/-- The substitution box, sixteen bytes a row. -/
def sboxRows : List Nat :=
  [0x637c777bf26b6fc53001672bfed7ab76, 0xca82c97dfa5947f0add4a2af9ca472c0, 0xb7fd9326363ff7cc34a5e5f171d83115,
   0x04c723c31896059a071280e2eb27b275, 0x09832c1a1b6e5aa0523bd6b329e32f84, 0x53d100ed20fcb15b6acbbe394a4c58cf,
   0xd0efaafb434d338545f9027f503c9fa8, 0x51a3408f929d38f5bcb6da2110fff3d2, 0xcd0c13ec5f974417c4a77e3d645d1973,
   0x60814fdc222a908846eeb814de5e0bdb, 0xe0323a0a4906245cc2d3ac629195e479, 0xe7c8376d8dd54ea96c56f4ea657aae08,
   0xba78252e1ca6b4c6e8dd741f4bbd8b8a, 0x703eb5664803f60e613557b986c11d9e, 0xe1f8981169d98e949b1e87e9ce5528df,
   0x8ca1890dbfe6426841992d0fb054bb16]

/-- The substitution of a byte. -/
def sbox (x : Nat) : Nat := sboxRows.getD (x / 16) 0 / 2 ^ (8 * (15 - x % 16)) % 256

/-- Multiplication by x in the field of AES. -/
def xtime (x : Nat) : Nat := if x < 128 then 2 * x else (2 * x) % 256 ^^^ 0x1B

/-- Byte by byte exclusive or. -/
def xorBytes (a b : List Nat) : List Nat := List.zipWith (· ^^^ ·) a b

/-- The key schedule of AES-256, latest word first: from word i on, n words. -/
def aesExpand : Nat → Nat → Nat → List (List Nat) → List (List Nat)
  | 0, _, _, w => w
  | n + 1, i, rcon, w =>
    let t := w.headD []
    let t' := if i % 8 == 0 then
        (match (t.drop 1 ++ t.take 1).map sbox with
          | b :: l => (b ^^^ rcon) :: l
          | [] => [])
      else if i % 8 == 4 then t.map sbox else t
    aesExpand n (i + 1) (if i % 8 == 0 then xtime rcon else rcon) (xorBytes t' (w.getD 7 []) :: w)

/-- The fifteen round keys of a 32-byte key, sixteen bytes each. -/
def aesKeys (key : List Byte) : List (List Nat) :=
  let k := key.map fun b => b.toNat
  let w := ((aesExpand 52 8 1 ((List.range 8).map fun i => (k.drop (4 * i)).take 4).reverse).reverse)
  (List.range 15).map fun r => ((w.drop (4 * r)).take 4).flatMap id

/-- The rows of the state turned (ShiftRows), column by column. -/
def shiftRows (s : List Nat) : List Nat := (List.range 16).map fun i => s.getD ((i + 4 * (i % 4)) % 16) 0

/-- The columns of the state mixed. -/
def mixColumns (s : List Nat) : List Nat :=
  (List.range 16).map fun i =>
    let at_ (k : Nat) : Nat := s.getD (i / 4 * 4 + (i + k) % 4) 0
    xtime (at_ 0) ^^^ xtime (at_ 1) ^^^ at_ 1 ^^^ at_ 2 ^^^ at_ 3

/-- The rounds of AES with their keys; the last mixes no columns. -/
def aesRounds : List (List Nat) → List Nat → List Nat
  | [], s => s
  | [k], s => xorBytes (shiftRows (s.map sbox)) k
  | k :: ks, s => aesRounds ks (xorBytes (mixColumns (shiftRows (s.map sbox))) k)

/-- AES-256 of one block of sixteen bytes. -/
def aes256 (key block : List Byte) : List Byte :=
  let ks := aesKeys key
  (aesRounds ks.tail (xorBytes (block.map fun b => b.toNat) (ks.headD []))).map fun x => BitVec.ofNat 8 x

/-! GCM (NIST SP 800-38D) -/

/-- The product of two blocks of 128 bits: n bits of x still to come, z so far, v. -/
def gcmMulStep : Nat → Nat → Nat → Nat → Nat
  | 0, _, z, _ => z
  | n + 1, x, z, v =>
    gcmMulStep n x (if x / 2 ^ n % 2 == 1 then z ^^^ v else z) (if v % 2 == 1 then v / 2 ^^^ 0xE1 * 2 ^ 120 else v / 2)

/-- The product of two blocks. -/
def gcmMul (x y : Nat) : Nat := gcmMulStep 128 x 0 y

/-- A byte string filled up with zeros to whole blocks of sixteen bytes. -/
def pad16 (l : List Byte) : List Byte := l ++ List.replicate ((16 - l.length % 16) % 16) 0

/-- GHASH of whole blocks under a hash key. -/
def ghash (h : Nat) (l : List Byte) : Nat :=
  (List.range (l.length / 16)).foldl (fun y i => gcmMul (y ^^^ beNat ((l.drop (16 * i)).take 16)) h) 0

/-- The counter block of a 96-bit IV. -/
def gcmBlock (key iv : List Byte) (n : Nat) : List Byte := aes256 key (iv ++ beBytes 4 n)

/-- The 128-bit GCM tag of additional data and a ciphertext. -/
def gcmTag (key iv aad ct : List Byte) : Nat :=
  let h := beNat (aes256 key (List.replicate 16 0))
  ghash h (pad16 aad ++ pad16 ct ++ beBytes 8 (8 * aad.length) ++ beBytes 8 (8 * ct.length)) ^^^ beNat (gcmBlock key iv 1)

/-- The plaintext of a GCM ciphertext. -/
def gcmPlain (key iv ct : List Byte) : List Byte :=
  (List.zipWith (· ^^^ ·) ct ((List.range ((ct.length + 15) / 16)).flatMap fun i => gcmBlock key iv (i + 2)))

/-- AES-256-GMAC as the line uses it (R177): the first 64 bits of the tag of authenticated bytes. -/
def gmac (key iv aad : List Byte) : Nat := gcmTag key iv aad [] / 2 ^ 64

end Sys2Proof.Machine
end

