-- ==== Sys2Proof/Machine/PartsCon.lean ====
section
/-!
DEFINITION. The parts of State that are not register fields, for the consist side (17_consist_ports_and_gateway.md) and the
CAN controllers (18_can_controllers.md).
-/

namespace Sys2Proof.Machine

/-- Where a filtering-database entry points (R453, R459): a consist port, a tenant's host port, a line position, or the
process-data engine. -/
inductive BridgePort where
  | con (n : Nat)
  | host (t : Nat)
  | line (pos : Nat)
  | engine
  deriving DecidableEq, Repr, Inhabited

/-- One filtering-database entry (R453). `seen`: when its source address was last seen, in powered time (Clock.up). -/
structure FdbEntry where
  mac : Nat
  vid : Nat
  port : BridgePort
  seen : Nat
  deriving DecidableEq, Repr, Inhabited

/-- One telegram entry (Table 17-3) with its run-time state. -/
structure Tel where
  /-- 0 unused, 1 publish, 2 subscribe -/
  dir : Nat
  comId : Nat
  vid : Nat
  prio : Nat
  destIp : Nat
  destMac : Nat
  srcIp : Nat
  cycle : Nat
  offset : Nat
  timeout : Nat
  dlen : Nat
  /-- bound to a parcel: FUNC, consist number, car number -/
  bind : Option (Nat × Nat × Nat)
  zeroOnTout : Bool
  /-- next sequenceCounter of a publisher -/
  seq : Nat
  /-- the dataset: a publisher's map-built buffer, a subscriber's current half -/
  data : List Byte
  /-- turns since the last publication or acceptance, saturating -/
  age : Nat
  /-- turns since the engine took the entry up or last accepted a telegram (R468), saturating -/
  run : Nat
  touted : Bool
  /-- last accepted sequenceCounter by source address -/
  last : List (Nat × Nat)
  /-- accepted since the last run of job 5 (R468) -/
  fresh : Bool
  deriving DecidableEq, Repr, Inhabited

/-- One gateway map entry (Table 17-4) with its run-time state. -/
structure GwEntry where
  skind : Nat
  dkind : Nat
  srcA : Nat
  srcConsist : Nat
  srcCar : Nat
  srcBit : Nat
  srcLen : Nat
  srcSigned : Bool
  srcBig : Bool
  dstBig : Bool
  dstA : Nat
  dstBit : Nat
  dstLen : Nat
  dstSigned : Bool
  trig : Nat
  period : Nat
  srcN : Nat
  useDefault : Bool
  mul : Int
  shift : Nat
  parN : Nat
  add : Int
  dflt : Nat
  /-- evaluated; last conversion saturated; source stale; last write was DEFAULT -/
  valid : Bool
  sat : Bool
  stale : Bool
  isDefault : Bool
  /-- last value written, raw -/
  last : Option Nat
  /-- turn in which it last fired -/
  fired : Option Nat
  /-- it fires at its next evaluation (R473) -/
  must : Bool
  /-- its read met an uncorrectable SRAM error: it writes nothing at its next evaluation (Table 19-4) -/
  bad : Bool
  deriving DecidableEq, Repr, Inhabited

/-- A frame waiting for a consist receive buffer (R405): tenant, queue, ingress port, VID as it arrived, arrival time. -/
structure ConHeld where
  tenant : Nat
  queue : Nat
  port : Nat
  vid : Nat
  time : Nat
  data : List Byte
  deriving DecidableEq, Repr, Inhabited

/-- A frame for the line waiting while the line stands still (R462). -/
structure LineHeld where
  stream : Nat
  dest : Nat
  sel : Nat
  prio : Nat
  turn : Nat
  data : List Byte
  deriving DecidableEq, Repr, Inhabited

/-- A frame on its way out of a consist port (R24, R455, R456): the consist port it entered at, none for another bridge port; its
egress and traffic class; and the CONSIST_SEND it serves: tenant, queue, index. -/
structure EgFrame where
  src : Option Nat
  port : Nat
  cls : Nat
  own : Option (Nat × Nat × Nat)
  frame : EthFrame
  deriving DecidableEq, Repr, Inhabited

/-- The grandmaster that the time-aware relay has selected (R207): the port that hears it, its priority vector (priority1 to identity, steps
removed, source port identity), and when it last announced itself, in powered time. -/
structure GptpMaster where
  port : Nat
  rank : Nat
  steps : Nat
  source : Nat
  seen : Nat
  deriving DecidableEq, Repr, Inhabited

/-- The peer-to-peer delay mechanism of a port (R207). -/
structure GptpPort where
  /-- sequence number of the last request, and the node time and powered time at which it left -/
  seq : Nat
  sent : Option (Nat × Nat)
  /-- an answer that waits for its follow-up: node time at which it came, and the neighbour's time stamp in 2^-16 ns -/
  heard : Option (Nat × Int)
  /-- time stamps of the exchange before, in 2^-16 ns: the neighbour's, and the node's -/
  last : Option (Int × Int)
  /-- mean delay of the link in 2^-16 ns, and the neighbour's rate as an offset from the node's in 2^-41 -/
  delay : Int
  ratio : Int
  deriving DecidableEq, Repr, Inhabited

/-- The consist side. -/
structure Con where
  fdb : List FdbEntry
  held : List ConHeld
  /-- frames in the egress queues, in order of arrival, and those that wait in the fabric for a full one (R456) -/
  egress : List EgFrame
  fabric : List EgFrame
  /-- frames in the ingress queues: port, node time at the start delimiter, frame (R456) -/
  ingress : List (Nat × Nat × EthFrame)
  /-- when the process-data engine last sent its IGMP reports since it was enabled, in powered time (R464) -/
  igmpAt : Option Nat
  lineHeld : List LineHeld
  tels : List Tel
  maps : List GwEntry
  /-- the time-aware relay (R207): its ports by number -/
  gptpPorts : List (Nat × GptpPort)
  /-- the grandmaster that the time-aware relay has selected (R207) -/
  gptpBest : Option GptpMaster
  /-- a two-step synchronisation that waits for its follow-up (R207): port, sequence number, node time at which it came, correction -/
  gptpSync : Option (Nat × Nat × Nat × Int)
  /-- the MDIO frame on the wire: Clause 45, OP, PHYAD, REG -/
  mdio : Option (Bool × Nat × Nat × Nat)
  deriving DecidableEq, Repr, Inhabited

/-- One message buffer (Table 18-4). PENDING is membership of the pending set. -/
structure CanBuf where
  frame : CanFrame
  isNew : Bool
  msgLost : Bool
  bus : Bool
  tsNs : Nat
  tsTurn : Nat
  /-- 0 unused, 1 RX, 2 TX_MATRIX, 3 TX_HOST -/
  type : Nat
  irq : Bool
  hostRead : Bool
  filtId : Nat
  filtMask : Nat
  /-- the CAN_SEND that holds a TX_HOST buffer: tenant, queue, index -/
  own : Option (Nat × Nat × Nat)
  /-- turn in which a frame was last stored (R472) -/
  storedTurn : Option Nat
  deriving DecidableEq, Repr, Inhabited

/-- An open matrix window (R494): row, column, its buffer when it became pending at the opening, and the turn phase at
which it ends, none at the next tick. -/
structure CanWin where
  row : Nat
  col : Nat
  buf : Option Nat
  ends : Option Nat
  deriving DecidableEq, Repr, Inhabited

/-- A write of a TX_MATRIX buffer (R474, R493): DLC where it gives one, data bytes from a place on, and whether it sets NEW. -/
structure CanPut where
  buf : Nat
  dlc : Option Nat
  place : Nat
  data : List Byte
  mark : Bool
  deriving DecidableEq, Repr, Inhabited

/-- One controller. Its state, counters and interrupt bits are register fields. -/
structure CanCtl where
  bufs : List (Nat × CanBuf)
  pending : List Nat
  /-- for a mirror pair, the buffers still to be sent on the odd bus -/
  pendingOdd : List Nat
  /-- for a mirror pair, the buffers whose frame one bus has confirmed while the other has still to send it (R501) -/
  confirmed : List Nat
  /-- the buffer whose frame this controller is sending -/
  onBus : Option Nat
  /-- writes held while the buffer's frame is on the bus (R474, R493) -/
  heldWrites : List CanPut
  wins : List CanWin
  /-- columns whose windows have opened in the present turn (R494) -/
  opened : List Nat
  /-- consecutive attempts that ended in an acknowledge error (R500) -/
  ackErrs : Nat
  /-- recovery is being counted (R499), and when bus-off was entered, in powered time (Clock.up) -/
  recovering : Bool
  busOffAt : Nat
  /-- a SLEEP command waits for the frame on the bus -/
  sleepReq : Bool
  /-- open twin expectations of a mirror pair: (frame, it came on the odd bus, when it opened in powered time) (R502) -/
  twins : List (CanFrame × Bool × Nat)
  /-- a wake waits for PD8 (R506) -/
  wakeHeld : Bool
  /-- its wake detector is armed (R503) -/
  armed : Bool
  /-- CAN_SEND descriptors that wait for a TX_HOST buffer (R492): tenant, queue, index, frame -/
  waits : List (Nat × Nat × Nat × CanFrame)
  deriving DecidableEq, Repr, Inhabited

/-- The CAN block. -/
structure Can where
  ctls : List CanCtl
  /-- CANn_BUFSEL per requester: (8 × requester + controller, buffer), requesters numbered by Requester.code (R489) -/
  sel : List (Nat × Nat)
  /-- the matrix row that job 4 has taken in the present turn, none until it has (R494) -/
  row : Option Nat
  deriving DecidableEq, Repr, Inhabited

end Sys2Proof.Machine
end

