-- ==== Sys2Proof/Machine/PartsRed.lean ====
section
/-!
DEFINITION. The parts of State that are not register fields, for redundancy and takeover (13_redundancy_and_takeover.md).
-/

namespace Sys2Proof.Machine

/-- An epoch being assembled (R329): the chunks that arrived with a good CCRC, by index. -/
structure Shadow where
  enum : Nat
  count : Nat
  chunks : List (Nat × List Byte)
  deriving DecidableEq, Repr, Inhabited

/-- Of a gateway map entry, an epoch carries its last output, the turn it last fired and its armed change memory. -/
structure EpochMap where
  last : Option Nat
  fired : Option Nat
  must : Bool
  deriving DecidableEq, Repr, Inhabited

/-- Of a telegram: sequence counter, turns towards the timeout, timed out, data, last counters by source. -/
structure EpochTel where
  seq : Nat
  run : Nat
  touted : Bool
  data : List Byte
  last : List (Nat × Nat)
  deriving DecidableEq, Repr, Inhabited

/-- Of a transmit buffer: its frame, NEW and whether it is pending. -/
structure EpochBuf where
  ctl : Nat
  buf : Nat
  frame : CanFrame
  isNew : Bool
  pend : Bool
  deriving DecidableEq, Repr, Inhabited

/-- The state an epoch carries (Table 13-5, R597). How it is laid out as bytes is not stated: Config.epochBytes (log 33). -/
structure EpochImage where
  maps : List EpochMap
  tels : List EpochTel
  bufs : List EpochBuf
  /-- missed-window flags: controller, row, columns -/
  missed : List (Nat × Nat × Nat)
  /-- ALONE and bus-off of each controller -/
  ctls : List (Bool × Bool)
  epoch : Nat
  /-- role history, newest first -/
  roles : List Nat
  /-- the leader's ACTIVE version -/
  version : Nat
  deriving DecidableEq, Repr, Inhabited

/-- A planned swap under way (R340, R341). -/
structure Swap where
  /-- the swap turn, 64 bits -/
  w : Nat
  /-- this device was the leader when the swap began -/
  leader : Bool
  /-- the descriptor that asked for it on this device: tenant, queue, index -/
  desc : Option (Nat × Nat × Nat)
  /-- the swap epoch is committed -/
  done : Bool
  /-- the swap is aborted -/
  aborted : Bool
  deriving DecidableEq, Repr, Inhabited

/-- A witness's report of the present turn (Table 13-8). -/
structure Witness where
  sender : Nat
  subject : Nat
  seenA : Bool
  seenB : Bool
  knownA : Bool
  knownB : Bool
  claimA : Bool
  claimB : Bool
  epochA : Nat
  epochB : Nat
  deriving DecidableEq, Repr, Inhabited

/-- Recovery state of one combination of SENDER, stream ID and SEQ_GEN[31] (R318). `hist` is the 128-bit vector. -/
structure Recovery where
  sender : Nat
  stream : Nat
  chan : Bool
  top : Nat
  hist : Nat
  /-- turn in which a frame of the combination last arrived -/
  last : Nat
  deriving DecidableEq, Repr, Inhabited

/-- Redundancy. The takeover epoch, the role and the committed epoch's number are register fields. -/
structure Red where
  /-- the partner's line ports as last reported (R131, R229) -/
  partnerPorts : List PPort
  /-- the partner's last pair-state message -/
  partner : Option PairState
  /-- a pair-state message arrived in the present turn -/
  psNow : Bool
  /-- consecutive turns without one -/
  psMiss : Nat
  /-- consecutive turns in which the leader's pair state reported self-fault -/
  faultRun : Nat
  /-- consecutive turns in which a witness knew the leader's channel and none reported it seen (trigger 1) -/
  unseenRun : Nat
  /-- consecutive turns without a pair-state message and without a witness knowing the leader's channel (trigger 4) -/
  blindRun : Nat
  witnesses : List Witness
  /-- the turn and the powered time (Clock.up) at which this device last sent its pair state (R321) -/
  psSent : Option (Nat × Nat)
  /-- powered time since which, out of OFF, neither a pair state nor a witnessed claim of the partner arrived (Table 13-4, log 35) -/
  noneSince : Option Nat
  /-- the partner claims the leader role: the turn and its epoch -/
  claim : Option (Nat × Nat)
  /-- both devices were seen to claim in this turn (R337) -/
  dualNow : Bool
  /-- roles held since reset, newest first (Table 13-5) -/
  roles : List Nat
  /-- the snapshot taken at the present tick, before jobs 4 and 5 (R327) -/
  snap : Option EpochImage
  /-- slot 1 frames stored in this turn, directly from a position: position, channel B (R331) -/
  seen1 : List (Nat × Bool)
  /-- home-slot frames stored in this turn: position, channel B, ROLE, EPOCH (R331) -/
  homes : List (Nat × Bool × Bool × Nat)
  shadow : Option Shadow
  /-- the committed epoch in SRAM: number and content -/
  committed : Option (Nat × List Byte)
  /-- the persisted epoch in MRAM -/
  persisted : Option (Nat × List Byte)
  /-- the persisted takeover epoch (R326) -/
  persistedEpoch : Nat
  commits : Nat
  /-- a takeover condition recorded: the turn in whose NIT it was met, and its trigger code (R332, R333, R336) -/
  takeover : Option (Nat × Nat)
  swap : Option Swap
  /-- the turn from which this device drives the car-service outputs (R333) -/
  driveFrom : Nat
  recovery : List Recovery
  /-- next SEQ_GEN count of each stream, by stream ID (R173, R317) -/
  seqGen : List (Nat × Nat)
  /-- slots of the present turn for which the leader's frame has arrived (R322) -/
  handed : List Nat
  /-- slots sent from the own view in the present turn, and whether the previous turn had any (R323) -/
  ownView : Nat
  prevOwnView : Bool
  deriving DecidableEq, Repr, Inhabited

end Sys2Proof.Machine
end

