-- ==== Sys2Proof/Machine/PartsWeir.lean ====
section
/-!
DEFINITION. The parts of State that are not register fields, for the weirs (12_weir.md).
-/

namespace Sys2Proof.Machine

/-- What a port is to its weir (Table 12-5). -/
inductive PortRole where
  | lineUp | lineDown | crosslink
  deriving DecidableEq, Repr, Inhabited

/-- A window table (Table 12-5). Times in ns, delays in 2^-32 ns. -/
structure WinTable where
  stopped : Bool
  prof : Nat
  sEff : Nat
  tNs : Nat
  eStat : Nat
  dynEnd : Nat
  ownPos : Nat
  ownUid : Nat
  /-- role, h and D of the weir's end 1 port and end 2 port -/
  ports : List (PortRole × Nat × Int)
  /-- payload bytes per port and turn, none without the pool term (R304) -/
  bound : Option Nat
  /-- owner position and kind (1 own, 2 other) of the slots that have one: (slot, position, kind) -/
  owners : List (Nat × Nat × Nat)
  deriving DecidableEq, Repr, Inhabited

/-- What a weir counts on one of its ports in the present turn (Table 12-4, R301, R302, R304). -/
structure WeirPort where
  kicks : Nat
  hops : Nat
  dynBytes : Nat
  hf : Option Nat
  /-- weir time (2^-32 ns, free-running) of the HOP frames of R301's 250 µs and of the KICKOFF frames of its T -/
  preHops : List Nat
  preKicks : List Nat
  deriving DecidableEq, Repr, Inhabited

/-- One weir. STATE, FAIL_WHY, FENCED and OWN_BLOCKS are WEIR_STAT's fields. -/
structure Weir where
  /-- weir turn phase minus node turn phase, in 2^-32 ns -/
  offs : Int
  /-- the last 8 measured turn lengths, newest first, in 2^-32 ns (R294) -/
  lens : List Int
  /-- the weir's turn length -/
  tLen : Int
  /-- node time of the first reference frame of the previous turn, corrected by δ -/
  lastRef : Option Int
  firstRef : Option Int
  deltas : List Int
  /-- the work of this turn's NIT is done -/
  nitDone : Bool
  /-- consecutive turns with, and without, a reference frame -/
  refTurns : Nat
  noRef : Nat
  /-- turns in the present state -/
  turns : Nat
  /-- turns of W_W = g still to come (R298) -/
  wide : Nat
  table : WinTable
  next : WinTable
  /-- the present turn runs on the previous table because job 0 overran: own static frames are blocked (Table 4-4) -/
  stale : Bool
  ports : List WeirPort
  /-- own blocks of the present turn and the 63 before it (R307) -/
  blocks : List Nat
  /-- turns of the last window-memory parity failures (R309) -/
  parity : List Nat
  deriving DecidableEq, Repr, Inhabited

/-- Both weirs. -/
structure Weirs where
  w : List Weir
  /-- EARLY, LATE, WRONG, OVERSIZE by weir × 64 + SENDER (Table 12-6) -/
  counters : List (Nat × (Nat × Nat × Nat × Nat))
  /-- turn at which the fence was applied -/
  fencedAt : Nat
  /-- fence drops since then -/
  fenceDrops : Nat
  deriving DecidableEq, Repr, Inhabited

end Sys2Proof.Machine
end

