-- ==== Sys2Proof/Config.lean ====
section
/-!
DEFINITION. What one device fixes and what the spec leaves open. A constant without a body is a FREE VALUE: nothing can
be proved of its value, so a statement about it holds for every value. Cryptographic functions whose keys the model
does not hold as numbers are such constants too, applied to the data they depend on.
-/

namespace Sys2Proof.Config

/-- The n-th free value of the run, where the spec states no value (log 5). -/
opaque freeValue : Nat → BitVec 64

/-- The n-th random byte string of the security engine's generator, of a given length (R543, R609). -/
opaque random : Nat → Nat → List Byte

/-- ECDSA P-384 signature of the attestation key (R564) over a byte string: 96 bytes. -/
opaque sign : List Byte → List Byte

/-- The blocks of 64 bytes a port's receive buffer gives each credit class (R176): the spec states no share (log 31). -/
opaque hopShare : Nat → Nat

/-- The CRC-32C of a window table (R299): Table 12-5 names its fields and no layout (log 30). -/
opaque tableCrc : Machine.WinTable → BitVec 32

/-- The native width in bytes of a far window, by target UID and function ID, as the requester takes it for a write: the
spec does not say how the requester learns it (log 32). -/
opaque farWidth : Nat → Nat → Nat

/-- The bytes of an epoch (R327): the spec states its content, not its layout (log 33). -/
opaque epochBytes : Machine.EpochImage → List Byte

/-- What the bytes of an epoch say. -/
opaque epochParse : List Byte → Machine.EpochImage

/-- SHA-384 of the ROM (Table 21-4), a constant of the device. -/
opaque romDigest : BitVec 384

/-- The bytes that extend MEAS_5 and MEAS_6: Table 21-4 names their values and length, not their byte order (log 47). -/
opaque measInput : Nat → List Nat → List Byte

/-- The certificates of the chain, DeviceID, attestation key and import key (Table 21-7): their DER bytes. That of the attestation
key carries MEAS_0 to MEAS_2 (R559). -/
opaque certificate : Nat → List Nat → List Byte

/-! What Table 22-2 leaves open of an image's bytes: where the register part of sections 2, 5, 7 and 9 ends, and how senders, telegram
entries and default data are laid out (log 52). -/

/-- The register part of a section, by its type. -/
opaque registerPart : Nat → List Byte → List Byte

/-- The rest of the section. -/
opaque restPart : Nat → List Byte → List Byte

/-- Senders of the reserved streams: (stream, tenant). -/
opaque streamSenders : List Byte → List (Nat × Nat)

/-- Buffer records of section 5: (controller, buffer, words 0x00, 0x50, 0x54, 0x58); the 16 B of Table 22-2 are less than its fields. -/
opaque canRecords : List Byte → List (Nat × Nat × Nat × Nat × Nat × Nat)

/-- Telegram entries (Table 17-3). -/
opaque telegrams : List Byte → List Machine.Tel

/-- Sending tenants of published FUNCs: (FUNC, tenant). -/
opaque publishSenders : List Byte → List (Nat × Nat)

/-- Default data of parcels by FUNC (R358). -/
opaque parcelDefaults : List Byte → List (Nat × List Byte)

/-- A firmware image's version, security version, part number and certified mark (R112, R114, Table 21-13): its layout is not stated
(log 53). -/
opaque firmware : List Byte → Nat × Nat × Nat × Bool

/-- Bytes that the ingress queue of a consist port holds (R456): not stated (log 96). -/
opaque ingressRoom : Nat → Nat

/-! The debug port: the order, number and kinds of the boundary-scan cells, and what a frozen node's words hold beside what State holds
(log 55). -/

/-- The boundary-scan register captured with the given ball levels. -/
opaque boundary : List Byte → List Byte

/-- Place and width in bytes of the read-out header's fields (R614), which are not stated: 0 MAGIC, 1 FORMAT, 2 UID, 3 turn number, 4 node
time, 5 operating time, 6 cause, 7 the directory (its place alone); and of type, offset and length, 0 to 2, in a directory entry. -/
opaque headerField : Nat → Nat × Nat
opaque entryField : Nat → Nat × Nat

/-- Place and width in bytes of what section 3 gives of a weir from +0x400 on: 0 the state code, 1 its phase, 2 the own-block count. -/
opaque weirField : Nat → Nat × Nat

/-- The queue of each record of section 4 (kind, instance), and the credit of a queue that State does not hold as a number (R614). -/
opaque queueSlot : Nat → Option (Nat × Nat)
opaque queueCredit : Nat → Nat → Nat × Nat

/-- A 64-bit word of a read-out section whose content the model does not hold as bits (ECC map, CPU state, queues, SRAM) or whose layout
is not stated, by the operating time of the freeze and the address. -/
opaque frozenWord : Nat → Nat → BitVec 64

/-- The codes of LAYOUT (stopped, profile, S_eff) and of a port's role (Table 12-5) in the read-out. -/
opaque layoutCode : Bool → Nat → Nat → BitVec 32
opaque roleCode : Machine.PortRole → BitVec 8

end Sys2Proof.Config
end

