-- ==== Sys2Proof/Machine/PartsHost.lean ====
section
/-!
DEFINITION. The parts of State that are not register fields, for the millpond and turn images (14), the host interface
(15) and the far-access bridge (16).
-/

namespace Sys2Proof.Machine

/-- One millpond cell (R346, R348): `fill` is the copy stored in the present turn with the rank of Table 13-1. -/
structure Cell where
  uid : Nat
  func : Nat
  period : Nat
  size : Nat
  fill : Option (Parcel × Nat)
  ready : Option Parcel
  age : Nat
  /-- READY was stored in the turn just ended -/
  fresh : Bool
  deriving DecidableEq, Repr, Inhabited

/-- The source of an outgoing FUNC (chapter 14): a tenant or a gateway map entry; on a leader also a tenant of the follower,
whose parcels the crosslink brings (Table 13-2). -/
inductive PubSource where
  | tenant (t : Nat)
  | map (entry : Nat)
  | partner
  deriving DecidableEq, Repr, Inhabited

/-- An outgoing parcel of this logical node (R356 to R358). -/
structure OwnPub where
  func : Nat
  source : PubSource
  size : Nat
  /-- stale threshold of a map entry; a tenant's is TI_PARAM.STALE_N -/
  staleN : Nat
  dflt : List Byte
  data : List Byte
  pseq : Nat
  age : Nat
  refreshed : Bool
  /-- SEQ of the previous fetch -/
  lastSeq : Option Nat
  deriving DecidableEq, Repr, Inhabited

/-- A static frame built for a slot of the present turn (R354). -/
structure Built where
  slot : Nat
  flags : Nat
  parcels : List Parcel
  deriving DecidableEq, Repr, Inhabited

/-- The copy of a slot stored in the present turn (R315, R316): rank, epoch, channel B, parcels, sender, further copies. -/
structure Stored where
  slot : Nat
  sender : Nat
  rank : Nat
  epoch : Nat
  parcels : List Parcel
  copies : Nat
  deriving DecidableEq, Repr, Inhabited

/-- One subscription entry (Table 14-3). -/
structure SubEntry where
  func : Nat
  scope : Nat
  consist : Nat
  car : Nat
  deriving DecidableEq, Repr, Inhabited

/-- A resolved record of a turn image (R360). -/
structure ImgRec where
  sub : Nat
  func : Nat
  pos : Nat
  consist : Nat
  car : Nat
  uid : Nat
  size : Nat
  noSource : Bool
  deriving DecidableEq, Repr, Inhabited

/-- A tenant's turn image and publish state. -/
structure Image where
  subs : List SubEntry
  recs : List ImgRec
  /-- the list is to be resolved, from the tick of this turn on (R359) -/
  resolve : Option Nat
  layoutNew : Bool
  /-- the last resolution was truncated (R360) -/
  trunc : Bool
  /-- resolution of the schedule in force has been done -/
  icount : Nat
  lastTurn : Option Nat
  /-- geometry taken at the last change of TI_CTL.EN: image base, image size, publish base, publish size, offset, STALE_N -/
  base : Nat
  imgSize : Nat
  pubBase : Nat
  pubSize : Nat
  offset : Nat
  staleN : Nat
  /-- a publish fetch is under way: the FLIP it read, and the turn whose frames it is for -/
  fetch : Option (Nat × Nat)
  /-- its read met an uncorrectable SRAM error: the next image is skipped (Table 19-4) -/
  bad : Bool
  deriving DecidableEq, Repr, Inhabited

/-- One descriptor of a queue, from its fetch to its completion (R390). -/
structure Work where
  idx : Nat
  desc : Desc
  started : Bool
  /-- STATUS, CFLAGS without PHASE, RLEN, RVAL, once it is done -/
  result : Option (Nat × Nat × Nat × Nat)
  deriving DecidableEq, Repr, Inhabited

/-- One queue pair (R378 to R392). HEAD, PHASE, TAIL, INFLIGHT, RUN and EN are register fields. -/
structure Queue where
  /-- settings taken at the last change of EN (R379) -/
  sqb : Nat
  cqb : Nat
  size : Nat
  kind : Bool
  rxConsist : Bool
  irq : Bool
  vec : Nat
  /-- index of the next descriptor to fetch -/
  next : Nat
  works : List Work
  /-- completions written since the queue last signalled, and the powered time since when (R392) -/
  count : Nat
  since : Nat
  /-- the receive hold (R403), oldest first -/
  hold : List Frame
  deriving DecidableEq, Repr, Inhabited

/-- An image being staged (R396): tenant, kind, bytes received, TOTAL. A piece that waits to be written (R68) completes then. -/
structure Staging where
  tenant : Nat
  kind : Nat
  data : List Byte
  total : Nat
  /-- the LAST piece that waits to be written: tenant, queue, index, and whether the image's signature verifies -/
  last : Option (Nat × Nat × Nat × Bool)
  deriving DecidableEq, Repr, Inhabited

/-- A far transfer of this requester (R424 to R433). `owner`: the descriptor or the aperture access it belongs to. -/
inductive FarOwner where
  | desc (t q idx : Nat)
  | apWrite (port seq off : Nat)
  /-- `born`: powered time (Clock.up) of the TLP's arrival (R445) -/
  | apRead (port off born : Nat)
  deriving DecidableEq, Repr, Inhabited

structure Transfer where
  owner : FarOwner
  /-- index of the transfer in its descriptor -/
  index : Nat
  write : Bool
  tag : Option Nat
  target : Nat
  targetUid : Nat
  func : Nat
  off : Nat
  len : Nat
  pf : Nat
  /-- place of its first byte in the descriptor's buffer -/
  place : Nat
  /-- write data in buffer order; of an aperture read, the bytes taken from prefetched data that stand before the transfer's -/
  data : List Byte
  /-- it has waited for a tag, or been held back under R428, and was counted -/
  tagWait : Bool
  ordWait : Bool
  /-- turn q in which the request left, none while it waits -/
  sent : Option Nat
  /-- FSTAT, pieces, bytes, WNUM, data once answered or timed out -/
  done : Option (Nat × Nat × Nat × Nat × List Byte)
  deriving DecidableEq, Repr, Inhabited

/-- A request in the target queue (R434). -/
structure FarReq where
  pos : Nat
  write : Bool
  tag : Nat
  func : Nat
  off : Nat
  len : Nat
  pf : Nat
  rturn : Nat
  data : List Byte
  /-- the request is the node's own (R423) -/
  localReq : Bool
  deriving DecidableEq, Repr, Inhabited

/-- A prefetch entry (R439). -/
structure Prefetch where
  valid : Bool
  pos : Nat
  uid : Nat
  func : Nat
  wnum : Nat
  /-- native width in bytes, as the response gave it -/
  width : Nat
  off : Nat
  data : List Byte
  /-- turn in which the data arrived, and order of use -/
  turn : Nat
  used : Nat
  deriving DecidableEq, Repr, Inhabited

/-- An entry of an aperture's error FIFO (R443). -/
structure ApErr where
  off : Nat
  seq : Nat
  fstat : Nat
  pieces : Nat
  deriving DecidableEq, Repr, Inhabited

/-- The far-access bridge. -/
structure Far where
  transfers : List Transfer
  tqueue : List FarReq
  prefetch : List Prefetch
  /-- HITS and DISCARDS of each prefetch entry (FAR_PF_CNT shows the selected one) -/
  pfHits : List Nat
  pfDiscards : List Nat
  /-- newest read of each target window: UID, FUNC, end offset, the turn in which it was answered (R438) -/
  lastRead : List (Nat × Nat × Nat × Option Nat)
  /-- numbers of the aperture writes not answered yet, per port -/
  apOpen : List (List Nat)
  apErr : List (List ApErr)
  apLost : List Bool
  deriving DecidableEq, Repr, Inhabited

/-- The host interface. -/
structure HostIf where
  queues : List (Nat × Queue)
  images : List (Nat × Image)
  /-- Bus Master Enable per function and MSI-X mask and pending bits: (tenant × 64 + vector) -/
  masked : List (Nat × Bool)
  pba : List Nat
  /-- message addresses and data of the MSI-X tables: (tenant × 256 + 4 × vector + word, value), words that are 0 not listed -/
  vectors : List (Nat × Nat)
  staging : Option Staging
  /-- the 256 KiB window of tenant 16: (offset, byte), bytes that are 0 not listed -/
  window : List Host.Cell
  /-- NumVFs as written during a firmware restart, by port (R105) -/
  vfWait : List (Nat × Nat)
  /-- the queue from which a descriptor was last fetched of each tenant, the tenant that was served last first (R390) -/
  fetched : List (Nat × Nat)
  deriving DecidableEq, Repr, Inhabited

/-- The millpond. -/
structure Mill where
  cells : List Cell
  pubs : List OwnPub
  built : List Built
  stored : List Stored
  deriving DecidableEq, Repr, Inhabited

end Sys2Proof.Machine
end

