-- ==== Sys2Proof/Machine/PartsJob.lean ====
section
/-!
DEFINITION. The inputs that a per-turn job keeps while it runs late (R26, R93): 04_clocks_time_and_turn.md.
-/

namespace Sys2Proof.Machine

/-- What a stalled run works on: its turn, and of the data of Table 4-3 those of its own job. -/
structure Held where
  turn : Nat
  /-- cells of the millpond after the swap of that turn (job 3) -/
  cells : List Cell
  /-- data and staleness of every gateway entry's source, and the telegrams (job 5) -/
  srcs : List (List Byte × Bool)
  tels : List Tel
  /-- window tables of weirs A and B (job 0) -/
  tables : List WinTable
  /-- registers of the snapshot, by offset (job 7) -/
  snap : List (Nat × Nat)
  deriving DecidableEq, Repr, Inhabited

end Sys2Proof.Machine
end

