-- ==== Sys2Proof/Machine/PartsLine.lean ====
section
/-!
DEFINITION. The parts of State that are not register fields, for the line: ports, dynamic queues and credit,
synchronisation, start-up, inauguration, the directory, function tables and the schedule (chapters 06 to 11).
-/

namespace Sys2Proof.Machine

/-- A DYNAMIC frame waiting on a port (R166, R171). -/
structure QFrame where
  frame : Frame
  /-- the frame is the node's own, of this descriptor (tenant, queue, index) -/
  own : Option (Nat × Nat × Nat)
  /-- the port a forwarded frame came from, whose buffer it holds -/
  src : Option Nat
  deriving DecidableEq, Repr, Inhabited

/-- One line port or crosslink (06_line_ports_and_deployments.md, 08_line_synchronisation.md). STATE, RATE, CEIL, ROLE
and HELD_WHY are LPn_STAT's fields. -/
structure Port where
  /-- in PROBE: the master phase (R123) -/
  master : Bool
  /-- the rate code being trained (R124, R136) -/
  tryRate : Nat
  /-- cycle number k of R123 -/
  k : Nat
  /-- powered time at which the port's state or phase of PROBE began, and since which it has been in PROBE without any training signal
  (R123, R125 to R127) -/
  since : Nat
  quiet : Nat
  /-- identity bits of the neighbour's last HOP frame (Table 7-11), none before the first since link up -/
  nbr : Option Hop
  /-- the neighbour's LSTATE byte (R212) -/
  nbrLs : Nat
  /-- consecutive turns the neighbour has reported SYNCED (R250) -/
  nbrSynced : Nat
  /-- the link is foreign (R242) -/
  foreign : Bool
  /-- the link entered UP under inhibit and is not yet a neighbour (R239) -/
  newlink : Bool
  /-- 64-bit HOP sequence (R174) -/
  hopSeq : Nat
  /-- HOP sequence mark persisted in MRAM (R174) -/
  hopMark : Nat
  /-- T_TX of the last 8 HOP frames sent, newest first -/
  sent : List Nat
  /-- the neighbour's last HOP frame: its T_TX and its receive time stamp -/
  lastHop : Option (Nat × Nat)
  /-- the powered time at which the last HOP frame of R174's 1 ms left -/
  hopAt : Option Nat
  /-- accepted delay samples, newest first, at most 8, in 2^-32 ns (R184) -/
  samples : List Int
  rejects : Nat
  /-- cumulative grants received, per class (R176) -/
  granted : List Nat
  /-- blocks sent per class since UP -/
  used : List Nat
  /-- cumulative grants given to the neighbour, per class -/
  given : List Nat
  /-- blocks of the given credit that frames held here take, per class -/
  held : List Nat
  /-- blocks freed since the last HOP frame sent (R174) -/
  freed : Nat
  queue : List QFrame
  /-- from this time of the turn on, in 0.1 ns, the port's link is free for the pool; none before the segment (R168) -/
  poolAt : Option Nat
  /-- HOP frames sent in this turn beside that of dynamic slot 0 (R174), and own frames sent of each stream (R173) -/
  extra : Nat
  ownSent : List (Nat × Nat)
  /-- slots 1 to 3 originated on this port behind a silent upstream node in the previous and in the present turn (R153) -/
  midRun : List Nat
  midNow : List Nat
  /-- the meeting on this foreign link is decided (R244) -/
  met : Bool
  /-- the link was HELD with HELD_WHY 8 (R262) -/
  fellBack : Bool
  /-- the last valid relay frame of slots 1 to 3 stored in this turn on this port (by slot number) -/
  relay : List (Nat × Frame)
  /-- start-up observations of R216, newest first: (kind: 1 KICKOFF, 2 relay; turn; line UID; implied tick phase in 2^-32 ns, signed; hops; icount) -/
  obs : List (Nat × Nat × Nat × Int × Nat × Nat)
  deriving DecidableEq, Repr, Inhabited

/-- A sender's value in the present turn (R190, R192): position or ORIG_ADDR, ORIG_UID, hop distance, its Δ values. -/
structure SenderVal where
  pos : Nat
  uid : Nat
  dist : Nat
  deltas : List Int
  deriving DecidableEq, Repr, Inhabited

/-- Synchronisation (08_line_synchronisation.md). Times are signed, in 2^-32 ns. -/
structure Sync where
  senders : List SenderVal
  /-- M and O of the previous turn, none if it had no midpoint -/
  prevM : Option Int
  prevO : Int
  /-- turns with a midpoint since the change of R197 -/
  mids : Nat
  /-- consecutive turns with |O| > g/4 (R202) -/
  bigO : Nat
  /-- consecutive good turns (R203) -/
  goodRun : Nat
  /-- turns since SRC changed to following (R197) -/
  since : Nat
  /-- consecutive turns without a midpoint (R224) -/
  noMid : Nat
  /-- turns spent SELF_SILENT -/
  silentTurns : Nat
  /-- the rate persisted in MRAM, in 0.001 ppm (R198) -/
  histRate : Option Int
  /-- turns converged since the last rate persist -/
  persistCount : Nat
  /-- new r waiting for the next tick (R196) -/
  nextRate : Option Int
  /-- the persisted rate was used at the change of R197 -/
  usedHist : Bool
  /-- TAI arming deadline in powered time (R206) -/
  armed : Option Nat
  /-- alignment due at a turn: value of node time at its tick, in ns, and the origin it gives (R208) -/
  align : Option (Nat × Nat × Nat)
  /-- what is left to slew into node time (R209), in 2^-32 ns -/
  slew : Int
  /-- the line's time source: sender position, its ORIGIN, the turn last heard (R208) -/
  source : Option (Nat × Nat × Nat)
  /-- the turn of this node's last time message (R208), and when node time was last aligned to a gPTP grandmaster (R207) -/
  timeSent : Option Nat
  gptpAt : Option Nat
  /-- what is left of the offset correction, in 2^-32 ns, and of the 8 µs over which it is spread (R194) -/
  nit : Int
  nitLeft : Nat
  /-- the work of this turn's NIT is done -/
  nitDone : Bool
  /-- node time in whole seconds when the last PPS_OUT pulse began, or at the last step of node time -/
  ppsSec : Nat
  /-- powered time at which the PPS_OUT pulse ends (R205) -/
  ppsEnd : Nat
  deriving DecidableEq, Repr, Inhabited

/-- Start-up (09_line_start_up_and_joining.md). STATE and TURNS are LSTART_STAT's fields. -/
structure Start where
  kcount : Nat
  /-- consecutive turns without an answer in COLDSTART (R221) -/
  unanswered : Nat
  /-- an answer was counted in this turn -/
  answered : Bool
  /-- turns left of the cold-start hold after a yield (R245) -/
  hold : Nat
  /-- relay frames with ICOUNT 0 were stored in this turn, and in how many consecutive turns -/
  zeroNow : Bool
  zeroRun : Nat
  /-- entered INTEGRATING from COLDSTART: KICKOFF goes on until converged (R222) -/
  kicking : Bool
  /-- the KICKOFF line UID and port followed under R223 -/
  kickLuid : Option (Nat × Nat)
  /-- consecutive turns SYNCED (R230) -/
  synced : Nat
  /-- a LISTEN entry waits for the KICKOFF floor to be persisted (R572) -/
  floorWait : Bool
  /-- the SOLITARY inauguration: synthesis runs, then adoption at the next tick (R226, R639) -/
  solo : Bool
  /-- the node left SOLITARY and still runs its train-of-one schedule (R228) -/
  wasSolo : Bool
  /-- coupler inputs that rose without a neighbour and wait 5 s: the end of the wait in powered time, for ends 1 and 2 (R235) -/
  cplWait : List (Option Nat)
  /-- coupler inputs that fell: their ends' links enter HELD at the next tick (R235) -/
  cplHold : List Bool
  /-- turn number at the last entry into LISTEN -/
  listenAt : Nat
  /-- powered time at which t_listen ends (R215) -/
  listenEnd : Nat
  /-- a full valid turn that the partner reports, with the own node time of its implied tick in 2^-32 ns (R216, R229) -/
  found : Option (Int × FoundTurn)
  deriving DecidableEq, Repr, Inhabited

/-- A node of the directory with its numbering (R254). -/
structure Numbered where
  entry : DirEntry
  pos : Nat
  consistNo : Nat
  carNo : Nat
  reversed : Bool
  deriving DecidableEq, Repr, Inhabited

/-- A directory (R254, R255). -/
structure Directory where
  nodes : List Numbered
  icount : Nat
  profile : Nat
  root : Nat
  /-- SHA-384 digest, 384 bits -/
  digest : Nat
  adopt : Nat
  ownPos : Nat
  deriving DecidableEq, Repr, Inhabited

/-- A pending or acting trigger: kind and port, 0xFF without a port (Table 10-1). -/
structure Trigger where
  kind : Nat
  port : Nat
  deriving DecidableEq, Repr, Inhabited

/-- What a node stored from CONFIRM frames in one turn: PHASE STOP_REQ, YIELD, STOP; CFLAGS; the payloads by end. -/
structure Seen where
  stopReq : Bool
  yielded : Bool
  stop : Bool
  notReady : Bool
  mismatch : Bool
  /-- the only MISMATCH of the turn was the node's own -/
  ownOnly : Bool
  confirms : List (Nat × Confirm)
  deriving DecidableEq, Repr, Inhabited

/-- Inauguration (10_inauguration_and_numbering.md). PHASE, ATTEMPT and TURNS are INAUG_STAT's fields. -/
structure Inaug where
  dir : Option Directory
  newDir : Option Directory
  /-- no directory in force but values taken from the line: (icount, digest, n, root) (R242) -/
  lineView : Option (Nat × Nat × Nat × Nat)
  /-- the node integrated and has not yet stored a CONFIRM frame of the line its directory names: it has no phase of its own (R237, R242) -/
  joined : Bool
  pending : List Trigger
  /-- PHASE STOP_REQ (or YIELD) goes into the CONFIRM frames of the next turn / of this turn -/
  stopReqNext : Bool
  stopReq : Bool
  yieldNext : Bool
  yielding : Bool
  /-- what the CONFIRM frames stored in this turn say, and those of the turn just ended -/
  seen : Seen
  last : Seen
  /-- DIRECTORY entries stored: (end, slot, entry) (R253) -/
  wave : List (Nat × Nat × DirEntry)
  /-- ready in the previous turn, and STOP's run of ready turns (R248) -/
  readyRun : Nat
  /-- the next DISCOVER is a further attempt after a STOP for NOT_READY (R259) -/
  retry : Bool
  /-- consecutive agreeing CONFIRM turns (R258) -/
  agreeRun : Nat
  ownMismatch : Bool
  /-- h counted for end 1 and end 2 in the previous turn -/
  prevH : List (Option Nat)
  /-- learned h per end in the stopped layout, per direction in the running one -/
  h : List (Option Nat)
  /-- highest ICOUNT held since power-on reset -/
  icountMax : Nat
  /-- outstanding INAUG_REQUEST descriptors: tenant, queue, index -/
  requests : List (Nat × Nat × Nat)
  /-- powered time of the first trigger that this node raised for the inauguration to come, for INAUG_TIME (R268) -/
  trigTime : Option Nat
  /-- the trigger that the STOP_REQ due stands for (R237, R239) -/
  asking : Option Trigger
  /-- latest SEQ_GEN and heartbeat (line state, unsatisfied) per position (R157, R164) -/
  latest : List (Nat × Nat × Nat × Nat)
  /-- end 2 faces the rising positions in the numbering in force -/
  end2Asc : Bool
  deriving DecidableEq, Repr, Inhabited

/-- One demand (Table 11-3). -/
structure Demand where
  func : Nat
  cls : Nat
  period : Nat
  size : Nat
  deriving DecidableEq, Repr, Inhabited

/-- One car record (Table 11-2). -/
structure CarRec where
  uidA : Nat
  uidB : Nat
  carIndex : Nat
  paired : Bool
  demands : List Demand
  deriving DecidableEq, Repr, Inhabited

/-- A consist function table (R269) with the first 128 bits of its SHA-384 (R271). -/
structure FuncTable where
  consist : Nat
  carCount : Nat
  cars : List CarRec
  length : Nat
  digest : Nat
  deriving DecidableEq, Repr, Inhabited

/-- A node of the synthesis list (R274). -/
structure SynNode where
  consistNo : Nat
  carNo : Nat
  consist : Nat
  carIndex : Nat
  uid : Nat
  ghost : Bool
  /-- position, 0 for a ghost -/
  pos : Nat
  demands : List Demand
  deriving DecidableEq, Repr, Inhabited

/-- A placed demand: list place of its node, demand index, slot, offset, period code, parcel size and function. -/
structure Placed where
  node : Nat
  index : Nat
  slot : Nat
  offset : Nat
  demand : Demand
  deriving DecidableEq, Repr, Inhabited

/-- An unsatisfied demand with its reason (R282). -/
structure Unsat where
  node : SynNode
  index : Nat
  demand : Demand
  reason : Nat
  deriving DecidableEq, Repr, Inhabited

/-- A synthesised schedule (R275, R276). -/
structure Schedule where
  list : List SynNode
  sSyn : Nat
  poolFirst : Nat
  payload : Nat
  /-- owner of each slot from 4 upward: (slot, place in list) -/
  owners : List (Nat × Nat)
  placed : List Placed
  unsat : List Unsat
  deriving DecidableEq, Repr, Inhabited

/-- A spare-pool grant (R287). -/
structure Grant where
  uid : Nat
  pos : Nat
  first : List Nat
  home : Bool
  effect : Nat
  deriving DecidableEq, Repr, Inhabited

/-- Synthesis (11_schedule_synthesis.md). -/
structure Synth where
  ownTable : Option FuncTable
  /-- verified tables, most recently used first, and what the MRAM holds of them (R280) -/
  cache : List FuncTable
  stored : List FuncTable
  /-- fragments being assembled: digest, TLEN, pieces (offset, bytes) -/
  parts : List (Nat × Nat × List (Nat × List Byte))
  running : Bool
  sched : Option Schedule
  newSched : Option Schedule
  grants : List Grant
  /-- claim records stored this turn and in the previous turn (R287) -/
  claims : List ClaimRec
  prevClaims : List ClaimRec
  /-- POOL_RESET to be set next turn / this turn, stored in this turn / the previous one (R289) -/
  resetNext : Bool
  resetNow : Bool
  gotReset : Bool
  prevReset : Bool
  /-- the pool is emptied at the ticks of these turns, and whether the mismatch was the node's own -/
  resetAt : List (Nat × Bool)
  /-- turn of the node's own first claim record -/
  claimSince : Option Nat
  deriving DecidableEq, Repr, Inhabited

end Sys2Proof.Machine
end

