-- ==== Sys2Proof/Machine/PartsNode.lean ====
section
/-!
DEFINITION. The parts of State that are not register fields, for the node as a whole: pins, supply, clocks and jobs,
reset and boot, the tally book, the MRAM write queue. A fact that a register field shows is held in the register file
only (Regs.lean); these structures hold what the spec gives the machine beside the registers.
-/

namespace Sys2Proof.Machine

/-- Levels at the balls that the node's behaviour depends on or drives (02_package_and_signals.md, Tables 2-3 to 2-6). -/
structure Pins where
  /-- the level latched from PAIR_MODE, CHANNEL_SEL and LEADER_PREF at the last power-on reset (R27) -/
  strapPair : Bool
  strapChan : Bool
  strapPref : Bool
  /-- filtered levels (R44) -/
  cpl : List Bool
  cab : Bool
  inhibit : Bool
  /-- RESET_OUT_N is low (R45) -/
  resetOutLow : Bool
  /-- BYP_E1_N and BYP_E2_N are driven low (R50): both together -/
  bypassLow : Bool
  /-- ALARM_N as held by the mill brake: some level while frozen (R601) -/
  alarmHeld : Option Bool
  ppsOut : Bool
  /-- the line engine's keep-alive to the always-on logic is present (R50, R51) -/
  keepalive : Bool
  /-- width in µs of the TURN_OUT pulse of the present turn, 0 before the first tick (R87) -/
  turnOut : Nat
  /-- PERST_N levels of ports P and Q: true is high -/
  perst : List Bool
  /-- CLKREQ_N of ports P and Q driven low (R46) -/
  clkreqLow : List Bool
  /-- CANn_STB high (standby) -/
  canStb : List Bool
  /-- levels that other parts of the car put on the GPIO balls, as accepted: what an input shows (R31) -/
  gpioExt : Nat
  /-- FREEZE_N is held low (R607) -/
  freezeLow : Bool
  deriving DecidableEq, Repr, Inhabited

/-- One write that the node owes the MRAM, with the content it will leave there (R67 to R72). -/
inductive MramWrite where
  /-- one unit of tally records (R528) -/
  | tallyUnit
  /-- operating time, power-cycle count and area pointers, as they stand when they are written (R531) -/
  | pointers
  /-- the entries of the secure store, as they stand when they are written (R556) -/
  | keys
  /-- the verified function tables, as they stand when they are written (R280) -/
  | tables
  /-- the rate correction r (R198) -/
  | rate (r : Int)
  /-- the HOP sequence mark of a port (R174) -/
  | hopSeq (port mark : Nat)
  /-- the takeover epoch of the device (R326) -/
  | takeoverEpoch (e : Nat)
  /-- the slot control record, with the roles as they stand when it is written (R586) -/
  | slots
  deriving DecidableEq, Repr, Inhabited

/-- What a bulk write brings to the MRAM (R68). -/
inductive BulkData where
  /-- one piece of an image being staged, of a tenant's CONFIG_STAGE (R396) -/
  | piece (tenant queue idx : Nat)
  /-- a committed pair epoch: number and content (R330) -/
  | epoch (num : Nat) (content : List Byte)
  deriving DecidableEq, Repr, Inhabited

/-- A bulk write under way, with the units of at most 512 bytes that it still has to write (R68). -/
structure Bulk where
  data : BulkData
  left : Nat
  deriving DecidableEq, Repr, Inhabited

/-- Supply and power domains (03_supply_domains_and_slack.md). -/
structure Power where
  /-- VIN present and power-on reset ended (R57) -/
  on : Bool
  /-- the always-on logic lost its state while VIN and VBACK were absent (R62) -/
  aoLost : Bool
  /-- domains shed in slack, as a bit set (R67) -/
  shed : Nat
  /-- writes held back, in issue order (R67) -/
  deferred : List MramWrite
  /-- bulk writes, the one in progress first (R68) -/
  bulk : List Bulk
  /-- powered time at slack entry, and at the last unit of the trickle (R67, R71) -/
  slackAt : Nat
  trickleAt : Nat
  /-- the persist step of Table 3-3 of this slack: operating time, deferred writes queued at that moment, and whether every write of the
  step went well -/
  persistAt : Option (Nat × Nat × Bool)
  /-- what the next power-up reports of a power loss in slack: operating time, persist flag, deferred writes -/
  lostInSlack : Option (Nat × Bool × Nat)
  /-- domains asked on that are not yet powered (R64), as a bit set -/
  rising : Nat
  deriving DecidableEq, Repr, Inhabited

/-- One per-turn job on one runner (04_clocks_time_and_turn.md, Table 4-3). -/
structure Job where
  /-- the turn whose run is still incomplete (R26) -/
  run : Option Nat
  /-- consecutive overruns (R94) -/
  overs : Nat
  /-- good runs towards leaving degraded mode (Table 4-4) -/
  good : Nat
  /-- the turn in which the job degraded -/
  degSince : Option Nat
  /-- the last turn for which the job completed, in time or late, and its load in that turn, per mille -/
  lastRun : Option Nat
  load : Nat
  deriving DecidableEq, Repr, Inhabited

/-- What a device does once in a turn: its KICKOFF, its dynamic segment, its relay frame of a slot, its STATIC frame of a slot, and the publish
fetch of a tenant. -/
inductive Once where
  | kickoff
  | dynamic
  | relay (slot : Nat)
  | slot (slot : Nat)
  | fetch (tenant : Nat)
  deriving DecidableEq, Repr, Inhabited

/-- Clocks, node time and jobs. -/
structure Clock where
  /-- node time in units of 2^-32 ns, 64 bits of ns above them (R78) -/
  ntime : Nat
  /-- time that has passed since the last reset by the node's own reference, in units of 2^-32 ns: what the delays that the spec gives
  in ms and s are counted in (log 84) -/
  up : Nat
  /-- turn phase in units of 2^-32 ns (R79) -/
  phase : Nat
  /-- time still to run before phase 0, in a turn that an integration lengthened (R86) -/
  pre : Nat
  /-- turn number, 64 bits (R84) -/
  turn : Nat
  /-- operating time, 40 bits of 10 ms (R81) -/
  optime : Nat
  /-- fraction accumulator of operating time (R81) -/
  optFrac : Nat
  /-- power-cycle count, 24 bits (R531) -/
  pcycle : Nat
  /-- jobs 0 to 7, job 3 standing for port P, then job 3 of port Q and of QSPI -/
  jobs : List Job
  /-- PEAK and LAST of each job number (R91) -/
  load : List (Nat × Nat)
  /-- the turn is the one an integration stepped (R86) -/
  stepped : Bool
  /-- the _HI latch of each latched pair per requester: (requester, offset of the _HI register, value) (R82, R621) -/
  latches : List (Nat × Nat × Nat)
  /-- PPS_IN alignment and slews in progress are in Sync; the console line in progress ends at this powered time (R616) -/
  conBusy : Nat
  /-- job 7's snapshot: words other than 0 of the registers that hold an RC field, by offset, and its turn (R615) -/
  snap : List (Nat × Nat)
  snapTurn : Nat
  /-- the first slot from 4 upward that job 1 has not armed in time in the present turn, none while it keeps up (Table 4-4) -/
  armed : Option Nat
  /-- what has been done for the present turn, and fetched for the next -/
  once : List (Nat × Once)
  /-- GX deviation above 300 ppm now (R309) -/
  gxBad : Bool
  deriving DecidableEq, Repr, Inhabited

/-- One firmware bank in MRAM (R112 to R116). -/
structure Bank where
  present : Bool
  version : Nat
  svn : Nat
  /-- the signature verifies and the part is 0x0880 -/
  good : Bool
  /-- the image is marked certified by Farokel (Table 21-13) -/
  cert : Bool
  wp : Bool
  /-- SHA-384 of the image (R559) -/
  digest : Nat
  deriving DecidableEq, Repr, Inhabited

/-- Why firmware is restarting (Table 5-1). -/
inductive FwCause where
  | wdog | fault | update | cmd
  deriving DecidableEq, Repr, Inhabited

/-- Reset and boot (05_reset_boot_first_turns.md). -/
structure Boot where
  /-- the two copies of the boot loader: the digest of a copy that verifies, none of one that does not (R111, R559) -/
  bl : List (Option Nat)
  banks : List Bank
  /-- the bank control record: active bank -/
  active : Nat
  /-- a firmware restart in progress: its cause and, for an update, the bank to start -/
  restart : Option (FwCause × Option Nat)
  /-- when it began, and when each pair's lockstep restart did, in powered time (R98, R103) -/
  restartAt : Nat
  /-- operating times of the watchdog and fault restarts, newest first (R103) -/
  faultRestarts : List Nat
  /-- CPU pair i is stopped for its lockstep restart (R106) -/
  lsStopped : List Bool
  /-- operating time of pair i's last mismatch -/
  lsLast : List (Option Nat)
  /-- turn of pair i's last mismatch -/
  lsTurn : List (Option Nat)
  /-- an update restart waiting for a tick, with the descriptor that asked for it (R115): tenant, queue, index -/
  update : Option (Option (Nat × Nat × Nat))
  /-- trial of the running bank: end of trial in operating time, overruns, confirmed (R116) -/
  trialEnd : Nat
  trialOvr : Nat
  trialOk : Bool
  /-- cause that ends the trial, numbered as in Table 22-4 -/
  trialFail : Option Nat
  /-- ROM recovery: the boot loader image has been received, firmware comes next (R617) -/
  recovery : List Byte
  deriving DecidableEq, Repr, Inhabited

/-- One tally-book record (Table 20-1). -/
structure Rec where
  code : Nat
  sev : Nat
  src : Nat
  flags : Nat
  optime : Nat
  pcycle : Nat
  seq : Nat
  p0 : Nat
  p1 : Nat
  p2 : Nat
  deriving DecidableEq, Repr, Inhabited

/-- What a place of an MRAM area yields when read (R541). -/
inductive Place where
  | good (r : Rec)
  | torn
  | unreadable
  deriving DecidableEq, Repr, Inhabited

/-- One pointer block copy (R532). -/
structure PtrBlock where
  gen : Nat
  perm : Nat
  head : Nat
  count : Nat
  next : Nat
  optime : Nat
  pcycle : Nat
  valid : Bool
  deriving DecidableEq, Repr, Inhabited

/-- One sluice entry's bucket (R538, R539); its tokens and pending count are SLUk_CNT's fields. -/
structure Bucket where
  acc : Nat
  first : Nat
  last : Nat
  maxSev : Nat
  lastSrc : Nat
  deriving DecidableEq, Repr, Inhabited

/-- A tenant's clear nonce (R543). -/
structure Nonce where
  bytes : List Byte
  born : Nat
  deriving DecidableEq, Repr, Inhabited

/-- A TALLY_CLEAR whose record is queued (R545). -/
structure ClearReq where
  tenant : Nat
  queue : Nat
  idx : Nat
  /-- SEQ of its record -/
  seq : Nat
  /-- its descriptor was discarded meanwhile (R412): no completion follows -/
  gone : Bool
  deriving DecidableEq, Repr, Inhabited

/-- The tally book (20_tally_book.md). -/
structure Tally where
  /-- the SRAM queue, oldest first (R526); the volatile ring while degraded (R548) -/
  queue : List Rec
  /-- permanent area, place by place (R532) -/
  perm : List Place
  /-- circular area, by place index -/
  circ : List (Nat × Place)
  /-- emergency general ring, oldest first -/
  emer : List Rec
  /-- emergency clear ring, oldest first -/
  clears : List Rec
  /-- power die store header: operating time and power-cycle count -/
  header : Option (Nat × Nat)
  ptr : List PtrBlock
  /-- records without a place, by source (R527) -/
  overflow : List (Nat × Nat)
  buckets : List (Nat × Bucket)
  /-- operating time of the last emergency copy of a degraded recorder (R530) -/
  emerLast : Option Nat
  /-- last anchor: operating time and UTC in ns (R536) -/
  anchor : Option (Nat × Int)
  /-- UTC is set (R535) -/
  utcSet : Bool
  nonces : List (Nat × Nonce)
  clearReqs : List ClearReq
  /-- records that job 6 may still write of its present run (R528) -/
  due : Nat
  /-- records that were queued at the last tick before anything was done at it (Table 4-3) -/
  atTick : Nat
  /-- records in the volatile ring at the last reset, while the restoration of R549 is to be tried -/
  ringAtReset : Option Nat
  deriving DecidableEq, Repr, Inhabited

end Sys2Proof.Machine
end

