-- ==== Sys2Proof/Machine/PartsSec.lean ====
section
/-!
DEFINITION. The parts of State that are not register fields, for on-chip memory (19), security (21), configuration images (22)
and the mill brake with its ports (24).
-/

namespace Sys2Proof.Machine

/-- Line authentication (R567 to R575). Identifiers of the fleet keys are register fields. -/
structure LineKeys where
  active : Option (BitVec 256)
  staged : Option (BitVec 256)
  /-- retired fleet key, the rollover turn, and the turn at which it is erased -/
  retired : Option (BitVec 256 × Nat × Nat)
  salt : Option Nat
  /-- valid slot 3 frames stored in this turn: (port, parcel) -/
  slot3 : List (Nat × Service)
  /-- the salt changed in this turn, or a slot 3 frame carried another one (R571) -/
  saltUnsettled : Bool
  /-- salt of the last valid slot 3 frame stored from each port -/
  lastSalt : List (Nat × Nat)
  /-- rollover agreed for this turn number, 64 bits -/
  roll : Option Nat
  deriving DecidableEq, Repr, Inhabited

/-- A configuration image by its content (Tables 22-1 and 22-2). -/
structure CfgImage where
  version : Nat
  consist : Nat
  carIndex : Nat
  confirmReq : Bool
  /-- LR_DIGEST, 384 bits -/
  lrDigest : Nat
  /-- SHA-384 of the image -/
  digest : Nat
  /-- entries of the register sections: (section type, BAR0 offset, value) (R585) -/
  regs : List (Nat × Nat × Nat)
  /-- senders of the reserved streams: (stream, tenant) (Table 15-11) -/
  senders : List (Nat × Nat)
  table : FuncTable
  /-- buffer records: (controller, buffer, words 0x00, 0x50, 0x54, 0x58 of Table 18-4) -/
  canBufs : List (Nat × Nat × Nat × Nat × Nat × Nat)
  /-- gateway map entries, where the image has the section -/
  maps : Option (List GwEntry)
  /-- telegram entries, where the image has the section -/
  tels : Option (List Tel)
  /-- sending tenants of published FUNCs, default data of FUNCs (R351, R358) -/
  pubs : List (Nat × Nat)
  defaults : List (Nat × List Byte)
  deriving DecidableEq, Repr, Inhabited

/-- What a CONFIG_ACTIVATE or CONFIG_ROLLBACK that waits does (R589, R591, R595, R596). -/
inductive CfgKind where
  /-- a node-local activation at the next tick -/
  | activate
  /-- the same, held until RUN or slack exit -/
  | activateHeld
  /-- a line-rule activation, armed -/
  | armed
  /-- a commanded rollback at the next tick -/
  | rollback
  /-- a rollback armed as a line-rule activation (R596) -/
  | rollbackArmed
  deriving DecidableEq, Repr, Inhabited

/-- A waiting activation or rollback: its descriptor (tenant, queue, index), while there is one; its tenant; the cause of an automatic
rollback; the turn in which it began to wait. -/
structure CfgWait where
  kind : CfgKind
  desc : Option (Nat × Nat × Nat)
  tenant : Nat
  cause : Option Nat
  born : Nat
  deriving DecidableEq, Repr, Inhabited

/-- What the slot control record in MRAM says (R586): its generation, the image in the slot of each role, and whether ACTIVE is on
trial. -/
structure SlotRec where
  gen : Nat
  active : Option CfgImage
  prev : Option CfgImage
  staged : Option CfgImage
  trial : Bool
  deriving DecidableEq, Repr, Inhabited

/-- Configuration images. -/
structure Conf where
  /-- the roles in force, and whether ACTIVE is on trial -/
  active : Option CfgImage
  prev : Option CfgImage
  staged : Option CfgImage
  trial : Bool
  /-- the slot control record, as it was last written -/
  slots : SlotRec
  wait : Option CfgWait
  /-- operating time at which the trial ends, and whether it is confirmed (R593, R594) -/
  trialEnd : Nat
  confirmed : Bool
  /-- an automatic rollback is due at the next tick: its cause, and the turn in whose NIT the criterion was met (R593) -/
  failed : Option (Nat × Nat)
  /-- senders of the reserved streams in force: (stream, tenant) (Table 15-11) -/
  senders : List (Nat × Nat)
  /-- first 128 bits of the digests of the ACTIVE and the STAGED line rules, 0 without one (Table 10-3) -/
  lrActive : Nat
  lrStaged : Nat
  /-- integration was lost, or a fallback happened, during the trial (Table 22-4, cause 2) -/
  lostLine : Bool
  /-- identity registers and function table taken at the next DISCOVER (Table 22-2) -/
  ident : Option (List (Nat × Nat × Nat) × FuncTable)
  deriving DecidableEq, Repr, Inhabited

/-- A remote attestation request outstanding (R566). -/
structure AttReq where
  desc : Nat × Nat × Nat
  func : Nat
  target : Nat
  /-- UID in the request: 0 for the leader -/
  targetUid : Nat
  nonce : List Byte
  /-- ATAG and the turn q in which it left, none while it waits -/
  sent : Option (Nat × Nat)
  /-- pieces received: (offset, bytes), and TOTAL -/
  parts : List (Nat × List Byte)
  deriving DecidableEq, Repr, Inhabited

/-- What the secure store holds of keys (Table 21-2). -/
structure KeyStore where
  cfg : Option Nat
  maint : Option Nat
  active : Option (BitVec 256)
  staged : Option (BitVec 256)
  activeId : Nat
  stagedId : Nat
  deriving DecidableEq, Repr, Inhabited

/-- Security beside the line keys. -/
structure Sec where
  /-- life-cycle fuses: SEC_LC.STATE's value (Table 21-1) -/
  lifecycle : Nat
  /-- anti-rollback fuse count -/
  fuses : Nat
  cfgKey : Option Nat
  maintKey : Option Nat
  /-- the secure store's entries pass their checks (R556) -/
  storeOk : Bool
  /-- MEAS_0 to MEAS_7, 384 bits each -/
  meas : List Nat
  /-- debug and mill brake tokens accepted since boot (Table 21-6) -/
  tokens : Nat
  /-- a tamper event was latched since boot -/
  tamperBoot : Bool
  /-- sources latched on VBACK (R578) -/
  unpowered : List Nat
  /-- a wipe in progress: its causes, and whether its read-back has failed once (R520) -/
  wipe : Option (Nat × Bool)
  /-- the tamper sources whose record 0x5011 waits for the wipe's duration -/
  wipeFor : List Nat
  /-- what the MRAM holds of the secure store's keys (R556) -/
  stored : KeyStore
  /-- the security engine treats every key as absent until power-on reset (R520) -/
  locked : Bool
  /-- ATTEST requests of this device -/
  requests : List AttReq
  /-- requests of other nodes that wait here while CPU pair 1 does not run: the sender's position and the payload (R566) -/
  asked : List (Nat × List Byte)
  /-- placement groups in force since boot (R509) -/
  groups : List Nat
  deriving DecidableEq, Repr, Inhabited

/-- A read of an SRAM line as SCRUB_LINE gives it: the line, the word of it that is in error and whether it is uncorrectable, the reader,
and whether it completes a scrubber's pass. -/
structure LineRead where
  line : Nat
  err : Option (Nat × Bool)
  reader : EccReader
  last : Bool
  deriving DecidableEq, Repr, Inhabited

/-- A request that waits at an SRAM bank (R510, R511, R516): its master, none for a scrubber; the cycles it has waited; whether it has lost
arbitration; and the line read that it stands for, none for another access. -/
structure MemReq where
  bank : Nat
  master : Option Nat
  age : Nat
  lost : Bool
  read : Option LineRead
  deriving DecidableEq, Repr, Inhabited

/-- The arbiters of the SRAM banks (R511): requests that wait, in order of arrival; the banks that have granted in the present cycle; the
last winner by bank; and the offsets of words that a scrubber has marked (R514). -/
structure Mem where
  waiting : List MemReq
  granted : List Nat
  lastWon : List (Nat × Nat)
  marked : List Nat
  deriving DecidableEq, Repr, Inhabited

/-- The mill brake and the debug port (24_mill_brake_and_diagnostics.md). -/
structure Debug where
  /-- current instruction register value -/
  ir : Nat
  /-- boundary scan cells as loaded -/
  bsr : List Byte
  nonce : Option (List Byte)
  /-- operating time at which the debug token lapses; 0 none -/
  tokenEnd : Nat
  roAddr : Nat
  /-- the latch in PD0 of a freeze not yet recorded: cause and operating time (R611) -/
  frozen : Option (Nat × Nat)
  /-- turn number, node time (ns), operating time and cause at the freeze, for the read-out header (R614) -/
  header : Nat × Nat × Nat × Nat
  deriving DecidableEq, Repr, Inhabited

end Sys2Proof.Machine
end

