-- ==== Sys2Proof/Machine/Regs.lean ====
section
/-!
DEFINITION. The register fields of BAR0, one definition per row of the register tables of spec/ (chapters 01 to 24;
the offsets are those of 25_register_map.md). A field names its first register's BAR0 offset, its index dimensions
(first index, count, stride), its bits, its access code of Table 0-5 and its reset value. Where the Reset column gives
no number (a strap, a persisted or configured value, a fuse), the number here is 0 and the reset operations of Ops.lean
put the value there from the state that holds it.
-/

namespace Sys2Proof.Machine

/-- The access codes of Table 0-5 (R12). `win` is CANn_BUFWIN_k, whose access follows Table 18-4. -/
inductive Access where
  | ro | rw | w1c | wo | rc | rwl | rwp | win
  deriving DecidableEq, Repr

/-- One index of an indexed register name: its first value, how many values, and the step in bytes. -/
structure Dim where
  first : Nat
  count : Nat
  stride : Nat
  deriving DecidableEq, Repr

/-- One field of one register, or of one register per index (R10, R12, R13). -/
structure Fld where
  base : Nat
  dims : List Dim
  hi : Nat
  lo : Nat
  acc : Access
  rst : Nat
  deriving DecidableEq, Repr

/-- The number of bits of a field. -/
def Fld.width (f : Fld) : Nat := f.hi - f.lo + 1

/-- The BAR0 offset of the register that holds the field, at the given indices. -/
def dimsOff : List Dim → List Nat → Nat
  | d :: ds, i :: is => i * d.stride + dimsOff ds is
  | _, _ => 0

/-- The BAR0 offset of a field's register at the given indices. -/
def Fld.off (f : Fld) (ix : List Nat) : Nat := f.base + dimsOff f.dims ix

/-- A field instance's place in the register file: offset and lowest bit. -/
def Fld.key (f : Fld) (ix : List Nat) : Nat := 32 * f.off ix + f.lo

/-- The indices at which a distance from the first register lies, if it is one of the field's registers. -/
def dimsFind : List Dim → Nat → Option (List Nat)
  | [], d => if d = 0 then some [] else none
  | x :: xs, d =>
    let i := d / x.stride
    if x.first ≤ i ∧ i < x.first + x.count then (dimsFind xs (d % x.stride)).map (fun r => i :: r) else none

/-- The indices at which the field lies in the register at a BAR0 offset, if it does. -/
def Fld.find (f : Fld) (off : Nat) : Option (List Nat) :=
  if f.base ≤ off then dimsFind f.dims (off - f.base) else none

namespace Reg

-- IDENT (01_node_architecture.md)
def IDENT_FAMILY : Fld := ⟨0x0, [], 31, 16, .ro, 0x4c4a⟩
def IDENT_PART : Fld := ⟨0x0, [], 15, 0, .ro, 0x880⟩
-- REV (01_node_architecture.md)
def REV_MAJOR : Fld := ⟨0x4, [], 7, 4, .ro, 2⟩
def REV_MINOR : Fld := ⟨0x4, [], 3, 0, .ro, 0⟩
-- UID_LO (01_node_architecture.md)
def UID_LO_UID : Fld := ⟨0x8, [], 31, 0, .ro, 0⟩
-- UID_HI (01_node_architecture.md)
def UID_HI_UID : Fld := ⟨0xC, [], 31, 0, .ro, 0⟩
-- CAPS (01_node_architecture.md)
def CAPS_PCIE_GEN : Fld := ⟨0x10, [], 27, 24, .ro, 4⟩
def CAPS_PROFILE_MAX : Fld := ⟨0x10, [], 23, 21, .ro, 3⟩
def CAPS_TENANTS : Fld := ⟨0x10, [], 20, 16, .ro, 0x11⟩
def CAPS_CAN : Fld := ⟨0x10, [], 15, 12, .ro, 8⟩
def CAPS_CON_SERDES : Fld := ⟨0x10, [], 11, 10, .ro, 2⟩
def CAPS_CON_T1S : Fld := ⟨0x10, [], 9, 8, .ro, 2⟩
def CAPS_CON_T1 : Fld := ⟨0x10, [], 7, 4, .ro, 8⟩
def CAPS_LINE_PORTS : Fld := ⟨0x10, [], 3, 0, .ro, 4⟩
-- STRAP_STAT (01_node_architecture.md)
def STRAP_STAT_LEADER_PREF : Fld := ⟨0x14, [], 2, 2, .ro, 0⟩
def STRAP_STAT_CHANNEL_SEL : Fld := ⟨0x14, [], 1, 1, .ro, 0⟩
def STRAP_STAT_PAIR_MODE : Fld := ⟨0x14, [], 0, 0, .ro, 0⟩
-- GLOBAL_STAT (01_node_architecture.md)
def GLOBAL_STAT_CONFIG_VALID : Fld := ⟨0x18, [], 6, 6, .ro, 0⟩
def GLOBAL_STAT_ROLE : Fld := ⟨0x18, [], 5, 4, .ro, 0⟩
def GLOBAL_STAT_ALARM : Fld := ⟨0x18, [], 2, 2, .ro, 0⟩
def GLOBAL_STAT_FW_RESTART : Fld := ⟨0x18, [], 1, 1, .ro, 0⟩
def GLOBAL_STAT_FW_READY : Fld := ⟨0x18, [], 0, 0, .ro, 0⟩
-- GLOBAL_SCRATCH (01_node_architecture.md)
def GLOBAL_SCRATCH_VAL : Fld := ⟨0x1C, [], 31, 0, .rwp, 0⟩
-- GPIO_DIR (01_node_architecture.md)
def GPIO_DIR_OD : Fld := ⟨0x24, [], 31, 16, .rwl, 0⟩
def GPIO_DIR_OUT : Fld := ⟨0x24, [], 15, 0, .rwl, 0⟩
-- GPIO_OUT (01_node_architecture.md)
def GPIO_OUT_VAL : Fld := ⟨0x28, [], 15, 0, .rw, 0⟩
-- GPIO_IN (01_node_architecture.md)
def GPIO_IN_LEVEL : Fld := ⟨0x2C, [], 15, 0, .ro, 0⟩
-- GPIO_EDGE (01_node_architecture.md)
def GPIO_EDGE_FALL : Fld := ⟨0x30, [], 31, 16, .w1c, 0⟩
def GPIO_EDGE_RISE : Fld := ⟨0x30, [], 15, 0, .w1c, 0⟩
-- GPIO_IRQ (01_node_architecture.md)
def GPIO_IRQ_VEC : Fld := ⟨0x34, [], 31, 24, .rw, 0⟩
def GPIO_IRQ_PF : Fld := ⟨0x34, [], 16, 16, .rw, 0⟩
def GPIO_IRQ_EN : Fld := ⟨0x34, [], 15, 0, .rw, 0⟩
-- GPIO_LOCK (01_node_architecture.md)
def GPIO_LOCK_LOCK : Fld := ⟨0xFC, [], 0, 0, .rw, 0⟩
-- PWR_STAT (03_supply_domains_and_slack.md)
def PWR_STAT_PD_ON : Fld := ⟨0x10000, [], 19, 8, .ro, 0⟩
def PWR_STAT_SHED : Fld := ⟨0x10000, [], 6, 6, .ro, 0⟩
def PWR_STAT_AO_COLD : Fld := ⟨0x10000, [], 5, 5, .ro, 0⟩
def PWR_STAT_VBACK_OK : Fld := ⟨0x10000, [], 4, 4, .ro, 0⟩
def PWR_STAT_VOUT_OVL : Fld := ⟨0x10000, [], 3, 3, .w1c, 0⟩
def PWR_STAT_VOUT_OK : Fld := ⟨0x10000, [], 2, 2, .ro, 0⟩
def PWR_STAT_TRICKLE : Fld := ⟨0x10000, [], 1, 1, .ro, 0⟩
def PWR_STAT_SLACK : Fld := ⟨0x10000, [], 0, 0, .ro, 0⟩
-- PWR_VIN (03_supply_domains_and_slack.md)
def PWR_VIN_VIN_MIN : Fld := ⟨0x10004, [], 31, 16, .rc, 0xffff⟩
def PWR_VIN_VIN : Fld := ⟨0x10004, [], 15, 0, .ro, 0⟩
-- PWR_WARN (03_supply_domains_and_slack.md)
def PWR_WARN_LEVEL : Fld := ⟨0x10008, [], 8, 0, .rwl, 0⟩
-- PWR_SLACK_CNT (03_supply_domains_and_slack.md)
def PWR_SLACK_CNT_RECOVERED : Fld := ⟨0x1000C, [], 31, 16, .ro, 0⟩
def PWR_SLACK_CNT_ENTRIES : Fld := ⟨0x1000C, [], 15, 0, .ro, 0⟩
-- PWR_DIP (03_supply_domains_and_slack.md)
def PWR_DIP_DURATION : Fld := ⟨0x10010, [], 31, 16, .ro, 0⟩
def PWR_DIP_MIN : Fld := ⟨0x10010, [], 15, 0, .ro, 0⟩
-- PWR_SHED (03_supply_domains_and_slack.md)
def PWR_SHED_DELAY : Fld := ⟨0x10014, [], 23, 16, .rwl, 0⟩
def PWR_SHED_DOMAINS : Fld := ⟨0x10014, [], 9, 4, .rwl, 0⟩
-- PWR_SW (03_supply_domains_and_slack.md)
def PWR_SW_OFF : Fld := ⟨0x10018, [], 9, 4, .rw, 0⟩
-- PWR_SW_ERR (03_supply_domains_and_slack.md)
def PWR_SW_ERR_REFUSED : Fld := ⟨0x1001C, [], 9, 4, .w1c, 0⟩
-- PWR_LOCK (03_supply_domains_and_slack.md)
def PWR_LOCK_LOCK : Fld := ⟨0x10020, [], 0, 0, .rw, 0⟩
-- CLK_STAT (04_clocks_time_and_turn.md)
def CLK_STAT_XT32_LOST : Fld := ⟨0x10100, [], 8, 8, .w1c, 0⟩
def CLK_STAT_LOCK_GUARD : Fld := ⟨0x10100, [], 7, 7, .ro, 0⟩
def CLK_STAT_LOCK_NVM : Fld := ⟨0x10100, [], 6, 6, .ro, 0⟩
def CLK_STAT_LOCK_CPU : Fld := ⟨0x10100, [], 5, 5, .ro, 0⟩
def CLK_STAT_LOCK_FAB : Fld := ⟨0x10100, [], 4, 4, .ro, 0⟩
def CLK_STAT_XT32_OK : Fld := ⟨0x10100, [], 3, 3, .ro, 0⟩
def CLK_STAT_GX_OK : Fld := ⟨0x10100, [], 2, 2, .ro, 0⟩
def CLK_STAT_REF_OK : Fld := ⟨0x10100, [], 1, 1, .ro, 0⟩
def CLK_STAT_REF_SRC : Fld := ⟨0x10100, [], 0, 0, .ro, 0⟩
-- CLK_GX_PPM (04_clocks_time_and_turn.md)
def CLK_GX_PPM_DIFF : Fld := ⟨0x10104, [], 15, 0, .ro, 0⟩
-- OPTIME_LO (04_clocks_time_and_turn.md)
def OPTIME_LO_OPTIME : Fld := ⟨0x10108, [], 31, 0, .ro, 0⟩
-- OPTIME_HI (04_clocks_time_and_turn.md)
def OPTIME_HI_OPTIME : Fld := ⟨0x1010C, [], 7, 0, .ro, 0⟩
-- TURN_CTL (04_clocks_time_and_turn.md)
def TURN_CTL_TOUT_W : Fld := ⟨0x40000, [], 15, 8, .rwl, 1⟩
def TURN_CTL_EN : Fld := ⟨0x40000, [], 0, 0, .rw, 0⟩
-- TURN_LEN (04_clocks_time_and_turn.md)
def TURN_LEN_LEN_ACT : Fld := ⟨0x40004, [], 28, 16, .ro, 0x3e8⟩
def TURN_LEN_LEN : Fld := ⟨0x40004, [], 12, 0, .rwl, 0x3e8⟩
-- TURN_NUM_LO (04_clocks_time_and_turn.md)
def TURN_NUM_LO_NUM : Fld := ⟨0x40008, [], 31, 0, .ro, 0⟩
-- TURN_NUM_HI (04_clocks_time_and_turn.md)
def TURN_NUM_HI_NUM : Fld := ⟨0x4000C, [], 31, 0, .ro, 0⟩
-- TURN_STAT (04_clocks_time_and_turn.md)
def TURN_STAT_PHASE : Fld := ⟨0x40010, [], 31, 16, .ro, 0⟩
def TURN_STAT_STEP : Fld := ⟨0x40010, [], 2, 2, .w1c, 0⟩
def TURN_STAT_SRC : Fld := ⟨0x40010, [], 1, 0, .ro, 0⟩
-- TURN_LOAD (04_clocks_time_and_turn.md)
def TURN_LOAD_CLR : Fld := ⟨0x40014, [], 31, 31, .wo, 0⟩
def TURN_LOAD_SEL : Fld := ⟨0x40014, [], 30, 28, .rw, 0⟩
def TURN_LOAD_PEAK : Fld := ⟨0x40014, [], 25, 16, .ro, 0⟩
def TURN_LOAD_LAST : Fld := ⟨0x40014, [], 9, 0, .ro, 0⟩
-- TURN_OVR (04_clocks_time_and_turn.md)
def TURN_OVR_DEG_PORT : Fld := ⟨0x40018, [], 18, 16, .ro, 0⟩
def TURN_OVR_DEGRADED : Fld := ⟨0x40018, [], 15, 8, .ro, 0⟩
def TURN_OVR_OVR : Fld := ⟨0x40018, [], 7, 0, .w1c, 0⟩
-- TURN_OVR_CNT_A (04_clocks_time_and_turn.md)
def TURN_OVR_CNT_A_JOB3 : Fld := ⟨0x4001C, [], 31, 24, .rc, 0⟩
def TURN_OVR_CNT_A_JOB2 : Fld := ⟨0x4001C, [], 23, 16, .rc, 0⟩
def TURN_OVR_CNT_A_JOB1 : Fld := ⟨0x4001C, [], 15, 8, .rc, 0⟩
def TURN_OVR_CNT_A_JOB0 : Fld := ⟨0x4001C, [], 7, 0, .rc, 0⟩
-- TURN_OVR_CNT_B (04_clocks_time_and_turn.md)
def TURN_OVR_CNT_B_JOB7 : Fld := ⟨0x40020, [], 31, 24, .rc, 0⟩
def TURN_OVR_CNT_B_JOB6 : Fld := ⟨0x40020, [], 23, 16, .rc, 0⟩
def TURN_OVR_CNT_B_JOB5 : Fld := ⟨0x40020, [], 15, 8, .rc, 0⟩
def TURN_OVR_CNT_B_JOB4 : Fld := ⟨0x40020, [], 7, 0, .rc, 0⟩
-- NTIME_LO (04_clocks_time_and_turn.md)
def NTIME_LO_NS : Fld := ⟨0x40024, [], 31, 0, .ro, 0⟩
-- NTIME_HI (04_clocks_time_and_turn.md)
def NTIME_HI_NS : Fld := ⟨0x40028, [], 31, 0, .ro, 0⟩
-- NTIME_RATE (04_clocks_time_and_turn.md)
def NTIME_RATE_RATE : Fld := ⟨0x4002C, [], 31, 0, .ro, 0⟩
-- TIME_STAT (04_clocks_time_and_turn.md)
def TIME_STAT_ORIGIN : Fld := ⟨0x40030, [], 1, 0, .ro, 0⟩
-- LINE_LOCK (04_clocks_time_and_turn.md)
def LINE_LOCK_LOCK : Fld := ⟨0x4003C, [], 0, 0, .rw, 0⟩
-- RST_CAUSE (05_reset_boot_first_turns.md)
def RST_CAUSE_ESCALATE : Fld := ⟨0x20000, [], 11, 11, .w1c, 0⟩
def RST_CAUSE_LS1 : Fld := ⟨0x20000, [], 10, 10, .w1c, 0⟩
def RST_CAUSE_LS0 : Fld := ⟨0x20000, [], 9, 9, .w1c, 0⟩
def RST_CAUSE_FW_CMD : Fld := ⟨0x20000, [], 8, 8, .w1c, 0⟩
def RST_CAUSE_FW_UPDATE : Fld := ⟨0x20000, [], 7, 7, .w1c, 0⟩
def RST_CAUSE_FW_FAULT : Fld := ⟨0x20000, [], 6, 6, .w1c, 0⟩
def RST_CAUSE_FW_WDOG : Fld := ⟨0x20000, [], 5, 5, .w1c, 0⟩
def RST_CAUSE_FATAL : Fld := ⟨0x20000, [], 4, 4, .w1c, 0⟩
def RST_CAUSE_REF_LOST : Fld := ⟨0x20000, [], 3, 3, .w1c, 0⟩
def RST_CAUSE_VIN_RST : Fld := ⟨0x20000, [], 2, 2, .w1c, 0⟩
def RST_CAUSE_RESET_N : Fld := ⟨0x20000, [], 1, 1, .w1c, 0⟩
def RST_CAUSE_POR : Fld := ⟨0x20000, [], 0, 0, .w1c, 0⟩
-- RST_CNT (05_reset_boot_first_turns.md)
def RST_CNT_LS : Fld := ⟨0x20004, [], 31, 16, .ro, 0⟩
def RST_CNT_FW : Fld := ⟨0x20004, [], 15, 0, .ro, 0⟩
-- RST_CMD (05_reset_boot_first_turns.md)
def RST_CMD_KEY : Fld := ⟨0x20008, [], 31, 24, .wo, 0⟩
def RST_CMD_ACTION : Fld := ⟨0x20008, [], 1, 0, .wo, 0⟩
-- BOOT_STAT (05_reset_boot_first_turns.md)
def BOOT_STAT_TIME : Fld := ⟨0x2000C, [], 31, 16, .ro, 0⟩
def BOOT_STAT_BL_COPY : Fld := ⟨0x2000C, [], 6, 6, .ro, 0⟩
def BOOT_STAT_FALLBACK : Fld := ⟨0x2000C, [], 5, 5, .ro, 0⟩
def BOOT_STAT_BANK : Fld := ⟨0x2000C, [], 4, 4, .ro, 0⟩
def BOOT_STAT_STAGE : Fld := ⟨0x2000C, [], 3, 0, .ro, 0⟩
-- FW_BANK_STAT (05_reset_boot_first_turns.md)
def FW_BANK_STAT_BANK1_VALID : Fld := ⟨0x20010, [], 9, 9, .ro, 0⟩
def FW_BANK_STAT_BANK0_VALID : Fld := ⟨0x20010, [], 8, 8, .ro, 0⟩
def FW_BANK_STAT_TRIAL : Fld := ⟨0x20010, [], 1, 1, .ro, 0⟩
def FW_BANK_STAT_ACTIVE : Fld := ⟨0x20010, [], 0, 0, .ro, 0⟩
-- FW_VER_0 (05_reset_boot_first_turns.md)
def FW_VER_0_VER : Fld := ⟨0x20014, [], 31, 0, .ro, 0⟩
-- FW_VER_1 (05_reset_boot_first_turns.md)
def FW_VER_1_VER : Fld := ⟨0x20018, [], 31, 0, .ro, 0⟩
-- FW_SVN (05_reset_boot_first_turns.md)
def FW_SVN_BANK1 : Fld := ⟨0x2001C, [], 22, 16, .ro, 0⟩
def FW_SVN_BANK0 : Fld := ⟨0x2001C, [], 14, 8, .ro, 0⟩
def FW_SVN_FUSE : Fld := ⟨0x2001C, [], 6, 0, .ro, 0⟩
-- FIRST_USE (05_reset_boot_first_turns.md)
def FIRST_USE_NO_PREV_FW : Fld := ⟨0x20020, [], 5, 5, .ro, 0⟩
def FIRST_USE_NO_PREV_CFG : Fld := ⟨0x20020, [], 4, 4, .ro, 0⟩
def FIRST_USE_OPTIME_ZERO : Fld := ⟨0x20020, [], 3, 3, .ro, 0⟩
def FIRST_USE_PAIR_EPOCH : Fld := ⟨0x20020, [], 1, 1, .ro, 0⟩
def FIRST_USE_RATE_HIST : Fld := ⟨0x20020, [], 0, 0, .ro, 0⟩
-- LS_STAT (05_reset_boot_first_turns.md)
def LS_STAT_PAIR1 : Fld := ⟨0x20024, [], 15, 8, .rc, 0⟩
def LS_STAT_PAIR0 : Fld := ⟨0x20024, [], 7, 0, .rc, 0⟩
-- LPn_CTL (06_line_ports_and_deployments.md)
def LPn_CTL_RETRY : Fld := ⟨0x40100, [⟨0, 4, 0x20⟩], 16, 16, .wo, 0⟩
def LPn_CTL_SEG_B : Fld := ⟨0x40100, [⟨0, 4, 0x20⟩], 10, 10, .rwl, 0⟩
def LPn_CTL_MIN : Fld := ⟨0x40100, [⟨0, 4, 0x20⟩], 9, 8, .rwl, 0⟩
def LPn_CTL_MODES : Fld := ⟨0x40100, [⟨0, 4, 0x20⟩], 7, 4, .rwl, 0xf⟩
def LPn_CTL_EN : Fld := ⟨0x40100, [⟨0, 4, 0x20⟩], 0, 0, .rwl, 0⟩
-- LPn_STAT (06_line_ports_and_deployments.md)
def LPn_STAT_XL_CROSSED : Fld := ⟨0x40104, [⟨0, 4, 0x20⟩], 25, 25, .ro, 0⟩
def LPn_STAT_SQI : Fld := ⟨0x40104, [⟨0, 4, 0x20⟩], 23, 20, .ro, 0⟩
def LPn_STAT_HELD_WHY : Fld := ⟨0x40104, [⟨0, 4, 0x20⟩], 19, 16, .ro, 0⟩
def LPn_STAT_XL : Fld := ⟨0x40104, [⟨0, 4, 0x20⟩], 15, 15, .ro, 0⟩
def LPn_STAT_CEIL : Fld := ⟨0x40104, [⟨0, 4, 0x20⟩], 14, 12, .ro, 4⟩
def LPn_STAT_ROLE : Fld := ⟨0x40104, [⟨0, 4, 0x20⟩], 9, 8, .ro, 0⟩
def LPn_STAT_RATE : Fld := ⟨0x40104, [⟨0, 4, 0x20⟩], 6, 4, .ro, 0⟩
def LPn_STAT_STATE : Fld := ⟨0x40104, [⟨0, 4, 0x20⟩], 2, 0, .ro, 0⟩
-- LPn_NBR_LO (06_line_ports_and_deployments.md)
def LPn_NBR_LO_UID : Fld := ⟨0x40108, [⟨0, 4, 0x20⟩], 31, 0, .ro, 0⟩
-- LPn_NBR_HI (06_line_ports_and_deployments.md)
def LPn_NBR_HI_UID : Fld := ⟨0x4010C, [⟨0, 4, 0x20⟩], 31, 0, .ro, 0⟩
-- LPn_CNT (06_line_ports_and_deployments.md)
def LPn_CNT_DOWNS : Fld := ⟨0x40110, [⟨0, 4, 0x20⟩], 31, 16, .rc, 0⟩
def LPn_CNT_TRAIN_FAIL : Fld := ⟨0x40110, [⟨0, 4, 0x20⟩], 15, 0, .rc, 0⟩
-- LINE_DEPLOY (06_line_ports_and_deployments.md)
def LINE_DEPLOY_LINK_MIN : Fld := ⟨0x40180, [], 13, 11, .ro, 0⟩
def LINE_DEPLOY_PROFILE : Fld := ⟨0x40180, [], 9, 8, .ro, 0⟩
def LINE_DEPLOY_END2_NBR : Fld := ⟨0x40180, [], 5, 5, .ro, 0⟩
def LINE_DEPLOY_END1_NBR : Fld := ⟨0x40180, [], 4, 4, .ro, 0⟩
def LINE_DEPLOY_PAIR_FAULT : Fld := ⟨0x40180, [], 2, 2, .ro, 0⟩
def LINE_DEPLOY_CHANNEL : Fld := ⟨0x40180, [], 1, 1, .ro, 0⟩
def LINE_DEPLOY_PAIRED : Fld := ⟨0x40180, [], 0, 0, .ro, 0⟩
-- LINE_RULES (07_line_cycle_and_frames.md)
def LINE_RULES_SLOTS : Fld := ⟨0x40200, [], 25, 16, .rwl, 0x43⟩
def LINE_RULES_PROF_ALLOW : Fld := ⟨0x40200, [], 11, 8, .rwl, 0xf⟩
-- LINE_LAYOUT (07_line_cycle_and_frames.md)
def LINE_LAYOUT_STOPPED : Fld := ⟨0x40204, [], 31, 31, .ro, 1⟩
def LINE_LAYOUT_TPROF : Fld := ⟨0x40204, [], 29, 28, .ro, 0⟩
def LINE_LAYOUT_SLOTS_EFF : Fld := ⟨0x40204, [], 25, 16, .ro, 0x43⟩
def LINE_LAYOUT_POSITIONS : Fld := ⟨0x40204, [], 13, 8, .ro, 0x3f⟩
-- LINE_DYN_START (07_line_cycle_and_frames.md)
def LINE_DYN_START_NS : Fld := ⟨0x40208, [], 23, 0, .ro, 0⟩
-- LINE_DYN_END (07_line_cycle_and_frames.md)
def LINE_DYN_END_NS : Fld := ⟨0x4020C, [], 23, 0, .ro, 0⟩
-- LINE_SVC_LIFE (07_line_cycle_and_frames.md)
def LINE_SVC_LIFE_POOL : Fld := ⟨0x40210, [], 15, 8, .rwl, 0⟩
def LINE_SVC_LIFE_SVC : Fld := ⟨0x40210, [], 7, 0, .rwl, 0⟩
-- LINE_HOPS (07_line_cycle_and_frames.md)
def LINE_HOPS_DESC : Fld := ⟨0x40214, [], 13, 8, .ro, 0⟩
def LINE_HOPS_ASC : Fld := ⟨0x40214, [], 5, 0, .ro, 0⟩
-- LPn_RXERR_A (07_line_cycle_and_frames.md)
def LPn_RXERR_A_FCS : Fld := ⟨0x40114, [⟨0, 4, 0x20⟩], 31, 16, .rc, 0⟩
def LPn_RXERR_A_HDR : Fld := ⟨0x40114, [⟨0, 4, 0x20⟩], 15, 0, .rc, 0⟩
-- LPn_RXERR_B (07_line_cycle_and_frames.md)
def LPn_RXERR_B_TAG : Fld := ⟨0x40118, [⟨0, 4, 0x20⟩], 31, 16, .rc, 0⟩
def LPn_RXERR_B_ICNT : Fld := ⟨0x40118, [⟨0, 4, 0x20⟩], 15, 0, .rc, 0⟩
-- LPn_FWD_CNT (07_line_cycle_and_frames.md)
def LPn_FWD_CNT_STOMPED : Fld := ⟨0x4011C, [⟨0, 4, 0x20⟩], 31, 20, .rc, 0⟩
def LPn_FWD_CNT_LIFE_DROP : Fld := ⟨0x4011C, [⟨0, 4, 0x20⟩], 19, 8, .rc, 0⟩
def LPn_FWD_CNT_KICK_DROP : Fld := ⟨0x4011C, [⟨0, 4, 0x20⟩], 7, 0, .rc, 0⟩
-- LPn_HOP_STALL (07_line_cycle_and_frames.md)
def LPn_HOP_STALL_SLOTS : Fld := ⟨0x40300, [⟨0, 4, 0x8⟩], 31, 0, .rc, 0⟩
-- LINE_STREAM_m (07_line_cycle_and_frames.md)
def LINE_STREAM_m_BUDGET : Fld := ⟨0x40400, [⟨16, 240, 0x4⟩], 31, 16, .rwl, 0⟩
def LINE_STREAM_m_LIFE : Fld := ⟨0x40400, [⟨16, 240, 0x4⟩], 15, 8, .rwl, 0⟩
def LINE_STREAM_m_EN : Fld := ⟨0x40400, [⟨16, 240, 0x4⟩], 0, 0, .rwl, 0⟩
-- SYNC_CTL (08_line_synchronisation.md)
def SYNC_CTL_USE_HIST : Fld := ⟨0x40800, [], 16, 16, .rwl, 1⟩
def SYNC_CTL_PPS_OUT_EN : Fld := ⟨0x40800, [], 8, 8, .rwl, 1⟩
def SYNC_CTL_PPS_W : Fld := ⟨0x40800, [], 7, 0, .rwl, 0⟩
-- SYNC_STAT (08_line_synchronisation.md)
def SYNC_STAT_CONVERGED : Fld := ⟨0x40804, [], 31, 31, .ro, 0⟩
def SYNC_STAT_WIDE : Fld := ⟨0x40804, [], 30, 30, .ro, 0⟩
def SYNC_STAT_SELF_SILENT : Fld := ⟨0x40804, [], 29, 29, .ro, 0⟩
def SYNC_STAT_RATE_CLAMP : Fld := ⟨0x40804, [], 28, 28, .ro, 0⟩
def SYNC_STAT_SENDERS : Fld := ⟨0x40804, [], 20, 16, .ro, 0⟩
def SYNC_STAT_GOOD : Fld := ⟨0x40804, [], 15, 8, .ro, 0⟩
def SYNC_STAT_CONV_TURNS : Fld := ⟨0x40804, [], 7, 0, .ro, 0⟩
-- SYNC_OFFSET (08_line_synchronisation.md)
def SYNC_OFFSET_OFFSET : Fld := ⟨0x40808, [], 31, 0, .ro, 0⟩
-- SYNC_CNT (08_line_synchronisation.md)
def SYNC_CNT_NOSRC : Fld := ⟨0x4080C, [], 31, 16, .rc, 0⟩
def SYNC_CNT_SILENT : Fld := ⟨0x4080C, [], 15, 8, .rc, 0⟩
def SYNC_CNT_CLAMP : Fld := ⟨0x4080C, [], 7, 0, .rc, 0⟩
-- SYNC_HIST (08_line_synchronisation.md)
def SYNC_HIST_RATE : Fld := ⟨0x40810, [], 31, 0, .ro, 0⟩
-- LPn_DELAY (08_line_synchronisation.md)
def LPn_DELAY_VALID : Fld := ⟨0x40820, [⟨0, 4, 0x8⟩], 31, 31, .ro, 0⟩
def LPn_DELAY_OUTLIERS : Fld := ⟨0x40820, [⟨0, 4, 0x8⟩], 23, 16, .rc, 0⟩
def LPn_DELAY_D : Fld := ⟨0x40820, [⟨0, 4, 0x8⟩], 15, 0, .ro, 0⟩
-- TAI_SET_SEC (08_line_synchronisation.md)
def TAI_SET_SEC_SEC : Fld := ⟨0x40840, [], 31, 0, .rw, 0⟩
-- TAI_CTL (08_line_synchronisation.md)
def TAI_CTL_MISSED : Fld := ⟨0x40844, [], 4, 4, .w1c, 0⟩
def TAI_CTL_ARM : Fld := ⟨0x40844, [], 0, 0, .rw, 0⟩
-- LSTART_STAT (09_line_start_up_and_joining.md)
def LSTART_STAT_TURNS : Fld := ⟨0x40900, [], 31, 16, .ro, 0⟩
def LSTART_STAT_SPLIT_E2 : Fld := ⟨0x40900, [], 13, 13, .w1c, 0⟩
def LSTART_STAT_SPLIT_E1 : Fld := ⟨0x40900, [], 12, 12, .w1c, 0⟩
def LSTART_STAT_HOLD : Fld := ⟨0x40900, [], 11, 11, .ro, 0⟩
def LSTART_STAT_PENDING : Fld := ⟨0x40900, [], 10, 10, .ro, 0⟩
def LSTART_STAT_SRC_KIND : Fld := ⟨0x40900, [], 9, 8, .ro, 0⟩
def LSTART_STAT_PREV : Fld := ⟨0x40900, [], 6, 4, .ro, 0⟩
def LSTART_STAT_STATE : Fld := ⟨0x40900, [], 2, 0, .ro, 0⟩
-- LSTART_UID_LO (09_line_start_up_and_joining.md)
def LSTART_UID_LO_UID : Fld := ⟨0x40904, [], 31, 0, .ro, 0⟩
-- LSTART_UID_HI (09_line_start_up_and_joining.md)
def LSTART_UID_HI_UID : Fld := ⟨0x40908, [], 31, 0, .ro, 0⟩
-- LSTART_REF (09_line_start_up_and_joining.md)
def LSTART_REF_UID : Fld := ⟨0x4090C, [], 31, 0, .ro, 0⟩
-- LSTART_TMO (09_line_start_up_and_joining.md)
def LSTART_TMO_US : Fld := ⟨0x40910, [], 15, 0, .ro, 0⟩
-- LSTART_CNT (09_line_start_up_and_joining.md)
def LSTART_CNT_COLD : Fld := ⟨0x40914, [], 31, 24, .rc, 0⟩
def LSTART_CNT_ABANDON : Fld := ⟨0x40914, [], 23, 16, .rc, 0⟩
def LSTART_CNT_SOLO : Fld := ⟨0x40914, [], 15, 8, .rc, 0⟩
def LSTART_CNT_LOST : Fld := ⟨0x40914, [], 7, 0, .rc, 0⟩
-- INAUG_STAT (10_inauguration_and_numbering.md)
def INAUG_STAT_TURNS : Fld := ⟨0x60000, [], 31, 24, .ro, 0⟩
def INAUG_STAT_FALLBACK_NODE : Fld := ⟨0x60000, [], 20, 20, .ro, 0⟩
def INAUG_STAT_FALLBACK_CONSIST : Fld := ⟨0x60000, [], 19, 19, .ro, 0⟩
def INAUG_STAT_NEWLINK_E2 : Fld := ⟨0x60000, [], 18, 18, .ro, 0⟩
def INAUG_STAT_NEWLINK_E1 : Fld := ⟨0x60000, [], 17, 17, .ro, 0⟩
def INAUG_STAT_FOREIGN_E2 : Fld := ⟨0x60000, [], 15, 15, .ro, 0⟩
def INAUG_STAT_FOREIGN_E1 : Fld := ⟨0x60000, [], 14, 14, .ro, 0⟩
def INAUG_STAT_CAB : Fld := ⟨0x60000, [], 13, 13, .ro, 0⟩
def INAUG_STAT_CPL_E2 : Fld := ⟨0x60000, [], 12, 12, .ro, 0⟩
def INAUG_STAT_CPL_E1 : Fld := ⟨0x60000, [], 11, 11, .ro, 0⟩
def INAUG_STAT_INHIBIT : Fld := ⟨0x60000, [], 10, 10, .ro, 0⟩
def INAUG_STAT_PENDING : Fld := ⟨0x60000, [], 8, 8, .ro, 0⟩
def INAUG_STAT_ATTEMPT : Fld := ⟨0x60000, [], 6, 4, .ro, 0⟩
def INAUG_STAT_PHASE : Fld := ⟨0x60000, [], 2, 0, .ro, 5⟩
-- INAUG_ICOUNT (10_inauguration_and_numbering.md)
def INAUG_ICOUNT_ICOUNT : Fld := ⟨0x60004, [], 31, 0, .ro, 0⟩
-- INAUG_POS (10_inauguration_and_numbering.md)
def INAUG_POS_CAR_NO : Fld := ⟨0x60008, [], 29, 24, .ro, 0⟩
def INAUG_POS_CONSIST_NO : Fld := ⟨0x60008, [], 21, 16, .ro, 0⟩
def INAUG_POS_N : Fld := ⟨0x60008, [], 13, 8, .ro, 0⟩
def INAUG_POS_POSITION : Fld := ⟨0x60008, [], 5, 0, .ro, 0⟩
-- INAUG_ADOPT (10_inauguration_and_numbering.md)
def INAUG_ADOPT_TURN : Fld := ⟨0x6000C, [], 31, 0, .ro, 0⟩
-- INAUG_ROOT_LO (10_inauguration_and_numbering.md)
def INAUG_ROOT_LO_ROOT : Fld := ⟨0x60010, [], 31, 0, .ro, 0⟩
-- INAUG_ROOT_HI (10_inauguration_and_numbering.md)
def INAUG_ROOT_HI_ROOT : Fld := ⟨0x60014, [], 31, 0, .ro, 0⟩
-- INAUG_CNT (10_inauguration_and_numbering.md)
def INAUG_CNT_FALLBACKS : Fld := ⟨0x60018, [], 31, 24, .rc, 0⟩
def INAUG_CNT_RESTARTS : Fld := ⟨0x60018, [], 23, 16, .rc, 0⟩
def INAUG_CNT_RUNS : Fld := ⟨0x60018, [], 15, 0, .rc, 0⟩
-- INAUG_TIME (10_inauguration_and_numbering.md)
def INAUG_TIME_US : Fld := ⟨0x6001C, [], 31, 0, .ro, 0⟩
-- INAUG_DIGEST_k (10_inauguration_and_numbering.md)
def INAUG_DIGEST_k_BYTES : Fld := ⟨0x60020, [⟨0, 4, 0x4⟩], 31, 0, .ro, 0⟩
-- INAUG_CAR (10_inauguration_and_numbering.md)
def INAUG_CAR_FRONT_E2 : Fld := ⟨0x60030, [], 16, 16, .rwl, 0⟩
def INAUG_CAR_COUNT : Fld := ⟨0x60030, [], 13, 8, .rwl, 1⟩
def INAUG_CAR_INDEX : Fld := ⟨0x60030, [], 5, 0, .rwl, 1⟩
-- INAUG_CONSIST (10_inauguration_and_numbering.md)
def INAUG_CONSIST_ID : Fld := ⟨0x60034, [], 31, 0, .rwl, 0⟩
-- INAUG_LOCK (10_inauguration_and_numbering.md)
def INAUG_LOCK_LOCK : Fld := ⟨0x6003C, [], 0, 0, .rw, 0⟩
-- SYN_RULES (11_schedule_synthesis.md)
def SYN_RULES_SPARES : Fld := ⟨0x60100, [], 21, 16, .rwl, 0⟩
def SYN_RULES_ALG : Fld := ⟨0x60100, [], 7, 0, .rwl, 1⟩
-- SYN_STAT (11_schedule_synthesis.md)
def SYN_STAT_UNDECLARED : Fld := ⟨0x60104, [], 4, 4, .ro, 0⟩
def SYN_STAT_FT_DIFF : Fld := ⟨0x60104, [], 3, 3, .ro, 0⟩
def SYN_STAT_GHOSTS_DROPPED : Fld := ⟨0x60104, [], 2, 2, .ro, 0⟩
def SYN_STAT_TABLES_WAIT : Fld := ⟨0x60104, [], 1, 1, .ro, 0⟩
def SYN_STAT_VALID : Fld := ⟨0x60104, [], 0, 0, .ro, 0⟩
-- SYN_LAYOUT (11_schedule_synthesis.md)
def SYN_LAYOUT_HOMES : Fld := ⟨0x60108, [], 31, 26, .ro, 0⟩
def SYN_LAYOUT_S_SYN : Fld := ⟨0x60108, [], 25, 16, .ro, 0⟩
def SYN_LAYOUT_POOL : Fld := ⟨0x60108, [], 15, 10, .ro, 0⟩
def SYN_LAYOUT_POOL_FIRST : Fld := ⟨0x60108, [], 9, 0, .ro, 0⟩
-- SYN_OWN (11_schedule_synthesis.md)
def SYN_OWN_HOME : Fld := ⟨0x6010C, [], 25, 16, .ro, 0⟩
def SYN_OWN_SLOTS : Fld := ⟨0x6010C, [], 7, 0, .ro, 0⟩
-- SYN_UNSAT (11_schedule_synthesis.md)
def SYN_UNSAT_TRAIN : Fld := ⟨0x60110, [], 31, 16, .ro, 0⟩
def SYN_UNSAT_OWN : Fld := ⟨0x60110, [], 15, 0, .ro, 0⟩
-- SYN_TIME (11_schedule_synthesis.md)
def SYN_TIME_US : Fld := ⟨0x60114, [], 31, 0, .ro, 0⟩
-- SYN_CLAIM (11_schedule_synthesis.md)
def SYN_CLAIM_PENDING : Fld := ⟨0x60118, [], 31, 31, .ro, 0⟩
def SYN_CLAIM_GRANTED : Fld := ⟨0x60118, [], 27, 24, .ro, 0⟩
def SYN_CLAIM_REQUEST : Fld := ⟨0x60118, [], 19, 16, .ro, 0⟩
def SYN_CLAIM_FIRST : Fld := ⟨0x60118, [], 9, 0, .ro, 0⟩
-- SYN_POOL_CNT (11_schedule_synthesis.md)
def SYN_POOL_CNT_GRANTS : Fld := ⟨0x6011C, [], 31, 16, .rc, 0⟩
def SYN_POOL_CNT_RESETS : Fld := ⟨0x6011C, [], 15, 8, .rc, 0⟩
def SYN_POOL_CNT_REFUSED : Fld := ⟨0x6011C, [], 7, 0, .rc, 0⟩
-- WEIR_CTL (12_weir.md)
def WEIR_CTL_EN : Fld := ⟨0x50000, [], 0, 0, .rwl, 0⟩
-- WEIR_DYN (12_weir.md)
def WEIR_DYN_POOL : Fld := ⟨0x50004, [], 19, 0, .rwl, 0xfffff⟩
-- WEIR_STAT (12_weir.md)
def WEIR_STAT_OWN_BLOCKS : Fld := ⟨0x50010, [⟨0, 2, 0x4⟩], 23, 16, .ro, 0⟩
def WEIR_STAT_FAIL_WHY : Fld := ⟨0x50010, [⟨0, 2, 0x4⟩], 11, 8, .ro, 0⟩
def WEIR_STAT_XL_ONLY : Fld := ⟨0x50010, [⟨0, 2, 0x4⟩], 5, 5, .ro, 0⟩
def WEIR_STAT_FENCED : Fld := ⟨0x50010, [⟨0, 2, 0x4⟩], 4, 4, .ro, 0⟩
def WEIR_STAT_STATE : Fld := ⟨0x50010, [⟨0, 2, 0x4⟩], 2, 0, .ro, 0⟩
-- WEIR_SKEW (12_weir.md)
def WEIR_SKEW_NS : Fld := ⟨0x50018, [⟨0, 2, 0x4⟩], 15, 0, .ro, 0⟩
-- WEIR_TBL (12_weir.md)
def WEIR_TBL_CRC : Fld := ⟨0x50020, [⟨0, 2, 0x4⟩], 31, 0, .ro, 0⟩
-- WEIR_CNT_SEL (12_weir.md)
def WEIR_CNT_SEL_WEIR : Fld := ⟨0x50030, [], 8, 8, .rw, 0⟩
def WEIR_CNT_SEL_SENDER : Fld := ⟨0x50030, [], 5, 0, .rw, 0⟩
-- WEIR_CNT (12_weir.md)
def WEIR_CNT_EARLY : Fld := ⟨0x50034, [], 31, 24, .rc, 0⟩
def WEIR_CNT_LATE : Fld := ⟨0x50034, [], 23, 16, .rc, 0⟩
def WEIR_CNT_WRONG : Fld := ⟨0x50034, [], 15, 8, .rc, 0⟩
def WEIR_CNT_OVERSIZE : Fld := ⟨0x50034, [], 7, 0, .rc, 0⟩
-- WEIR_FENCE_CNT (12_weir.md)
def WEIR_FENCE_CNT_FENCES : Fld := ⟨0x50038, [], 31, 16, .rc, 0⟩
def WEIR_FENCE_CNT_DROPS : Fld := ⟨0x50038, [], 15, 0, .rc, 0⟩
-- WEIR_CHK_CNT (12_weir.md)
def WEIR_CHK_CNT_PARITY : Fld := ⟨0x5003C, [], 31, 16, .rc, 0⟩
def WEIR_CHK_CNT_MISMATCH : Fld := ⟨0x5003C, [], 15, 0, .rc, 0⟩
-- WEIR_LOCK (12_weir.md)
def WEIR_LOCK_LOCK : Fld := ⟨0x500FC, [], 0, 0, .rw, 0⟩
-- RED_CTL (13_redundancy_and_takeover.md)
def RED_CTL_EPOCH_P : Fld := ⟨0x70000, [], 14, 8, .rwl, 8⟩
def RED_CTL_COMPARE : Fld := ⟨0x70000, [], 0, 0, .rwl, 0⟩
-- RED_STAT (13_redundancy_and_takeover.md)
def RED_STAT_EPOCH : Fld := ⟨0x70004, [], 31, 16, .ro, 0⟩
def RED_STAT_COLD : Fld := ⟨0x70004, [], 10, 10, .ro, 0⟩
def RED_STAT_DUAL : Fld := ⟨0x70004, [], 9, 9, .ro, 0⟩
def RED_STAT_OWN_VIEW : Fld := ⟨0x70004, [], 8, 8, .ro, 0⟩
def RED_STAT_XL_E2 : Fld := ⟨0x70004, [], 5, 5, .ro, 0⟩
def RED_STAT_XL_E1 : Fld := ⟨0x70004, [], 4, 4, .ro, 0⟩
def RED_STAT_SWAP_PENDING : Fld := ⟨0x70004, [], 0, 0, .ro, 0⟩
-- RED_EPOCH_COMMIT (13_redundancy_and_takeover.md)
def RED_EPOCH_COMMIT_ENUM : Fld := ⟨0x70008, [], 31, 0, .ro, 0⟩
-- RED_EPOCH_AGE (13_redundancy_and_takeover.md)
def RED_EPOCH_AGE_TURNS : Fld := ⟨0x7000C, [], 15, 0, .ro, 0⟩
-- RED_EPOCH_CNT (13_redundancy_and_takeover.md)
def RED_EPOCH_CNT_COMMITTED : Fld := ⟨0x70010, [], 31, 16, .rc, 0⟩
def RED_EPOCH_CNT_DISCARDED : Fld := ⟨0x70010, [], 15, 8, .rc, 0⟩
def RED_EPOCH_CNT_CHUNK_ERR : Fld := ⟨0x70010, [], 7, 0, .rc, 0⟩
-- RED_TAKE_CNT (13_redundancy_and_takeover.md)
def RED_TAKE_CNT_TAKEOVERS : Fld := ⟨0x70014, [], 31, 24, .rc, 0⟩
def RED_TAKE_CNT_SWAPS : Fld := ⟨0x70014, [], 23, 16, .rc, 0⟩
def RED_TAKE_CNT_YIELDS : Fld := ⟨0x70014, [], 15, 8, .rc, 0⟩
def RED_TAKE_CNT_DUAL_TURNS : Fld := ⟨0x70014, [], 7, 0, .rc, 0⟩
-- RED_CMP_SEL (13_redundancy_and_takeover.md)
def RED_CMP_SEL_SENDER : Fld := ⟨0x70018, [], 5, 0, .rw, 0⟩
-- RED_CMP_CNT (13_redundancy_and_takeover.md)
def RED_CMP_CNT_MISMATCH : Fld := ⟨0x7001C, [], 31, 16, .rc, 0⟩
def RED_CMP_CNT_ONE_CH : Fld := ⟨0x7001C, [], 15, 0, .rc, 0⟩
-- RED_DUP_CNT (13_redundancy_and_takeover.md)
def RED_DUP_CNT_DUPLICATES : Fld := ⟨0x70020, [], 31, 16, .rc, 0⟩
def RED_DUP_CNT_ROGUE : Fld := ⟨0x70020, [], 15, 0, .rc, 0⟩
-- RED_PARTNER_LO (13_redundancy_and_takeover.md)
def RED_PARTNER_LO_UID : Fld := ⟨0x70024, [], 31, 0, .ro, 0⟩
-- RED_PARTNER_HI (13_redundancy_and_takeover.md)
def RED_PARTNER_HI_UID : Fld := ⟨0x70028, [], 31, 0, .ro, 0⟩
-- RED_HANDOFF_CNT (13_redundancy_and_takeover.md)
def RED_HANDOFF_CNT_OWN_VIEW : Fld := ⟨0x7002C, [], 31, 0, .rc, 0⟩
-- RED_LOCK (13_redundancy_and_takeover.md)
def RED_LOCK_LOCK : Fld := ⟨0x700FC, [], 0, 0, .rw, 0⟩
-- TI_CTL (14_millpond_and_turn_image.md)
def TI_CTL_VEC : Fld := ⟨0x80800, [⟨0, 17, 0x1000⟩], 31, 24, .rw, 0⟩
def TI_CTL_IRQ : Fld := ⟨0x80800, [⟨0, 17, 0x1000⟩], 16, 16, .rw, 0⟩
def TI_CTL_PUB_EN : Fld := ⟨0x80800, [⟨0, 17, 0x1000⟩], 8, 8, .rw, 0⟩
def TI_CTL_EN : Fld := ⟨0x80800, [⟨0, 17, 0x1000⟩], 0, 0, .rw, 0⟩
-- TI_BASE_LO (14_millpond_and_turn_image.md)
def TI_BASE_LO_ADDR : Fld := ⟨0x80804, [⟨0, 17, 0x1000⟩], 31, 6, .rw, 0⟩
-- TI_BASE_HI (14_millpond_and_turn_image.md)
def TI_BASE_HI_ADDR : Fld := ⟨0x80808, [⟨0, 17, 0x1000⟩], 31, 0, .rw, 0⟩
-- TI_SUB_LO (14_millpond_and_turn_image.md)
def TI_SUB_LO_ADDR : Fld := ⟨0x8080C, [⟨0, 17, 0x1000⟩], 31, 3, .rw, 0⟩
-- TI_SUB_HI (14_millpond_and_turn_image.md)
def TI_SUB_HI_ADDR : Fld := ⟨0x80810, [⟨0, 17, 0x1000⟩], 31, 0, .rw, 0⟩
-- TI_PUB_LO (14_millpond_and_turn_image.md)
def TI_PUB_LO_ADDR : Fld := ⟨0x80814, [⟨0, 17, 0x1000⟩], 31, 6, .rw, 0⟩
-- TI_PUB_HI (14_millpond_and_turn_image.md)
def TI_PUB_HI_ADDR : Fld := ⟨0x80818, [⟨0, 17, 0x1000⟩], 31, 0, .rw, 0⟩
-- TI_SIZE (14_millpond_and_turn_image.md)
def TI_SIZE_PUB_SIZE : Fld := ⟨0x8081C, [⟨0, 17, 0x1000⟩], 28, 16, .rw, 0⟩
def TI_SIZE_IMG_SIZE : Fld := ⟨0x8081C, [⟨0, 17, 0x1000⟩], 12, 0, .rw, 0⟩
-- TI_PARAM (14_millpond_and_turn_image.md)
def TI_PARAM_SUB_CNT : Fld := ⟨0x80820, [⟨0, 17, 0x1000⟩], 24, 16, .rw, 0⟩
def TI_PARAM_STALE_N : Fld := ⟨0x80820, [⟨0, 17, 0x1000⟩], 15, 8, .rw, 0⟩
def TI_PARAM_OFFSET : Fld := ⟨0x80820, [⟨0, 17, 0x1000⟩], 7, 0, .rw, 0⟩
-- TI_STAT (14_millpond_and_turn_image.md)
def TI_STAT_RECORDS : Fld := ⟨0x80824, [⟨0, 17, 0x1000⟩], 26, 16, .ro, 0⟩
def TI_STAT_TRUNC : Fld := ⟨0x80824, [⟨0, 17, 0x1000⟩], 8, 8, .w1c, 0⟩
def TI_STAT_PUB_ERR : Fld := ⟨0x80824, [⟨0, 17, 0x1000⟩], 4, 4, .w1c, 0⟩
def TI_STAT_ACTIVE : Fld := ⟨0x80824, [⟨0, 17, 0x1000⟩], 0, 0, .ro, 0⟩
-- TI_GEN_LO (14_millpond_and_turn_image.md)
def TI_GEN_LO_GEN : Fld := ⟨0x80828, [⟨0, 17, 0x1000⟩], 31, 0, .ro, 0⟩
-- TI_GEN_HI (14_millpond_and_turn_image.md)
def TI_GEN_HI_GEN : Fld := ⟨0x8082C, [⟨0, 17, 0x1000⟩], 31, 0, .ro, 0⟩
-- TI_CNT (14_millpond_and_turn_image.md)
def TI_CNT_SKIPPED : Fld := ⟨0x80830, [⟨0, 17, 0x1000⟩], 31, 16, .rc, 0⟩
def TI_CNT_LATE_FETCH : Fld := ⟨0x80830, [⟨0, 17, 0x1000⟩], 15, 0, .rc, 0⟩
-- TN_RIGHTS (15_host_interface.md)
def TN_RIGHTS_QMAX : Fld := ⟨0x80000, [⟨0, 17, 0x1000⟩], 28, 24, .ro, 0⟩
def TN_RIGHTS_ATTEST : Fld := ⟨0x80000, [⟨0, 17, 0x1000⟩], 15, 15, .ro, 0⟩
def TN_RIGHTS_CONFIG : Fld := ⟨0x80000, [⟨0, 17, 0x1000⟩], 14, 14, .ro, 0⟩
def TN_RIGHTS_TALLY_CLEAR : Fld := ⟨0x80000, [⟨0, 17, 0x1000⟩], 13, 13, .ro, 0⟩
def TN_RIGHTS_TALLY_READ : Fld := ⟨0x80000, [⟨0, 17, 0x1000⟩], 12, 12, .ro, 0⟩
def TN_RIGHTS_ROLE_SWAP : Fld := ⟨0x80000, [⟨0, 17, 0x1000⟩], 11, 11, .ro, 0⟩
def TN_RIGHTS_INAUG : Fld := ⟨0x80000, [⟨0, 17, 0x1000⟩], 10, 10, .ro, 0⟩
def TN_RIGHTS_MARK : Fld := ⟨0x80000, [⟨0, 17, 0x1000⟩], 6, 6, .ro, 0⟩
def TN_RIGHTS_FAR : Fld := ⟨0x80000, [⟨0, 17, 0x1000⟩], 5, 5, .ro, 0⟩
def TN_RIGHTS_CAN : Fld := ⟨0x80000, [⟨0, 17, 0x1000⟩], 4, 4, .ro, 0⟩
def TN_RIGHTS_CONSIST : Fld := ⟨0x80000, [⟨0, 17, 0x1000⟩], 3, 3, .ro, 0⟩
def TN_RIGHTS_LINE : Fld := ⟨0x80000, [⟨0, 17, 0x1000⟩], 2, 2, .ro, 0⟩
def TN_RIGHTS_IMAGE : Fld := ⟨0x80000, [⟨0, 17, 0x1000⟩], 0, 0, .ro, 0⟩
-- TN_STAT (15_host_interface.md)
def TN_STAT_BME : Fld := ⟨0x80004, [⟨0, 17, 0x1000⟩], 17, 17, .ro, 0⟩
def TN_STAT_PRESENT : Fld := ⟨0x80004, [⟨0, 17, 0x1000⟩], 16, 16, .ro, 0⟩
def TN_STAT_QEN : Fld := ⟨0x80004, [⟨0, 17, 0x1000⟩], 12, 8, .ro, 0⟩
def TN_STAT_TENANT : Fld := ⟨0x80004, [⟨0, 17, 0x1000⟩], 4, 0, .ro, 0⟩
-- TN_CTL (15_host_interface.md)
def TN_CTL_ERR_VEC : Fld := ⟨0x80008, [⟨0, 17, 0x1000⟩], 31, 24, .rw, 0⟩
def TN_CTL_ERR_IRQ : Fld := ⟨0x80008, [⟨0, 17, 0x1000⟩], 0, 0, .rw, 0⟩
-- TN_ERR (15_host_interface.md)
def TN_ERR_QSPI : Fld := ⟨0x8000C, [⟨0, 17, 0x1000⟩], 5, 5, .w1c, 0⟩
def TN_ERR_QSETUP : Fld := ⟨0x8000C, [⟨0, 17, 0x1000⟩], 4, 4, .w1c, 0⟩
def TN_ERR_DMA : Fld := ⟨0x8000C, [⟨0, 17, 0x1000⟩], 3, 3, .w1c, 0⟩
def TN_ERR_ACCESS : Fld := ⟨0x8000C, [⟨0, 17, 0x1000⟩], 2, 2, .w1c, 0⟩
def TN_ERR_DB_RANGE : Fld := ⟨0x8000C, [⟨0, 17, 0x1000⟩], 1, 1, .w1c, 0⟩
def TN_ERR_DB_OFF : Fld := ⟨0x8000C, [⟨0, 17, 0x1000⟩], 0, 0, .w1c, 0⟩
-- TN_IRQ (15_host_interface.md)
def TN_IRQ_ERR : Fld := ⟨0x80010, [⟨0, 17, 0x1000⟩], 17, 17, .w1c, 0⟩
def TN_IRQ_IMAGE : Fld := ⟨0x80010, [⟨0, 17, 0x1000⟩], 16, 16, .w1c, 0⟩
def TN_IRQ_CQ : Fld := ⟨0x80010, [⟨0, 17, 0x1000⟩], 15, 0, .w1c, 0⟩
-- TN_IRQ_EN (15_host_interface.md)
def TN_IRQ_EN_EN : Fld := ⟨0x80014, [⟨0, 17, 0x1000⟩], 17, 0, .rw, 0⟩
-- TN_CNT (15_host_interface.md)
def TN_CNT_BAD_DESC : Fld := ⟨0x80018, [⟨0, 17, 0x1000⟩], 31, 16, .rc, 0⟩
def TN_CNT_DENIED : Fld := ⟨0x80018, [⟨0, 17, 0x1000⟩], 15, 0, .rc, 0⟩
-- TN_RXDROP (15_host_interface.md)
def TN_RXDROP_FRAMES : Fld := ⟨0x8001C, [⟨0, 17, 0x1000⟩], 15, 0, .rc, 0⟩
-- HQq_SQB_LO (15_host_interface.md)
def HQq_SQB_LO_ADDR : Fld := ⟨0x80100, [⟨0, 17, 0x1000⟩, ⟨0, 16, 0x20⟩], 31, 6, .rw, 0⟩
-- HQq_SQB_HI (15_host_interface.md)
def HQq_SQB_HI_ADDR : Fld := ⟨0x80104, [⟨0, 17, 0x1000⟩, ⟨0, 16, 0x20⟩], 31, 0, .rw, 0⟩
-- HQq_CQB_LO (15_host_interface.md)
def HQq_CQB_LO_ADDR : Fld := ⟨0x80108, [⟨0, 17, 0x1000⟩, ⟨0, 16, 0x20⟩], 31, 6, .rw, 0⟩
-- HQq_CQB_HI (15_host_interface.md)
def HQq_CQB_HI_ADDR : Fld := ⟨0x8010C, [⟨0, 17, 0x1000⟩, ⟨0, 16, 0x20⟩], 31, 0, .rw, 0⟩
-- HQq_CTL (15_host_interface.md)
def HQq_CTL_VEC : Fld := ⟨0x80110, [⟨0, 17, 0x1000⟩, ⟨0, 16, 0x20⟩], 23, 16, .rw, 0⟩
def HQq_CTL_SIZE : Fld := ⟨0x80110, [⟨0, 17, 0x1000⟩, ⟨0, 16, 0x20⟩], 11, 8, .rw, 0⟩
def HQq_CTL_RX_CONSIST : Fld := ⟨0x80110, [⟨0, 17, 0x1000⟩, ⟨0, 16, 0x20⟩], 6, 6, .rw, 0⟩
def HQq_CTL_KIND : Fld := ⟨0x80110, [⟨0, 17, 0x1000⟩, ⟨0, 16, 0x20⟩], 5, 5, .rw, 0⟩
def HQq_CTL_IRQ : Fld := ⟨0x80110, [⟨0, 17, 0x1000⟩, ⟨0, 16, 0x20⟩], 4, 4, .rw, 0⟩
def HQq_CTL_EN : Fld := ⟨0x80110, [⟨0, 17, 0x1000⟩, ⟨0, 16, 0x20⟩], 0, 0, .rw, 0⟩
-- HQq_MOD (15_host_interface.md)
def HQq_MOD_COUNT : Fld := ⟨0x80114, [⟨0, 17, 0x1000⟩, ⟨0, 16, 0x20⟩], 23, 16, .rw, 0⟩
def HQq_MOD_TIME : Fld := ⟨0x80114, [⟨0, 17, 0x1000⟩, ⟨0, 16, 0x20⟩], 15, 0, .rw, 0⟩
-- HQq_STAT (15_host_interface.md)
def HQq_STAT_HEAD : Fld := ⟨0x80118, [⟨0, 17, 0x1000⟩, ⟨0, 16, 0x20⟩], 31, 16, .ro, 0⟩
def HQq_STAT_INFLIGHT : Fld := ⟨0x80118, [⟨0, 17, 0x1000⟩, ⟨0, 16, 0x20⟩], 14, 8, .ro, 0⟩
def HQq_STAT_PHASE : Fld := ⟨0x80118, [⟨0, 17, 0x1000⟩, ⟨0, 16, 0x20⟩], 3, 3, .ro, 1⟩
def HQq_STAT_ERR : Fld := ⟨0x80118, [⟨0, 17, 0x1000⟩, ⟨0, 16, 0x20⟩], 2, 2, .ro, 0⟩
def HQq_STAT_RUN : Fld := ⟨0x80118, [⟨0, 17, 0x1000⟩, ⟨0, 16, 0x20⟩], 0, 0, .ro, 0⟩
-- HQq_TAIL (15_host_interface.md)
def HQq_TAIL_TAIL : Fld := ⟨0x8011C, [⟨0, 17, 0x1000⟩, ⟨0, 16, 0x20⟩], 15, 0, .ro, 0⟩
-- HOST_PORT (15_host_interface.md)
def HOST_PORT_PERST : Fld := ⟨0x98000, [⟨0, 2, 0x4⟩], 24, 24, .ro, 0⟩
def HOST_PORT_NUMVFS : Fld := ⟨0x98000, [⟨0, 2, 0x4⟩], 18, 16, .ro, 0⟩
def HOST_PORT_LINK_UP : Fld := ⟨0x98000, [⟨0, 2, 0x4⟩], 8, 8, .ro, 0⟩
def HOST_PORT_WIDTH : Fld := ⟨0x98000, [⟨0, 2, 0x4⟩], 7, 4, .ro, 0⟩
def HOST_PORT_SPEED : Fld := ⟨0x98000, [⟨0, 2, 0x4⟩], 3, 0, .ro, 0⟩
-- HOST_INFLIGHT (15_host_interface.md)
def HOST_INFLIGHT_DESC : Fld := ⟨0x98008, [], 10, 0, .ro, 0⟩
-- HOST_RDREQ (15_host_interface.md)
def HOST_RDREQ_Q : Fld := ⟨0x9800C, [], 24, 16, .ro, 0⟩
def HOST_RDREQ_P : Fld := ⟨0x9800C, [], 8, 0, .ro, 0⟩
-- HOST_STALL (15_host_interface.md)
def HOST_STALL_POOL : Fld := ⟨0x98010, [], 31, 16, .rc, 0⟩
def HOST_STALL_RDREQ : Fld := ⟨0x98010, [], 15, 0, .rc, 0⟩
-- HOST_CAPS (15_host_interface.md)
def HOST_CAPS_BAR4_EN : Fld := ⟨0x98014, [], 0, 0, .ro, 0⟩
-- FAR_CTL (16_far_access_bridge.md)
def FAR_CTL_PF_MAX : Fld := ⟨0xA0000, [], 24, 16, .rwl, 0x100⟩
def FAR_CTL_TGT_AGE : Fld := ⟨0xA0000, [], 15, 8, .rwl, 0x40⟩
def FAR_CTL_TMO : Fld := ⟨0xA0000, [], 7, 0, .rwl, 0⟩
-- FAR_STAT (16_far_access_bridge.md)
def FAR_STAT_TQUEUE : Fld := ⟨0xA0004, [], 24, 16, .ro, 0⟩
def FAR_STAT_TAGS : Fld := ⟨0xA0004, [], 7, 0, .ro, 0⟩
-- FAR_CNT_A (16_far_access_bridge.md)
def FAR_CNT_A_READS : Fld := ⟨0xA0008, [], 31, 16, .rc, 0⟩
def FAR_CNT_A_WRITES : Fld := ⟨0xA0008, [], 15, 0, .rc, 0⟩
-- FAR_CNT_B (16_far_access_bridge.md)
def FAR_CNT_B_LATE : Fld := ⟨0xA000C, [], 31, 24, .rc, 0⟩
def FAR_CNT_B_TIMEOUTS : Fld := ⟨0xA000C, [], 23, 16, .rc, 0⟩
def FAR_CNT_B_ERRORS : Fld := ⟨0xA000C, [], 15, 0, .rc, 0⟩
-- FAR_STALL (16_far_access_bridge.md)
def FAR_STALL_ORDER : Fld := ⟨0xA0010, [], 31, 16, .rc, 0⟩
def FAR_STALL_TAG : Fld := ⟨0xA0010, [], 15, 0, .rc, 0⟩
-- FAR_TGT_CNT (16_far_access_bridge.md)
def FAR_TGT_CNT_SERVED : Fld := ⟨0xA0014, [], 31, 16, .rc, 0⟩
def FAR_TGT_CNT_BUSY : Fld := ⟨0xA0014, [], 15, 8, .rc, 0⟩
def FAR_TGT_CNT_EXPIRED : Fld := ⟨0xA0014, [], 7, 0, .rc, 0⟩
-- FAR_PF_SEL (16_far_access_bridge.md)
def FAR_PF_SEL_ENTRY : Fld := ⟨0xA0018, [], 3, 0, .rw, 0⟩
-- FAR_PF_INFO (16_far_access_bridge.md)
def FAR_PF_INFO_FUNC : Fld := ⟨0xA001C, [], 31, 16, .ro, 0⟩
def FAR_PF_INFO_VALID : Fld := ⟨0xA001C, [], 8, 8, .ro, 0⟩
def FAR_PF_INFO_POS : Fld := ⟨0xA001C, [], 5, 0, .ro, 0⟩
-- FAR_PF_CNT (16_far_access_bridge.md)
def FAR_PF_CNT_HITS : Fld := ⟨0xA0020, [], 31, 16, .rc, 0⟩
def FAR_PF_CNT_DISCARDS : Fld := ⟨0xA0020, [], 15, 0, .rc, 0⟩
-- FAR_LOCK (16_far_access_bridge.md)
def FAR_LOCK_LOCK : Fld := ⟨0xA00FC, [], 0, 0, .rw, 0⟩
-- FWw_CFG (16_far_access_bridge.md)
def FWw_CFG_FUNC : Fld := ⟨0xA0100, [⟨0, 16, 0x10⟩], 31, 16, .rwl, 0⟩
def FWw_CFG_KIND : Fld := ⟨0xA0100, [⟨0, 16, 0x10⟩], 9, 8, .rwl, 0⟩
def FWw_CFG_WIDTH : Fld := ⟨0xA0100, [⟨0, 16, 0x10⟩], 7, 6, .rwl, 0⟩
def FWw_CFG_BIG : Fld := ⟨0xA0100, [⟨0, 16, 0x10⟩], 5, 5, .rwl, 0⟩
def FWw_CFG_SIDE_EFFECT : Fld := ⟨0xA0100, [⟨0, 16, 0x10⟩], 4, 4, .rwl, 0⟩
def FWw_CFG_PREFETCHABLE : Fld := ⟨0xA0100, [⟨0, 16, 0x10⟩], 3, 3, .rwl, 0⟩
def FWw_CFG_WRITE : Fld := ⟨0xA0100, [⟨0, 16, 0x10⟩], 2, 2, .rwl, 0⟩
def FWw_CFG_READ : Fld := ⟨0xA0100, [⟨0, 16, 0x10⟩], 1, 1, .rwl, 0⟩
def FWw_CFG_EN : Fld := ⟨0xA0100, [⟨0, 16, 0x10⟩], 0, 0, .rwl, 0⟩
-- FWw_MAP (16_far_access_bridge.md)
def FWw_MAP_OWNER : Fld := ⟨0xA0104, [⟨0, 16, 0x10⟩], 28, 24, .rwl, 0⟩
def FWw_MAP_SCOPE : Fld := ⟨0xA0104, [⟨0, 16, 0x10⟩], 17, 16, .rwl, 0⟩
-- FWw_BASE (16_far_access_bridge.md)
def FWw_BASE_BASE : Fld := ⟨0xA0108, [⟨0, 16, 0x10⟩], 31, 0, .rwl, 0⟩
-- FWw_SIZE (16_far_access_bridge.md)
def FWw_SIZE_SIZE : Fld := ⟨0xA010C, [⟨0, 16, 0x10⟩], 31, 0, .rwl, 0⟩
-- FWw_CNT (16_far_access_bridge.md)
def FWw_CNT_SERVED : Fld := ⟨0xA0200, [⟨0, 16, 0x4⟩], 31, 16, .rc, 0⟩
def FWw_CNT_REFUSED : Fld := ⟨0xA0200, [⟨0, 16, 0x4⟩], 15, 0, .rc, 0⟩
-- FXw_LO (16_far_access_bridge.md)
def FXw_LO_ADDR : Fld := ⟨0x80A00, [⟨0, 17, 0x1000⟩, ⟨0, 16, 0x8⟩], 31, 12, .rw, 0⟩
def FXw_LO_EN : Fld := ⟨0x80A00, [⟨0, 17, 0x1000⟩, ⟨0, 16, 0x8⟩], 0, 0, .rw, 0⟩
-- FXw_HI (16_far_access_bridge.md)
def FXw_HI_ADDR : Fld := ⟨0x80A04, [⟨0, 17, 0x1000⟩, ⟨0, 16, 0x8⟩], 31, 0, .rw, 0⟩
-- FAR_AP_CTL_x (16_far_access_bridge.md)
def FAR_AP_CTL_x_VEC : Fld := ⟨0xA0400, [⟨0, 2, 0x200⟩], 31, 24, .rw, 0⟩
def FAR_AP_CTL_x_IRQ : Fld := ⟨0xA0400, [⟨0, 2, 0x200⟩], 0, 0, .rw, 0⟩
-- FAR_AP_ISSUED_x (16_far_access_bridge.md)
def FAR_AP_ISSUED_x_SEQ : Fld := ⟨0xA0404, [⟨0, 2, 0x200⟩], 31, 0, .ro, 0⟩
-- FAR_AP_DONE_x (16_far_access_bridge.md)
def FAR_AP_DONE_x_SEQ : Fld := ⟨0xA0408, [⟨0, 2, 0x200⟩], 31, 0, .ro, 0⟩
-- FAR_AP_ERR_ADDR_x (16_far_access_bridge.md)
def FAR_AP_ERR_ADDR_x_OFFSET : Fld := ⟨0xA040C, [⟨0, 2, 0x200⟩], 25, 0, .ro, 0⟩
-- FAR_AP_ERR_SEQ_x (16_far_access_bridge.md)
def FAR_AP_ERR_SEQ_x_SEQ : Fld := ⟨0xA0410, [⟨0, 2, 0x200⟩], 31, 0, .ro, 0⟩
-- FAR_AP_ERR_STAT_x (16_far_access_bridge.md)
def FAR_AP_ERR_STAT_x_VALID : Fld := ⟨0xA0414, [⟨0, 2, 0x200⟩], 31, 31, .rc, 0⟩
def FAR_AP_ERR_STAT_x_OVF : Fld := ⟨0xA0414, [⟨0, 2, 0x200⟩], 30, 30, .rc, 0⟩
def FAR_AP_ERR_STAT_x_PIECES : Fld := ⟨0xA0414, [⟨0, 2, 0x200⟩], 23, 8, .rc, 0⟩
def FAR_AP_ERR_STAT_x_FSTAT : Fld := ⟨0xA0414, [⟨0, 2, 0x200⟩], 7, 0, .rc, 0⟩
-- FAR_APSk_CTL_x (16_far_access_bridge.md)
def FAR_APSk_CTL_x_FUNC : Fld := ⟨0xA0500, [⟨0, 2, 0x200⟩, ⟨0, 16, 0x10⟩], 31, 16, .rw, 0⟩
def FAR_APSk_CTL_x_MODE : Fld := ⟨0xA0500, [⟨0, 2, 0x200⟩, ⟨0, 16, 0x10⟩], 8, 8, .rw, 0⟩
def FAR_APSk_CTL_x_EN : Fld := ⟨0xA0500, [⟨0, 2, 0x200⟩, ⟨0, 16, 0x10⟩], 0, 0, .rw, 0⟩
-- FAR_APSk_TGT_LO_x (16_far_access_bridge.md)
def FAR_APSk_TGT_LO_x_TGT : Fld := ⟨0xA0504, [⟨0, 2, 0x200⟩, ⟨0, 16, 0x10⟩], 31, 0, .rw, 0⟩
-- FAR_APSk_TGT_HI_x (16_far_access_bridge.md)
def FAR_APSk_TGT_HI_x_TGT : Fld := ⟨0xA0508, [⟨0, 2, 0x200⟩, ⟨0, 16, 0x10⟩], 31, 0, .rw, 0⟩
-- FAR_APSk_BASE_x (16_far_access_bridge.md)
def FAR_APSk_BASE_x_BASE : Fld := ⟨0xA050C, [⟨0, 2, 0x200⟩, ⟨0, 16, 0x10⟩], 31, 22, .rw, 0⟩
-- CON_CTL (17_consist_ports_and_gateway.md)
def CON_CTL_AGE : Fld := ⟨0xB0000, [], 15, 0, .rwl, 0x12c⟩
-- CON_LINE_CNT (17_consist_ports_and_gateway.md)
def CON_LINE_CNT_OUT : Fld := ⟨0xB0004, [], 31, 16, .rc, 0⟩
def CON_LINE_CNT_IN : Fld := ⟨0xB0004, [], 15, 0, .rc, 0⟩
-- MDIO_CMD (17_consist_ports_and_gateway.md)
def MDIO_CMD_BUSY : Fld := ⟨0xB0080, [], 31, 31, .ro, 0⟩
def MDIO_CMD_GO : Fld := ⟨0xB0080, [], 30, 30, .wo, 0⟩
def MDIO_CMD_C45 : Fld := ⟨0xB0080, [], 28, 28, .rw, 0⟩
def MDIO_CMD_OP : Fld := ⟨0xB0080, [], 27, 26, .rw, 0⟩
def MDIO_CMD_PHYAD : Fld := ⟨0xB0080, [], 25, 21, .rw, 0⟩
def MDIO_CMD_REG : Fld := ⟨0xB0080, [], 20, 16, .rw, 0⟩
-- MDIO_DATA (17_consist_ports_and_gateway.md)
def MDIO_DATA_DATA : Fld := ⟨0xB0084, [], 15, 0, .rw, 0⟩
-- CON_LOCK (17_consist_ports_and_gateway.md)
def CON_LOCK_LOCK : Fld := ⟨0xB00FC, [], 0, 0, .rw, 0⟩
-- CPn_CTL (17_consist_ports_and_gateway.md)
def CPn_CTL_PVID : Fld := ⟨0xB0100, [⟨0, 12, 0x20⟩], 31, 20, .rwl, 1⟩
def CPn_CTL_PRIO : Fld := ⟨0xB0100, [⟨0, 12, 0x20⟩], 18, 16, .rwl, 0⟩
def CPn_CTL_GPTP : Fld := ⟨0xB0100, [⟨0, 12, 0x20⟩], 9, 9, .rwl, 0⟩
def CPn_CTL_MASTER : Fld := ⟨0xB0100, [⟨0, 12, 0x20⟩], 8, 8, .rwl, 0⟩
def CPn_CTL_MODE : Fld := ⟨0xB0100, [⟨0, 12, 0x20⟩], 6, 4, .rwl, 0⟩
def CPn_CTL_EN : Fld := ⟨0xB0100, [⟨0, 12, 0x20⟩], 0, 0, .rwl, 0⟩
-- CPn_STAT (17_consist_ports_and_gateway.md)
def CPn_STAT_PLCA_ACT : Fld := ⟨0xB0104, [⟨0, 12, 0x20⟩], 9, 9, .ro, 0⟩
def CPn_STAT_RATE : Fld := ⟨0xB0104, [⟨0, 12, 0x20⟩], 6, 4, .ro, 0⟩
def CPn_STAT_STATE : Fld := ⟨0xB0104, [⟨0, 12, 0x20⟩], 1, 0, .ro, 0⟩
-- CPn_CNT_A (17_consist_ports_and_gateway.md)
def CPn_CNT_A_TAIL : Fld := ⟨0xB0108, [⟨0, 12, 0x20⟩], 31, 16, .rc, 0⟩
def CPn_CNT_A_DOWN : Fld := ⟨0xB0108, [⟨0, 12, 0x20⟩], 15, 0, .rc, 0⟩
-- CPn_CNT_B (17_consist_ports_and_gateway.md)
def CPn_CNT_B_FILTER : Fld := ⟨0xB010C, [⟨0, 12, 0x20⟩], 31, 16, .rc, 0⟩
def CPn_CNT_B_FCS : Fld := ⟨0xB010C, [⟨0, 12, 0x20⟩], 15, 0, .rc, 0⟩
-- CPn_PLCA (17_consist_ports_and_gateway.md)
def CPn_PLCA_EN : Fld := ⟨0xB0110, [⟨8, 2, 0x20⟩], 31, 31, .rwl, 0⟩
def CPn_PLCA_BURST : Fld := ⟨0xB0110, [⟨8, 2, 0x20⟩], 27, 24, .rwl, 0⟩
def CPn_PLCA_TO_TIMER : Fld := ⟨0xB0110, [⟨8, 2, 0x20⟩], 23, 16, .rwl, 0x20⟩
def CPn_PLCA_COUNT : Fld := ⟨0xB0110, [⟨8, 2, 0x20⟩], 12, 8, .rwl, 8⟩
def CPn_PLCA_NODE_ID : Fld := ⟨0xB0110, [⟨8, 2, 0x20⟩], 3, 0, .rwl, 0⟩
-- CON_VLAN_Av (17_consist_ports_and_gateway.md)
def CON_VLAN_Av_EN : Fld := ⟨0xB0400, [⟨0, 64, 0x8⟩], 31, 31, .rwl, 0⟩
def CON_VLAN_Av_VID : Fld := ⟨0xB0400, [⟨0, 64, 0x8⟩], 27, 16, .rwl, 0⟩
def CON_VLAN_Av_MEMBER : Fld := ⟨0xB0400, [⟨0, 64, 0x8⟩], 11, 0, .rwl, 0⟩
-- CON_VLAN_Bv (17_consist_ports_and_gateway.md)
def CON_VLAN_Bv_LINE : Fld := ⟨0xB0404, [⟨0, 64, 0x8⟩], 24, 16, .rwl, 0⟩
def CON_VLAN_Bv_UNTAG : Fld := ⟨0xB0404, [⟨0, 64, 0x8⟩], 11, 0, .rwl, 0⟩
-- TRDP_CTL (17_consist_ports_and_gateway.md)
def TRDP_CTL_VID : Fld := ⟨0xB0800, [], 27, 16, .rwl, 1⟩
def TRDP_CTL_EN : Fld := ⟨0xB0800, [], 0, 0, .rwl, 0⟩
-- TRDP_IP (17_consist_ports_and_gateway.md)
def TRDP_IP_ADDR : Fld := ⟨0xB0804, [], 31, 0, .rwl, 0⟩
-- TRDP_TOPO (17_consist_ports_and_gateway.md)
def TRDP_TOPO_OP : Fld := ⟨0xB0808, [], 31, 0, .rwl, 0⟩
-- TRDP_CNT (17_consist_ports_and_gateway.md)
def TRDP_CNT_SENT : Fld := ⟨0xB080C, [], 31, 16, .rc, 0⟩
def TRDP_CNT_REFUSED : Fld := ⟨0xB080C, [], 15, 0, .rc, 0⟩
-- TRDP_TEL_SEL (17_consist_ports_and_gateway.md)
def TRDP_TEL_SEL_TEL : Fld := ⟨0xB0810, [], 9, 0, .rw, 0⟩
-- TRDP_TEL_STAT (17_consist_ports_and_gateway.md)
def TRDP_TEL_STAT_AGE : Fld := ⟨0xB0814, [], 31, 16, .ro, 0xffff⟩
def TRDP_TEL_STAT_TOUT : Fld := ⟨0xB0814, [], 2, 2, .ro, 0⟩
def TRDP_TEL_STAT_DIR : Fld := ⟨0xB0814, [], 1, 0, .ro, 0⟩
-- GW_CTL (17_consist_ports_and_gateway.md)
def GW_CTL_COUNT : Fld := ⟨0xB0C00, [], 12, 0, .rwl, 0⟩
-- GW_SEL (17_consist_ports_and_gateway.md)
def GW_SEL_ENTRY : Fld := ⟨0xB0C04, [], 11, 0, .rw, 0⟩
-- GW_ENT_STAT (17_consist_ports_and_gateway.md)
def GW_ENT_STAT_DEFAULT : Fld := ⟨0xB0C08, [], 3, 3, .ro, 0⟩
def GW_ENT_STAT_STALE_SRC : Fld := ⟨0xB0C08, [], 2, 2, .ro, 0⟩
def GW_ENT_STAT_SAT : Fld := ⟨0xB0C08, [], 1, 1, .ro, 0⟩
def GW_ENT_STAT_VALID : Fld := ⟨0xB0C08, [], 0, 0, .ro, 0⟩
-- GW_ENT_VAL_LO (17_consist_ports_and_gateway.md)
def GW_ENT_VAL_LO_VAL : Fld := ⟨0xB0C0C, [], 31, 0, .ro, 0⟩
-- GW_ENT_VAL_HI (17_consist_ports_and_gateway.md)
def GW_ENT_VAL_HI_VAL : Fld := ⟨0xB0C10, [], 31, 0, .ro, 0⟩
-- GW_CNT (17_consist_ports_and_gateway.md)
def GW_CNT_STALE : Fld := ⟨0xB0C14, [], 27, 16, .ro, 0⟩
def GW_CNT_SAT : Fld := ⟨0xB0C14, [], 15, 0, .rc, 0⟩
-- CT_CTL (17_consist_ports_and_gateway.md)
def CT_CTL_VID : Fld := ⟨0x80C00, [⟨0, 17, 0x1000⟩], 27, 16, .rw, 1⟩
def CT_CTL_QUEUE : Fld := ⟨0x80C00, [⟨0, 17, 0x1000⟩], 11, 8, .rw, 0⟩
def CT_CTL_BCAST : Fld := ⟨0x80C00, [⟨0, 17, 0x1000⟩], 1, 1, .rw, 0⟩
def CT_CTL_EN : Fld := ⟨0x80C00, [⟨0, 17, 0x1000⟩], 0, 0, .rw, 0⟩
-- CT_MAC_LO (17_consist_ports_and_gateway.md)
def CT_MAC_LO_MAC : Fld := ⟨0x80C04, [⟨0, 17, 0x1000⟩], 31, 0, .rw, 0⟩
-- CT_MAC_HI (17_consist_ports_and_gateway.md)
def CT_MAC_HI_MAC : Fld := ⟨0x80C08, [⟨0, 17, 0x1000⟩], 15, 0, .rw, 0⟩
-- CANn_CTL (18_can_controllers.md)
def CANn_CTL_MWIN : Fld := ⟨0xC0000, [⟨0, 8, 0x1000⟩], 31, 28, .rwl, 0⟩
def CANn_CTL_EWL : Fld := ⟨0xC0000, [⟨0, 8, 0x1000⟩], 23, 16, .rwl, 0x60⟩
def CANn_CTL_MISS_ABORT : Fld := ⟨0xC0000, [⟨0, 8, 0x1000⟩], 12, 12, .rwl, 0⟩
def CANn_CTL_MIRROR : Fld := ⟨0xC0000, [⟨0, 8, 0x1000⟩], 11, 11, .rwl, 0⟩
def CANn_CTL_ALONE_HOLD : Fld := ⟨0xC0000, [⟨0, 8, 0x1000⟩], 10, 10, .rwl, 0⟩
def CANn_CTL_ABORT_ON_BUSOFF : Fld := ⟨0xC0000, [⟨0, 8, 0x1000⟩], 9, 9, .rwl, 0⟩
def CANn_CTL_AUTO_REC : Fld := ⟨0xC0000, [⟨0, 8, 0x1000⟩], 8, 8, .rwl, 1⟩
def CANn_CTL_PXE : Fld := ⟨0xC0000, [⟨0, 8, 0x1000⟩], 6, 6, .rwl, 0⟩
def CANn_CTL_FD_EN : Fld := ⟨0xC0000, [⟨0, 8, 0x1000⟩], 4, 4, .rwl, 0⟩
def CANn_CTL_MODE : Fld := ⟨0xC0000, [⟨0, 8, 0x1000⟩], 2, 1, .rwl, 0⟩
def CANn_CTL_EN : Fld := ⟨0xC0000, [⟨0, 8, 0x1000⟩], 0, 0, .rwl, 0⟩
-- CANn_NBT (18_can_controllers.md)
def CANn_NBT_SJW : Fld := ⟨0xC0004, [⟨0, 8, 0x1000⟩], 30, 24, .rwl, 0x1f⟩
def CANn_NBT_TSEG2 : Fld := ⟨0xC0004, [⟨0, 8, 0x1000⟩], 22, 16, .rwl, 0x1f⟩
def CANn_NBT_TSEG1 : Fld := ⟨0xC0004, [⟨0, 8, 0x1000⟩], 15, 8, .rwl, 0x7e⟩
def CANn_NBT_BRP : Fld := ⟨0xC0004, [⟨0, 8, 0x1000⟩], 7, 0, .rwl, 0⟩
-- CANn_DBT (18_can_controllers.md)
def CANn_DBT_SJW : Fld := ⟨0xC0008, [⟨0, 8, 0x1000⟩], 27, 24, .rwl, 9⟩
def CANn_DBT_TSEG2 : Fld := ⟨0xC0008, [⟨0, 8, 0x1000⟩], 19, 16, .rwl, 9⟩
def CANn_DBT_TSEG1 : Fld := ⟨0xC0008, [⟨0, 8, 0x1000⟩], 12, 8, .rwl, 0x1c⟩
def CANn_DBT_BRP : Fld := ⟨0xC0008, [⟨0, 8, 0x1000⟩], 4, 0, .rwl, 0⟩
-- CANn_TDC (18_can_controllers.md)
def CANn_TDC_MEAS : Fld := ⟨0xC000C, [⟨0, 8, 0x1000⟩], 22, 16, .ro, 0⟩
def CANn_TDC_EN : Fld := ⟨0xC000C, [⟨0, 8, 0x1000⟩], 15, 15, .rwl, 0⟩
def CANn_TDC_OFFSET : Fld := ⟨0xC000C, [⟨0, 8, 0x1000⟩], 6, 0, .rwl, 0⟩
-- CANn_STAT (18_can_controllers.md)
def CANn_STAT_PENDING : Fld := ⟨0xC0010, [⟨0, 8, 0x1000⟩], 23, 16, .ro, 0⟩
def CANn_STAT_ALONE_HELD : Fld := ⟨0xC0010, [⟨0, 8, 0x1000⟩], 8, 8, .ro, 0⟩
def CANn_STAT_ALONE : Fld := ⟨0xC0010, [⟨0, 8, 0x1000⟩], 7, 7, .ro, 0⟩
def CANn_STAT_EPASS : Fld := ⟨0xC0010, [⟨0, 8, 0x1000⟩], 5, 5, .ro, 0⟩
def CANn_STAT_EWARN : Fld := ⟨0xC0010, [⟨0, 8, 0x1000⟩], 4, 4, .ro, 0⟩
def CANn_STAT_STATE : Fld := ⟨0xC0010, [⟨0, 8, 0x1000⟩], 2, 0, .ro, 0⟩
-- CANn_ERR (18_can_controllers.md)
def CANn_ERR_DATA_PHASE : Fld := ⟨0xC0014, [⟨0, 8, 0x1000⟩], 28, 28, .ro, 0⟩
def CANn_ERR_LEC : Fld := ⟨0xC0014, [⟨0, 8, 0x1000⟩], 27, 24, .ro, 0⟩
def CANn_ERR_REC : Fld := ⟨0xC0014, [⟨0, 8, 0x1000⟩], 23, 16, .ro, 0⟩
def CANn_ERR_TEC : Fld := ⟨0xC0014, [⟨0, 8, 0x1000⟩], 8, 0, .ro, 0⟩
-- CANn_CNT_A (18_can_controllers.md)
def CANn_CNT_A_TX_OK : Fld := ⟨0xC0018, [⟨0, 8, 0x1000⟩], 31, 16, .rc, 0⟩
def CANn_CNT_A_RX_OK : Fld := ⟨0xC0018, [⟨0, 8, 0x1000⟩], 15, 0, .rc, 0⟩
-- CANn_CNT_B (18_can_controllers.md)
def CANn_CNT_B_BUSOFF : Fld := ⟨0xC001C, [⟨0, 8, 0x1000⟩], 31, 28, .rc, 0⟩
def CANn_CNT_B_HOST_WAIT : Fld := ⟨0xC001C, [⟨0, 8, 0x1000⟩], 27, 24, .rc, 0⟩
def CANn_CNT_B_MSGLOST : Fld := ⟨0xC001C, [⟨0, 8, 0x1000⟩], 23, 16, .rc, 0⟩
def CANn_CNT_B_MISSED : Fld := ⟨0xC001C, [⟨0, 8, 0x1000⟩], 15, 8, .rc, 0⟩
def CANn_CNT_B_TWINS : Fld := ⟨0xC001C, [⟨0, 8, 0x1000⟩], 7, 4, .rc, 0⟩
def CANn_CNT_B_NOMATCH : Fld := ⟨0xC001C, [⟨0, 8, 0x1000⟩], 3, 0, .rc, 0⟩
-- CANn_CMD (18_can_controllers.md)
def CANn_CMD_WAKE : Fld := ⟨0xC0020, [⟨0, 8, 0x1000⟩], 2, 2, .wo, 0⟩
def CANn_CMD_SLEEP : Fld := ⟨0xC0020, [⟨0, 8, 0x1000⟩], 1, 1, .wo, 0⟩
def CANn_CMD_RECOVER : Fld := ⟨0xC0020, [⟨0, 8, 0x1000⟩], 0, 0, .wo, 0⟩
-- CANn_IRQ (18_can_controllers.md)
def CANn_IRQ_RX : Fld := ⟨0xC0024, [⟨0, 8, 0x1000⟩], 8, 8, .w1c, 0⟩
def CANn_IRQ_WAKE : Fld := ⟨0xC0024, [⟨0, 8, 0x1000⟩], 7, 7, .w1c, 0⟩
def CANn_IRQ_MISSED : Fld := ⟨0xC0024, [⟨0, 8, 0x1000⟩], 6, 6, .w1c, 0⟩
def CANn_IRQ_MSGLOST : Fld := ⟨0xC0024, [⟨0, 8, 0x1000⟩], 5, 5, .w1c, 0⟩
def CANn_IRQ_ALONE : Fld := ⟨0xC0024, [⟨0, 8, 0x1000⟩], 4, 4, .w1c, 0⟩
def CANn_IRQ_RECOVERED : Fld := ⟨0xC0024, [⟨0, 8, 0x1000⟩], 3, 3, .w1c, 0⟩
def CANn_IRQ_BOFF : Fld := ⟨0xC0024, [⟨0, 8, 0x1000⟩], 2, 2, .w1c, 0⟩
def CANn_IRQ_EPASS : Fld := ⟨0xC0024, [⟨0, 8, 0x1000⟩], 1, 1, .w1c, 0⟩
def CANn_IRQ_EWARN : Fld := ⟨0xC0024, [⟨0, 8, 0x1000⟩], 0, 0, .w1c, 0⟩
-- CANn_IRQ_EN (18_can_controllers.md)
def CANn_IRQ_EN_RX : Fld := ⟨0xC0028, [⟨0, 8, 0x1000⟩], 8, 8, .rw, 0⟩
def CANn_IRQ_EN_WAKE : Fld := ⟨0xC0028, [⟨0, 8, 0x1000⟩], 7, 7, .rw, 0⟩
def CANn_IRQ_EN_MISSED : Fld := ⟨0xC0028, [⟨0, 8, 0x1000⟩], 6, 6, .rw, 0⟩
def CANn_IRQ_EN_MSGLOST : Fld := ⟨0xC0028, [⟨0, 8, 0x1000⟩], 5, 5, .rw, 0⟩
def CANn_IRQ_EN_ALONE : Fld := ⟨0xC0028, [⟨0, 8, 0x1000⟩], 4, 4, .rw, 0⟩
def CANn_IRQ_EN_RECOVERED : Fld := ⟨0xC0028, [⟨0, 8, 0x1000⟩], 3, 3, .rw, 0⟩
def CANn_IRQ_EN_BOFF : Fld := ⟨0xC0028, [⟨0, 8, 0x1000⟩], 2, 2, .rw, 0⟩
def CANn_IRQ_EN_EPASS : Fld := ⟨0xC0028, [⟨0, 8, 0x1000⟩], 1, 1, .rw, 0⟩
def CANn_IRQ_EN_EWARN : Fld := ⟨0xC0028, [⟨0, 8, 0x1000⟩], 0, 0, .rw, 0⟩
-- CANn_IRQ_ROUTE (18_can_controllers.md)
def CANn_IRQ_ROUTE_VEC : Fld := ⟨0xC002C, [⟨0, 8, 0x1000⟩], 31, 24, .rw, 0⟩
def CANn_IRQ_ROUTE_PF : Fld := ⟨0xC002C, [⟨0, 8, 0x1000⟩], 16, 16, .rw, 0⟩
def CANn_IRQ_ROUTE_EN : Fld := ⟨0xC002C, [⟨0, 8, 0x1000⟩], 0, 0, .rw, 0⟩
-- CANn_WAKE (18_can_controllers.md)
def CANn_WAKE_DLC : Fld := ⟨0xC0030, [⟨0, 8, 0x1000⟩], 11, 8, .rwl, 0⟩
def CANn_WAKE_WRATE : Fld := ⟨0xC0030, [⟨0, 8, 0x1000⟩], 5, 4, .rwl, 0⟩
def CANn_WAKE_WMODE : Fld := ⟨0xC0030, [⟨0, 8, 0x1000⟩], 0, 0, .rwl, 0⟩
-- CANn_WAKE_ID (18_can_controllers.md)
def CANn_WAKE_ID_ID : Fld := ⟨0xC0034, [⟨0, 8, 0x1000⟩], 29, 0, .rwl, 0⟩
-- CANn_WAKE_MASK (18_can_controllers.md)
def CANn_WAKE_MASK_ID : Fld := ⟨0xC0038, [⟨0, 8, 0x1000⟩], 29, 0, .rwl, 0⟩
-- CANn_WAKE_DATA_LO (18_can_controllers.md)
def CANn_WAKE_DATA_LO_BYTES : Fld := ⟨0xC003C, [⟨0, 8, 0x1000⟩], 31, 0, .rwl, 0⟩
-- CANn_WAKE_DATA_HI (18_can_controllers.md)
def CANn_WAKE_DATA_HI_BYTES : Fld := ⟨0xC0040, [⟨0, 8, 0x1000⟩], 31, 0, .rwl, 0⟩
-- CANn_WAKE_DMASK_LO (18_can_controllers.md)
def CANn_WAKE_DMASK_LO_BYTES : Fld := ⟨0xC0044, [⟨0, 8, 0x1000⟩], 31, 0, .rwl, 0⟩
-- CANn_WAKE_DMASK_HI (18_can_controllers.md)
def CANn_WAKE_DMASK_HI_BYTES : Fld := ⟨0xC0048, [⟨0, 8, 0x1000⟩], 31, 0, .rwl, 0⟩
-- CANn_BUFSEL (18_can_controllers.md)
def CANn_BUFSEL_BUF : Fld := ⟨0xC0080, [⟨0, 8, 0x1000⟩], 6, 0, .rw, 0⟩
-- CANn_MCOL_k (18_can_controllers.md)
def CANn_MCOL_k_EN : Fld := ⟨0xC0100, [⟨0, 8, 0x1000⟩, ⟨0, 32, 0x4⟩], 31, 31, .rwl, 0⟩
def CANn_MCOL_k_OFFSET : Fld := ⟨0xC0100, [⟨0, 8, 0x1000⟩, ⟨0, 32, 0x4⟩], 12, 0, .rwl, 0⟩
-- CANn_MCELL_r_j (18_can_controllers.md)
def CANn_MCELL_r_j_EN1 : Fld := ⟨0xC0400, [⟨0, 8, 0x1000⟩, ⟨0, 16, 0x40⟩, ⟨0, 16, 0x4⟩], 31, 31, .rwl, 0⟩
def CANn_MCELL_r_j_ALWAYS1 : Fld := ⟨0xC0400, [⟨0, 8, 0x1000⟩, ⟨0, 16, 0x40⟩, ⟨0, 16, 0x4⟩], 24, 24, .rwl, 0⟩
def CANn_MCELL_r_j_BUF1 : Fld := ⟨0xC0400, [⟨0, 8, 0x1000⟩, ⟨0, 16, 0x40⟩, ⟨0, 16, 0x4⟩], 22, 16, .rwl, 0⟩
def CANn_MCELL_r_j_EN0 : Fld := ⟨0xC0400, [⟨0, 8, 0x1000⟩, ⟨0, 16, 0x40⟩, ⟨0, 16, 0x4⟩], 15, 15, .rwl, 0⟩
def CANn_MCELL_r_j_ALWAYS0 : Fld := ⟨0xC0400, [⟨0, 8, 0x1000⟩, ⟨0, 16, 0x40⟩, ⟨0, 16, 0x4⟩], 8, 8, .rwl, 0⟩
def CANn_MCELL_r_j_BUF0 : Fld := ⟨0xC0400, [⟨0, 8, 0x1000⟩, ⟨0, 16, 0x40⟩, ⟨0, 16, 0x4⟩], 6, 0, .rwl, 0⟩
-- CANn_BUFWIN_k (18_can_controllers.md)
def CANn_BUFWIN_k_WORD : Fld := ⟨0xC0800, [⟨0, 8, 0x1000⟩, ⟨0, 32, 0x4⟩], 31, 0, .win, 0⟩
-- CANn_MISS_r (18_can_controllers.md)
def CANn_MISS_r_COL : Fld := ⟨0xC0900, [⟨0, 8, 0x1000⟩, ⟨0, 16, 0x4⟩], 31, 0, .w1c, 0⟩
-- CAN_WAKE_STAT (18_can_controllers.md)
def CAN_WAKE_STAT_DECERR : Fld := ⟨0xC8000, [], 23, 16, .rc, 0⟩
def CAN_WAKE_STAT_CAUSE : Fld := ⟨0xC8000, [], 10, 8, .ro, 0⟩
def CAN_WAKE_STAT_PEND : Fld := ⟨0xC8000, [], 7, 0, .w1c, 0⟩
-- CAN_LOCK (18_can_controllers.md)
def CAN_LOCK_LOCK : Fld := ⟨0xC80FC, [], 0, 0, .rw, 0⟩
-- MEM_ARB (19_on_chip_memory.md)
def MEM_ARB_AGE : Fld := ⟨0xD0000, [], 7, 0, .rwl, 8⟩
-- MEM_CNT_CTL (19_on_chip_memory.md)
def MEM_CNT_CTL_RUN : Fld := ⟨0xD0004, [], 31, 31, .rw, 1⟩
def MEM_CNT_CTL_CLR : Fld := ⟨0xD0004, [], 11, 0, .wo, 0⟩
-- MEM_STAT (19_on_chip_memory.md)
def MEM_STAT_PLACE_PENDING : Fld := ⟨0xD0008, [], 0, 0, .ro, 0⟩
-- MEM_SCRUB (19_on_chip_memory.md)
def MEM_SCRUB_PASSES : Fld := ⟨0xD000C, [], 31, 16, .ro, 0⟩
def MEM_SCRUB_PERIOD : Fld := ⟨0xD000C, [], 7, 0, .rwl, 0⟩
-- MEM_ECC_CNT (19_on_chip_memory.md)
def MEM_ECC_CNT_UE : Fld := ⟨0xD0010, [], 31, 16, .rc, 0⟩
def MEM_ECC_CNT_CE : Fld := ⟨0xD0010, [], 15, 0, .rc, 0⟩
-- MEM_ECC_ADDR (19_on_chip_memory.md)
def MEM_ECC_ADDR_OFFSET : Fld := ⟨0xD0014, [], 24, 3, .ro, 0⟩
-- MEM_ECC_INFO (19_on_chip_memory.md)
def MEM_ECC_INFO_SCRUB : Fld := ⟨0xD0018, [], 16, 16, .ro, 0⟩
def MEM_ECC_INFO_UE : Fld := ⟨0xD0018, [], 12, 12, .ro, 0⟩
def MEM_ECC_INFO_MASTER : Fld := ⟨0xD0018, [], 11, 8, .ro, 0⟩
def MEM_ECC_INFO_BANK : Fld := ⟨0xD0018, [], 5, 0, .ro, 0⟩
-- MEM_SEC_STAT (19_on_chip_memory.md)
def MEM_SEC_STAT_WIPE_US : Fld := ⟨0xD001C, [], 31, 16, .ro, 0⟩
def MEM_SEC_STAT_VIOL : Fld := ⟨0xD001C, [], 15, 8, .rc, 0⟩
def MEM_SEC_STAT_CAUSE : Fld := ⟨0xD001C, [], 7, 4, .ro, 1⟩
def MEM_SEC_STAT_FAILED : Fld := ⟨0xD001C, [], 2, 2, .ro, 0⟩
def MEM_SEC_STAT_WIPING : Fld := ⟨0xD001C, [], 1, 1, .ro, 0⟩
-- MEM_LOCK (19_on_chip_memory.md)
def MEM_LOCK_LOCK : Fld := ⟨0xD00FC, [], 0, 0, .rw, 0⟩
-- MEM_REGIONk (19_on_chip_memory.md)
def MEM_REGIONk_SIZE : Fld := ⟨0xD0040, [⟨0, 11, 0x4⟩], 31, 16, .ro, 0⟩
def MEM_REGIONk_GROUP : Fld := ⟨0xD0040, [⟨0, 11, 0x4⟩], 2, 0, .rwl, 0⟩
-- MEM_CONFLICTm (19_on_chip_memory.md)
def MEM_CONFLICTm_COUNT : Fld := ⟨0xD0100, [⟨0, 12, 0x8⟩], 31, 0, .ro, 0⟩
-- MEM_STALLm (19_on_chip_memory.md)
def MEM_STALLm_COUNT : Fld := ⟨0xD0104, [⟨0, 12, 0x8⟩], 31, 0, .ro, 0⟩
-- TALLY_STAT (20_tally_book.md)
def TALLY_STAT_QUEUED : Fld := ⟨0xE0000, [], 28, 16, .ro, 0⟩
def TALLY_STAT_TORN_FOUND : Fld := ⟨0xE0000, [], 4, 4, .w1c, 0⟩
def TALLY_STAT_PERM_FULL : Fld := ⟨0xE0000, [], 3, 3, .ro, 0⟩
def TALLY_STAT_PTR_REBUILT : Fld := ⟨0xE0000, [], 2, 2, .ro, 0⟩
def TALLY_STAT_DEGRADED : Fld := ⟨0xE0000, [], 1, 1, .ro, 0⟩
def TALLY_STAT_READY : Fld := ⟨0xE0000, [], 0, 0, .ro, 0⟩
-- TALLY_SEQ (20_tally_book.md)
def TALLY_SEQ_NEXT : Fld := ⟨0xE0004, [], 31, 0, .ro, 0⟩
-- TALLY_PERM_CNT (20_tally_book.md)
def TALLY_PERM_CNT_COUNT : Fld := ⟨0xE0008, [], 16, 0, .ro, 0⟩
-- TALLY_CIRC_CNT (20_tally_book.md)
def TALLY_CIRC_CNT_COUNT : Fld := ⟨0xE000C, [], 20, 0, .ro, 0⟩
-- TALLY_CIRC_HEAD (20_tally_book.md)
def TALLY_CIRC_HEAD_HEAD : Fld := ⟨0xE0010, [], 19, 0, .ro, 0⟩
-- TALLY_EMER (20_tally_book.md)
def TALLY_EMER_DROPPED : Fld := ⟨0xE0014, [], 31, 24, .rc, 0⟩
def TALLY_EMER_CLEARS : Fld := ⟨0xE0014, [], 20, 16, .ro, 0⟩
def TALLY_EMER_COUNT : Fld := ⟨0xE0014, [], 9, 0, .ro, 0⟩
-- TALLY_CNT (20_tally_book.md)
def TALLY_CNT_SLUICED : Fld := ⟨0xE0018, [], 31, 16, .rc, 0⟩
def TALLY_CNT_OVERFLOW : Fld := ⟨0xE0018, [], 15, 0, .rc, 0⟩
-- TALLY_CLR (20_tally_book.md)
def TALLY_CLR_REFUSED : Fld := ⟨0xE001C, [], 31, 16, .rc, 0⟩
def TALLY_CLR_DONE : Fld := ⟨0xE001C, [], 15, 0, .ro, 0⟩
-- TALLY_UTC (20_tally_book.md)
def TALLY_UTC_VALID : Fld := ⟨0xE0020, [], 31, 31, .rw, 0⟩
def TALLY_UTC_OFFSET : Fld := ⟨0xE0020, [], 15, 0, .rw, 0⟩
-- TALLY_ANCHOR (20_tally_book.md)
def TALLY_ANCHOR_HOURS : Fld := ⟨0xE0024, [], 7, 0, .rwl, 0⟩
-- TALLY_LOCK (20_tally_book.md)
def TALLY_LOCK_LOCK : Fld := ⟨0xE00FC, [], 0, 0, .rw, 0⟩
-- SLUk_A (20_tally_book.md)
def SLUk_A_MASK : Fld := ⟨0xE0100, [⟨0, 256, 0x8⟩], 31, 16, .rwl, 0⟩
def SLUk_A_CODE : Fld := ⟨0xE0100, [⟨0, 256, 0x8⟩], 15, 0, .rwl, 0⟩
-- SLUk_B (20_tally_book.md)
def SLUk_B_EN : Fld := ⟨0xE0104, [⟨0, 256, 0x8⟩], 31, 31, .rwl, 0⟩
def SLUk_B_CAP : Fld := ⟨0xE0104, [⟨0, 256, 0x8⟩], 23, 16, .rwl, 0⟩
def SLUk_B_REFILL : Fld := ⟨0xE0104, [⟨0, 256, 0x8⟩], 14, 8, .rwl, 0⟩
-- SLUk_CNT (20_tally_book.md)
def SLUk_CNT_TOKENS : Fld := ⟨0xE0900, [⟨0, 256, 0x4⟩], 23, 16, .ro, 0⟩
def SLUk_CNT_PENDING : Fld := ⟨0xE0900, [⟨0, 256, 0x4⟩], 15, 0, .ro, 0⟩
-- TCL_CTL (20_tally_book.md)
def TCL_CTL_VALID : Fld := ⟨0x80E00, [⟨0, 17, 0x1000⟩], 8, 8, .ro, 0⟩
def TCL_CTL_NEW : Fld := ⟨0x80E00, [⟨0, 17, 0x1000⟩], 0, 0, .wo, 0⟩
-- TCL_NONCE_k (20_tally_book.md)
def TCL_NONCE_k_BYTES : Fld := ⟨0x80E04, [⟨0, 17, 0x1000⟩, ⟨0, 8, 0x4⟩], 31, 0, .ro, 0⟩
-- SEC_LC (21_security_and_attestation.md)
def SEC_LC_STATE : Fld := ⟨0xF0000, [], 2, 0, .ro, 0⟩
-- SEC_STAT (21_security_and_attestation.md)
def SEC_STAT_ROLL_PENDING : Fld := ⟨0xF0004, [], 8, 8, .ro, 0⟩
def SEC_STAT_TAMPER : Fld := ⟨0xF0004, [], 6, 6, .ro, 0⟩
def SEC_STAT_STORE_OK : Fld := ⟨0xF0004, [], 5, 5, .ro, 0⟩
def SEC_STAT_FK_STAGED : Fld := ⟨0xF0004, [], 4, 4, .ro, 0⟩
def SEC_STAT_FK_ACTIVE : Fld := ⟨0xF0004, [], 3, 3, .ro, 0⟩
def SEC_STAT_MAINT_KEY : Fld := ⟨0xF0004, [], 2, 2, .ro, 0⟩
def SEC_STAT_CFG_KEY : Fld := ⟨0xF0004, [], 1, 1, .ro, 0⟩
def SEC_STAT_CERTIFIED : Fld := ⟨0xF0004, [], 0, 0, .ro, 0⟩
-- SEC_CERT_MISS (21_security_and_attestation.md)
def SEC_CERT_MISS_MISS : Fld := ⟨0xF0008, [], 8, 0, .ro, 0x1ff⟩
-- SEC_FK_ACTIVE (21_security_and_attestation.md)
def SEC_FK_ACTIVE_ID : Fld := ⟨0xF000C, [], 31, 0, .ro, 0⟩
-- SEC_FK_STAGED (21_security_and_attestation.md)
def SEC_FK_STAGED_ID : Fld := ⟨0xF0010, [], 31, 0, .ro, 0⟩
-- SEC_ROLL_TURN (21_security_and_attestation.md)
def SEC_ROLL_TURN_TURN : Fld := ⟨0xF0014, [], 31, 0, .ro, 0⟩
-- SEC_REPORT_CNT (21_security_and_attestation.md)
def SEC_REPORT_CNT_COUNT : Fld := ⟨0xF0018, [], 31, 0, .ro, 0⟩
-- SEC_CTL (21_security_and_attestation.md)
def SEC_CTL_ATT_TMO : Fld := ⟨0xF001C, [], 7, 0, .rwl, 0⟩
-- SEC_TAMPER_CTL (21_security_and_attestation.md)
def SEC_TAMPER_CTL_RESP : Fld := ⟨0xF0020, [], 11, 0, .rwl, 0xaaa⟩
-- SEC_TAMPER_STAT (21_security_and_attestation.md)
def SEC_TAMPER_STAT_UNPOWERED : Fld := ⟨0xF0024, [], 16, 16, .w1c, 0⟩
def SEC_TAMPER_STAT_NOW : Fld := ⟨0xF0024, [], 13, 8, .ro, 0⟩
def SEC_TAMPER_STAT_EVENT : Fld := ⟨0xF0024, [], 5, 0, .w1c, 0⟩
-- SEC_KICK_FLOOR_LO (21_security_and_attestation.md)
def SEC_KICK_FLOOR_LO_TURN : Fld := ⟨0xF0028, [], 31, 0, .ro, 0⟩
-- SEC_KICK_FLOOR_HI (21_security_and_attestation.md)
def SEC_KICK_FLOOR_HI_TURN : Fld := ⟨0xF002C, [], 31, 0, .ro, 0⟩
-- SEC_CNT (21_security_and_attestation.md)
def SEC_CNT_REFUSED : Fld := ⟨0xF0030, [], 15, 8, .rc, 0⟩
def SEC_CNT_TAMPER : Fld := ⟨0xF0030, [], 7, 0, .rc, 0⟩
-- SEC_LOCK (21_security_and_attestation.md)
def SEC_LOCK_LOCK : Fld := ⟨0xF00FC, [], 0, 0, .rw, 0⟩
-- MEASk_w (21_security_and_attestation.md)
def MEASk_w_BYTES : Fld := ⟨0xF0100, [⟨0, 8, 0x40⟩, ⟨0, 12, 0x4⟩], 31, 0, .ro, 0⟩
-- CFG_STAT (22_configuration_images.md)
def CFG_STAT_LAST_CAUSE : Fld := ⟨0x100000, [], 19, 16, .ro, 0⟩
def CFG_STAT_HELD : Fld := ⟨0x100000, [], 12, 12, .ro, 0⟩
def CFG_STAT_ARMED : Fld := ⟨0x100000, [], 11, 11, .ro, 0⟩
def CFG_STAT_CONFIRMED : Fld := ⟨0x100000, [], 10, 10, .ro, 0⟩
def CFG_STAT_TRIAL : Fld := ⟨0x100000, [], 9, 9, .ro, 0⟩
def CFG_STAT_STAGED_VALID : Fld := ⟨0x100000, [], 2, 2, .ro, 0⟩
def CFG_STAT_PREV_VALID : Fld := ⟨0x100000, [], 1, 1, .ro, 0⟩
def CFG_STAT_ACTIVE_VALID : Fld := ⟨0x100000, [], 0, 0, .ro, 0⟩
-- CFG_TRIAL (22_configuration_images.md)
def CFG_TRIAL_LEFT : Fld := ⟨0x100004, [], 31, 16, .ro, 0⟩
def CFG_TRIAL_OVR : Fld := ⟨0x100004, [], 7, 0, .ro, 0⟩
-- CFG_VER_ACTIVE (22_configuration_images.md)
def CFG_VER_ACTIVE_VER : Fld := ⟨0x100008, [], 31, 0, .ro, 0⟩
-- CFG_VER_PREV (22_configuration_images.md)
def CFG_VER_PREV_VER : Fld := ⟨0x10000C, [], 31, 0, .ro, 0⟩
-- CFG_VER_STAGED (22_configuration_images.md)
def CFG_VER_STAGED_VER : Fld := ⟨0x100010, [], 31, 0, .ro, 0⟩
-- CFG_VER_MAX (22_configuration_images.md)
def CFG_VER_MAX_VER : Fld := ⟨0x100014, [], 31, 0, .ro, 0⟩
-- CFG_CNT (22_configuration_images.md)
def CFG_CNT_AUTO_RB : Fld := ⟨0x100018, [], 31, 24, .rc, 0⟩
def CFG_CNT_CMD_RB : Fld := ⟨0x100018, [], 23, 16, .rc, 0⟩
def CFG_CNT_ACTIVATIONS : Fld := ⟨0x100018, [], 15, 0, .rc, 0⟩
-- ALARM_SRC (23_faults_and_in_flight_work.md)
def ALARM_SRC_ROM_RECOVERY : Fld := ⟨0x20, [], 11, 11, .ro, 0⟩
def ALARM_SRC_CFG_HELD : Fld := ⟨0x20, [], 10, 10, .ro, 0⟩
def ALARM_SRC_TAMPER : Fld := ⟨0x20, [], 9, 9, .ro, 0⟩
def ALARM_SRC_WIPE_FAIL : Fld := ⟨0x20, [], 8, 8, .ro, 0⟩
def ALARM_SRC_SEC_VIOL : Fld := ⟨0x20, [], 7, 7, .w1c, 0⟩
def ALARM_SRC_RECORDER : Fld := ⟨0x20, [], 6, 6, .ro, 0⟩
def ALARM_SRC_WEIR_FAIL : Fld := ⟨0x20, [], 5, 5, .ro, 0⟩
def ALARM_SRC_FENCED : Fld := ⟨0x20, [], 4, 4, .ro, 0⟩
def ALARM_SRC_FALLBACK : Fld := ⟨0x20, [], 3, 3, .ro, 0⟩
def ALARM_SRC_SPLIT : Fld := ⟨0x20, [], 2, 2, .ro, 0⟩
def ALARM_SRC_XT32 : Fld := ⟨0x20, [], 1, 1, .ro, 0⟩
def ALARM_SRC_VOUT : Fld := ⟨0x20, [], 0, 0, .ro, 0⟩
-- DIAG_STAT (24_mill_brake_and_diagnostics.md)
def DIAG_STAT_LAST : Fld := ⟨0x110000, [], 8, 8, .ro, 0⟩
def DIAG_STAT_TOKEN : Fld := ⟨0x110000, [], 2, 2, .ro, 0⟩
def DIAG_STAT_FROZEN : Fld := ⟨0x110000, [], 1, 1, .ro, 0⟩
def DIAG_STAT_FRZ_EN : Fld := ⟨0x110000, [], 0, 0, .ro, 0⟩
-- DIAG_CTL (24_mill_brake_and_diagnostics.md)
def DIAG_CTL_CON_SEV : Fld := ⟨0x110004, [], 10, 8, .rw, 3⟩
def DIAG_CTL_CON_EN : Fld := ⟨0x110004, [], 0, 0, .rw, 1⟩
-- DIAG_CNT (24_mill_brake_and_diagnostics.md)
def DIAG_CNT_CON_DROP : Fld := ⟨0x110008, [], 31, 16, .rc, 0⟩
def DIAG_CNT_REFUSED : Fld := ⟨0x110008, [], 7, 0, .rc, 0⟩
-- DIAG_SNAP_IDX (24_mill_brake_and_diagnostics.md)
def DIAG_SNAP_IDX_OFFSET : Fld := ⟨0x11000C, [], 20, 2, .rw, 0⟩
-- DIAG_SNAP_DATA (24_mill_brake_and_diagnostics.md)
def DIAG_SNAP_DATA_VAL : Fld := ⟨0x110010, [], 31, 0, .ro, 0⟩
-- DIAG_SNAP_TURN (24_mill_brake_and_diagnostics.md)
def DIAG_SNAP_TURN_TURN : Fld := ⟨0x110014, [], 31, 0, .ro, 0⟩

/-- The fields of the register map, part 0. -/
def part0 : List Fld :=
  [IDENT_FAMILY, IDENT_PART, REV_MAJOR, REV_MINOR, UID_LO_UID, UID_HI_UID, CAPS_PCIE_GEN, CAPS_PROFILE_MAX,
   CAPS_TENANTS, CAPS_CAN, CAPS_CON_SERDES, CAPS_CON_T1S, CAPS_CON_T1, CAPS_LINE_PORTS, STRAP_STAT_LEADER_PREF,
   STRAP_STAT_CHANNEL_SEL, STRAP_STAT_PAIR_MODE, GLOBAL_STAT_CONFIG_VALID, GLOBAL_STAT_ROLE, GLOBAL_STAT_ALARM,
   GLOBAL_STAT_FW_RESTART, GLOBAL_STAT_FW_READY, GLOBAL_SCRATCH_VAL, GPIO_DIR_OD, GPIO_DIR_OUT, GPIO_OUT_VAL,
   GPIO_IN_LEVEL, GPIO_EDGE_FALL, GPIO_EDGE_RISE, GPIO_IRQ_VEC, GPIO_IRQ_PF, GPIO_IRQ_EN, GPIO_LOCK_LOCK,
   PWR_STAT_PD_ON, PWR_STAT_SHED, PWR_STAT_AO_COLD, PWR_STAT_VBACK_OK, PWR_STAT_VOUT_OVL, PWR_STAT_VOUT_OK,
   PWR_STAT_TRICKLE, PWR_STAT_SLACK, PWR_VIN_VIN_MIN, PWR_VIN_VIN, PWR_WARN_LEVEL, PWR_SLACK_CNT_RECOVERED,
   PWR_SLACK_CNT_ENTRIES, PWR_DIP_DURATION, PWR_DIP_MIN]

/-- The fields of the register map, part 1. -/
def part1 : List Fld :=
  [PWR_SHED_DELAY, PWR_SHED_DOMAINS, PWR_SW_OFF, PWR_SW_ERR_REFUSED, PWR_LOCK_LOCK, CLK_STAT_XT32_LOST,
   CLK_STAT_LOCK_GUARD, CLK_STAT_LOCK_NVM, CLK_STAT_LOCK_CPU, CLK_STAT_LOCK_FAB, CLK_STAT_XT32_OK, CLK_STAT_GX_OK,
   CLK_STAT_REF_OK, CLK_STAT_REF_SRC, CLK_GX_PPM_DIFF, OPTIME_LO_OPTIME, OPTIME_HI_OPTIME, TURN_CTL_TOUT_W,
   TURN_CTL_EN, TURN_LEN_LEN_ACT, TURN_LEN_LEN, TURN_NUM_LO_NUM, TURN_NUM_HI_NUM, TURN_STAT_PHASE, TURN_STAT_STEP,
   TURN_STAT_SRC, TURN_LOAD_CLR, TURN_LOAD_SEL, TURN_LOAD_PEAK, TURN_LOAD_LAST, TURN_OVR_DEG_PORT, TURN_OVR_DEGRADED,
   TURN_OVR_OVR, TURN_OVR_CNT_A_JOB3, TURN_OVR_CNT_A_JOB2, TURN_OVR_CNT_A_JOB1, TURN_OVR_CNT_A_JOB0,
   TURN_OVR_CNT_B_JOB7, TURN_OVR_CNT_B_JOB6, TURN_OVR_CNT_B_JOB5, TURN_OVR_CNT_B_JOB4, NTIME_LO_NS, NTIME_HI_NS,
   NTIME_RATE_RATE, TIME_STAT_ORIGIN, LINE_LOCK_LOCK, RST_CAUSE_ESCALATE, RST_CAUSE_LS1]

/-- The fields of the register map, part 2. -/
def part2 : List Fld :=
  [RST_CAUSE_LS0, RST_CAUSE_FW_CMD, RST_CAUSE_FW_UPDATE, RST_CAUSE_FW_FAULT, RST_CAUSE_FW_WDOG, RST_CAUSE_FATAL,
   RST_CAUSE_REF_LOST, RST_CAUSE_VIN_RST, RST_CAUSE_RESET_N, RST_CAUSE_POR, RST_CNT_LS, RST_CNT_FW, RST_CMD_KEY,
   RST_CMD_ACTION, BOOT_STAT_TIME, BOOT_STAT_BL_COPY, BOOT_STAT_FALLBACK, BOOT_STAT_BANK, BOOT_STAT_STAGE,
   FW_BANK_STAT_BANK1_VALID, FW_BANK_STAT_BANK0_VALID, FW_BANK_STAT_TRIAL, FW_BANK_STAT_ACTIVE, FW_VER_0_VER,
   FW_VER_1_VER, FW_SVN_BANK1, FW_SVN_BANK0, FW_SVN_FUSE, FIRST_USE_NO_PREV_FW, FIRST_USE_NO_PREV_CFG,
   FIRST_USE_OPTIME_ZERO, FIRST_USE_PAIR_EPOCH, FIRST_USE_RATE_HIST, LS_STAT_PAIR1, LS_STAT_PAIR0, LPn_CTL_RETRY,
   LPn_CTL_SEG_B, LPn_CTL_MIN, LPn_CTL_MODES, LPn_CTL_EN, LPn_STAT_XL_CROSSED, LPn_STAT_SQI, LPn_STAT_HELD_WHY,
   LPn_STAT_XL, LPn_STAT_CEIL, LPn_STAT_ROLE, LPn_STAT_RATE, LPn_STAT_STATE]

/-- The fields of the register map, part 3. -/
def part3 : List Fld :=
  [LPn_NBR_LO_UID, LPn_NBR_HI_UID, LPn_CNT_DOWNS, LPn_CNT_TRAIN_FAIL, LINE_DEPLOY_LINK_MIN, LINE_DEPLOY_PROFILE,
   LINE_DEPLOY_END2_NBR, LINE_DEPLOY_END1_NBR, LINE_DEPLOY_PAIR_FAULT, LINE_DEPLOY_CHANNEL, LINE_DEPLOY_PAIRED,
   LINE_RULES_SLOTS, LINE_RULES_PROF_ALLOW, LINE_LAYOUT_STOPPED, LINE_LAYOUT_TPROF, LINE_LAYOUT_SLOTS_EFF,
   LINE_LAYOUT_POSITIONS, LINE_DYN_START_NS, LINE_DYN_END_NS, LINE_SVC_LIFE_POOL, LINE_SVC_LIFE_SVC, LINE_HOPS_DESC,
   LINE_HOPS_ASC, LPn_RXERR_A_FCS, LPn_RXERR_A_HDR, LPn_RXERR_B_TAG, LPn_RXERR_B_ICNT, LPn_FWD_CNT_STOMPED,
   LPn_FWD_CNT_LIFE_DROP, LPn_FWD_CNT_KICK_DROP, LPn_HOP_STALL_SLOTS, LINE_STREAM_m_BUDGET, LINE_STREAM_m_LIFE,
   LINE_STREAM_m_EN, SYNC_CTL_USE_HIST, SYNC_CTL_PPS_OUT_EN, SYNC_CTL_PPS_W, SYNC_STAT_CONVERGED, SYNC_STAT_WIDE,
   SYNC_STAT_SELF_SILENT, SYNC_STAT_RATE_CLAMP, SYNC_STAT_SENDERS, SYNC_STAT_GOOD, SYNC_STAT_CONV_TURNS,
   SYNC_OFFSET_OFFSET, SYNC_CNT_NOSRC, SYNC_CNT_SILENT, SYNC_CNT_CLAMP]

/-- The fields of the register map, part 4. -/
def part4 : List Fld :=
  [SYNC_HIST_RATE, LPn_DELAY_VALID, LPn_DELAY_OUTLIERS, LPn_DELAY_D, TAI_SET_SEC_SEC, TAI_CTL_MISSED, TAI_CTL_ARM,
   LSTART_STAT_TURNS, LSTART_STAT_SPLIT_E2, LSTART_STAT_SPLIT_E1, LSTART_STAT_HOLD, LSTART_STAT_PENDING,
   LSTART_STAT_SRC_KIND, LSTART_STAT_PREV, LSTART_STAT_STATE, LSTART_UID_LO_UID, LSTART_UID_HI_UID, LSTART_REF_UID,
   LSTART_TMO_US, LSTART_CNT_COLD, LSTART_CNT_ABANDON, LSTART_CNT_SOLO, LSTART_CNT_LOST, INAUG_STAT_TURNS,
   INAUG_STAT_FALLBACK_NODE, INAUG_STAT_FALLBACK_CONSIST, INAUG_STAT_NEWLINK_E2, INAUG_STAT_NEWLINK_E1,
   INAUG_STAT_FOREIGN_E2, INAUG_STAT_FOREIGN_E1, INAUG_STAT_CAB, INAUG_STAT_CPL_E2, INAUG_STAT_CPL_E1,
   INAUG_STAT_INHIBIT, INAUG_STAT_PENDING, INAUG_STAT_ATTEMPT, INAUG_STAT_PHASE, INAUG_ICOUNT_ICOUNT,
   INAUG_POS_CAR_NO, INAUG_POS_CONSIST_NO, INAUG_POS_N, INAUG_POS_POSITION, INAUG_ADOPT_TURN, INAUG_ROOT_LO_ROOT,
   INAUG_ROOT_HI_ROOT, INAUG_CNT_FALLBACKS, INAUG_CNT_RESTARTS, INAUG_CNT_RUNS]

/-- The fields of the register map, part 5. -/
def part5 : List Fld :=
  [INAUG_TIME_US, INAUG_DIGEST_k_BYTES, INAUG_CAR_FRONT_E2, INAUG_CAR_COUNT, INAUG_CAR_INDEX, INAUG_CONSIST_ID,
   INAUG_LOCK_LOCK, SYN_RULES_SPARES, SYN_RULES_ALG, SYN_STAT_UNDECLARED, SYN_STAT_FT_DIFF, SYN_STAT_GHOSTS_DROPPED,
   SYN_STAT_TABLES_WAIT, SYN_STAT_VALID, SYN_LAYOUT_HOMES, SYN_LAYOUT_S_SYN, SYN_LAYOUT_POOL, SYN_LAYOUT_POOL_FIRST,
   SYN_OWN_HOME, SYN_OWN_SLOTS, SYN_UNSAT_TRAIN, SYN_UNSAT_OWN, SYN_TIME_US, SYN_CLAIM_PENDING, SYN_CLAIM_GRANTED,
   SYN_CLAIM_REQUEST, SYN_CLAIM_FIRST, SYN_POOL_CNT_GRANTS, SYN_POOL_CNT_RESETS, SYN_POOL_CNT_REFUSED, WEIR_CTL_EN,
   WEIR_DYN_POOL, WEIR_STAT_OWN_BLOCKS, WEIR_STAT_FAIL_WHY, WEIR_STAT_XL_ONLY, WEIR_STAT_FENCED, WEIR_STAT_STATE,
   WEIR_SKEW_NS, WEIR_TBL_CRC, WEIR_CNT_SEL_WEIR, WEIR_CNT_SEL_SENDER, WEIR_CNT_EARLY, WEIR_CNT_LATE, WEIR_CNT_WRONG,
   WEIR_CNT_OVERSIZE, WEIR_FENCE_CNT_FENCES, WEIR_FENCE_CNT_DROPS, WEIR_CHK_CNT_PARITY]

/-- The fields of the register map, part 6. -/
def part6 : List Fld :=
  [WEIR_CHK_CNT_MISMATCH, WEIR_LOCK_LOCK, RED_CTL_EPOCH_P, RED_CTL_COMPARE, RED_STAT_EPOCH, RED_STAT_COLD,
   RED_STAT_DUAL, RED_STAT_OWN_VIEW, RED_STAT_XL_E2, RED_STAT_XL_E1, RED_STAT_SWAP_PENDING, RED_EPOCH_COMMIT_ENUM,
   RED_EPOCH_AGE_TURNS, RED_EPOCH_CNT_COMMITTED, RED_EPOCH_CNT_DISCARDED, RED_EPOCH_CNT_CHUNK_ERR,
   RED_TAKE_CNT_TAKEOVERS, RED_TAKE_CNT_SWAPS, RED_TAKE_CNT_YIELDS, RED_TAKE_CNT_DUAL_TURNS, RED_CMP_SEL_SENDER,
   RED_CMP_CNT_MISMATCH, RED_CMP_CNT_ONE_CH, RED_DUP_CNT_DUPLICATES, RED_DUP_CNT_ROGUE, RED_PARTNER_LO_UID,
   RED_PARTNER_HI_UID, RED_HANDOFF_CNT_OWN_VIEW, RED_LOCK_LOCK, TI_CTL_VEC, TI_CTL_IRQ, TI_CTL_PUB_EN, TI_CTL_EN,
   TI_BASE_LO_ADDR, TI_BASE_HI_ADDR, TI_SUB_LO_ADDR, TI_SUB_HI_ADDR, TI_PUB_LO_ADDR, TI_PUB_HI_ADDR,
   TI_SIZE_PUB_SIZE, TI_SIZE_IMG_SIZE, TI_PARAM_SUB_CNT, TI_PARAM_STALE_N, TI_PARAM_OFFSET, TI_STAT_RECORDS,
   TI_STAT_TRUNC, TI_STAT_PUB_ERR, TI_STAT_ACTIVE]

/-- The fields of the register map, part 7. -/
def part7 : List Fld :=
  [TI_GEN_LO_GEN, TI_GEN_HI_GEN, TI_CNT_SKIPPED, TI_CNT_LATE_FETCH, TN_RIGHTS_QMAX, TN_RIGHTS_ATTEST,
   TN_RIGHTS_CONFIG, TN_RIGHTS_TALLY_CLEAR, TN_RIGHTS_TALLY_READ, TN_RIGHTS_ROLE_SWAP, TN_RIGHTS_INAUG,
   TN_RIGHTS_MARK, TN_RIGHTS_FAR, TN_RIGHTS_CAN, TN_RIGHTS_CONSIST, TN_RIGHTS_LINE, TN_RIGHTS_IMAGE, TN_STAT_BME,
   TN_STAT_PRESENT, TN_STAT_QEN, TN_STAT_TENANT, TN_CTL_ERR_VEC, TN_CTL_ERR_IRQ, TN_ERR_QSPI, TN_ERR_QSETUP,
   TN_ERR_DMA, TN_ERR_ACCESS, TN_ERR_DB_RANGE, TN_ERR_DB_OFF, TN_IRQ_ERR, TN_IRQ_IMAGE, TN_IRQ_CQ, TN_IRQ_EN_EN,
   TN_CNT_BAD_DESC, TN_CNT_DENIED, TN_RXDROP_FRAMES, HQq_SQB_LO_ADDR, HQq_SQB_HI_ADDR, HQq_CQB_LO_ADDR,
   HQq_CQB_HI_ADDR, HQq_CTL_VEC, HQq_CTL_SIZE, HQq_CTL_RX_CONSIST, HQq_CTL_KIND, HQq_CTL_IRQ, HQq_CTL_EN,
   HQq_MOD_COUNT, HQq_MOD_TIME]

/-- The fields of the register map, part 8. -/
def part8 : List Fld :=
  [HQq_STAT_HEAD, HQq_STAT_INFLIGHT, HQq_STAT_PHASE, HQq_STAT_ERR, HQq_STAT_RUN, HQq_TAIL_TAIL, HOST_PORT_PERST,
   HOST_PORT_NUMVFS, HOST_PORT_LINK_UP, HOST_PORT_WIDTH, HOST_PORT_SPEED, HOST_INFLIGHT_DESC, HOST_RDREQ_Q,
   HOST_RDREQ_P, HOST_STALL_POOL, HOST_STALL_RDREQ, HOST_CAPS_BAR4_EN, FAR_CTL_PF_MAX, FAR_CTL_TGT_AGE, FAR_CTL_TMO,
   FAR_STAT_TQUEUE, FAR_STAT_TAGS, FAR_CNT_A_READS, FAR_CNT_A_WRITES, FAR_CNT_B_LATE, FAR_CNT_B_TIMEOUTS,
   FAR_CNT_B_ERRORS, FAR_STALL_ORDER, FAR_STALL_TAG, FAR_TGT_CNT_SERVED, FAR_TGT_CNT_BUSY, FAR_TGT_CNT_EXPIRED,
   FAR_PF_SEL_ENTRY, FAR_PF_INFO_FUNC, FAR_PF_INFO_VALID, FAR_PF_INFO_POS, FAR_PF_CNT_HITS, FAR_PF_CNT_DISCARDS,
   FAR_LOCK_LOCK, FWw_CFG_FUNC, FWw_CFG_KIND, FWw_CFG_WIDTH, FWw_CFG_BIG, FWw_CFG_SIDE_EFFECT, FWw_CFG_PREFETCHABLE,
   FWw_CFG_WRITE, FWw_CFG_READ, FWw_CFG_EN]

/-- The fields of the register map, part 9. -/
def part9 : List Fld :=
  [FWw_MAP_OWNER, FWw_MAP_SCOPE, FWw_BASE_BASE, FWw_SIZE_SIZE, FWw_CNT_SERVED, FWw_CNT_REFUSED, FXw_LO_ADDR,
   FXw_LO_EN, FXw_HI_ADDR, FAR_AP_CTL_x_VEC, FAR_AP_CTL_x_IRQ, FAR_AP_ISSUED_x_SEQ, FAR_AP_DONE_x_SEQ,
   FAR_AP_ERR_ADDR_x_OFFSET, FAR_AP_ERR_SEQ_x_SEQ, FAR_AP_ERR_STAT_x_VALID, FAR_AP_ERR_STAT_x_OVF,
   FAR_AP_ERR_STAT_x_PIECES, FAR_AP_ERR_STAT_x_FSTAT, FAR_APSk_CTL_x_FUNC, FAR_APSk_CTL_x_MODE, FAR_APSk_CTL_x_EN,
   FAR_APSk_TGT_LO_x_TGT, FAR_APSk_TGT_HI_x_TGT, FAR_APSk_BASE_x_BASE, CON_CTL_AGE, CON_LINE_CNT_OUT,
   CON_LINE_CNT_IN, MDIO_CMD_BUSY, MDIO_CMD_GO, MDIO_CMD_C45, MDIO_CMD_OP, MDIO_CMD_PHYAD, MDIO_CMD_REG,
   MDIO_DATA_DATA, CON_LOCK_LOCK, CPn_CTL_PVID, CPn_CTL_PRIO, CPn_CTL_GPTP, CPn_CTL_MASTER, CPn_CTL_MODE, CPn_CTL_EN,
   CPn_STAT_PLCA_ACT, CPn_STAT_RATE, CPn_STAT_STATE, CPn_CNT_A_TAIL, CPn_CNT_A_DOWN, CPn_CNT_B_FILTER]

/-- The fields of the register map, part 10. -/
def part10 : List Fld :=
  [CPn_CNT_B_FCS, CPn_PLCA_EN, CPn_PLCA_BURST, CPn_PLCA_TO_TIMER, CPn_PLCA_COUNT, CPn_PLCA_NODE_ID, CON_VLAN_Av_EN,
   CON_VLAN_Av_VID, CON_VLAN_Av_MEMBER, CON_VLAN_Bv_LINE, CON_VLAN_Bv_UNTAG, TRDP_CTL_VID, TRDP_CTL_EN, TRDP_IP_ADDR,
   TRDP_TOPO_OP, TRDP_CNT_SENT, TRDP_CNT_REFUSED, TRDP_TEL_SEL_TEL, TRDP_TEL_STAT_AGE, TRDP_TEL_STAT_TOUT,
   TRDP_TEL_STAT_DIR, GW_CTL_COUNT, GW_SEL_ENTRY, GW_ENT_STAT_DEFAULT, GW_ENT_STAT_STALE_SRC, GW_ENT_STAT_SAT,
   GW_ENT_STAT_VALID, GW_ENT_VAL_LO_VAL, GW_ENT_VAL_HI_VAL, GW_CNT_STALE, GW_CNT_SAT, CT_CTL_VID, CT_CTL_QUEUE,
   CT_CTL_BCAST, CT_CTL_EN, CT_MAC_LO_MAC, CT_MAC_HI_MAC, CANn_CTL_MWIN, CANn_CTL_EWL, CANn_CTL_MISS_ABORT,
   CANn_CTL_MIRROR, CANn_CTL_ALONE_HOLD, CANn_CTL_ABORT_ON_BUSOFF, CANn_CTL_AUTO_REC, CANn_CTL_PXE, CANn_CTL_FD_EN,
   CANn_CTL_MODE, CANn_CTL_EN]

/-- The fields of the register map, part 11. -/
def part11 : List Fld :=
  [CANn_NBT_SJW, CANn_NBT_TSEG2, CANn_NBT_TSEG1, CANn_NBT_BRP, CANn_DBT_SJW, CANn_DBT_TSEG2, CANn_DBT_TSEG1,
   CANn_DBT_BRP, CANn_TDC_MEAS, CANn_TDC_EN, CANn_TDC_OFFSET, CANn_STAT_PENDING, CANn_STAT_ALONE_HELD,
   CANn_STAT_ALONE, CANn_STAT_EPASS, CANn_STAT_EWARN, CANn_STAT_STATE, CANn_ERR_DATA_PHASE, CANn_ERR_LEC,
   CANn_ERR_REC, CANn_ERR_TEC, CANn_CNT_A_TX_OK, CANn_CNT_A_RX_OK, CANn_CNT_B_BUSOFF, CANn_CNT_B_HOST_WAIT,
   CANn_CNT_B_MSGLOST, CANn_CNT_B_MISSED, CANn_CNT_B_TWINS, CANn_CNT_B_NOMATCH, CANn_CMD_WAKE, CANn_CMD_SLEEP,
   CANn_CMD_RECOVER, CANn_IRQ_RX, CANn_IRQ_WAKE, CANn_IRQ_MISSED, CANn_IRQ_MSGLOST, CANn_IRQ_ALONE,
   CANn_IRQ_RECOVERED, CANn_IRQ_BOFF, CANn_IRQ_EPASS, CANn_IRQ_EWARN, CANn_IRQ_EN_RX, CANn_IRQ_EN_WAKE,
   CANn_IRQ_EN_MISSED, CANn_IRQ_EN_MSGLOST, CANn_IRQ_EN_ALONE, CANn_IRQ_EN_RECOVERED, CANn_IRQ_EN_BOFF]

/-- The fields of the register map, part 12. -/
def part12 : List Fld :=
  [CANn_IRQ_EN_EPASS, CANn_IRQ_EN_EWARN, CANn_IRQ_ROUTE_VEC, CANn_IRQ_ROUTE_PF, CANn_IRQ_ROUTE_EN, CANn_WAKE_DLC,
   CANn_WAKE_WRATE, CANn_WAKE_WMODE, CANn_WAKE_ID_ID, CANn_WAKE_MASK_ID, CANn_WAKE_DATA_LO_BYTES,
   CANn_WAKE_DATA_HI_BYTES, CANn_WAKE_DMASK_LO_BYTES, CANn_WAKE_DMASK_HI_BYTES, CANn_BUFSEL_BUF, CANn_MCOL_k_EN,
   CANn_MCOL_k_OFFSET, CANn_MCELL_r_j_EN1, CANn_MCELL_r_j_ALWAYS1, CANn_MCELL_r_j_BUF1, CANn_MCELL_r_j_EN0,
   CANn_MCELL_r_j_ALWAYS0, CANn_MCELL_r_j_BUF0, CANn_BUFWIN_k_WORD, CANn_MISS_r_COL, CAN_WAKE_STAT_DECERR,
   CAN_WAKE_STAT_CAUSE, CAN_WAKE_STAT_PEND, CAN_LOCK_LOCK, MEM_ARB_AGE, MEM_CNT_CTL_RUN, MEM_CNT_CTL_CLR,
   MEM_STAT_PLACE_PENDING, MEM_SCRUB_PASSES, MEM_SCRUB_PERIOD, MEM_ECC_CNT_UE, MEM_ECC_CNT_CE, MEM_ECC_ADDR_OFFSET,
   MEM_ECC_INFO_SCRUB, MEM_ECC_INFO_UE, MEM_ECC_INFO_MASTER, MEM_ECC_INFO_BANK, MEM_SEC_STAT_WIPE_US,
   MEM_SEC_STAT_VIOL, MEM_SEC_STAT_CAUSE, MEM_SEC_STAT_FAILED, MEM_SEC_STAT_WIPING, MEM_LOCK_LOCK]

/-- The fields of the register map, part 13. -/
def part13 : List Fld :=
  [MEM_REGIONk_SIZE, MEM_REGIONk_GROUP, MEM_CONFLICTm_COUNT, MEM_STALLm_COUNT, TALLY_STAT_QUEUED,
   TALLY_STAT_TORN_FOUND, TALLY_STAT_PERM_FULL, TALLY_STAT_PTR_REBUILT, TALLY_STAT_DEGRADED, TALLY_STAT_READY,
   TALLY_SEQ_NEXT, TALLY_PERM_CNT_COUNT, TALLY_CIRC_CNT_COUNT, TALLY_CIRC_HEAD_HEAD, TALLY_EMER_DROPPED,
   TALLY_EMER_CLEARS, TALLY_EMER_COUNT, TALLY_CNT_SLUICED, TALLY_CNT_OVERFLOW, TALLY_CLR_REFUSED, TALLY_CLR_DONE,
   TALLY_UTC_VALID, TALLY_UTC_OFFSET, TALLY_ANCHOR_HOURS, TALLY_LOCK_LOCK, SLUk_A_MASK, SLUk_A_CODE, SLUk_B_EN,
   SLUk_B_CAP, SLUk_B_REFILL, SLUk_CNT_TOKENS, SLUk_CNT_PENDING, TCL_CTL_VALID, TCL_CTL_NEW, TCL_NONCE_k_BYTES,
   SEC_LC_STATE, SEC_STAT_ROLL_PENDING, SEC_STAT_TAMPER, SEC_STAT_STORE_OK, SEC_STAT_FK_STAGED, SEC_STAT_FK_ACTIVE,
   SEC_STAT_MAINT_KEY, SEC_STAT_CFG_KEY, SEC_STAT_CERTIFIED, SEC_CERT_MISS_MISS, SEC_FK_ACTIVE_ID, SEC_FK_STAGED_ID,
   SEC_ROLL_TURN_TURN]

/-- The fields of the register map, part 14. -/
def part14 : List Fld :=
  [SEC_REPORT_CNT_COUNT, SEC_CTL_ATT_TMO, SEC_TAMPER_CTL_RESP, SEC_TAMPER_STAT_UNPOWERED, SEC_TAMPER_STAT_NOW,
   SEC_TAMPER_STAT_EVENT, SEC_KICK_FLOOR_LO_TURN, SEC_KICK_FLOOR_HI_TURN, SEC_CNT_REFUSED, SEC_CNT_TAMPER,
   SEC_LOCK_LOCK, MEASk_w_BYTES, CFG_STAT_LAST_CAUSE, CFG_STAT_HELD, CFG_STAT_ARMED, CFG_STAT_CONFIRMED,
   CFG_STAT_TRIAL, CFG_STAT_STAGED_VALID, CFG_STAT_PREV_VALID, CFG_STAT_ACTIVE_VALID, CFG_TRIAL_LEFT, CFG_TRIAL_OVR,
   CFG_VER_ACTIVE_VER, CFG_VER_PREV_VER, CFG_VER_STAGED_VER, CFG_VER_MAX_VER, CFG_CNT_AUTO_RB, CFG_CNT_CMD_RB,
   CFG_CNT_ACTIVATIONS, ALARM_SRC_ROM_RECOVERY, ALARM_SRC_CFG_HELD, ALARM_SRC_TAMPER, ALARM_SRC_WIPE_FAIL,
   ALARM_SRC_SEC_VIOL, ALARM_SRC_RECORDER, ALARM_SRC_WEIR_FAIL, ALARM_SRC_FENCED, ALARM_SRC_FALLBACK,
   ALARM_SRC_SPLIT, ALARM_SRC_XT32, ALARM_SRC_VOUT, DIAG_STAT_LAST, DIAG_STAT_TOKEN, DIAG_STAT_FROZEN,
   DIAG_STAT_FRZ_EN, DIAG_CTL_CON_SEV, DIAG_CTL_CON_EN, DIAG_CNT_CON_DROP]

/-- The fields of the register map, part 15. -/
def part15 : List Fld :=
  [DIAG_CNT_REFUSED, DIAG_SNAP_IDX_OFFSET, DIAG_SNAP_DATA_VAL, DIAG_SNAP_TURN_TURN]

end Reg

/-- Every field of every BAR0 register (R619, Tables 25-2 to 25-10). -/
def regTable : List Fld :=
  Reg.part0 ++ Reg.part1 ++ Reg.part2 ++ Reg.part3 ++ Reg.part4 ++ Reg.part5 ++ Reg.part6 ++ Reg.part7 ++ Reg.part8 ++ Reg.part9 ++ Reg.part10 ++ Reg.part11 ++ Reg.part12 ++ Reg.part13 ++ Reg.part14 ++ Reg.part15

end Sys2Proof.Machine
end

