-- ==== Sys2Proof/Machine/State.lean ====
section
/-!
DEFINITION. The node's state, as plain data, the reasons a command can stop with, and the state after reset.
-/

namespace Sys2Proof.Machine

/-- Why the machine stops with a fault. -/
inductive Fault where
  /-- never raised: the spec gives every fault of the node an effect on its state (safe) -/
  | none
  deriving DecidableEq, Repr

/-- Why a command is refused. -/
inductive Refusal where
  /-- raised by Dispatch.lean alone, for a command whose meaning is not written yet (safe) -/
  | notModelled (mnemonic : String)
  deriving DecidableEq, Repr

/-- The state of the node. -/
structure State where
  /-- the commands that wait, first in, first out -/
  pending : List Instr
  /-- the register file: field values by key, fields at their reset value not listed (R10 to R13) -/
  regs : List (Nat × Nat)
  pins : Pins
  power : Power
  clock : Clock
  boot : Boot
  tally : Tally
  ports : List Port
  sync : Sync
  start : Start
  inaug : Inaug
  synth : Synth
  weirs : Weirs
  red : Red
  mill : Mill
  host : HostIf
  far : Far
  con : Con
  can : Can
  keys : LineKeys
  conf : Conf
  sec : Sec
  mem : Mem
  dbg : Debug
  /-- inputs of the per-turn jobs that run late, by unit: jobs 0 to 7, job 3 standing for port P, 8 job 3 of port Q, 9 of QSPI (R93) -/
  held : List (Nat × Held)
  /-- what the node has put out, newest first -/
  out : List Out
  /-- how many free values have been taken (the model's own field, log 5) -/
  free : Nat
  deriving DecidableEq, Repr

/-- The values right after reset of the fields that do not read their Reset column's number then: the power-on cause (R98), the
domains that are up (R63), the clocks (R43), the wipe under way (R518), the buffers' placement (Table 19-2), the life cycle, the
firmware banks and what FIRST_USE says of a device without history (R118; logs 44, 45). -/
def resetFields : List (Fld × List Nat × Nat) :=
  [(Reg.RST_CAUSE_POR, [], 1), (Reg.PWR_STAT_PD_ON, [], 0xC0F), (Reg.PWR_STAT_VOUT_OK, [], 1),
   (Reg.CLK_STAT_LOCK_GUARD, [], 1), (Reg.CLK_STAT_LOCK_NVM, [], 1), (Reg.CLK_STAT_LOCK_CPU, [], 1), (Reg.CLK_STAT_LOCK_FAB, [], 1),
   (Reg.CLK_STAT_XT32_OK, [], 1), (Reg.CLK_STAT_GX_OK, [], 1), (Reg.CLK_STAT_REF_OK, [], 1),
   (Reg.MEM_SEC_STAT_WIPING, [], 1), (Reg.SEC_LC_STATE, [], 1), (Reg.FW_VER_0_VER, [], 1)] ++
  ([Reg.FIRST_USE_NO_PREV_FW, Reg.FIRST_USE_NO_PREV_CFG, Reg.FIRST_USE_OPTIME_ZERO, Reg.FIRST_USE_PAIR_EPOCH,
    Reg.FIRST_USE_RATE_HIST].map fun f => (f, [], 1)) ++
  ([4096, 4096, 3072, 3072, 2048, 256, 512, 3072, 2048, 1536, 1024].zipIdx.map fun x => (Reg.MEM_REGIONk_SIZE, [x.2], x.1)) ++
  ([0, 1, 2, 3, 4, 4, 4, 5, 6, 6, 7].zipIdx.map fun x => (Reg.MEM_REGIONk_GROUP, [x.2], x.1))

/-- The register file with the given fields beside their reset values. -/
def regsWith (l : List (Fld × List Nat × Nat)) : List (Nat × Nat) :=
  l.foldl (fun m x => Sparse.write x.1.rst (x.1.key x.2.1) (x.2.2 % 2 ^ x.1.width) m) []

/-- A port right after reset. -/
def resetPort : Port :=
  { (default : Port) with
    granted := List.replicate 10 0, used := List.replicate 10 0, given := List.replicate 10 0, held := List.replicate 10 0 }

/-- The machine right after its first power-on reset has ended: a device without history (R118), with nothing stored in its
MRAM but one firmware bank and the boot loader, unstrapped inputs low, and no boot stage completed (R108; logs 44, 45). -/
def State.reset : State where
  pending := []
  regs := regsWith resetFields
  pins := { (default : Pins) with
    cpl := [false, false], resetOutLow := true, keepalive := true, perst := [false, false], clkreqLow := [true, true],
    canStb := List.replicate 8 true }
  power := { (default : Power) with on := true }
  clock := { (default : Clock) with pcycle := 1, jobs := List.replicate 10 default, load := List.replicate 8 (0, 0) }
  boot := { (default : Boot) with
    bl := [some 0, some 0], banks := [⟨true, 1, 0, true, false, false, 0⟩, default],
    lsStopped := [false, false], lsLast := [none, none], lsTurn := [none, none] }
  tally := default
  ports := List.replicate 4 resetPort
  sync := default
  start := { (default : Start) with cplWait := [none, none], cplHold := [false, false] }
  inaug := { (default : Inaug) with prevH := [none, none], h := [none, none] }
  synth := default
  weirs := { (default : Weirs) with w := List.replicate 2 { (default : Weir) with ports := [default, default] } }
  red := default
  mill := default
  host := default
  far := { (default : Far) with
    prefetch := List.replicate 16 default, pfHits := List.replicate 16 0, pfDiscards := List.replicate 16 0,
    apOpen := [[], []], apErr := [[], []], apLost := [false, false] }
  con := default
  can := { (default : Can) with ctls := List.replicate 8 default }
  keys := default
  conf := default
  sec := { (default : Sec) with
    lifecycle := 1, meas := List.replicate 8 0, wipe := some (1, false), groups := [0, 1, 2, 3, 4, 4, 4, 5, 6, 6, 7] }
  mem := default
  dbg := { (default : Debug) with ir := 1 }
  held := []
  out := []
  free := 0

end Sys2Proof.Machine
end

