-- ==== Sys2Proof/Machine/Ops.lean ====
section
/-!
DEFINITION. The named operations over State: register fields, outputs, node time, and the tally book's record queue.
-/

namespace Sys2Proof.Machine

/-- What a command that runs answers. -/
abbrev Result := Host.Outcome State Fault Refusal

namespace State

/-! Register fields -/

/-- The value of a field. A field that is not listed has its reset value (R13). -/
def get (s : State) (f : Fld) (ix : List Nat := []) : Nat :=
  (Sparse.find (f.key ix) s.regs).getD f.rst

/-- Give a field a value, cut to its width. -/
def set (s : State) (f : Fld) (ix : List Nat) (v : Nat) : State :=
  { s with regs := Sparse.write f.rst (f.key ix) (v % 2 ^ f.width) s.regs }

/-- A one-bit field reads 1. -/
def on (s : State) (f : Fld) (ix : List Nat := []) : Bool := s.get f ix != 0

/-- Set or clear a one-bit field. -/
def flag (s : State) (f : Fld) (ix : List Nat) (b : Bool) : State := s.set f ix (b2n b)

/-- Add to a saturating counter. -/
def inc (s : State) (f : Fld) (ix : List Nat := []) (n : Nat := 1) : State :=
  s.set f ix (min (s.get f ix + n) (2 ^ f.width - 1))

/-- OR bits into a field. -/
def setBits (s : State) (f : Fld) (ix : List Nat) (m : Nat) : State := s.set f ix (s.get f ix ||| m)

/-- Clear bits of a field. -/
def clrBits (s : State) (f : Fld) (ix : List Nat) (m : Nat) : State :=
  s.set f ix (s.get f ix ^^^ (s.get f ix &&& m))

/-- Signed value of a field in two's complement. -/
def getInt (s : State) (f : Fld) (ix : List Nat := []) : Int :=
  let v := s.get f ix
  if 2 * v < 2 ^ f.width then (v : Int) else (v : Int) - (2 ^ f.width : Nat)

/-- Give a field a signed value in two's complement. -/
def setInt (s : State) (f : Fld) (ix : List Nat) (v : Int) : State :=
  s.set f ix (v % (2 ^ f.width : Nat)).toNat

/-! Outputs and free values -/

/-- Put something out. -/
def emit (s : State) (o : Out) : State := { s with out := o :: s.out }

/-- Take a free value of a width (log 5). -/
def take (s : State) (w : Nat) : Nat × State :=
  ((Config.freeValue s.free).toNat % 2 ^ w, { s with free := s.free + 1 })

/-- Take random bytes from the security engine. -/
def takeRandom (s : State) (n : Nat) : List Byte × State :=
  (((Config.random s.free n).take n), { s with free := s.free + 1 })

/-! Time -/

/-- One ns in the units of node time and turn phase (R78). -/
abbrev nsUnit : Nat := 2 ^ 32

/-- Node time in ns (R78). -/
def nowNs (s : State) : Nat := s.clock.ntime / nsUnit

/-- Turn phase in ns (R79). -/
def phaseNs (s : State) : Nat := s.clock.phase / nsUnit

/-- The low 32 bits of the turn number, parameter 0 of most records. -/
def turn32 (s : State) : Nat := s.clock.turn % 2 ^ 32

/-- Active turn length T in ns (R83). -/
def turnNs (s : State) : Nat := s.get Reg.TURN_LEN_LEN_ACT * 1000

/-- The node has a tick (R85). -/
def ticking (s : State) : Bool := s.get Reg.TURN_STAT_SRC != 0

/-- Powered time, as deadlines count it, some ns from now. -/
def inNs (s : State) (ns : Nat) : Nat := s.clock.up + ns * nsUnit

/-- At least so many ns have passed since a moment of powered time. -/
def since (s : State) (t ns : Nat) : Bool := t + ns * nsUnit ≤ s.clock.up

/-- A unit of the per-turn jobs is degraded (R94): jobs 0 to 7, job 3 of port P, 8 and 9 job 3 of port Q and QSPI. -/
def degraded (s : State) (u : Nat) : Bool :=
  if u == 3 then bit (s.get Reg.TURN_OVR_DEG_PORT) 0
  else if u ≥ 8 then bit (s.get Reg.TURN_OVR_DEG_PORT) (u - 7)
  else bit (s.get Reg.TURN_OVR_DEGRADED) u

/-- Job 1 has armed a slot in time, so far as it is reached now (Table 4-4). -/
def slotArmed (s : State) (slot : Nat) : Bool :=
  match s.clock.armed with
  | none => true
  | some k => slot < k

/-- Change a part of the state. -/
def modClock (s : State) (f : Clock → Clock) : State := { s with clock := f s.clock }
def modBoot (s : State) (f : Boot → Boot) : State := { s with boot := f s.boot }
def modPower (s : State) (f : Power → Power) : State := { s with power := f s.power }
def modPins (s : State) (f : Pins → Pins) : State := { s with pins := f s.pins }
def modTally (s : State) (f : Tally → Tally) : State := { s with tally := f s.tally }
def modSync (s : State) (f : Sync → Sync) : State := { s with sync := f s.sync }
def modStart (s : State) (f : Start → Start) : State := { s with start := f s.start }
def modInaug (s : State) (f : Inaug → Inaug) : State := { s with inaug := f s.inaug }
def modSynth (s : State) (f : Synth → Synth) : State := { s with synth := f s.synth }
def modRed (s : State) (f : Red → Red) : State := { s with red := f s.red }
def modMill (s : State) (f : Mill → Mill) : State := { s with mill := f s.mill }
def modHost (s : State) (f : HostIf → HostIf) : State := { s with host := f s.host }
def modFar (s : State) (f : Far → Far) : State := { s with far := f s.far }
def modKeys (s : State) (f : LineKeys → LineKeys) : State := { s with keys := f s.keys }
def modCon (s : State) (f : Con → Con) : State := { s with con := f s.con }
def modCan (s : State) (f : Can → Can) : State := { s with can := f s.can }
def modSec (s : State) (f : Sec → Sec) : State := { s with sec := f s.sec }
def modMem (s : State) (f : Mem → Mem) : State := { s with mem := f s.mem }
def modDebug (s : State) (f : Debug → Debug) : State := { s with dbg := f s.dbg }
def modConf (s : State) (f : Conf → Conf) : State := { s with conf := f s.conf }
def modPort (s : State) (n : Nat) (f : Port → Port) : State := { s with ports := listMod s.ports n f }

/-- A line port's part of the state. -/
def port (s : State) (n : Nat) : Port := s.ports.getD n default

/-- The run-time state of a unit of the per-turn jobs. -/
def job (s : State) (u : Nat) : Job := s.clock.jobs.getD u default

/-- Change a unit's run-time state. -/
def modJob (s : State) (u : Nat) (f : Job → Job) : State := s.modClock fun c => { c with jobs := listMod c.jobs u f }

/-- The job of a unit. -/
def unitJob (u : Nat) : Nat := if u ≥ 8 then 3 else u

/-- LAST and PEAK of a job (R91). -/
def showLoad (s : State) (j l : Nat) : State :=
  let l := min l 1023
  s.modClock fun c => { c with load := listMod c.load j fun x => (max x.1 l, l) }

/-- A unit has completed for the present turn with a load; of job 3 the latest of the three ports counts (R91). -/
def ran (s : State) (u l : Nat) : State :=
  let s := s.modJob u fun j => { j with run := none, lastRun := some s.clock.turn, load := l }
  let l3 := ([3, 8, 9].filter fun v => (s.job v).lastRun == some s.clock.turn).foldl (fun a v => max a (s.job v).load) 0
  s.showLoad (unitJob u) (if unitJob u == 3 then l3 else l)

/-- Do nothing unless a condition holds. -/
def when (s : State) (c : Bool) (f : State → State) : State := if c then f s else s

/-- This is still to be done in the present turn. -/
def todo (s : State) (o : Once) : Bool := !s.clock.once.contains (s.clock.turn, o)

/-- It has been done for a turn. -/
def did (s : State) (turn : Nat) (o : Once) : State := s.modClock fun c => { c with once := (turn, o) :: c.once }

/-! Running conditions -/

/-- Firmware is up (Table 1-3, first column). -/
def fwUp (s : State) : Bool := s.on Reg.GLOBAL_STAT_FW_READY

/-- CPU pair i runs its firmware functions: firmware is up and the pair is not in its lockstep restart (R106). -/
def cpuUp (s : State) (i : Nat) : Bool := s.fwUp && !(s.boot.lsStopped.getD i false)

/-- The node's logic is clocked: VIN is present and the mill brake is not applied (R57, R610). -/
def alive (s : State) : Bool := s.power.on && !s.on Reg.DIAG_STAT_FROZEN

/-- A power domain is on (R64). -/
def domainOn (s : State) (n : Nat) : Bool := s.get Reg.PWR_STAT_PD_ON / 2 ^ n % 2 == 1

/-- The node is in slack (R67). -/
def inSlack (s : State) : Bool := s.on Reg.PWR_STAT_SLACK

/-! The tally book's queue (R526, R527, R530, R537, R538, R548) -/

/-- Records of classes 0x1 and 0x2 and summaries may take the last 32 places (R527). -/
def reservedPlace (code flags : Nat) : Bool :=
  code / 4096 == 1 || code / 4096 == 2 || flags % 2 == 1

/-- The queue has a place for the record (R527; while degraded the ring always has one, R548). -/
def hasPlace (s : State) (code flags : Nat) : Bool :=
  s.on Reg.TALLY_STAT_DEGRADED || s.tally.queue.length < (if reservedPlace code flags then 4096 else 4064)

/-- Whether a record is copied to the emergency ring (R530), and whether that copy is of the rate-limited kind. -/
def emerKind (s : State) (code sev : Nat) : Option Bool :=
  if code == 0x2001 || code == 0x2002 || code == 0x2005 || code == 0x4002 then some false
  else if sev ≥ 4 && s.on Reg.TALLY_STAT_DEGRADED then some true
  else none

/-- Add to a source's count of records without a place (R527). -/
def addOverflow (l : List (Nat × Nat)) (src : Nat) : List (Nat × Nat) :=
  Sparse.put src ((Sparse.find src l).getD 0 + 1) l

/-- The console sends a record's line, or drops it while the output is busy (R616). A line of 54 characters and CR LF
takes 560 bit times at 115,200 bit/s. -/
def consoleLine (s : State) (r : Rec) : State :=
  if s.on Reg.DIAG_CTL_CON_EN && s.get Reg.DIAG_CTL_CON_SEV ≤ r.sev then
    if s.clock.up < s.clock.conBusy then s.inc Reg.DIAG_CNT_CON_DROP
    else (s.modClock fun c => { c with conBusy := c.up + 4861111 * nsUnit }).emit
      (.console [r.optime, r.seq, r.code, r.sev * 32 + r.src, r.p0, r.p1, r.p2])
  else s

/-- Whether a record is copied to the emergency ring now: of the rate-limited kind at most one a second (R530). -/
def copies (s : State) (code sev : Nat) : Bool :=
  match s.emerKind code sev with
  | none => false
  | some limited => !limited || (match s.tally.emerLast with
      | none => true
      | some t0 => t0 + 100 ≤ s.clock.optime)

/-- A record as it is queued, stamped with operating time, power-cycle count and the next sequence number (R526). -/
def stamp (s : State) (code sev src flags p0 p1 p2 : Nat) : Rec :=
  { code := code, sev := sev, src := src,
    flags := flags ||| (if s.copies code sev then 4 else 0) ||| (if s.on Reg.TALLY_STAT_DEGRADED then 8 else 0),
    optime := s.clock.optime, pcycle := s.clock.pcycle, seq := s.get Reg.TALLY_SEQ_NEXT,
    p0 := p0 % 2 ^ 32, p1 := p1 % 2 ^ 32, p2 := p2 % 2 ^ 32 }

/-- The queue with a record at its end; while degraded the oldest gives way in the full ring (R548). -/
def queueWith (s : State) (r : Rec) : List Rec :=
  (if s.on Reg.TALLY_STAT_DEGRADED && s.tally.queue.length ≥ 4096 then s.tally.queue.tail else s.tally.queue) ++ [r]

/-- The emergency general ring with a record at its end, the oldest of 1,008 giving way (R530). -/
def emerWith (s : State) (r : Rec) : List Rec :=
  if s.tally.emer.length ≥ 1008 then s.tally.emer.tail ++ [r] else s.tally.emer ++ [r]

/-- A stamped record enters the queue, and takes the sequence number it carries (R526). -/
def queueRec (s : State) (r : Rec) : State :=
  let q := s.queueWith r
  ((s.modTally fun t => { t with queue := q }).set Reg.TALLY_SEQ_NEXT [] (r.seq + 1)).set Reg.TALLY_STAT_QUEUED [] q.length

/-- A record's copy in the emergency ring, or its count as left out there (R530). -/
def emerCopy (s : State) (r : Rec) : State :=
  match s.emerKind r.code r.sev with
  | none => s
  | some limited =>
    if s.copies r.code r.sev then
      let e := s.emerWith r
      (s.modTally fun t => { t with emer := e, emerLast := if limited then some s.clock.optime else t.emerLast }).set
        Reg.TALLY_EMER_COUNT [] e.length
    else s.inc Reg.TALLY_EMER_DROPPED

/-- Put a record into the queue, stamped (R526), with its emergency copy (R530); without a place it is counted (R527). -/
def enqueue (s : State) (code sev src flags p0 p1 p2 : Nat) : State :=
  if s.hasPlace code flags then
    let r := s.stamp code sev src flags p0 p1 p2
    ((s.queueRec r).emerCopy r).consoleLine r
  else (s.inc Reg.TALLY_CNT_OVERFLOW).modTally fun t => { t with overflow := addOverflow t.overflow src }

/-- A record that is not subject to the sluice; parameter 0 is the turn number (R526). -/
def record (s : State) (code sev src p1 p2 : Nat) : State := s.enqueue code sev src 0 s.turn32 p1 p2

/-- The lowest enabled sluice entry that governs a code, searched from entry k with the given number left (R537). -/
def sluiceFind (s : State) (code k : Nat) : Nat → Option Nat
  | 0 => none
  | left + 1 =>
    if s.on Reg.SLUk_B_EN [k] &&
        (code &&& s.get Reg.SLUk_A_MASK [k]) == (s.get Reg.SLUk_A_CODE [k] &&& s.get Reg.SLUk_A_MASK [k]) then some k
    else sluiceFind s code (k + 1) left

/-- The entry that governs a code (R537). -/
def sluiceEntry (s : State) (code : Nat) : Option Nat :=
  if code / 4096 == 1 || code / 4096 == 2 then none else s.sluiceFind code 0 256

/-- A record subject to the sluice (R537, R538): queued with a token, or suppressed and counted. -/
def sluiced (s : State) (code sev src p0 p1 p2 : Nat) : State :=
  match s.sluiceEntry code with
  | none => s.enqueue code sev src 0 p0 p1 p2
  | some k =>
    if s.get Reg.SLUk_CNT_TOKENS [k] > 0 then
      (s.set Reg.SLUk_CNT_TOKENS [k] (s.get Reg.SLUk_CNT_TOKENS [k] - 1)).enqueue code sev src 0 p0 p1 p2
    else
      let b : Bucket := (Sparse.find k s.tally.buckets).getD default
      let fresh := s.get Reg.SLUk_CNT_PENDING [k] == 0
      let b := { b with
        first := if fresh then code else b.first, last := code,
        maxSev := if fresh then sev else max b.maxSev sev, lastSrc := src }
      ((s.inc Reg.SLUk_CNT_PENDING [k]).inc Reg.TALLY_CNT_SLUICED).modTally fun t =>
        { t with buckets := Sparse.put k b t.buckets }

/-- A record subject to the sluice whose parameter 0 is the turn number. -/
def recordS (s : State) (code sev src p1 p2 : Nat) : State := s.sluiced code sev src s.turn32 p1 p2

/-- A record whose parameter 0 is 0 while the node has no tick (R550, R583, R618); not subject to the sluice. -/
def recordT (s : State) (code sev src p1 p2 : Nat) : State :=
  s.enqueue code sev src 0 (if s.ticking then s.turn32 else 0) p1 p2

end State

end Sys2Proof.Machine
end

