-- ==== Sys2Proof/Machine/Layout.lean ====
section
/-!
DEFINITION. The turn's layout and the node's place on the line: profile timing (Table 7-1), slot counts, scheduled
times, port roles, neighbours, h, the line UID (chapters 06, 07, 09). Lengths of time are in tenths of a ns where the
spec's tables are, else in 2^-32 ns.
-/

namespace Sys2Proof.Machine

/-- Tenths of a ns in the units of node time. -/
def tenths (x : Nat) : Nat := x * 2 ^ 32 / 10

/-- One row of Table 7-1 (times in 0.1 ns). -/
structure Profile where
  slotLen : Nat
  payload : Nat
  guard : Nat
  maxSlots : Nat
  mini : Nat
  hop : Nat
  /-- D_tol of Table 8-1 -/
  dTol : Nat
  deriving DecidableEq, Repr, Inhabited

/-- Table 7-1 by profile code: 0 P1, 1 P2.5, 2 P5, 3 P10. -/
def profileOf (code : Nat) : Profile :=
  match code with
  | 0 => ⟨28000, 224, 3840, 160, 8000, 15000, 160⟩
  | 1 => ⟨12000, 224, 2336, 400, 4000, 10000, 80⟩
  | 2 => ⟨8000, 352, 1120, 512, 2000, 8000, 40⟩
  | _ => ⟨8000, 768, 1232, 512, 2000, 6000, 40⟩

/-- Wire time of one byte at a rate code, in 0.1 ns (1: 1, 2: 2.5, 3: 5, 4: 10 Gbit/s). -/
def byteTime (rate : Nat) : Nat :=
  match rate with
  | 4 => 8 | 3 => 16 | 2 => 32 | _ => 80

/-- Wire time of a frame of a payload length, gap included, in 0.1 ns (R142). -/
def wireTime (rate len : Nat) : Nat := (len + 78) * byteTime rate

/-- S_eff of R144. -/
def sEffOf (rules prof tUs n : Nat) : Nat :=
  let p := profileOf prof
  min (min rules p.maxSlots) ((tUs * 10000 - 660000 - (n - 1) * p.hop) / p.slotLen)

/-- E_stat of R145, in 0.1 ns. -/
def eStatOf (sEff prof n : Nat) : Nat :=
  let p := profileOf prof
  sEff * p.slotLen + (n - 1) * p.hop

namespace State

/-- Paired deployment as latched (R27). -/
def paired (s : State) : Bool := s.pins.strapPair

/-- The device's UID (R1, fused). -/
def uid (s : State) : Nat := s.get Reg.UID_LO_UID + 2 ^ 32 * s.get Reg.UID_HI_UID

/-- Port n is a crosslink: paired, and of the other channel (Table 6-1). -/
def isXlink (s : State) (n : Nat) : Bool := s.paired && (n % 2 == 1) != s.pins.strapChan

/-- Line port states (Table 6-3). -/
def pst (s : State) (n : Nat) : Nat := s.get Reg.LPn_STAT_STATE [n]

/-- The port is a line port and UP. -/
def lineUp (s : State) (n : Nat) : Bool := !s.isXlink n && s.pst n == 4

/-- Crosslink ports that are UP; one that a failed weir serves counts as down (R310). -/
def xlinks (s : State) : List Nat :=
  (List.range 4).filter fun n => s.isXlink n && s.pst n == 4 && s.get Reg.WEIR_STAT_STATE [n % 2] != 5

/-- At least one crosslink is UP. -/
def xlinkUp (s : State) : Bool := !s.xlinks.isEmpty

/-- A line port that counts as a neighbour link: UP, not foreign, not held back under inhibit (R131, R239, R242). -/
def nbrPort (s : State) (n : Nat) : Bool := s.lineUp n && !(s.port n).foreign && !(s.port n).newlink

/-- The profile whose timing is in force. -/
def prof (s : State) : Profile := profileOf (s.get Reg.LINE_LAYOUT_TPROF)

/-- The stopped layout is in force. -/
def stopped (s : State) : Bool := s.on Reg.LINE_LAYOUT_STOPPED

/-- Own position, 0 without a directory in force. -/
def ownPos (s : State) : Nat := s.get Reg.INAUG_POS_POSITION

/-- Line state (Table 9-1). -/
def lstate (s : State) : Nat := s.get Reg.LSTART_STAT_STATE

/-- The node follows the line: INTEGRATING, SYNCED or SELF_SILENT. -/
def following (s : State) : Bool := s.lstate == 3 || s.lstate == 4 || s.lstate == 5

/-- Inauguration phase (INAUG_STAT.PHASE): 0 RUN to 4 SYNTHESIZE, 5 no directory. -/
def phase (s : State) : Nat := s.get Reg.INAUG_STAT_PHASE

/-- The slowest allowed profile of the line rules (R147). -/
def slowestAllowed (s : State) : Nat :=
  let a := s.get Reg.LINE_RULES_PROF_ALLOW
  if bit a 0 then 0 else if bit a 1 then 1 else if bit a 2 then 2 else 3

/-- Put a layout in force (R144, R145, R147). -/
def setLayout (s : State) (stop : Bool) (prof n : Nat) : State :=
  let sEff := if stop then 67 else sEffOf (s.get Reg.LINE_RULES_SLOTS) prof (s.get Reg.TURN_LEN_LEN_ACT) n
  let s := s.flag Reg.LINE_LAYOUT_STOPPED [] stop
  let s := s.set Reg.LINE_LAYOUT_TPROF [] prof
  let s := s.set Reg.LINE_LAYOUT_SLOTS_EFF [] sEff
  let s := s.set Reg.LINE_LAYOUT_POSITIONS [] n
  let s := s.set Reg.LINE_DYN_START_NS [] (eStatOf sEff prof n / 10)
  s.set Reg.LINE_DYN_END_NS [] (s.turnNs - 16000)

/-- The stopped layout (R147). -/
def stopLayout (s : State) : State := s.setLayout true s.slowestAllowed 63

/-- Logical nodes beyond an end (0: end 1, 1: end 2), as known (R148, R249). -/
def hBeyond (s : State) (e : Nat) : Option Nat := s.inaug.h.getD e none

/-- h of a port's transmit direction: the nodes beyond the other end (R148); 0 if never learned (R153). -/
def txH (s : State) (n : Nat) : Nat := (s.hBeyond (1 - n / 2)).getD 0

/-- Show h in LINE_HOPS: end 1 and end 2 while stopped (R249), else by direction. -/
def showHops (s : State) : State :=
  let h0 := (s.hBeyond 0).getD 0
  let h1 := (s.hBeyond 1).getD 0
  let (asc, desc) := if s.stopped || s.inaug.end2Asc then (h0, h1) else (h1, h0)
  (s.set Reg.LINE_HOPS_ASC [] asc).set Reg.LINE_HOPS_DESC [] desc

/-- Learn h beyond an end. -/
def learnH (s : State) (e : Nat) (h : Nat) : State :=
  (s.modInaug fun i => { i with h := listSet i.h e (some h) }).showHops

/-- Scheduled start of slot s on a link direction with h nodes behind it, in 0.1 ns (R148). -/
def schedT (s : State) (slot h : Nat) : Nat :=
  slot * s.prof.slotLen + s.prof.guard / 2 + h * s.prof.hop

/-- The line UID (R213): the partner's UID is known from RED_PARTNER. -/
def partnerUid (s : State) : Nat := s.get Reg.RED_PARTNER_LO_UID + 2 ^ 32 * s.get Reg.RED_PARTNER_HI_UID

def lineUid (s : State) : Nat :=
  if s.paired && s.xlinkUp && s.partnerUid != 0 then min s.uid s.partnerUid else s.uid

/-- Show the line UID. -/
def showLuid (s : State) : State :=
  (s.set Reg.LSTART_UID_LO_UID [] (s.lineUid % 2 ^ 32)).set Reg.LSTART_UID_HI_UID [] (s.lineUid / 2 ^ 32)

/-- The LSTATE byte (R212). -/
def lstateByte (s : State) : Nat :=
  s.lstate + 16 * s.get Reg.LINE_LAYOUT_TPROF + 64 * b2n s.stopped

/-- Slot 4-and-above transmission of its own and of originated relay frames is allowed (R199, R202): SYNCED. -/
def mayOriginate (s : State) : Bool := s.lstate == 4 && s.on Reg.SYNC_STAT_CONVERGED

/-- Trained rate code of a port. -/
def rate (s : State) (n : Nat) : Nat := s.get Reg.LPn_STAT_RATE [n]

/-- Filtered delay D of a port in 2^-32 ns (R184): the mean of its accepted samples. -/
def delay (s : State) (n : Nat) : Int :=
  let l := (s.port n).samples
  if l.isEmpty then 0 else l.foldl (· + ·) 0 / (l.length : Int)

/-- Stream's lifetime field (R170). -/
def lifeOf (s : State) (stream : Nat) : Nat :=
  let v := if stream == 256 then s.get Reg.LINE_SVC_LIFE_POOL
    else if stream ≤ 4 then s.get Reg.LINE_SVC_LIFE_SVC else s.get Reg.LINE_STREAM_m_LIFE [stream]
  if v == 0 then 16 else v

/-- A stream is configured (Table 7-9). -/
def streamOn (s : State) (id : Nat) : Bool :=
  id == 256 || (1 ≤ id && id ≤ 4) || (16 ≤ id && id < 256 && s.on Reg.LINE_STREAM_m_EN [id])

/-- The line stands still: from STOP or a yield to the adoption turn (R246). -/
def standing (s : State) : Bool := s.stopped && s.phase != 0

end State

end Sys2Proof.Machine
end

