-- ==== Sys2Proof/Machine/HostOps.lean ====
section
/-!
DEFINITION. Shared operations of the host interface (15_host_interface.md): tenants' memories, interrupts, queues,
completions and the discarding of work.
-/

namespace Sys2Proof.Machine

/-- Size of tenant 16's window in bytes (R408). -/
abbrev winSize : Nat := 0x40000

namespace State

/-- The host port of a tenant: 0 P, 1 Q, 2 QSPI (Table 15-2). -/
def portOf (t : Nat) : Nat := if t < 8 then 0 else if t < 16 then 1 else 2

/-- The PF of a tenant's port. -/
def isPf (t : Nat) : Bool := t == 0 || t == 8

/-- The node may issue requests for the tenant (R371). -/
def bme (s : State) (t : Nat) : Bool := t == 16 || s.on Reg.TN_STAT_BME [t]

/-- The port's aperture transfers that have not been answered. -/
def apCount (s : State) (port : Nat) : Nat :=
  (s.far.transfers.filter fun x => match x.owner with
    | .apWrite p _ _ => p == port
    | .apRead p _ _ => p == port
    | _ => false).length

/-- A tenant's posted writes arrive: while a port's aperture queue is full, the port withholds its credit, and the host presents the write
again later (R446, log 101). -/
def postsOpen (s : State) (t : Nat) : Bool := t ≥ 16 || s.apCount (portOf t) < 256

/-- Read the window of tenant 16. -/
def winRead (s : State) (off n : Nat) : List Byte :=
  (List.range n).map fun i => (Sparse.find ((off + i) % winSize) s.host.window).getD 0

/-- Write bytes into a window's contents from an offset, wrapping at its end (R408). -/
def winPut : List Host.Cell → Nat → List Byte → List Host.Cell
  | m, _, [] => m
  | m, off, b :: l => winPut (Sparse.write 0 (off % winSize) b m) (off + 1) l

/-- Write the window of tenant 16. -/
def winWrite (s : State) (off : Nat) (d : List Byte) : State :=
  s.modHost fun h => { h with window := winPut h.window off d }

/-- Write a tenant's memory: host memory, or the window (R370, R409). -/
def memWrite (s : State) (t addr : Nat) (d : List Byte) : State :=
  if d.isEmpty then s
  else if t == 16 then s.winWrite addr d else s.emit (.hostWrite t addr d)

/-- Bytes the node reads from a tenant's memory: the window's own, or what the host returned. -/
def memIn (s : State) (t addr n : Nat) (given : List Byte) : List Byte :=
  if t == 16 then s.winRead addr n else slice given 0 n

/-- An area lies wholly inside the window, for tenant 16 (R409). -/
def inWin (t addr n : Nat) : Bool := t != 16 || addr + n ≤ winSize

/-! Interrupts (R392, R393, R410) -/

/-- A vector of a function is masked in its MSI-X table. -/
def vecMasked (s : State) (t v : Nat) : Bool := (Sparse.find (t * 64 + v) s.host.masked).getD true

/-- Signal an MSI-X vector of a PCIe function; a masked vector sets its pending bit. -/
def msix (s : State) (t v : Nat) : State :=
  let v := v % 64
  if s.vecMasked t v then
    s.modHost fun h => { h with pba := if h.pba.contains (t * 64 + v) then h.pba else (t * 64 + v) :: h.pba }
  else s.emit (.msix t v)

/-- Signal a tenant: bit of TN_IRQ for tenant 16 (queue q, 16 image, 17 error), else a vector. -/
def signal (s : State) (t bit vec : Nat) : State :=
  if t == 16 then
    if bit == 16 then s.set Reg.TN_IRQ_IMAGE [16] 1
    else if bit == 17 then s.set Reg.TN_IRQ_ERR [16] 1
    else s.setBits Reg.TN_IRQ_CQ [16] (2 ^ bit)
  else s.msix t vec

/-- Set a bit of TN_ERR, signalling it when it changes from 0 (R393). -/
def tnErr (s : State) (t : Nat) (f : Fld) : State :=
  if s.on f [t] then s
  else
    let s := s.set f [t] 1
    if s.on Reg.TN_CTL_ERR_IRQ [t] then s.signal t 17 (s.get Reg.TN_CTL_ERR_VEC [t]) else s

/-- TN_ERR as one value. -/
def tnErrWord (s : State) (t : Nat) : Nat :=
  s.get Reg.TN_ERR_DB_OFF [t] + 2 * s.get Reg.TN_ERR_DB_RANGE [t] + 4 * s.get Reg.TN_ERR_ACCESS [t] +
  8 * s.get Reg.TN_ERR_DMA [t] + 16 * s.get Reg.TN_ERR_QSETUP [t] + 32 * s.get Reg.TN_ERR_QSPI [t]

/-! GPIO (R31) -/

/-- The level of every GPIO ball: an output shows what it drives, an open-drain one at 1 and an input what is put on the ball. -/
def gpioLevel (s : State) : Nat :=
  let out := s.get Reg.GPIO_DIR_OUT
  let val := s.get Reg.GPIO_OUT_VAL
  let od := s.get Reg.GPIO_DIR_OD
  (List.range 16).foldl (fun a i =>
    a + 2 ^ i * b2n (if bit out i && !(bit od i && bit val i) then bit val i else bit s.pins.gpioExt i)) 0

/-- A change of a ball's level is accepted: it is latched, and signalled where it is enabled. -/
def gpioEdge (s : State) (i : Nat) (rise : Bool) : State :=
  let s := s.setBits (if rise then Reg.GPIO_EDGE_RISE else Reg.GPIO_EDGE_FALL) [] (2 ^ i)
  if bit (s.get Reg.GPIO_IRQ_EN) i then s.msix (if s.on Reg.GPIO_IRQ_PF then 8 else 0) (s.get Reg.GPIO_IRQ_VEC) else s

/-- GPIO_IN follows the balls, and every change is an accepted edge; the 4 samples of 2.5 ns are taken as no time (log 6). -/
def gpioSettle (s : State) : State :=
  let old := s.get Reg.GPIO_IN_LEVEL
  let new := s.gpioLevel
  (List.range 16).foldl (fun s i => if bit old i != bit new i then s.gpioEdge i (bit new i) else s) (s.set Reg.GPIO_IN_LEVEL [] new)

/-! Queues -/

/-- Queue q of tenant t. -/
def queue (s : State) (t q : Nat) : Queue := (Sparse.find (t * 16 + q) s.host.queues).getD default

/-- Change a queue. -/
def modQueue (s : State) (t q : Nat) (f : Queue → Queue) : State :=
  s.modHost fun h => { h with queues := Sparse.put (t * 16 + q) (f ((Sparse.find (t * 16 + q) h.queues).getD default)) h.queues }

/-- The queue is enabled and runs. -/
def running (s : State) (t q : Nat) : Bool := s.on Reg.HQq_CTL_EN [t, q] && s.on Reg.HQq_STAT_RUN [t, q]

/-- Show the descriptors in flight. -/
def showFlight (s : State) (t q : Nat) : State :=
  let s := s.set Reg.HQq_STAT_INFLIGHT [t, q] (s.queue t q).works.length
  s.set Reg.HOST_INFLIGHT_DESC [] (s.host.queues.foldl (fun a x => a + x.2.works.length) 0)

/-- A queue signals a completion (R392). -/
def queueSignal (s : State) (t q : Nat) : State :=
  let x := s.queue t q
  let since := if x.count == 0 then s.clock.up else x.since
  let n := x.count + 1
  if n ≥ max 1 (s.get Reg.HQq_MOD_COUNT [t, q]) then
    let s := s.modQueue t q fun y => { y with count := 0 }
    if x.irq then s.signal t q x.vec else s
  else s.modQueue t q fun y => { y with count := n, since := since }

/-- Write the completion entry of the queue's oldest descriptor, if it is done (R382 to R384). -/
def writeOne (s : State) (t q : Nat) : State :=
  let x := s.queue t q
  match x.works with
  | [] => s
  | w :: rest =>
    match w.result with
    | none => s
    | some (status, cflags, rlen, rval) =>
      if !s.bme t || !s.running t q then s
      else
        let ph := s.get Reg.HQq_STAT_PHASE [t, q]
        let entry := leBytes 2 w.desc.reqId ++ leBytes 1 status ++ leBytes 1 (ph + 2 * cflags) ++ leBytes 4 rlen ++
          leBytes 8 rval
        let s := s.memWrite t (x.cqb + 16 * w.idx) entry
        let nxt := (w.idx + 1) % 2 ^ x.size
        let s := s.set Reg.HQq_STAT_HEAD [t, q] nxt
        let s := if nxt == 0 then s.set Reg.HQq_STAT_PHASE [t, q] (1 - ph) else s
        let s := (s.modQueue t q fun y => { y with works := rest }).showFlight t q
        if bit w.desc.flags 1 then s else s.queueSignal t q

/-- Write completions in ring order as far as they go. -/
def writeDone (s : State) (t q : Nat) : Nat → State
  | 0 => s
  | n + 1 => writeDone (s.writeOne t q) t q n

/-- Flush a queue's completions. -/
def flushQueue (s : State) (t q : Nat) : State := s.writeDone t q (s.queue t q).works.length

/-- Decide a descriptor's outcome and write the completions that are due (R382, R383). Tenant number 17 stands for work that the
partner's tenants handed to this leader: the outcome is reported over the crosslink (R401; log 37). -/
def completeC (s : State) (t q i status cflags rlen rval : Nat) : State :=
  if t ≥ 17 then s.emit (.xlink "report" (leBytes 2 q ++ leBytes 8 i ++ leBytes 1 status ++ leBytes 4 rlen ++ leBytes 8 rval))
  else (s.modQueue t q fun y => { y with works := y.works.map fun w =>
    if w.idx == i && w.result.isNone then { w with started := true, result := some (status, cflags, rlen, rval) } else w }).flushQueue t q

/-- Decide a descriptor's outcome with CFLAGS.TRUNC clear. -/
def complete (s : State) (t q i status rlen rval : Nat) : State := s.completeC t q i status 0 rlen rval

/-- A descriptor that fails its checks (R394): 6 BAD_DESCRIPTOR or 5 DENIED, counted. -/
def failCheck (s : State) (t q i status : Nat) : State :=
  let s := if status == 6 then s.inc Reg.TN_CNT_BAD_DESC [t] else s.inc Reg.TN_CNT_DENIED [t]
  s.complete t q i status 0 0

/-- The host interface processes rings: firmware is up and CPU pair 1 runs (Table 1-3, R106). -/
def hostUp (s : State) : Bool := s.cpuUp 1 && s.domainOn 9

/-- The descriptor at an index of a queue, when its opcode is `op` and it may start now (R382). -/
def ready (s : State) (t q i op : Nat) : Option Desc :=
  if !s.hostUp || !s.running t q || !s.bme t then none
  else match (s.queue t q).works.find? fun w => w.idx == i with
    | none => none
    | some w =>
      let first := match (s.queue t q).works with
        | [] => false
        | v :: _ => v.idx == i
      if w.desc.opcode == op && !w.started && w.result.isNone && (!bit w.desc.flags 0 || first) then some w.desc else none

/-- Mark a descriptor as started. -/
def startWork (s : State) (t q i : Nat) : State :=
  s.modQueue t q fun y => { y with works := y.works.map fun w => if w.idx == i then { w with started := true } else w }

/-! Discarded work (R412 to R414) -/

/-- Work of a queue no longer has a descriptor: its waiting frames and far transfers are dropped with it, and what goes on
without it reports to nobody (R412). -/
def dropWork (s : State) (t q : Nat) : State :=
  let mine : Nat × Nat × Nat → Bool := fun d => d.1 == t && d.2.1 == q
  let live (d : Option (Nat × Nat × Nat)) : Option (Nat × Nat × Nat) := d.filter fun x => !mine x
  let keepPort (p : Port) : Port := { p with queue := p.queue.filter fun f => !(f.own.any mine) }
  let s : State := { s with ports := s.ports.map keepPort }
  let s := s.modFar fun f => { f with transfers := f.transfers.filter fun x => match x.owner with
    | .desc t' q' _ => !(t' == t && q' == q)
    | _ => true }
  let s := s.modInaug fun x => { x with requests := x.requests.filter fun d => !mine d }
  let s := s.modTally fun x => { x with
    clearReqs := x.clearReqs.map fun c => if c.tenant == t && c.queue == q then { c with gone := true } else c }
  let s := s.modRed fun r => { r with swap := r.swap.map fun x => { x with desc := live x.desc } }
  let s := s.modBoot fun b => { b with update := b.update.map live }
  let s := s.modConf fun c => { c with wait := c.wait.map fun w => { w with desc := live w.desc } }
  let s := s.modSec fun x => { x with requests := x.requests.filter fun r => !mine r.desc }
  let ctl (c : CanCtl) : CanCtl := { c with
    waits := c.waits.filter fun w => !mine (w.1, w.2.1, w.2.2.1), bufs := c.bufs.map fun b => (b.1, { b.2 with own := live b.2.own }) }
  let s := s.modCan fun c => { c with ctls := c.ctls.map ctl }
  let keep (g : Staging) : Staging :=
    match g.last with
    | some (t', q', _) => if t' == t && q' == q then { g with last := none } else g
    | none => g
  s.modHost fun h => { h with staging := h.staging.map keep }

/-- Discard a queue's work; the queue goes on or stops as the caller says (R380, R412). -/
def discardQueue (s : State) (t q : Nat) : State :=
  ((s.dropWork t q).modQueue t q fun y => { y with works := [], hold := [], count := 0 }).showFlight t q

/-- Queues enabled of a tenant. -/
def showQen (s : State) (t : Nat) : State :=
  s.set Reg.TN_STAT_QEN [t] ((List.range 16).filter fun q => s.on Reg.HQq_CTL_EN [t, q]).length

/-- Every open descriptor of an opcode set completes with a status (line stop, role change, domain off). -/
def completeAll (s : State) (ops : List Nat) (onlyStarted : Bool) (status rval : Nat) : State :=
  s.host.queues.foldl (fun s x => x.2.works.foldl (fun s w =>
    if ops.contains w.desc.opcode && w.result.isNone && (w.started || !onlyStarted) then
      s.complete (x.1 / 16) (x.1 % 16) w.idx status 0 rval else s) s) s

end State

end Sys2Proof.Machine
end

