-- ==== Sys2Proof/Machine/Areas.lean ====
section
/-!
DEFINITION. The areas of the tally book in MRAM (20_tally_book.md): what the places hold, recovery, pointers and write units, and the
MRAM writes that slack holds back (R67 to R72).
-/

namespace Sys2Proof.Machine

/-- Places of the permanent and of the circular area (Table 20-4). -/
abbrev permCap : Nat := 65536
abbrev circCap : Nat := 1048576

/-- A record's 32 bytes (Table 20-1). -/
def Rec.bytes (r : Rec) : List Byte :=
  let b := leBytes 2 r.code ++ leBytes 1 (r.sev * 32 + r.src % 32) ++ leBytes 1 r.flags ++ leBytes 5 r.optime ++ leBytes 3 r.pcycle ++
    leBytes 4 r.seq ++ leBytes 4 r.p0 ++ leBytes 4 r.p1 ++ leBytes 4 r.p2
  b ++ leBytes 4 (crc32c b)

/-- Serial arithmetic on sequence numbers: a is newer than b (R540). -/
def seqNewer (a b : Nat) : Bool := a != b && (a + 2 ^ 32 - b) % 2 ^ 32 < 2 ^ 31

/-- SEQ of a good place. -/
def Place.seq : Place → Option Nat
  | .good r => some r.seq
  | _ => none

/-! Recovery (R532 to R534) -/

/-- What recovery finds: permanent and circular counts, head, highest SEQ, newest record's OPTIME, torn places (area, place), and of
a full scan the records it found. -/
structure Found where
  perm : Nat
  head : Nat
  count : Nat
  high : Option Nat
  optime : Nat
  torn : List (Nat × Nat)
  rebuilt : Option Nat

/-- The newer of two sequence numbers, where there are two. -/
def newerSeq : Option Nat → Nat → Option Nat
  | none, b => some b
  | some a, b => some (if seqNewer b a then b else a)

/-- Scan an area forward: `look` gives the place after i steps; the answer is the accepted steps, whether a torn place ended the
scan, the last accepted SEQ and the newest OPTIME (R533). -/
def scanArea (look : Nat → Option Place) : Nat → Nat → Option Nat → Nat → Nat × Bool × Option Nat × Nat
  | 0, i, last, o => (i, false, last, o)
  | n + 1, i, last, o =>
    match look i with
    | none => (i, false, last, o)
    | some (.good r) =>
      if last.isNone || last == some ((r.seq + 2 ^ 32 - 1) % 2 ^ 32) then scanArea look n (i + 1) (some r.seq) (max o r.optime)
      else (i, false, last, o)
    | some _ => (i + 1, true, last, o)

namespace Tally

/-- The valid pointer copy with the higher generation. -/
def ptrBest (t : Tally) : Option PtrBlock :=
  t.ptr.foldl (fun a p => if !p.valid then a else match a with
    | none => some p
    | some b => if p.gen > b.gen then some p else some b) none

/-- The highest SEQ of the emergency rings, after a given one. -/
def emerHigh (t : Tally) (h : Option Nat) : Option Nat := (t.emer ++ t.clears).foldl (fun a r => newerSeq a r.seq) h

/-- Recovery from a pointer copy: a scan forward (R533). A place that nothing was ever written to ends it without being torn
(log 42). -/
def recoverFrom (t : Tally) (p : PtrBlock) : Found :=
  let seqAt (i : Nat) : Option Nat := if i == 0 then none else (t.perm.getD (i - 1) .torn).seq
  let (i, tornP, lastP, o) := scanArea (fun i => t.perm[p.perm + i]?) (permCap - p.perm) 0 (seqAt p.perm) 0
  let perm := p.perm + i
  let prevC := if p.count == 0 then lastP else ((Sparse.find ((p.head + circCap - 1) % circCap) t.circ).getD .torn).seq
  let (j, tornC, lastC, o) := if tornP then (0, false, none, o)
    else scanArea (fun i => Sparse.find ((p.head + i) % circCap) t.circ) (if perm < permCap && p.count == 0 then 0 else circCap) 0 prevC o
  let high := match lastP with
    | none => lastC
    | some a => (match lastC with
      | none => some a
      | some b => newerSeq (some a) b)
  { perm := perm, head := (p.head + j) % circCap, count := min circCap (p.count + j), high := t.emerHigh high, optime := o,
    torn := (if tornP then [(0, perm - 1)] else []) ++ (if tornC then [(1, (p.head + j + circCap - 1) % circCap)] else []),
    rebuilt := none }

/-- Recovery by a scan of both areas (R534). -/
def recoverScan (t : Tally) : Found :=
  let goodOf (l : List Place) : List Rec := l.filterMap fun x => match x with
    | .good r => some r
    | _ => none
  let all := goodOf t.perm ++ goodOf (t.circ.map fun x => x.2)
  let newest := t.circ.foldl (fun (a : Option (Nat × Nat)) x => match x.2.seq with
    | none => a
    | some q => (match a with
      | none => some (x.1, q)
      | some b => if seqNewer q b.2 then some (x.1, q) else a)) none
  { perm := t.perm.length, head := (match newest with
      | some n => (n.1 + 1) % circCap
      | none => 0),
    count := t.circ.length, high := t.emerHigh (all.foldl (fun a r => newerSeq a r.seq) none),
    optime := all.foldl (fun a r => max a r.optime) 0, torn := [], rebuilt := some all.length }

/-- What recovery finds. -/
def recover (t : Tally) : Found :=
  match t.ptrBest with
  | some p => t.recoverFrom p
  | none => t.recoverScan

/-- The sequence number after recovery: one more than the highest found, never lower than the pointer block's (R533). -/
def nextSeq (t : Tally) (f : Found) : Nat :=
  let a := match f.high with
    | some h => (h + 1) % 2 ^ 32
    | none => 0
  match t.ptrBest with
  | some p => if seqNewer p.next a then p.next else a
  | none => a

/-- Operating time and power-cycle count of the two stores, the larger of each (R531): none where both are lost. -/
def stored (t : Tally) : Option (Nat × Nat) :=
  match t.ptrBest, t.header with
  | none, h => h
  | some p, none => some (p.optime, p.pcycle)
  | some p, some h => some (max p.optime h.1, max p.pcycle h.2)

end Tally

namespace State

/-- Show the queue's length. -/
def showTally (s : State) : State := s.set Reg.TALLY_STAT_QUEUED [] s.tally.queue.length

/-- Show how many records each place holds. -/
def showPerm (s : State) (n : Nat) : State :=
  (s.set Reg.TALLY_PERM_CNT_COUNT [] n).flag Reg.TALLY_STAT_PERM_FULL [] (n ≥ permCap)

/-! Degradation (R547) -/

/-- Clears that wait for job 6 change nothing once the recorder is degraded (R545). -/
def dropClears (s : State) : State :=
  s.tally.clearReqs.foldl (fun s c => if c.gone then s else s.complete c.tenant c.queue c.idx 7 0 0)
    (s.modTally fun t => { t with clearReqs := [] })

/-- The recorder becomes degraded: 0 verify failure, 1 pointer write, 2 uncorrectable read. -/
def degrade (s : State) (why off : Nat) : State :=
  if s.on Reg.TALLY_STAT_DEGRADED then s
  else (((s.set Reg.TALLY_STAT_DEGRADED [] 1).modTally fun t => { t with due := 0 }).recordT 0x2001 5 0 why off).dropClears

/-! Pointers (R531, R532) -/

/-- Persist operating time, power-cycle count and the area pointers, to both copies and to the power die store. -/
def writePtr (s : State) : State :=
  let gen := s.tally.ptr.foldl (fun a p => if p.valid then max a p.gen else a) 0 + 1
  let p : PtrBlock :=
    { gen := gen % 2 ^ 32, perm := s.get Reg.TALLY_PERM_CNT_COUNT, head := s.get Reg.TALLY_CIRC_HEAD_HEAD,
      count := s.get Reg.TALLY_CIRC_CNT_COUNT, next := s.get Reg.TALLY_SEQ_NEXT, optime := s.clock.optime, pcycle := s.clock.pcycle,
      valid := true }
  s.modTally fun t => { t with ptr := [p, p], header := some (p.optime, p.pcycle) }

/-- Persist, where `fail` gives the MRAM offset of a write that failed (R547). -/
def persistPtr (s : State) (fail : Option Nat) : State :=
  match fail with
  | none => s.writePtr
  | some off => (s.modTally fun t => { t with header := some (s.clock.optime, s.clock.pcycle) }).degrade 1 off

/-! Write units (R528, R529, R545) -/

/-- The records of the next unit: at most 16, within `left` records, up to the end of the area, and none that a clear waits for. -/
def unitLen (s : State) (left : Nat) : Nat :=
  let perm := s.get Reg.TALLY_PERM_CNT_COUNT
  let room := if perm < permCap then permCap - perm else circCap - s.get Reg.TALLY_CIRC_HEAD_HEAD
  let plain := s.tally.queue.takeWhile fun r => !(s.tally.clearReqs.any fun c => c.seq == r.seq)
  min (min 16 left) (min room plain.length)

/-- Store records in an area from the next place on. -/
def storeRecs (s : State) (toCirc : Bool) (l : List Place) : State :=
  let perm := s.get Reg.TALLY_PERM_CNT_COUNT
  if !toCirc && perm < permCap then
    s.modTally fun t => { t with perm := t.perm.take perm ++ l ++ t.perm.drop (perm + l.length) }
  else
    let h := s.get Reg.TALLY_CIRC_HEAD_HEAD
    s.modTally fun t => { t with circ := (l.foldl (fun (a : Nat × List (Nat × Place)) x =>
      ((a.1 + 1) % circCap, Sparse.put a.1 x a.2)) (h, t.circ)).2 }

/-- Move the pointers over stored records. -/
def advance (s : State) (toCirc : Bool) (n : Nat) : State :=
  let perm := s.get Reg.TALLY_PERM_CNT_COUNT
  if !toCirc && perm < permCap then s.showPerm (perm + n)
  else
    let s := s.set Reg.TALLY_CIRC_CNT_COUNT [] (min circCap (s.get Reg.TALLY_CIRC_CNT_COUNT + n))
    s.set Reg.TALLY_CIRC_HEAD_HEAD [] (s.get Reg.TALLY_CIRC_HEAD_HEAD + n)

/-- The clear that the first queued record stands for (R545). -/
def clearNow (s : State) (c : ClearReq) (r : Rec) : State :=
  let n := s.get Reg.TALLY_CIRC_CNT_COUNT
  let r := { r with p1 := n }
  let s := (s.set Reg.TALLY_CIRC_CNT_COUNT [] 0).storeRecs true [.good r]
  let s := s.advance true 1
  let s := s.modTally fun t =>
    let cl := t.clears ++ [r]
    { t with queue := t.queue.tail, due := t.due - 1, clears := if cl.length > 16 then cl.tail else cl,
             clearReqs := t.clearReqs.filter fun x => x.seq != c.seq }
  let s := (s.set Reg.TALLY_EMER_CLEARS [] s.tally.clears.length).inc Reg.TALLY_CLR_DONE
  let s := s.showTally.writePtr
  if c.gone then s else s.complete c.tenant c.queue c.idx 0 0 r.seq

/-- One write unit of at most `left` records, read back; `fail` gives the MRAM offset at which it did not compare. What a failed
unit leaves in its places is taken as torn (log 42). -/
def writeUnit (s : State) (left : Nat) (fail : Option Nat) : State :=
  match s.tally.queue with
  | [] => s
  | r :: _ =>
    let n := match s.tally.clearReqs.find? (fun c => c.seq == r.seq) with
      | some _ => 1
      | none => s.unitLen left
    match fail with
    | some off =>
      let isClear := s.tally.clearReqs.any fun c => c.seq == r.seq
      (s.storeRecs isClear (List.replicate n .torn)).degrade 0 off
    | none =>
      match s.tally.clearReqs.find? (fun c => c.seq == r.seq) with
      | some c => s.clearNow c r
      | none =>
        let s := (s.storeRecs false ((s.tally.queue.take n).map Place.good)).advance false n
        (s.modTally fun t => { t with queue := t.queue.drop n, due := t.due - n }).showTally

/-- The engine may start write units: firmware runs and CPU pair 1 is not in its lockstep restart (R106, R529, R547). -/
def mayFlush (s : State) : Bool :=
  s.on Reg.TALLY_STAT_READY && !s.on Reg.TALLY_STAT_DEGRADED && s.cpuUp 1 && !s.inSlack

/-- Units of up to 16 records held back in slack become deferred writes, as far as the queue has records for them (R529). -/
def deferUnits (s : State) (k : Nat) : State :=
  let want := (s.tally.queue.length + 15) / 16
  let have_ := (s.power.deferred.filter fun w => w == .tallyUnit).length
  s.modPower fun p => { p with deferred := p.deferred ++ List.replicate (min ((k + 15) / 16) (want - have_)) .tallyUnit }

/-- Job 6 at its tick (R528, R529): it may write the records queued before the tick, at most 64; in slack the units it holds back
become deferred writes. -/
def job6 (s : State) : State :=
  let k := min 64 (min s.tally.atTick s.tally.queue.length)
  if s.on Reg.TALLY_STAT_DEGRADED || !s.on Reg.TALLY_STAT_READY then s
  else if s.inSlack then s.deferUnits k
  else if s.mayFlush then s.modTally fun t => { t with due := k }
  else s

/-! MRAM writes (R67 to R72) -/

/-- What the secure store is to hold: the keys as the security engine has them; while it treats every key as absent, what the store
holds already (R520, R556). -/
def keyStore (s : State) : KeyStore :=
  if s.sec.locked then s.sec.stored
  else
    { cfg := s.sec.cfgKey, maint := s.sec.maintKey, active := s.keys.active, staged := s.keys.staged,
      activeId := s.get Reg.SEC_FK_ACTIVE_ID, stagedId := s.get Reg.SEC_FK_STAGED_ID }

/-- Carry out an MRAM write (R68); `fail`: the MRAM offset of a write of the tally book that failed (R547). -/
def mramApply (s : State) (w : MramWrite) (fail : Option Nat) : State :=
  match w with
  | .tallyUnit => s.writeUnit 16 fail
  | .pointers => s.persistPtr fail
  | .keys => s.modSec fun x => { x with stored := s.keyStore }
  | .tables => s.modSynth fun y => { y with stored := y.cache }
  | .rate r => ((s.modSync fun y => { y with histRate := some r }).setInt Reg.SYNC_HIST_RATE [] r).set Reg.FIRST_USE_RATE_HIST [] 0
  | .hopSeq p m => s.modPort p fun q => { q with hopMark := m }
  | .takeoverEpoch e => s.modRed fun r => { r with persistedEpoch := e }
  | .slots => s.modConf fun c => { c with slots := ⟨c.slots.gen + 1, c.active, c.prev, c.staged, c.trial⟩ }

/-- New MRAM writes wait: in slack, and while writes held back earlier still wait (R67, R72). -/
def mramWaits (s : State) : Bool := s.inSlack || !s.power.deferred.isEmpty

/-- An MRAM write, which is held back while writes wait (R67, R72). -/
def mramWrite (s : State) (w : MramWrite) (fail : Option Nat := none) : State :=
  if s.mramWaits then s.modPower fun p => { p with deferred := p.deferred ++ [w] } else s.mramApply w fail

/-- Every change of roles rewrites the slot control record, both copies (R586). -/
def writeSlots (s : State) : State := s.mramWrite .slots

/-- The units of a bulk write of n bytes (R68). -/
def bulkUnits (n : Nat) : Nat := max 1 ((n + 511) / 512)

/-- A bulk write begins behind those under way (R68). -/
def bulkStart (s : State) (d : BulkData) (bytes : Nat) : State :=
  s.modPower fun p => { p with bulk := p.bulk ++ [⟨d, bulkUnits bytes⟩] }

end State

end Sys2Proof.Machine
end

