-- ==== Sys2Proof/Machine/Weir.lean ====
section
/-!
DEFINITION. The weirs (12_weir.md): their states, window tables, the check of a frame offered for transmission,
counters, fencing and self-check, and the commands WEIR_NIT_ADJUST, WEIR_STATE_TIMEOUT and NODE_FENCED.
-/

namespace Sys2Proof.Machine

/-- What a weir does with an offered frame (R300, R303). A row is one of Table 12-6: 0 EARLY, 1 LATE, 2 WRONG, 3 OVERSIZE. -/
inductive Verdict where
  | pass
  | block (row : Nat)
  | cut
  /-- blocked under the fence (R308) -/
  | fenced
  deriving DecidableEq, Repr, Inhabited

namespace State

/-- Weir w's part of the state. -/
def weir (s : State) (w : Nat) : Weir := s.weirs.w.getD w default

def modWeirs (s : State) (f : Weirs → Weirs) : State := { s with weirs := f s.weirs }

def modWeir (s : State) (w : Nat) (f : Weir → Weir) : State := s.modWeirs fun x => { x with w := listMod x.w w f }

/-- Weir state code (Table 12-2). -/
def wst (s : State) (w : Nat) : Nat := s.get Reg.WEIR_STAT_STATE [w]

/-- The window half-width W_W in 0.1 ns (R298). -/
def weirHalf (s : State) (w : Nat) : Nat :=
  let g := (profileOf (s.weir w).table.prof).guard
  if (s.weir w).wide > 0 then g else g / 2

/-- Enter a weir state; leaving TRACK is recorded (Table 12-9). Entering ACQUIRE widens the window for 8 turns. -/
def setWst (s : State) (w st : Nat) : State :=
  let old := s.wst w
  let s := s.set Reg.WEIR_STAT_STATE [w] st
  let s := s.modWeir w fun x => { x with
    turns := 0, refTurns := if st == 2 then 0 else x.refTurns,
    noRef := if st == 3 then 0 else x.noRef, wide := if st == 2 then 8 else x.wide }
  if old == 3 && st != 3 then s.recordS 0x3706 3 4 w st else s

/-- Seed a weir's phase from the node's tick (Table 12-2). -/
def seedWeir (s : State) (w : Nat) : State :=
  s.modWeir w fun x => { x with
    offs := 0, lastRef := none, firstRef := none, deltas := [], lens := [],
    tLen := (s.turnNs * nsUnit : Nat) }

/-- The weir's state as the node's line state asks (Table 12-2). -/
def weirFollow (s : State) (w : Nat) : State :=
  let st := s.wst w
  if st == 5 then s
  else if s.lstate == 0 || !s.on Reg.WEIR_CTL_EN then (if st == 0 then s else s.setWst w 0)
  else if s.following then (if st == 0 || st == 1 then (s.setWst w 2).seedWeir w else s)
  else if st == 1 then s else s.setWst w 1

/-- Both weirs follow the line state. -/
def weirsFollow (s : State) : State := (s.weirFollow 0).weirFollow 1

/-! Relay drivers (R50, R51) -/

/-- The conditions of R50. -/
def relayCond (s : State) : Bool :=
  s.power.on && s.lstate != 0 && s.on Reg.GLOBAL_STAT_CONFIG_VALID && s.on Reg.SEC_STAT_FK_ACTIVE &&
  ((List.range 4).any fun n => !s.isXlink n && s.wst (n % 2) != 5) && !s.on Reg.DIAG_STAT_FROZEN && s.pins.keepalive

/-- Drive or release the bypass relays (R50). -/
def relays (s : State) : State := s.modPins fun p => { p with bypassLow := s.relayCond }

/-- Fail a weir's self-check for a cause (R309, R310); with every weir of the line ports failed the relays fall (R50). -/
def weirFail (s : State) (w why : Nat) : State :=
  if s.wst w == 5 then s
  else
    let s := s.setWst w 5
    let s := s.set Reg.WEIR_STAT_FAIL_WHY [w] why
    (s.recordS 0x3704 5 4 w why).relays

/-- Some weir is fenced: both are (R307). -/
def isFenced (s : State) : Bool := s.on Reg.WEIR_STAT_FENCED [0]

/-- Lift the fence (R308). -/
def liftFence (s : State) : State :=
  if s.isFenced then
    let turns := s.clock.turn - s.weirs.fencedAt
    let drops := s.weirs.fenceDrops
    let s := (s.set Reg.WEIR_STAT_FENCED [0] 0).set Reg.WEIR_STAT_FENCED [1] 0
    let s := (s.set Reg.WEIR_STAT_OWN_BLOCKS [0] 0).set Reg.WEIR_STAT_OWN_BLOCKS [1] 0
    let s := s.modWeirs fun x => { x with fenceDrops := 0, w := x.w.map fun y => { y with blocks := [] } }
    s.recordS 0x3703 1 4 turns drops
  else s

/-- Add one to a weir's counter against a sender (R305). -/
def weirCount (s : State) (w sender row : Nat) : State :=
  s.modWeirs fun x =>
    let k := w * 64 + sender % 64
    let (a, b, c, d) := (Sparse.find k x.counters).getD (0, 0, 0, 0)
    let v := match row with
      | 0 => (min (a + 1) 255, b, c, d)
      | 1 => (a, min (b + 1) 255, c, d)
      | 2 => (a, b, min (c + 1) 255, d)
      | _ => (a, b, c, min (d + 1) 255)
    { x with counters := Sparse.put k v x.counters }

/-- Own blocks over the present turn and the 63 before it (R307). -/
def ownBlocks (s : State) (w : Nat) : Nat := ((s.weir w).blocks.take 64).foldl (· + ·) 0

/-- Count an own block or cut-off towards fencing (R307). -/
def ownBlock (s : State) (w port row slot : Nat) : State :=
  let s := s.modWeir w fun x => { x with blocks := match x.blocks with
    | [] => [1]
    | b :: l => (b + 1) :: l }
  let s := s.set Reg.WEIR_STAT_OWN_BLOCKS [w] (min (s.ownBlocks w) 255)
  s.recordS 0x3701 3 4 port (row + slot % 1024 * 2 ^ 16)

/-- The checks of a row of Table 12-4: early, late, wrong, oversize; the first that holds is counted (R305). -/
def firstRow (early late wrong over_ : Bool) : Verdict :=
  if early then .block 0 else if late then .block 1 else if wrong then .block 2 else if over_ then .block 3 else .pass

/-- Judge a frame on a line UP port in TRACK, HOLDOVER or ACQUIRE (Table 12-4, R302 to R304). `start` is the start on
the weir's phase, in 2^-32 ns; the new h_f of the port is answered too. -/
def weirJudge (s : State) (w e rate : Nat) (start : Int) (f : Frame) : Verdict × Option Nat :=
  let x := s.weir w
  let t := x.table
  let p := profileOf t.prof
  let wp := x.ports.getD e default
  let (_, h, _) := t.ports.getD e default
  let len := f.payload.len
  let slot := f.hdr.slot
  let slack : Int := tenths (s.weirHalf w)
  let wire : Int := tenths (wireTime rate len)
  let centre (hh : Nat) : Int := tenths (slot * p.slotLen + p.guard / 2 + hh * p.hop)
  let runsOut (hh : Nat) : Bool := start + wire > tenths ((slot + 1) * p.slotLen + hh * p.hop)
  let dynLate := start + wire > (t.dynEnd * nsUnit : Nat)
  let dynEarly := start < (t.eStat * nsUnit : Nat)
  let fits (v : Verdict) (hh : Nat) : Verdict := if v == .pass && runsOut hh then .cut else v
  match f.kind with
  | .kickoff =>
    (firstRow (start < 0) (start > tenths (p.guard + 62 * p.hop)) (wp.kicks ≥ 4) (len > 64), wp.hf)
  | .dynamic =>
    (firstRow dynEarly dynLate false (len > 1536 || (match t.bound with
      | none => false
      | some b => wp.dynBytes + len > b)), wp.hf)
  | .hop => (firstRow dynEarly dynLate (wp.hops ≥ 8) (len != 64), wp.hf)
  | k =>
    match f.payload.relay with
    | some r =>
      let kindOk := (k == .confirm && slot == 1) || (k == .claim && slot == 2) || (k == .static && slot == 3) ||
        (k == .directory && t.stopped && 4 ≤ slot && slot ≤ 66)
      let wrong := !kindOk || f.hdr.sender != t.ownPos
      let big := len > p.payload
      if !t.stopped then
        (fits (firstRow (start < centre h - slack) (start > centre h + slack) (wrong || r.hops != h) big) h, wp.hf)
      else match wp.hf with
        | some hf =>
          (fits (firstRow (start < centre hf - slack) (start > centre hf + slack) (wrong || r.hops != hf) big) hf, wp.hf)
        | none =>
          let v := firstRow (start < tenths (slot * p.slotLen)) (start > tenths (slot * p.slotLen + p.guard + 62 * p.hop)) wrong big
          (v, if v == .pass then some r.hops else none)
    | none =>
      let owner := t.owners.find? fun o => o.1 == slot
      let wrong := t.stopped || slot < 4 || t.sEff ≤ slot || (match owner with
        | none => true
        | some (_, pos, kd) => kd == 0 || f.hdr.sender != pos)
      (fits (firstRow (start < centre h - slack) (start > centre h + slack) wrong (len > p.payload)) h, wp.hf)

/-- Judge a frame in PRESYNC, or on a port that is not line UP (R301), at a weir time in 2^-32 ns. -/
def weirPre (s : State) (w e : Nat) (now : Nat) (role : PortRole) (f : Frame) : Verdict :=
  let x := s.weir w
  let wp := x.ports.getD e default
  match f.kind with
  | .hop =>
    firstRow false false ((wp.preHops.filter fun t => now < t + 250000 * nsUnit).length ≥ 8) (f.payload.len != 64)
  | .kickoff =>
    firstRow false false (role != .lineUp || (wp.preKicks.filter fun t => now < t + s.turnNs * nsUnit).length ≥ 4)
      (f.payload.len > 64)
  | _ => .block 2

/-- The frame is the node's own (R306); `fwd`: it forwards a received frame. -/
def ownFrame (s : State) (w : Nat) (fwd : Bool) (f : Frame) : Bool :=
  let pos := (s.weir w).table.ownPos
  (pos != 0 && f.hdr.sender == pos) || (pos == 0 && f.kind != .hop && !fwd) ||
  (match f.payload with
    | .kickoff k => k.duid == s.uid
    | _ => false)

/-- What the weir of a port does with a frame offered at a node turn phase (R18, R19, R292, R298 to R308). -/
def weirCheck (s : State) (port phase : Nat) (fwd : Bool) (f : Frame) : Verdict × State :=
  let w := port % 2
  let e := port / 2
  let st := s.wst w
  let x := s.weir w
  let (role, _, _) := x.table.ports.getD e default
  if s.isXlink port then (if st == 5 then (.block 2, s.weirCount w f.hdr.sender 2) else (.pass, s))
  else
    let own := s.ownFrame w fwd f
    let start : Int := (phase : Int) + x.offs
    let now := s.clock.up
    let sender := if f.kind == .kickoff then 0 else f.hdr.sender
    if s.isFenced && own && f.kind != .hop then
      (.fenced, (s.inc Reg.WEIR_FENCE_CNT_DROPS).modWeirs fun y => { y with fenceDrops := y.fenceDrops + 1 })
    else
      let staleBlock := (x.stale || s.degraded 0) && own && f.kind == .static
      let (v, hf) : Verdict × Option Nat :=
        if st == 0 || st == 5 then (.block 2, none)
        else if st == 1 || role != .lineUp then (s.weirPre w e now role f, (x.ports.getD e default).hf)
        else if staleBlock then (.block 2, (x.ports.getD e default).hf)
        else if st == 2 && own && f.kind != .hop && f.kind != .kickoff then (.block 2, (x.ports.getD e default).hf)
        else s.weirJudge w e (s.rate port) start f
      let passed := v == .pass || v == .cut
      let s := s.modWeir w fun y => { y with ports := listMod y.ports e fun q => { q with
        hf := hf
        kicks := if passed && f.kind == .kickoff then q.kicks + 1 else q.kicks
        hops := if passed && f.kind == .hop then q.hops + 1 else q.hops
        dynBytes := if passed && f.kind == .dynamic then q.dynBytes + f.payload.len else q.dynBytes
        preHops := if passed && f.kind == .hop then now :: q.preHops.take 7 else q.preHops
        preKicks := if passed && f.kind == .kickoff then now :: q.preKicks.take 3 else q.preKicks } }
      let row := match v with
        | .block r => some r
        | .cut => some 3
        | _ => none
      match row with
      | none => (v, s)
      | some r =>
        let s := s.weirCount w sender r
        let counts := (st == 3 || st == 4) && own && !staleBlock
        (v, if counts then s.ownBlock w port r f.hdr.slot else s)

/-- Offer a frame to a port's weir and, when it passes, put it on the wire; `stomp`: ended with an inverted FCS. -/
def transmit (s : State) (port phase : Nat) (fwd stomp : Bool) (f : Frame) : State :=
  match s.weirCheck port phase fwd f with
  | (.pass, s) => s.emit (.line port phase f stomp)
  | (.cut, s) => s.emit (.line port phase f true)
  | (_, s) => s

/-- The bound on DYNAMIC payload per port and turn (R304). -/
def dynBound (s : State) : Option Nat :=
  let pool := s.get Reg.WEIR_DYN_POOL
  if pool == 0xFFFFF then none
  else
    let streams := (List.range 256).foldl (fun a m =>
      if 16 ≤ m && s.on Reg.LINE_STREAM_m_EN [m] then a + 64 * s.get Reg.LINE_STREAM_m_BUDGET [m] else a) 0
    some (streams + 4 * 4096 + pool * 64)

/-- The line engine's window table for a weir and a turn (R299, Table 12-5). `owners`: slot, position. -/
def buildTable (s : State) (w : Nat) (owners : List (Nat × Nat)) : WinTable :=
  { stopped := s.stopped, prof := s.get Reg.LINE_LAYOUT_TPROF, sEff := s.get Reg.LINE_LAYOUT_SLOTS_EFF,
    tNs := s.turnNs, eStat := s.get Reg.LINE_DYN_START_NS, dynEnd := s.get Reg.LINE_DYN_END_NS,
    ownPos := s.ownPos, ownUid := s.lineUid,
    ports := [0, 1].map fun e =>
      let n := 2 * e + w
      (if s.isXlink n then PortRole.crosslink else if s.lineUp n then .lineUp else .lineDown, s.txH n, s.delay n),
    bound := s.dynBound,
    owners := if s.stopped then [] else owners.map fun (sl, pos) => (sl, pos, if pos == s.ownPos then 1 else 2) }

/-- A weir takes the loaded table into force at a tick; `stale`: job 0 has overrun, so the windows are the previous turn's
(Table 4-4). -/
def takeTable (s : State) (w : Nat) (stale : Bool) : State :=
  s.modWeir w fun x =>
    if s.on Reg.GLOBAL_STAT_FW_RESTART then { x with next := x.table, stale := stale } else { x with table := x.next, stale := stale }

/-- Job 0 of one weir loads a table, which comes into force at the next tick; a failed check keeps the table in force (R299).
`crcOk`, `parityOk`: the two checks of the reload. Answers whether the reload completed. -/
def reloadWeir (s : State) (w : Nat) (t : WinTable) (crcOk parityOk : Bool) : Bool × State :=
  if !parityOk then
    let s := s.inc Reg.WEIR_CHK_CNT_PARITY
    let s := s.modWeir w fun x => { x with
      parity := s.clock.turn :: (x.parity.filter fun t => s.clock.turn < t + 64) }
    let s := s.recordS 0x3705 3 4 w 1
    (false, if (s.weir w).parity.length ≥ 3 then s.weirFail w 3 else s)
  else if !crcOk then
    let s := s.inc Reg.WEIR_CHK_CNT_MISMATCH
    (false, s.recordS 0x3705 3 4 w 0)
  else (true, s.modWeir w fun x => { x with next := t })

/-- A weir's per-turn start: its turn has the length that it measured, which moves its phase against the node's (R294); port counts return
to 0, the window of own blocks moves on, and the skew is shown (R296). CK_GUARD's own rate is not told apart from the node's (log 100). -/
def weirTick (s : State) (w : Nat) : State :=
  let follows := 2 ≤ s.wst w && s.wst w ≤ 4
  let s := s.modWeir w fun x => { x with
    offs := if follows then x.offs + (s.turnNs * nsUnit : Nat) - x.tLen else 0, nitDone := false
    turns := x.turns + 1, wide := x.wide - 1, blocks := (0 :: x.blocks).take 64,
    ports := x.ports.map fun q => { q with kicks := 0, hops := 0, dynBytes := 0, hf := none } }
  let s := s.set Reg.WEIR_STAT_OWN_BLOCKS [w] (min (s.ownBlocks w) 255)
  s.setInt Reg.WEIR_SKEW_NS [w] ((s.weir w).offs / (nsUnit : Nat))

/-- A weir measures δ of a reference frame received on its port (R293). -/
def weirRef (s : State) (port : Nat) (phase : Nat) (slot hops : Nat) (corr : Int) : State :=
  let w := port % 2
  let x := s.weir w
  let p := profileOf x.table.prof
  let (_, _, d) := x.table.ports.getD (port / 2) default
  let arr : Int := (phase : Int) + x.offs
  let delta : Int := arr - (tenths (slot * p.slotLen + p.guard / 2 + hops * p.hop) + d + corr * 2 ^ 16)
  let g : Int := tenths p.guard
  if s.isXlink port || s.pst port != 4 || delta > g || delta < -g then s
  else s.modWeir w fun y => { y with
    deltas := y.deltas ++ [delta],
    firstRef := match y.firstRef with
      | some t => some t
      | none => some ((s.clock.up : Int) + phase - s.clock.phase - delta) }

/-- One weir in its own NIT (R294), and the moves of Table 12-2 that a turn with or without a reference frame makes. -/
def weirNit (s : State) (w : Nat) : State :=
  let x := s.weir w
  let st := s.wst w
  let had := !x.deltas.isEmpty
  let mean : Int := if had then x.deltas.foldl (· + ·) 0 / (x.deltas.length : Int) else 0
  let lens := match x.lastRef, x.firstRef with
    | some a, some b => ((b - a) :: x.lens).take 8
    | _, _ => x.lens
  let tLen := if lens.isEmpty then x.tLen else lens.foldl (· + ·) 0 / (lens.length : Int)
  let s := s.modWeir w fun y => { y with
    offs := y.offs - mean, lens := lens, tLen := tLen, deltas := [], firstRef := none,
    lastRef := y.firstRef, refTurns := if had then y.refTurns + 1 else 0, noRef := if had then 0 else y.noRef + 1 }
  if st == 2 && had && (s.weir w).refTurns ≥ 2 then s.setWst w 3
  else if st == 3 && !had then (s.setWst w 4).modWeir w fun y => { y with noRef := 1 }
  else if st == 4 && had then s.setWst w 3
  else s

/-- A weir reaches its turn limit (Table 12-2): 16 turns of ACQUIRE, or 4 turns of HOLDOVER without a reference frame. -/
def weirTimeout (s : State) (w : Nat) : State :=
  let st := s.wst w
  if (st == 2 && (s.weir w).turns ≥ 16) || (st == 4 && (s.weir w).noRef ≥ 4) then (s.setWst w 2).seedWeir w else s

/-- Fence the node (R307). -/
def fence (s : State) : State :=
  let n := max (s.ownBlocks 0) (s.ownBlocks 1)
  if n ≥ 8 && !s.isFenced then
    let s := (s.set Reg.WEIR_STAT_FENCED [0] 1).set Reg.WEIR_STAT_FENCED [1] 1
    let s := s.inc Reg.WEIR_FENCE_CNT_FENCES
    let s := s.modWeirs fun x => { x with fencedAt := s.clock.turn, fenceDrops := 0 }
    s.recordS 0x3702 5 4 n (if s.ownBlocks 0 ≥ 8 then 0 else 1)
  else s

end State

/-- A weir's own NIT has come: the last 16 µs of the turn on its phase (R145, R294). -/
def State.weirInNit (s : State) (w : Nat) : Bool :=
  s.ticking && !(s.weir w).nitDone && (s.clock.phase : Int) + (s.weir w).offs ≥ ((s.turnNs - 16000) * State.nsUnit : Nat)

/-- WEIR_NIT_ADJUST (R294): once in a turn, in the weir's own NIT. -/
def execWeirNitAdjust (w : Fin 2) (s : State) : Result :=
  .next (if s.alive && s.weirInNit w.val then (s.modWeir w.val fun x => { x with nitDone := true }).weirNit w.val else s)

/-- WEIR_STATE_TIMEOUT (R297). -/
def execWeirStateTimeout (w : Fin 2) (s : State) : Result :=
  .next (if s.alive then s.weirTimeout w.val else s)

/-- NODE_FENCED (R307). -/
def execNodeFenced (s : State) : Result :=
  .next (if s.alive then s.fence else s)

end Sys2Proof.Machine
end

