-- ==== Sys2Proof/Machine/LineOps.lean ====
section
/-!
DEFINITION. Shared operations of the line: neighbours and ends, inauguration triggers, link and port states, line states,
relay drivers, discards of queued frames (chapters 02, 06, 09, 10, 23).
-/

namespace Sys2Proof.Machine

namespace State

/-! Ends and neighbours (R131, R132) -/

/-- The partner's line ports that are UP and not foreign, by port, with a crosslink UP (R131, R132). Its line ports are those of the
other channel (Table 6-1). -/
def partnerUp (s : State) : List (Nat × PPort) :=
  if s.paired && s.xlinkUp then
    (s.red.partnerPorts.zipIdx.filter fun x => (x.2 % 2 == 1) != s.pins.strapChan && x.1.st == 4 && !x.1.foreign).map fun x => (x.2, x.1)
  else []

/-- An end has a neighbour (R131); with a crosslink UP the partner's ports count too. -/
def endNbr (s : State) (e : Nat) : Bool :=
  s.nbrPort (2 * e) || s.nbrPort (2 * e + 1) || s.partnerUp.any fun x => x.1 / 2 == e

/-- Rate codes of the line ports that are UP and not foreign, of both devices of a pair (R132). -/
def lineRates (s : State) : List Nat :=
  ((List.range 4).filter fun n => s.nbrPort n).map s.rate ++ s.partnerUp.map fun x => x.2.rate

/-- LINK_MIN of R132. -/
def linkMin (s : State) : Nat :=
  match s.lineRates with
  | [] => 0
  | r :: l => l.foldl min r

/-- Show neighbours and LINK_MIN in LINE_DEPLOY, and foreign and new links in INAUG_STAT. -/
def showEnds (s : State) : State :=
  let s := s.flag Reg.LINE_DEPLOY_END1_NBR [] (s.endNbr 0)
  let s := s.flag Reg.LINE_DEPLOY_END2_NBR [] (s.endNbr 1)
  let s := s.set Reg.LINE_DEPLOY_LINK_MIN [] s.linkMin
  let f (e : Nat) : Bool := (s.port (2 * e)).foreign || (s.port (2 * e + 1)).foreign
  let nl (e : Nat) : Bool := (s.port (2 * e)).newlink || (s.port (2 * e + 1)).newlink
  let s := (s.flag Reg.INAUG_STAT_FOREIGN_E1 [] (f 0)).flag Reg.INAUG_STAT_FOREIGN_E2 [] (f 1)
  ((s.flag Reg.INAUG_STAT_NEWLINK_E1 [] (nl 0)).flag Reg.INAUG_STAT_NEWLINK_E2 [] (nl 1)).showLuid

/-- This device decides the transitions of Table 9-2 (R229); a partner whose line state is OFF decides nothing (log 94). -/
def decides (s : State) : Bool :=
  !s.paired || !s.xlinkUp || s.partnerUid == 0 || s.uid < s.partnerUid || s.red.partner.any fun p => p.line % 16 == 0

/-! Inauguration triggers (R230, R234, R237 to R239, R639) -/

/-- Show pending triggers (LSTART_STAT.PENDING during start-up, INAUG_STAT.PENDING under R238 and R239). -/
def pend (s : State) (t : Trigger) (startUp : Bool) : State :=
  let s := s.modInaug fun i => { i with pending := if i.pending.contains t then i.pending else i.pending ++ [t] }
  if startUp then s.flag Reg.LSTART_STAT_PENDING [] true else s.flag Reg.INAUG_STAT_PENDING [] true

/-- A trigger acts: STOP_REQ goes into the CONFIRM frames of the next turn (R237); in SOLITARY the node inaugurates
itself again at its next tick (R639). In a pair the deciding device acts, and its partner passes the trigger to it. -/
def actTrigger (s : State) (t : Trigger) : State :=
  let s := s.modInaug fun i => { i with trigTime := some (i.trigTime.getD s.clock.up), asking := some (i.asking.getD t) }
  if s.lstate == 6 then s.modStart fun x => { x with solo := true }
  else if s.decides then s.modInaug fun i => { i with stopReqNext := true }
  else s

/-- The triggers held pending act as one (R230, R238, R240). -/
def actPending (s : State) : State :=
  let t := s.inaug.pending.headD ⟨8, 0xFF⟩
  (s.modInaug fun i => { i with pending := [] }).actTrigger t

/-- Raise an inauguration trigger of a kind for a port, 0xFF without one (R234). While CPU pair 0 restarts it raises the pending flag
(R20), and in SOLITARY acts after the restart. -/
def raise (s : State) (kind port : Nat) : State :=
  let s := s.record 0x3501 1 1 kind port
  let t : Trigger := ⟨kind, port⟩
  if s.lstate == 0 || s.lstate == 1 || s.lstate == 2 || s.lstate == 3 then s.pend t true
  else if s.pins.inhibit && kind ≤ 7 then (s.pend t false).record 0x3502 2 1 kind port
  else if s.lstate == 6 then
    (if s.phase == 4 then s.pend t false else if !s.cpuUp 0 then (s.pend t true).actTrigger t else s.actTrigger t)
  else if s.phase == 1 then s
  else if s.phase == 4 then s.pend t false
  else if !s.cpuUp 0 then s.pend t true
  else s.actTrigger t

/-! Frames held in port queues (R172, R603, R604) -/

/-- Drop the frames of a port's queue that a test names, counted as lifetime drops; an own LINE_SEND frame that is due
on this port completes with a status. Answers the dropped frames' descriptors. -/
def dropQueued (s : State) (n : Nat) (p : QFrame → Bool) : List (Nat × Nat × Nat) × State :=
  let q := (s.port n).queue
  let gone := q.filter p
  let s := s.modPort n fun x => { x with queue := q.filter fun f => !p f }
  (gone.filterMap fun f => f.own, s.inc Reg.LPn_FWD_CNT_LIFE_DROP [n] gone.length)

/-! Link and port states (R127 to R129, R234, R236, R638) -/

/-- A port that has lost its link forgets what it learned on it (R176, R184, R242). -/
def forgetLink (s : State) (n : Nat) : State :=
  let s := s.modPort n fun p => { p with
    master := false, k := 0, nbr := none, nbrLs := 0, nbrSynced := 0, foreign := false, newlink := false,
    sent := [], lastHop := none, hopAt := none, samples := [], rejects := 0, granted := List.replicate 10 0,
    used := List.replicate 10 0, given := List.replicate 10 0, held := List.replicate 10 0, freed := 0,
    midRun := [], midNow := [], met := false, relay := [], obs := [] }
  let s := s.set Reg.LPn_DELAY_VALID [n] 0
  let s := s.set Reg.LPn_DELAY_D [n] 0
  let s := s.set Reg.LPn_STAT_HELD_WHY [n] 0
  let s := s.set Reg.LPn_STAT_RATE [n] 0
  let s := s.set Reg.LPn_STAT_ROLE [n] 0
  let s := s.set Reg.LPn_NBR_LO_UID [n] 0
  s.set Reg.LPn_NBR_HI_UID [n] 0

/-- The UID of the neighbour beyond an end: that of an own line port, else of the partner's (R131). -/
def endUid (s : State) (e : Nat) : Nat :=
  match [2 * e, 2 * e + 1].find? s.nbrPort with
  | some n => s.get Reg.LPn_NBR_LO_UID [n]
  | none => ((s.partnerUp.find? fun x => x.1 / 2 == e).map fun x => x.2.nbr % 2 ^ 32).getD 0

/-- A split at an end that lost its neighbour (R231): `uid` is the last neighbour's. -/
def splitCheck (s : State) (e : Nat) (had : Bool) (uid : Nat) : State :=
  if had && !s.endNbr e && (s.lstate == 4 || s.lstate == 5) && s.inaug.dir.isSome && s.pins.cpl.getD e false then
    let s := s.set (if e == 0 then Reg.LSTART_STAT_SPLIT_E1 else Reg.LSTART_STAT_SPLIT_E2) [] 1
    s.record 0x3407 5 1 (e + 1) uid
  else s

/-- The ends that had a neighbour before a change are judged for a split (R231). -/
def splitsFrom (s old : State) : State :=
  [0, 1].foldl (fun s e => s.splitCheck e (old.endNbr e) (old.endUid e)) s

/-- Pass a port to another state. Leaving UP or HELD for any but the other of the two is the loss of its link (R638). -/
def portTo (s : State) (n st : Nat) : State :=
  let old := s.pst n
  let lost := (old == 4 || old == 5) && st != 4 && st != 5
  let uid := s.get Reg.LPn_NBR_LO_UID [n]
  let before := s
  let s := (s.set Reg.LPn_STAT_STATE [n] st).modPort n fun p => { p with
    since := s.clock.up, quiet := if st == 1 && old != 1 then s.clock.up else p.quiet }
  let s := if lost then
      let s := (s.inc Reg.LPn_CNT_DOWNS [n]).forgetLink n
      let s := if s.isXlink n then s.record 0x3106 4 3 n uid else s.record 0x3102 3 3 n uid
      if old == 4 && !s.isXlink n then s.raise 2 n else s
    else s
  let s := if st == 0 || st == 1 then (s.set Reg.LPn_STAT_RATE [n] 0).set Reg.LPn_STAT_ROLE [n] 0 else s
  let s := if old == 4 then s.splitsFrom before else s
  s.showEnds

/-- The link of a port enters HELD with a reason (R128, R129). -/
def hold (s : State) (n why : Nat) : State :=
  let s := s.portTo n 5
  let s := s.set Reg.LPn_STAT_HELD_WHY [n] why
  let s := s.modPort n fun p => { p with fellBack := p.fellBack || why == 8 }
  (s.record 0x3104 3 3 n (why + 256 * s.rate n)).showEnds

/-- The link of a port enters UP; `kind` is the trigger it raises, 0 none (R234, R239). Under inhibit a link that enters UP is
not yet a neighbour. Record 0x3101 is the line link's (Table 6-6); a line port that enters UP ends its end's wait for a link (R235). -/
def up (s : State) (n kind : Nat) : State :=
  let s := s.set Reg.LPn_STAT_HELD_WHY [n] 0
  let held := s.pins.inhibit && !s.isXlink n && s.lstate != 6
  let s := s.modPort n fun p => { p with
    fellBack := false, newlink := held, granted := List.replicate 10 0, used := List.replicate 10 0,
    given := List.replicate 10 0, held := List.replicate 10 0 }
  let s := s.portTo n 4
  let s := if s.isXlink n then s else s.record 0x3101 1 3 n (s.rate n)
  let s := if s.isXlink n || kind == 0 then s else s.raise kind n
  (s.modStart fun x => if s.isXlink n then x else { x with cplWait := listSet x.cplWait (n / 2) none }).showEnds

/-! Line states (Table 9-2) -/

/-- The tick's source by line state (Table 9-1, R84, R85). -/
def tickSource (st : Nat) (fromRun : Bool) : Nat :=
  if st == 0 then (if fromRun then 1 else 0) else if st == 3 || st == 4 || st == 5 then 2 else 1

/-- What a node that starts or stops following the line resets (R197, R199, R203). -/
def followReset (s : State) (start : Bool) : State :=
  if start then
    let use := s.on Reg.SYNC_CTL_USE_HIST && s.sync.histRate.isSome
    let s := s.setInt Reg.NTIME_RATE_RATE [] (if use then s.sync.histRate.getD 0 else 0)
    let s := s.modSync fun y => { y with
      senders := [], prevM := none, prevO := 0, mids := 0, bigO := 0, goodRun := 0, since := 0, noMid := 0,
      nextRate := none, persistCount := 0, usedHist := use }
    let s := (s.set Reg.SYNC_STAT_CONVERGED [] 0).set Reg.SYNC_STAT_RATE_CLAMP [] 0
    let s := s.set Reg.SYNC_STAT_CONV_TURNS [] 0
    let s := s.set Reg.SYNC_STAT_GOOD [] 0
    s.set Reg.SYNC_STAT_WIDE [] 1
  else (s.set Reg.SYNC_STAT_WIDE [] 0).set Reg.SYNC_STAT_SELF_SILENT [] 0

/-- t_listen in µs (R215). -/
def tListen (s : State) : Nat := 3 * s.get Reg.TURN_LEN_LEN_ACT + s.lineUid % 64 * 20

/-- LISTEN begins: the listen timeout runs (R215), and what the node observes of lines starts afresh (R216). -/
def listen (s : State) : State :=
  let s := (s.set Reg.LSTART_TMO_US [] s.tListen).modStart fun x =>
    { x with floorWait := false, kicking := false, found := none, listenAt := s.clock.turn, listenEnd := s.inNs (s.tListen * 1000) }
  { s with ports := s.ports.map fun (p : Port) => { p with obs := [] } }

/-- The node's line state changes (Table 9-2). -/
def toLine (s : State) (st : Nat) : State :=
  let old := s.lstate
  if old == st then s
  else
    let wasF := s.following
    let s := s.set Reg.LSTART_STAT_PREV [] old
    let s := s.set Reg.LSTART_STAT_STATE [] st
    let s := s.set Reg.LSTART_STAT_TURNS [] 0
    let s := s.set Reg.TURN_STAT_SRC [] (tickSource st (old != 0))
    let s := if s.following && !wasF then s.followReset true
      else if wasF && !s.following then s.followReset false else s
    let s := s.flag Reg.SYNC_STAT_SELF_SILENT [] (st == 5)
    let s := if st == 1 then s.listen else s
    let s := if st == 2 then
        let s := s.modStart fun x => { x with kcount := 0, unanswered := 0, answered := false, zeroNow := false, zeroRun := 0, floorWait := true }
        (s.inc Reg.LSTART_CNT_COLD).record 0x3401 2 1 s.tListen (s.lineUid % 2 ^ 32)
      else s
    let s := if st == 3 then s.liftFence.modInaug fun i =>
        { i with joined := i.dir.isSome, lineView := if i.dir.isSome then none else i.lineView } else s
    let s := if st != 4 then s.modStart fun x => { x with synced := 0 } else s
    let s := s.modRed fun r => { r with noneSince := if st == 0 then none else if old == 0 then some s.clock.up else r.noneSince }
    s.weirsFollow.relays

/-- A node in SOLITARY leaves it for LISTEN (R228). `port` 0xFF: a port entered UP. -/
def leaveSolo (s : State) (port : Nat) : State :=
  if s.lstate == 6 then
    let turns := s.get Reg.LSTART_STAT_TURNS
    ((s.toLine 1).modStart fun x => { x with wasSolo := true, solo := false }).record 0x3405 1 1 turns port
  else s

/-- This device decides a change of line state now: CPU pair 0 runs (R225, R229). -/
def lineUpFw (s : State) : Bool := s.decides && s.cpuUp 0

/-- A line port enters UP and takes a node out of SOLITARY (Table 9-2), unless CPU pair 0 restarts (R225; log 90). -/
def upFrom (s : State) (n kind : Nat) : State :=
  (if s.isXlink n || !s.lineUpFw then s else s.leaveSolo 0xFF).up n kind

end State

end Sys2Proof.Machine
end

