-- ==== Sys2Proof/Machine/LineTx.lean ====
section
/-!
DEFINITION. What the node sends on its line ports and crosslinks: tags (R177 to R179, R567), headers (R157, R158), HOP
frames and credit (R174 to R176), DYNAMIC frames and the dynamic segment (R165 to R173), relay frames (R153), and the
commands HOP_EXTRA_SEND, HOP_PERIODIC_SEND, DYNAMIC_SEGMENT, DYNAMIC_LIFETIME_EXPIRY.
-/

namespace Sys2Proof.Machine

/-- The ASCII bytes of a text. -/
def ascii (t : String) : List Byte := t.toList.map fun c => BitVec.ofNat 8 c.toNat

namespace State

/-! Keys and tags -/

/-- The directory by which the node knows its line; none while it has integrated and not yet found its own line again (R242). -/
def dirKnown (s : State) : Option Directory := if s.inaug.joined then none else s.inaug.dir

/-- The first 128 bits of the directory digest in force (R242, R255). -/
def digest128 (s : State) : Nat :=
  match s.dirKnown with
  | some d => d.digest / 2 ^ 256
  | none => match s.inaug.lineView with
    | some (_, dg, _, _) => dg
    | none => 0

/-- ICOUNT in force (R242). -/
def icount (s : State) : Nat := s.get Reg.INAUG_ICOUNT_ICOUNT

/-- The fleet key in force. -/
def fleetKey (s : State) : BitVec 256 := s.keys.active.getD 0

/-- A turn number of 64 bits from its low 32, nearest to the node's own (R178). -/
def fullTurn (s : State) (t : Nat) : Nat :=
  let own := s.clock.turn
  let cand := own / 2 ^ 32 * 2 ^ 32 + t % 2 ^ 32
  if cand + 2 ^ 31 < own then cand + 2 ^ 32 else if own + 2 ^ 31 < cand && cand ≥ 2 ^ 32 then cand - 2 ^ 32 else cand

/-- The tag key of a frame under a fleet key and, for a relay frame, a salt and its tagging device (Table 21-9). -/
def tagKey (s : State) (kf : BitVec 256) (salt tagger : Nat) (f : Frame) : List Byte :=
  let k := beBytes 32 kf.toNat
  let svc := hkdf k none (ascii "LJU SVC")
  match f.payload with
  | .hop _ h => hkdf svc none (ascii "LJU HOP" ++ beBytes 8 h.uid)
  | .kickoff x => hkdf svc none (ascii "LJU KICK" ++ beBytes 8 x.luid)
  | .parcels _ | .dyn _ =>
    let ke := hkdf k (some (beBytes 16 (s.keys.salt.getD 0) ++ beBytes 4 s.icount ++ beBytes 16 s.digest128)) (ascii "LJU SESSION")
    hkdf ke none (ascii "LJU TAG" ++ beBytes 1 f.hdr.sender)
  | _ => hkdf svc (some (beBytes 16 salt)) (ascii "LJU RELAY" ++ beBytes 8 tagger)

/-- The turn that a frame's IV carries (Table 7-12): that named in TURN, or for HOP the HOP sequence. -/
def ivTurn (s : State) (f : Frame) : Nat := if f.kind == .hop then f.hdr.turn * 2 ^ 32 + f.hdr.seqGen else s.fullTurn f.hdr.turn

/-- Put this node's source address and tag on a frame that leaves on port n (R156, R177, R178). -/
def tagged (s : State) (n : Nat) (f : Frame) : Frame :=
  let g := { f with src := s.uid % 2 ^ 40 }
  { g with tag := gmac (s.tagKey s.fleetKey (s.keys.salt.getD 0) s.uid g) (g.iv (s.ivTurn g) (n % 2 == 1) (n / 2 == 1) n) g.aad }

/-- The tag of a frame received on line port n verifies under a fleet key and a salt (R177 to R179): the originator tags STATIC, KICKOFF
and DYNAMIC frames, the neighbour known from IDENTIFY relay and HOP frames. -/
def tagGood (s : State) (n : Nat) (f : Frame) (kf : BitVec 256) (salt : Nat) : Bool :=
  let nbr := s.get Reg.LPn_NBR_LO_UID [n] + 2 ^ 32 * s.get Reg.LPn_NBR_HI_UID [n]
  let (end2, far) : Bool × Nat := match f.payload with
    | .hop _ h => (h.end2, 2 * b2n h.end2 + b2n h.chanB)
    | _ => (((s.port n).nbr.map fun h => h.end2).getD false, 0)
  f.tag == gmac (s.tagKey kf salt nbr f) (f.iv (s.ivTurn f) (n % 2 == 1) end2 far) f.aad

/-- The salts under which a relay frame is checked (R570): of slot 3 the one it carries; else the node's own, then that of the last valid
slot 3 frame from the same port. -/
def tagSalts (s : State) (n : Nat) (f : Frame) : List Nat :=
  match f.payload with
  | .service _ v => [v.salt]
  | _ => s.keys.salt.toList ++ (Sparse.find n s.keys.lastSalt).toList

/-- The tag of a frame received on line port n is good (R177 to R179, R574, R575): HOP, KICKOFF and relay frames under the active or the
staged fleet key, a DYNAMIC frame from before a rollover under the retired one, the others under the active key. -/
def tagOk (s : State) (n : Nat) (f : Frame) : Bool :=
  match f.payload with
  | .parcels _ => s.tagGood n f s.fleetKey 0
  | .dyn _ => (match s.keys.retired with
      | some (k, r, _) => s.tagGood n f (if s.fullTurn f.hdr.turn < r then k else s.fleetKey) 0
      | none => s.tagGood n f s.fleetKey 0)
  | .hop _ _ | .kickoff _ => (s.keys.active.toList ++ s.keys.staged.toList).any fun k => s.tagGood n f k 0
  | _ => (s.keys.active.toList ++ s.keys.staged.toList).any fun k => (s.tagSalts n f).any fun x => s.tagGood n f k x

/-- The node holds a salt, drawing one if it must (R569). -/
def withSalt (s : State) : State :=
  match s.keys.salt with
  | some _ => s
  | none =>
    let (b, s) := s.takeRandom 16
    s.modKeys fun k => { k with salt := some (beNat (slice b 0 16)) }

/-- A header of this node's frames (R157). -/
def header (s : State) (flags slot : Nat) (corr : Int) (seqGen : Nat) : Hdr :=
  ⟨flags ||| (if s.get Reg.TIME_STAT_ORIGIN != 0 then 8 else 0), s.ownPos, s.turn32, s.icount, slot, corr, seqGen, if s.paired then s.get Reg.RED_STAT_EPOCH else 0⟩

/-- This device holds the leader role. -/
def isLeader (s : State) : Bool := s.get Reg.GLOBAL_STAT_ROLE == 1

/-- This device holds the follower role. -/
def isFollower (s : State) : Bool := s.get Reg.GLOBAL_STAT_ROLE == 2

/-- Node time is aligned to TAI. -/
def taiOn (s : State) : Bool := s.get Reg.TIME_STAT_ORIGIN != 0

/-! HOP frames (R174 to R176) -/

/-- Node time (2^-32 ns) at a turn phase of the present turn. -/
def timeAt (s : State) (phase : Nat) : Nat := ((s.clock.ntime : Int) + (phase : Int) - (s.clock.phase : Int)).toNat

/-- Send a HOP frame on port n at a turn phase. The first one after UP grants the whole share (R176). On a crosslink the channel it names
is the device's, CHANNEL_SEL (R138). -/
def sendHop (s : State) (n phase : Nat) : State :=
  let p := s.port n
  let seq := p.hopSeq + 1
  let fresh := s.pst n == 4 && p.given.all fun g => g == 0
  let given := if fresh then (List.range 10).map fun c => Config.hopShare c % 65536 else p.given
  let t := s.timeAt phase / 2 ^ 30 * 2 ^ 30
  let h : Hop := {
    uid := s.uid, end2 := n / 2 == 1, chanB := if s.isXlink n then s.pins.strapChan else n % 2 == 1, paired := s.paired, xlink := s.isXlink n
    profMax := s.get Reg.CAPS_PROFILE_MAX, lstate := s.lstateByte, tTx := t
    tEcho := (p.lastHop.map fun x => x.1).getD 0, tRx := (p.lastHop.map fun x => x.2).getD 0, credit := given }
  let f : Frame := ⟨.hop, { s.header 0 0 0 (seq % 2 ^ 32) with turn := seq / 2 ^ 32 % 2 ^ 32, epoch := if s.paired then s.get Reg.RED_STAT_EPOCH else 0 }, .hop seq h, 0, 0⟩
  let s := s.modPort n fun q => { q with hopSeq := seq, given := given, freed := 0, sent := (t :: q.sent).take 8 }
  let s := if seq % 2 ^ 20 == 0 then s.mramWrite (.hopSeq n seq) else s
  s.transmit n phase false false (s.tagged n f)

/-- Blocks of a class the neighbour's credit still covers (R176). -/
def creditLeft (s : State) (n c : Nat) : Nat :=
  ((s.port n).granted.getD c 0 + 65536 - (s.port n).used.getD c 0 % 65536) % 65536

/-- A frame leaves a port's queue: the buffer it held is granted again to the neighbour it came from. -/
def freeHeld (s : State) (src : Option Nat) (cls blocks : Nat) : State :=
  match src with
  | none => s
  | some m => s.modPort m fun q => { q with
      given := listMod q.given cls fun g => (g + blocks) % 65536, freed := q.freed + blocks }

/-! DYNAMIC frames (R165 to R173) -/

/-- The stream of a DYNAMIC frame. -/
def streamOf (f : Frame) : Nat := f.hdr.slot

/-- Priority of a DYNAMIC frame. -/
def prioOf (f : Frame) : Nat := match f.payload with
  | .dyn d => d.prio % 8
  | _ => 0

/-- A frame has left a port: an own descriptor completes once it waits on no other port (R400). -/
def leftPort (s : State) (q : QFrame) : State :=
  match q.own with
  | none => s
  | some (t, qu, i) =>
    if (s.ports.any fun p => p.queue.any fun x => x.own == q.own) then s
    else s.complete t qu i 0 (match q.frame.payload with
      | .dyn d => d.data.length
      | _ => 0) q.frame.hdr.seqGen

/-- Own frames of a stream that have left on a port in the present turn (R173). -/
def sentOwn (s : State) (n stream : Nat) : Nat := (Sparse.find stream (s.port n).ownSent).getD 0

/-- A waiting frame may leave: frames of its own a node sends in SYNCED and SELF_SILENT only (Table 9-1), at most 65,535 of a stream in a
turn (R173); while the line stands still the segment carries streams 2 to 4, and stream 1 with DKIND 2 (R246). -/
def mayLeave (s : State) (n : Nat) (q : QFrame) : Bool :=
  let id := streamOf q.frame
  let dkind := match q.frame.payload with
    | .dyn d => d.dkind
    | _ => 0
  (q.src.isSome || ((s.lstate == 4 || s.lstate == 5) && s.sentOwn n id < 65535)) &&
  (!s.standing || (2 ≤ id && id ≤ 4) || (id == 1 && dkind == 2))

/-- A frame is removed from a port's queue and sent there at a time in 0.1 ns. -/
def sendQueued (s : State) (n t : Nat) (q : QFrame) : State :=
  let id := streamOf q.frame
  let cls := classOf id (prioOf q.frame)
  let b := blocksOf q.frame.payload.len
  let s := s.modPort n fun p => { p with
    queue := p.queue.erase q, used := listMod p.used cls fun u => (u + b) % 65536
    ownSent := if q.src.isSome then p.ownSent else Sparse.put id (s.sentOwn n id + 1) p.ownSent }
  let s := s.transmit n (tenths t) q.src.isSome false q.frame
  (s.freeHeld q.src cls b).leftPort q

/-- One burst of a stream (send_burst of R166): wire time sent, in 0.1 ns. `left` is the budget, none for the pool. -/
def burst (n stream t dynEnd : Nat) : Nat → Nat → Nat → State → Nat × State
  | 0, _, sent, s => (sent, s)
  | fuel + 1, left, sent, s =>
    match (s.port n).queue.find? fun q => streamOf q.frame == stream && s.mayLeave n q with
    | none => (sent, s)
    | some q =>
      let len := q.frame.payload.len
      let w := wireTime (s.rate n) len
      if left < len then (sent, s)
      else if s.creditLeft n (classOf stream 0) < blocksOf len then (sent, s.inc Reg.LPn_HOP_STALL_SLOTS [n])
      else if t + sent + w > dynEnd then (sent, s)
      else burst n stream t dynEnd fuel (left - len) (sent + w) (s.sendQueued n (t + sent) q)

/-- A pool frame of a length keeps the DYNAMIC payload of the port and turn within DYN_BOUND, whose sum the weir holds too (R304). -/
def underBound (s : State) (n len : Nat) : Bool := match s.dynBound with
  | none => true
  | some b => ((s.weir (n % 2)).ports.getD (n / 2) default).dynBytes + len ≤ b

/-- The pool's service (R168): the highest priority that has a frame ready, has credit, meets R167 and stays within DYN_BOUND (R304). At
its end the port is free from a time on. -/
def servePool (n dynEnd : Nat) : Nat → Nat → State → State
  | 0, t, s => s.modPort n fun p => { p with poolAt := some t }
  | fuel + 1, t, s =>
    let ready := (s.port n).queue.filter fun q => streamOf q.frame == 256 && s.mayLeave n q
    let covered := ready.filter fun q => blocksOf q.frame.payload.len ≤ s.creditLeft n (classOf 256 (prioOf q.frame))
    let fits := covered.filter fun q => t + wireTime (s.rate n) q.frame.payload.len ≤ dynEnd && s.underBound n q.frame.payload.len
    let head (p : Nat) : Option QFrame := match ready.find? fun q => prioOf q.frame == p with
      | some q => if fits.contains q then some q else none
      | none => none
    match ([7, 6, 5, 4, 3, 2, 1, 0].filterMap head).head? with
    | none => s.modPort n fun p => { p with poolAt := some t }
    | some q => servePool n dynEnd fuel (t + wireTime (s.rate n) q.frame.payload.len) (s.sendQueued n t q)

/-- A pool frame may leave but for credit (R176). -/
def poolStalled (s : State) (n : Nat) : Bool :=
  (s.port n).queue.any fun q => streamOf q.frame == 256 && s.mayLeave n q &&
    s.creditLeft n (classOf 256 (prioOf q.frame)) < blocksOf q.frame.payload.len

/-- Now, as a turn phase in 0.1 ns, rounded up. -/
def nowTenths (s : State) : Nat := (s.clock.phase * 10 + 2 ^ 32 - 1) / 2 ^ 32

/-- A pool frame that becomes ready once the counter has reached 256 starts at the next mini-slot boundary (R168). -/
def poolLate (s : State) (n : Nat) : State :=
  match (s.port n).poolAt with
  | none => s
  | some t =>
    let t0 := s.get Reg.LINE_DYN_START_NS * 10
    if (s.port n).queue.any fun q => streamOf q.frame == 256 && s.mayLeave n q then
      servePool n (s.get Reg.LINE_DYN_END_NS * 10) (s.port n).queue.length (max t (t0 + roundUp (s.nowTenths - t0) s.prof.mini)) s
    else s

/-- Line ports of an end on which a frame is due: every one that is not DISABLED, and all of them where each is (log 39). -/
def endPorts (s : State) (e : Nat) : List Nat :=
  let all := [2 * e, 2 * e + 1].filter fun n => !s.isXlink n
  let up := all.filter fun n => s.pst n != 0
  if up.isEmpty then all else up

/-- The end that faces a position. -/
def endTowards (s : State) (dest : Nat) : Nat :=
  if (dest > s.ownPos) == s.inaug.end2Asc then 1 else 0

/-- The line ports on which a frame for a destination is due (R400). -/
def duePorts (s : State) (dest : Nat) : List Nat :=
  if dest == s.ownPos then []
  else if dest == 0xFFFF then (if s.endNbr 0 then s.endPorts 0 else []) ++ (if s.endNbr 1 then s.endPorts 1 else [])
  else s.endPorts (s.endTowards dest)

/-- Next SEQ_GEN of a stream, counted on (R173, R317). -/
def nextSeq (s : State) (stream : Nat) : Nat × State :=
  let c := (Sparse.find stream s.red.seqGen).getD 0
  let top := if s.paired && s.pins.strapChan then 2 ^ 31 else 0
  let m := if s.paired then 2 ^ 31 else 2 ^ 32
  (top + c % m, s.modRed fun r => { r with seqGen := Sparse.put stream (c + 1) r.seqGen })

/-- Put an own frame, tagged as for the own channel, on every crosslink that is UP, past the weir of its port (R18, R19, R320). -/
def sendX (s : State) (f : Frame) : State :=
  let g := s.tagged (b2n s.pins.strapChan) f
  s.xlinks.foldl (fun s n => s.transmit n s.clock.phase false false g) s

/-- The DYNAMIC frame of this node for a stream, numbered. -/
def makeDyn (s : State) (stream dest dkind sel prio : Nat) (data : List Byte) (life : Nat) : Frame × State :=
  let (seq, s) := s.nextSeq stream
  (⟨.dynamic, s.header 0 stream 0 seq, .dyn ⟨dest, dkind, life, sel, prio, data⟩, 0, 0⟩, s)

/-- Queue a frame of this node on the ports where it is due, tagged for each (R149, R173); a node without a position originates none
(R568). -/
def queueOwn (s : State) (f : Frame) (dest : Nat) (own : Option (Nat × Nat × Nat)) : State :=
  if s.ownPos == 0 then s
  else (s.duePorts dest).foldl (fun s n =>
    (s.modPort n fun p => { p with queue := p.queue ++ [⟨s.tagged n f, own, none⟩] }).poolLate n) s

/-- Originate a DYNAMIC frame. In a pair the leader hands it off on the crosslinks too (Table 13-2). -/
def originate (s : State) (stream dest dkind sel prio : Nat) (data : List Byte) (own : Option (Nat × Nat × Nat)) : Nat × State :=
  let (f, s) := s.makeDyn stream dest dkind sel prio data (s.lifeOf stream)
  let s := s.queueOwn f dest own
  let s := if s.paired && s.isLeader then s.sendX f else s
  (f.hdr.seqGen, s)

/-- A pair message on stream 3 over both crosslinks (R320, R321): its bytes from byte 8 of the payload. -/
def pairSend (s : State) (sel : Nat) (data : List Byte) : State :=
  s.sendX ⟨.dynamic, s.header 0 3 0 0, .dyn ⟨s.ownPos, 2, 1, sel, 0, data⟩, 0, 0⟩

/-- The witness message about an adjacent position (R331, Table 13-8), from byte 8. -/
def witnessBody (s : State) (p : Nat) : List Byte :=
  let seen (b : Bool) : Bool := s.red.seen1.contains (p, b)
  let known (b : Bool) : Bool := !s.paired || b == s.pins.strapChan || !s.xlinks.isEmpty
  let home (b : Bool) : Option (Bool × Nat) := (s.red.homes.find? fun x => x.1 == p && x.2.1 == b).map fun x => x.2.2
  let claim (b : Bool) : Bool := ((home b).map fun x => x.1).getD false
  let epoch (b : Bool) : Nat := ((home b).map fun x => x.2).getD 0
  beBytes 1 p ++ beBytes 1 (b2n (seen false) + 2 * b2n (seen true) + 4 * b2n (known false) + 8 * b2n (known true)) ++
  beBytes 1 (b2n (claim false) + 2 * b2n (claim true)) ++ beBytes 1 0 ++ beBytes 2 (epoch false) ++ beBytes 2 (epoch true) ++
  beBytes 8 0

/-- The witness messages of a turn, to each adjacent position, from a single node or the leader (R331). -/
def sendWitness (s : State) : State :=
  if s.ownPos == 0 || !(s.lstate == 4 || s.lstate == 5) || (s.paired && !s.isLeader) then s
  else ([s.ownPos - 1, s.ownPos + 1].filter fun p => 1 ≤ p && p ≤ s.get Reg.INAUG_POS_N).foldl (fun s p =>
    (s.originate 3 p 2 0x0310 0 (s.witnessBody p) none).2) s

/-- The dynamic segment of one link direction (R166). -/
def dynSegment (s : State) (n : Nat) : State :=
  let m := s.prof.mini
  let dynEnd := s.get Reg.LINE_DYN_END_NS * 10
  let t0 := s.get Reg.LINE_DYN_START_NS * 10
  let s := s.sendHop n (tenths t0)
  let t := t0 + roundUp (wireTime (s.rate n) 64) m
  if s.isXlink n || !s.nbrPort n || !s.following then s.modPort n fun p => { p with poolAt := some t }
  else
    let ids := (List.range 256).filter fun id => id != 0 && s.streamOn id
    let (t, s) := ids.foldl (fun (x : Nat × State) id =>
      let (t, s) := x
      let budget := if id ≤ 4 then 4096 else 64 * s.get Reg.LINE_STREAM_m_BUDGET [id]
      let (d, s) := burst n id t dynEnd (s.port n).queue.length budget 0 s
      (t + (if d == 0 then m else roundUp d m), s)) (t, s)
    let s := servePool n dynEnd (s.port n).queue.length t s
    s.when (s.poolStalled n) fun s => s.inc Reg.LPn_HOP_STALL_SLOTS [n]

/-- A DYNAMIC frame has reached its lifetime (R172). -/
def lifeOver (s : State) (f : Frame) : Bool := match f.payload with
  | .dyn d => (s.turn32 + 2 ^ 32 - f.hdr.turn) % 2 ^ 32 ≥ d.life
  | _ => false

/-- Discard the frames of the receive holds that have reached their lifetime (R403): record 0x3A06 for each. -/
def expireHolds (s : State) : State :=
  s.host.queues.foldl (fun s x =>
    let t := x.1 / 16
    let q := x.1 % 16
    let gone := x.2.hold.filter s.lifeOver
    let s := if gone.isEmpty then s else s.modQueue t q fun y => { y with hold := x.2.hold.filter fun f => !s.lifeOver f }
    gone.foldl (fun s f => (s.inc Reg.TN_RXDROP_FRAMES [t]).recordS 0x3A06 2 2 (t + 256 * q) f.hdr.sender) s) s

/-- Waiting frames that have reached their lifetime are discarded (R462, R172). -/
def expireHeld (s : State) : State :=
  let dead : LineHeld → Bool := fun h => s.clock.turn ≥ h.turn + s.lifeOf h.stream
  let gone := s.con.lineHeld.filter dead
  let s := s.modCon fun c => { c with lineHeld := c.lineHeld.filter fun h => !dead h }
  gone.foldl (fun s h => s.recordS 0x3203 2 3 h.stream s.ownPos) s

/-- Discard the frames of a port that have reached their lifetime (R172, R400): record 0x3203 for each. -/
def expireQueue (s : State) (n : Nat) : State :=
  let dead : QFrame → Bool := fun q => s.lifeOver q.frame
  let gone := (s.port n).queue.filter dead
  let (owners, s) := s.dropQueued n dead
  let s := gone.foldl (fun s q =>
    (s.freeHeld q.src (classOf (streamOf q.frame) (prioOf q.frame)) (blocksOf q.frame.payload.len)).recordS 0x3203 2 3
      (streamOf q.frame) q.frame.hdr.sender) s
  owners.foldl (fun s d => s.complete d.1 d.2.1 d.2.2 1 0 0) s

/-- A DYNAMIC frame of this node goes to the line: originated here, or, from a follower with a crosslink, passed to the
leader unnumbered (R401, R460). Answers the frame's SEQ_GEN when it was numbered here. -/
def lineOut (s : State) (stream dest dkind sel prio : Nat) (data : List Byte) (own : Option (Nat × Nat × Nat)) : Option Nat × State :=
  if s.paired && s.isFollower && !s.xlinks.isEmpty then
    let f : Frame := ⟨.dynamic, s.header 0 stream 0 0, .dyn ⟨dest, dkind, s.lifeOf stream, sel, prio, data⟩, 0, 0⟩
    (none, s.sendX f)
  else
    let (q, s) := s.originate stream dest dkind sel prio data own
    (some q, s)

/-! Relay frames (R153) -/

/-- Kind of a relay frame by its slot (Table 7-2). -/
def relayKind (slot : Nat) : Kind := if slot == 1 then .confirm else if slot == 2 then .claim else if slot == 3 then .static else .directory

/-- Originate a relay frame in a slot on port n, at the node's own time (R148, R153). -/
def originateRelay (s : State) (n slot : Nat) (mid : Bool) (corr : Int) (body : RelayWord → Payload) : State :=
  let s := s.withSalt
  let h := s.txH n
  let w : RelayWord := ⟨h, mid, false, s.ownPos, s.lineUid % 2 ^ 32⟩
  let f : Frame := ⟨relayKind slot, s.header (if slot == 3 then 32 * b2n s.paired + 2 * b2n (s.on Reg.GLOBAL_STAT_FW_RESTART) else 0) slot corr (s.get Reg.CFG_VER_ACTIVE_VER), body w, 0, 0⟩
  let start : Int := (tenths (s.schedT slot h) : Int) + corr * 2 ^ 16
  s.transmit n start.toNat false false (s.tagged n f)

end State

/-- A HOP frame may start now between dynamic slots (R167, R174): nothing of the segment is on its way on the port, and it ends in time. -/
def State.inGap (s : State) (n : Nat) : Bool :=
  match (s.port n).poolAt with
  | none => false
  | some t => t ≤ s.nowTenths && s.nowTenths + wireTime (s.rate n) 64 ≤ s.get Reg.LINE_DYN_END_NS * 10

/-- HOP_EXTRA_SEND (R174): the freed buffer has reached a quarter of the share; at most 7 of them in a turn. -/
def execHopExtraSend (n : Fin 4) (s : State) : Result :=
  let share := (List.range 10).foldl (fun a c => a + Config.hopShare c) 0
  .next (if s.alive && s.ticking && s.pst n.val == 4 && 4 * (s.port n.val).freed ≥ share && (s.port n.val).extra < 7 && s.inGap n.val then
    (s.modPort n.val fun p => { p with extra := p.extra + 1, poolAt := some (s.nowTenths + wireTime (s.rate n.val) 64) }).sendHop n.val s.clock.phase
  else s)

/-- HOP_PERIODIC_SEND (R174): in IDENTIFY, or without a tick, every 1 ms. -/
def execHopPeriodicSend (n : Fin 4) (s : State) : Result :=
  .next (if s.alive && (s.pst n.val == 3 || (!s.ticking && (s.pst n.val == 4 || s.pst n.val == 5))) &&
      ((s.port n.val).hopAt.all fun t => s.since t 1000000) then
    (s.modPort n.val fun p => { p with hopAt := some s.clock.up }).sendHop n.val s.clock.phase else s)

/-- DYNAMIC_SEGMENT (R166, R331): the witness messages of the turn, then every link direction of the node in one turn. -/
def execDynamicSegment (s : State) : Result :=
  .next (if s.alive && s.ticking && s.todo .dynamic then
    (List.range 4).foldl (fun s n => if s.pst n == 4 || s.pst n == 5 then s.dynSegment n else s) (s.did s.clock.turn .dynamic).sendWitness else s)

/-- DYNAMIC_LIFETIME_EXPIRY (R172, R403, R462): frames that have waited to their lifetime on a port, for the receive queues, and from
the bridge for the line. -/
def execDynamicLifetimeExpiry (n : Fin 4) (s : State) : Result :=
  .next (if s.alive then (s.expireQueue n.val).expireHolds.expireHeld else s)

end Sys2Proof.Machine
end

