-- ==== Sys2Proof/Machine/ConOps.lean ====
section
/-!
DEFINITION. The consist bridge (R452 to R462): VLANs, the filtering database, egress on consist ports, host ports and the
line port.
-/

namespace Sys2Proof.Machine

/-- Bytes of an untagged frame without FCS. -/
def EthFrame.bytes (f : EthFrame) : List Byte := beBytes 6 f.dst ++ beBytes 6 f.src ++ beBytes 2 f.etype ++ f.data

/-- Length of a frame with its FCS. -/
def EthFrame.len (f : EthFrame) : Nat := 18 + (if f.tagged then 4 else 0) + f.data.length

/-- Bytes of a frame with its tag, where it carries one. -/
def EthFrame.wire (f : EthFrame) : List Byte :=
  if f.tagged then
    beBytes 6 f.dst ++ beBytes 6 f.src ++ beBytes 2 0x8100 ++ beBytes 2 (f.pcp * 8192 + f.vid) ++ beBytes 2 f.etype ++ f.data
  else f.bytes

/-- An untagged frame from its bytes. -/
def ethOf (l : List Byte) : EthFrame := ⟨beAt l 0 6, beAt l 6 6, 0, 0, false, beAt l 12 2, l.drop 14, true⟩

/-- A frame from bytes that may carry one IEEE 802.1Q tag. -/
def ethTagged (l : List Byte) : EthFrame :=
  if beAt l 12 2 == 0x8100 then
    let t := beAt l 14 2
    ⟨beAt l 0 6, beAt l 6 6, t % 4096, t / 8192, true, beAt l 16 2, l.drop 18, true⟩
  else ethOf l

/-- A multicast or broadcast address. -/
def isGroup (mac : Nat) : Bool := bit mac 40

namespace State

/-- Power domain of a consist port (Table 17-1). -/
def cpDomain (n : Nat) : Nat := if n < 8 then 6 else 7

/-- A consist port is UP. -/
def cpUp (s : State) (n : Nat) : Bool := s.get Reg.CPn_STAT_STATE [n] == 2

/-- Consist port n takes part in gPTP: not S0 and S1 (R207). -/
def gptpOn (s : State) (n : Nat) : Bool := (n < 8 || n ≥ 10) && s.cpUp n && s.on Reg.CPn_CTL_GPTP [n]

/-- MAC address of the transmitting device (R464). -/
def pdMac (s : State) : Nat := 2 * 2 ^ 40 + s.uid % 2 ^ 40

/-- The enabled VLAN entry of a VID. -/
def vlanOf (s : State) (vid : Nat) : Option Nat :=
  (List.range 64).find? fun v => s.on Reg.CON_VLAN_Av_EN [v] && s.get Reg.CON_VLAN_Av_VID [v] == vid

/-- A consist port is a member of a VLAN entry. -/
def member (s : State) (v n : Nat) : Bool := bit (s.get Reg.CON_VLAN_Av_MEMBER [v]) n

/-- Learn a source address (R453, R459). -/
def learn (s : State) (mac vid : Nat) (p : BridgePort) : State :=
  if isGroup mac then s
  else s.modCon fun c => { c with
    fdb := (⟨mac, vid, p, s.clock.up⟩ :: c.fdb.filter fun e => !(e.mac == mac && e.vid == vid)).take 4096 }

/-- What the filtering database holds for a destination. -/
def lookup (s : State) (mac vid : Nat) : Option BridgePort :=
  (s.con.fdb.find? fun e => e.mac == mac && e.vid == vid).map fun e => e.port

/-! Egress (R24, R453, R456) -/

/-- Bytes in use of an egress queue. -/
def egUsed (s : State) (n : Nat) : Nat := (s.con.egress.filter fun f => f.port == n).foldl (fun a f => a + f.frame.len) 0

/-- A frame takes its place in its egress queue of 64 KiB, or waits in the fabric while that is full. -/
def cpQueue (s : State) (f : EgFrame) : State :=
  if !(s.con.fabric.any fun g => g.port == f.port) && s.egUsed f.port + f.frame.len ≤ 65536 then
    s.modCon fun c => { c with egress := c.egress ++ [f] }
  else s.modCon fun c => { c with fabric := c.fabric ++ [f] }

/-- Frames in the fabric move on into egress queues that have space again, in their order. -/
def fabricMove (s : State) : State :=
  s.con.fabric.foldl cpQueue (s.modCon fun c => { c with fabric := [] })

/-- Send a frame out of a consist port, or count it while the port is not UP (R455, R456). `src`, `own`: as EgFrame says. -/
def cpSend (s : State) (src : Option Nat) (own : Option (Nat × Nat × Nat)) (n v vid prio : Nat) (f : EthFrame) : State :=
  if s.cpUp n then
    let g : EthFrame := if bit (s.get Reg.CON_VLAN_Bv_UNTAG [v]) n then { f with tagged := false, vid := 0, pcp := 0 }
      else { f with tagged := true, vid := vid, pcp := prio }
    s.cpQueue ⟨src, n, prio, own, g⟩
  else s.inc Reg.CPn_CNT_A_DOWN [n]

/-- The CONSIST_SEND that a frame serves completes (R404). -/
def sendDone (s : State) (f : EgFrame) (status : Nat) : State :=
  match f.own with
  | some (t, q, i) => s.complete t q i status 0 0
  | none => s

/-- A consist port sends the oldest frame of its highest class (R453). -/
def cpServe (s : State) (n : Nat) : State :=
  let l := s.con.egress.filter fun f => f.port == n
  let top := l.foldl (fun a f => max a f.cls) 0
  match l.find? fun f => f.cls == top with
  | none => s
  | some f => ((s.modCon fun c => { c with egress := c.egress.erase f }).emit (.eth n f.frame)).sendDone f 0

/-! Host ports (R405, R461) -/

/-- Fill the oldest posted consist receive buffers from the frames that wait (R405). -/
def fillConsist (s : State) (t q : Nat) : Nat → State
  | 0 => s
  | fuel + 1 =>
    match (s.con.held.find? fun h => h.tenant == t && h.queue == q),
        ((s.queue t q).works.find? fun w => w.desc.opcode == 4 && w.started && w.result.isNone) with
    | some h, some w =>
      let s := s.modCon fun c => { c with held := c.held.erase h }
      let cut := h.data.length > w.desc.len
      let s := s.memWrite t w.desc.buf (h.data.take w.desc.len)
      let s := s.completeC t q w.idx (if cut then 8 else 0) (b2n cut) (min h.data.length w.desc.len)
        (h.port + 16 * h.vid + 2 ^ 32 * (h.time % 2 ^ 32))
      fillConsist s t q fuel
    | _, _ => s

/-- Hand a frame to a tenant's consist receive queue; it waits until a buffer of an enabled one takes it (R405). -/
def toHost (s : State) (t ingress vidIn time : Nat) (f : EthFrame) : State :=
  let q := s.get Reg.CT_CTL_QUEUE [t]
  let s := s.modCon fun c => { c with held := c.held ++ [⟨t, q, ingress, vidIn, time, f.wire⟩] }
  if s.running t q && (s.queue t q).kind && (s.queue t q).rxConsist then s.fillConsist t q 64 else s

/-- The host port of a tenant takes this frame (R461). -/
def hostTakes (s : State) (t vid dst : Nat) : Bool :=
  s.on Reg.TN_RIGHTS_CONSIST [t] && s.on Reg.CT_CTL_EN [t] && s.get Reg.CT_CTL_VID [t] == vid &&
  (if isGroup dst then s.on Reg.CT_CTL_BCAST [t]
   else dst == s.get Reg.CT_MAC_LO_MAC [t] + 2 ^ 32 * s.get Reg.CT_MAC_HI_MAC [t])

/-! The line port (R457, R462) -/

/-- Bytes of frames that wait for the line in one stream. -/
def heldBytes (s : State) (stream : Nat) : Nat :=
  (s.con.lineHeld.filter fun h => h.stream == stream).foldl (fun a h => a + h.data.length) 0

/-- A bridged frame goes to the line (R457, R460, R462). It waits too while the node holds no position in a directory and so cannot
address a frame: R25 names no discard for that (log 96). -/
def bridgeToLine (s : State) (v vid prio ingress : Nat) (tagged : Bool) (time dest : Nat) (f : EthFrame) : State :=
  let stream := s.get Reg.CON_VLAN_Bv_LINE [v]
  let b := f.bytes
  let data := beBytes 2 b.length ++ beBytes 1 (ingress + 16 * b2n tagged) ++ beBytes 1 0 ++ beBytes 4 time ++ b
  let sel := 15 + 16 * vid
  if s.standing || s.ownPos == 0 then
    if s.heldBytes stream + data.length > 65536 then s
    else s.modCon fun c => { c with lineHeld := c.lineHeld ++ [⟨stream, dest, sel, prio, s.clock.turn, data⟩] }
  else (s.lineOut stream dest 0 sel prio data none).2.inc Reg.CON_LINE_CNT_OUT

/-- Frames that waited while the line stood still leave for it (R462). -/
def releaseHeld (s : State) : State :=
  let l := s.con.lineHeld
  let s := s.modCon fun c => { c with lineHeld := [] }
  l.foldl (fun s h => (s.lineOut h.stream h.dest 0 h.sel h.prio h.data none).2.inc Reg.CON_LINE_CNT_OUT) s

/-- Forward an admitted frame, given as it arrived (R455). `from_`: the bridge port it entered at; `ingress`: its code (R404);
`v`, `vid`, `prio`: its VLAN entry, VID and priority (R454). -/
def bridge (s : State) (from_ : BridgePort) (ingress v vid prio : Nat) (time : Nat) (f : EthFrame) : State :=
  let isLine : Bool := match from_ with
    | .line _ => true
    | _ => false
  let self (n : Nat) : Bool := from_ == .con n
  let src : Option Nat := match from_ with
    | .con n => some n
    | _ => none
  let hosts (s : State) : State := (List.range 17).foldl (fun s t =>
    if s.hostTakes t vid f.dst && from_ != .host t then s.toHost t ingress f.vid time f else s) s
  let carried := s.get Reg.CON_VLAN_Bv_LINE [v] != 0 && !isLine
  let known := if isGroup f.dst then none else s.lookup f.dst vid
  let s := s.learn f.src vid from_
  match known with
  | some (.con n) => if self n || !s.member v n then hosts s else (hosts s).cpSend src none n v vid prio f
  | some (.host _) => hosts s
  | some .engine => hosts s
  | some (.line pos) => if carried then (hosts s).bridgeToLine v vid prio ingress f.tagged time pos f else hosts s
  | none =>
    let s := (List.range 12).foldl (fun s n => if s.member v n && !self n then s.cpSend src none n v vid prio f else s) s
    let s := hosts s
    if carried then s.bridgeToLine v vid prio ingress f.tagged time 0xFFFF f else s

/-- A DKIND 0 frame delivered locally enters the bridge at the line port (R459, R460). -/
def fromLine (s : State) (sender prio sel : Nat) (data : List Byte) : State :=
  if s.paired && !s.isLeader then s
  else
    let vid := sel / 16 % 4096
    let n := sel % 16
    let f := ethOf ((data.drop 8).take (beAt data 0 2))
    let time := beAt data 4 4
    let s := s.inc Reg.CON_LINE_CNT_IN
    match s.vlanOf vid with
    | none => s
    | some v =>
      if n < 12 then
        let s := s.learn f.src vid (.line sender)
        if s.member v n then s.cpSend none none n v vid prio f else s
      else s.bridge (.line sender) 15 v vid prio time f

/-! Ingress (R454, R456) -/

/-- An admitted frame of consist port n is forwarded: `v`: its VLAN entry. -/
def ingest (s : State) (n time v vid prio : Nat) (f : EthFrame) : State := s.bridge (.con n) n v vid prio time f

/-- VID and priority of a frame that arrives on a consist port (R454). -/
def cpVid (s : State) (n : Nat) (f : EthFrame) : Nat := if f.tagged && f.vid != 0 then f.vid else s.get Reg.CPn_CTL_PVID [n]
def cpPrio (s : State) (n : Nat) (f : EthFrame) : Nat := if f.tagged then f.pcp else s.get Reg.CPn_CTL_PRIO [n]

/-- Frames of a consist port that still wait: behind one in the fabric, or for a host's buffer (R405, R456). -/
def ingressBytes (s : State) (n : Nat) : Nat :=
  (s.con.ingress.filter fun x => x.1 == n).foldl (fun a x => a + x.2.2.len) 0 +
  (s.con.held.filter fun h => h.port == n).foldl (fun a h => a + h.data.length) 0

/-- The fabric holds a frame of this consist port, so that the frames behind it wait. -/
def ingressBlocked (s : State) (n : Nat) : Bool := s.con.fabric.any fun f => f.src == some n

/-- Frames in the ingress queues follow once nothing of their port waits in the fabric; a frame whose VLAN entry has gone since is
counted as not admitted. -/
def ingressMove (s : State) : Nat → State
  | 0 => s
  | k + 1 =>
    match s.con.ingress.find? fun x => !s.ingressBlocked x.1 with
    | none => s
    | some x =>
      let s := s.modCon fun c => { c with ingress := c.ingress.erase x }
      let vid := s.cpVid x.1 x.2.2
      match s.vlanOf vid with
      | none => ingressMove (s.inc Reg.CPn_CNT_B_FILTER [x.1]) k
      | some v => ingressMove (s.ingest x.1 x.2.1 v vid (s.cpPrio x.1 x.2.2) x.2.2) k

/-- The consist ports send, each one frame, and what waited behind full queues follows (log 96). -/
def consistStep (s : State) : State :=
  let s := ((List.range 12).foldl (fun s n => if s.cpUp n then s.cpServe n else s) s).fabricMove
  s.ingressMove s.con.ingress.length

/-- Credit for the consist egress or the fabric returns (R24). -/
def consistCredit (s : State) : State :=
  let s := s.fabricMove
  s.ingressMove s.con.ingress.length

end State

end Sys2Proof.Machine
end

