-- ==== Sys2Proof/Machine/LinePorts.lean ====
section
/-!
DEFINITION. Line ports and crosslinks (06_line_ports_and_deployments.md): bringing a link up, losing it, and the
commands PROBE_LISTEN_END to LINK_LOSS of the opcode table.
-/

namespace Sys2Proof.Machine

namespace State

/-- A rate code is enabled in LPn_CTL.MODES (Table 6-2: [4] 10 Gbit/s to [7] 1 Gbit/s). -/
def modeOn (s : State) (n r : Nat) : Bool := 1 ≤ r && r ≤ 4 && bit (s.get Reg.LPn_CTL_MODES [n]) (4 - r)

/-- The fastest enabled rate code, 0 if none (R126). -/
def fastest (s : State) (n : Nat) : Nat :=
  if s.modeOn n 4 then 4 else if s.modeOn n 3 then 3 else if s.modeOn n 2 then 2 else if s.modeOn n 1 then 1 else 0

/-- The next slower enabled rate below r; from the slowest one the ceiling returns to the fastest (R125). -/
def slower (s : State) (n r : Nat) : Nat :=
  if r > 3 && s.modeOn n 3 then 3 else if r > 2 && s.modeOn n 2 then 2 else if r > 1 && s.modeOn n 1 then 1 else s.fastest n

/-- Enter PROBE's listen phase with a cycle number (R123). -/
def probe (s : State) (n k : Nat) : State :=
  (s.portTo n 1).modPort n fun p => { p with master := false, k := k }

/-- A training signal is seen in PROBE (R126). -/
def heardSignal (s : State) (n : Nat) : State := s.modPort n fun p => { p with quiet := s.clock.up }

/-- The fastest enabled rate becomes a line port's ceiling (R126); a crosslink port's never changes (R136). -/
def freshCeil (s : State) (n : Nat) : State :=
  if s.isXlink n then s else s.set Reg.LPn_STAT_CEIL [n] (s.fastest n)

/-- Enter TRAINING at a rate, as master (1) or slave (2) (R124, R136). -/
def train (s : State) (n rate role : Nat) : State :=
  ((s.portTo n 2).set Reg.LPn_STAT_ROLE [n] role).modPort n fun p => { p with tryRate := rate }

/-- A crosslink port trains: device X is master, device Y slave (R136). -/
def trainXlink (s : State) (n : Nat) : State := s.train n 4 (if s.pins.strapChan then 2 else 1)

/-- The port's power domain is on (PD4 for end 1, PD5 for end 2). -/
def portPower (s : State) (n : Nat) : Bool := s.domainOn (4 + n / 2)

/-- A port in DISABLED starts when its conditions hold (Table 6-3, R136, R138). -/
def startPort (s : State) (n : Nat) : State :=
  let xl := s.isXlink n
  let s := s.flag Reg.LPn_STAT_XL [n] xl
  if s.pst n == 0 && s.on Reg.LPn_CTL_EN [n] && s.portPower n && s.lstate != 0 &&
      (xl || !s.on Reg.LINE_DEPLOY_PAIR_FAULT) then
    if xl then s.trainXlink n else s.probe n 0
  else s

/-- A port enters DISABLED: EN written 0, its domain switched off, or for a line port a pairing fault (R127, R138, R604). -/
def stopPort (s : State) (n : Nat) : State :=
  if s.pst n == 0 then s
  else
    let (gone, s) := (s.portTo n 0).dropQueued n fun _ => true
    gone.foldl (fun s d => s.complete d.1 d.2.1 d.2.2 1 0 0) s

/-- Start or stop every port as its conditions now ask. -/
def settlePorts (s : State) : State :=
  (List.range 4).foldl (fun s n =>
    if s.on Reg.LPn_CTL_EN [n] && s.portPower n && (s.isXlink n || !s.on Reg.LINE_DEPLOY_PAIR_FAULT)
    then s.startPort n else s.stopPort n) s

/-- Length of the listen phase of cycle k, in ns (R123). -/
def listenNs (s : State) (n : Nat) : Nat :=
  20000000 + 2000000 * bits s.uid (4 * ((s.port n).k % 16) + 3) (4 * ((s.port n).k % 16))

/-- A failed training (R125, R136). The next slower rate is counted from the failed one, for the slave as for the master (log 89). -/
def trainFail (s : State) (n : Nat) : State :=
  let s := s.inc Reg.LPn_CNT_TRAIN_FAIL [n]
  if s.isXlink n then s.trainXlink n
  else
    let failed := (s.port n).tryRate
    let ceil := s.slower n failed
    let s := s.set Reg.LPn_STAT_CEIL [n] ceil
    let s := s.record 0x3103 2 3 n (failed + 256 * ceil)
    s.probe n ((s.port n).k + 1)

/-- The link's PHY is lost (R127, R136, R638). -/
def linkLoss (s : State) (n : Nat) : State := if s.isXlink n then s.trainXlink n else s.probe n 0

/-- A write of 1 to LPn_CTL.RETRY (R126): the ceiling is the fastest rate again, and the port leaves its state, unless DISABLED. A
crosslink takes no part in PROBE and trains again (R136). -/
def lpRetry (s : State) (n : Nat) : State :=
  let s := s.freshCeil n
  if s.pst n == 0 then s else s.linkLoss n

end State

/-- PROBE_LISTEN_END (R123): L_k has passed, and the port sends its ceiling rate as master. -/
def execProbeListenEnd (n : Fin 4) (s : State) : Result :=
  .next (if s.alive && s.pst n.val == 1 && !(s.port n.val).master && s.since (s.port n.val).since (s.listenNs n.val) then
    s.modPort n.val fun p => { p with master := true, since := s.clock.up } else s)

/-- PROBE_MASTER_END (R123): 100 ms without response; back to listening with k + 1. -/
def execProbeMasterEnd (n : Fin 4) (s : State) : Result :=
  .next (if s.alive && s.pst n.val == 1 && (s.port n.val).master && s.since (s.port n.val).since 100000000 then
    s.probe n.val ((s.port n.val).k + 1) else s)

/-- TRAINING_SIGNAL_DETECT (R124): a listening port trains as slave at an enabled rate not above its ceiling. -/
def execTrainingSignalDetect (n : Fin 4) (rate : Fin 5) (s : State) : Result :=
  .next (if s.alive && s.pst n.val == 1 && !(s.port n.val).master then
    let s := s.heardSignal n.val
    if s.modeOn n.val rate.val && rate.val ≤ s.get Reg.LPn_STAT_CEIL [n.val] then s.train n.val rate.val 2 else s
  else s)

/-- SLAVE_RESPONSE (R124): the master trains at its ceiling rate. -/
def execSlaveResponse (n : Fin 4) (s : State) : Result :=
  .next (if s.alive && s.pst n.val == 1 && (s.port n.val).master then
    (s.heardSignal n.val).train n.val (s.get Reg.LPn_STAT_CEIL [n.val]) 1 else s)

/-- TRAINING_FAIL (R125): no link up within 200 ms. -/
def execTrainingFail (n : Fin 4) (s : State) : Result :=
  .next (if s.alive && s.pst n.val == 2 && s.since (s.port n.val).since 200000000 then s.trainFail n.val else s)

/-- PHY_LINK_UP (R127): IDENTIFY at the trained rate, with the PHY's signal quality. -/
def execPhyLinkUp (n : Fin 4) (sqi : Fin 8) (s : State) : Result :=
  .next (if s.alive && s.pst n.val == 2 then
    ((s.set Reg.LPn_STAT_RATE [n.val] (s.port n.val).tryRate).set Reg.LPn_STAT_SQI [n.val] sqi.val).portTo n.val 3
  else s)

/-- IDENTIFY_TIMEOUT (R127): no identity within 10 ms. -/
def execIdentifyTimeout (n : Fin 4) (s : State) : Result :=
  .next (if s.alive && s.pst n.val == 3 && s.since (s.port n.val).since 10000000 then s.linkLoss n.val else s)

/-- PROBE_CEILING_RESET (R126): 1 s in PROBE without any training signal. -/
def execProbeCeilingReset (n : Fin 4) (s : State) : Result :=
  .next (if s.alive && s.pst n.val == 1 && s.since (s.port n.val).quiet 1000000000 then s.freshCeil n.val else s)

/-- LP_RETRY (R126, R638): a write of 1 to LPn_CTL.RETRY. -/
def execLpRetry (n : Fin 4) (s : State) : Result := .next (if s.alive then s.lpRetry n.val else s)

/-- LINK_LOSS (R638): 2 ms without link in UP or HELD. -/
def execLinkLoss (n : Fin 4) (s : State) : Result :=
  .next (if s.alive && (s.pst n.val == 4 || s.pst n.val == 5) then s.linkLoss n.val else s)

end Sys2Proof.Machine
end

