-- ==== Sys2Proof/Machine/MillOps.lean ====
section
/-!
DEFINITION. The millpond's store (R313 to R316, R346 to R350): which copy of a slot is kept, and its cells.
-/

namespace Sys2Proof.Machine

/-- Rank of a static copy (Table 13-1). -/
def copyRank (flags : Nat) : Nat := if bit flags 6 then 3 else if bit flags 7 then 1 else 2

/-- a is higher than b in serial arithmetic modulo 2^16 (R314). -/
def serialHigher (a b : Nat) : Bool :=
  let d := (a + 65536 - b % 65536) % 65536
  1 ≤ d && d ≤ 32767

/-- A copy ranks strictly higher than another (R315). -/
def outranks (r e r' e' : Nat) : Bool := r < r' || (r == 1 && r' == 1 && serialHigher e e')

/-- A copy's parcels without what legitimately differs between the devices of a pair (R316). -/
def comparable (ps : List Parcel) : List Parcel :=
  ps.map fun p => if p.func == 0xFF01 then
    { p with data := p.data.zipIdx.map fun x => if x.2 == 1 then x.1 &&& 0xFD else if 4 ≤ x.2 then 0 else x.1 } else p

namespace State

/-- The line UID at a position of the directory in force, 0 if none. -/
def uidAt (s : State) (pos : Nat) : Nat :=
  match s.inaug.dir with
  | none => 0
  | some d => ((d.nodes.find? fun x => x.pos == pos).map fun x => x.entry.luid).getD 0

/-- Store a copy of a slot's parcels in the cells of a sender (R346): its FILL buffers. -/
def fillCells (s : State) (uid : Nat) (ps : List Parcel) (rank : Nat) : State :=
  s.modMill fun m => { m with cells := m.cells.map fun c =>
    if c.uid == uid then
      (match (ps.find? fun p => p.func == c.func) with
        | some p => { c with fill := some (p, rank) }
        | none => c)
    else c }

/-- Empty the FILL buffers that an outranked copy had filled. -/
def unfillCells (s : State) (uid : Nat) (ps : List Parcel) : State :=
  s.modMill fun m => { m with cells := m.cells.map fun c =>
    if c.uid == uid && (ps.any fun p => p.func == c.func) then { c with fill := none } else c }

/-- The sender's SEQ_GEN and heartbeat (R157, R164). -/
def noteHeartbeat (s : State) (pos seqGen : Nat) (ps : List Parcel) : State :=
  let old := (s.inaug.latest.find? fun x => x.1 == pos).getD (pos, 0, 0, 0)
  let (ls, un) := match (ps.find? fun p => p.func == 0xFF01) with
    | some p => ((p.data.getD 0 0).toNat % 16, beAt p.data 2 2)
    | none => (old.2.2.1, old.2.2.2)
  s.modInaug fun i => { i with latest := (pos, seqGen, ls, un) :: i.latest.filter fun x => x.1 != pos }

/-- Store a valid copy of a slot (R315, R316), unless job 1 has not armed the slot (Table 4-4). -/
def storeCopy (s : State) (slot : Nat) (f : Frame) (ps : List Parcel) : State :=
  let pos := f.hdr.sender
  let uid := s.uidAt pos
  let r := copyRank f.hdr.flags
  if !s.slotArmed slot then s
  else match (s.mill.stored.find? fun x => x.slot == slot) with
  | none =>
    let s := s.modMill fun m => { m with stored := ⟨slot, pos, r, f.hdr.epoch, ps, 1⟩ :: m.stored }
    (s.fillCells uid ps r).noteHeartbeat pos f.hdr.seqGen ps
  | some old =>
    let equal := old.rank == r && (r != 1 || old.epoch == f.hdr.epoch)
    let s := if s.on Reg.RED_CTL_COMPARE && equal && comparable old.parcels != comparable ps then
        let s := if pos == s.get Reg.RED_CMP_SEL_SENDER then s.inc Reg.RED_CMP_CNT_MISMATCH else s
        s.recordS 0x3809 3 3 pos slot
      else s
    let higher := outranks r f.hdr.epoch old.rank old.epoch
    let new : Stored := if higher then ⟨slot, pos, r, f.hdr.epoch, ps, old.copies + 1⟩ else { old with copies := old.copies + 1 }
    let s := s.modMill fun m => { m with stored := m.stored.map fun x => if x.slot == slot then new else x }
    if higher then ((s.unfillCells (s.uidAt old.sender) old.parcels).fillCells uid ps r).noteHeartbeat pos f.hdr.seqGen ps else s

/-- Job 2 of one turn (R347, R348, R366): FILL becomes READY, hold ages count. While the line stands still only the cells
of the own logical node are swapped. -/
def swapCells (s : State) : State :=
  let still := s.standing
  let own := s.uidAt s.ownPos
  let swap (c : Cell) : Cell :=
    match (if still && c.uid != own then none else c.fill) with
    | some (p, _) => { c with fill := none, ready := some p, age := 0, fresh := true }
    | none => { c with age := if c.ready.isSome then min 255 (c.age + 1) else c.age, fresh := false }
  s.modMill fun m => { m with cells := m.cells.map swap }

/-- The millpond at an adoption turn (R350): one cell per placed demand of a schedule. `uidOf` gives a node's line UID. -/
def rebuildCells (s : State) (sched : Schedule) (uidOf : Nat → Nat) : State :=
  let want := sched.placed.filterMap fun p =>
    let n := sched.list.getD p.node default
    if n.ghost then none else some (uidOf n.pos, p.demand.func, 2 ^ p.demand.period, p.demand.size)
  s.modMill fun m => { m with cells := want.map fun w =>
    match (m.cells.find? fun c => c.uid == w.1 && c.func == w.2.1) with
    | some c => { c with period := w.2.2.1, size := w.2.2.2, fill := none }
    | none => ⟨w.1, w.2.1, w.2.2.1, w.2.2.2, none, none, 0, false⟩ }

end State

end Sys2Proof.Machine
end

