-- ==== Sys2Proof/Machine/TimeOps.lean ====
section
/-!
DEFINITION. Node time: alignment to TAI (R205 to R209), anchors of the tally book (R535, R536), the advance of time, and
the arithmetic of synchronisation: delay samples (R183, R184), deviation (R187), midpoint (R190 to R193), offset and rate
corrections (R194 to R203).
-/

namespace Sys2Proof.Machine

/-- Insert into a list kept in order. -/
def insertBy {α : Type} (le : α → α → Bool) (x : α) : List α → List α
  | [] => [x]
  | y :: l => if le x y then x :: y :: l else y :: insertBy le x l

/-- Sort by insertion. -/
def sortBy {α : Type} (le : α → α → Bool) : List α → List α
  | [] => []
  | x :: l => insertBy le x (sortBy le l)

/-- Clamp a signed value. -/
def clampInt (lo hi x : Int) : Int := max lo (min hi x)

namespace State

/-! Anchors -/

/-- UTC is set (R535). -/
def utcOn (s : State) : Bool := s.get Reg.TIME_STAT_ORIGIN != 0 && s.on Reg.TALLY_UTC_VALID

/-- UTC in ns (R535). -/
def utcNs (s : State) : Int := (s.nowNs : Int) - (s.get Reg.TALLY_UTC_OFFSET * 1000000000 : Nat)

/-- Queue an anchor record with a cause (Table 20-5, R536). -/
def anchor (s : State) (cause : Nat) : State :=
  if s.utcOn then
    let u := s.utcNs
    let back : Bool := match s.tally.anchor with
      | some (o, v) => decide (u < v + ((s.clock.optime - o) * 10000000 : Nat))
      | none => false
    let s := s.enqueue 0x1001 1 0 (if back then 2 else 0) ((u / 1000000000) % (2 ^ 32 : Nat)).toNat
      (u % 1000000000).toNat (s.get Reg.TALLY_UTC_OFFSET + 2 ^ 16 * s.get Reg.TIME_STAT_ORIGIN + 2 ^ 24 * cause)
    s.modTally fun t => { t with anchor := some (s.clock.optime, u), utcSet := t.utcSet || cause == 0 }
  else s

/-- Align node time to a value in ns, with the origin it gives (R80, R209): slewed when within 1 µs, else a step. A step
passes no second: PPS_OUT next rises at the second after the one it leads into (log 85). -/
def alignTime (s : State) (ns origin : Nat) : State :=
  let diff : Int := (ns : Int) * (nsUnit : Nat) - (s.clock.ntime : Int)
  let s := s.set Reg.TIME_STAT_ORIGIN [] origin
  let lim : Int := (1000 * nsUnit : Nat)
  let s := if diff ≤ lim ∧ -lim ≤ diff then s.modSync fun y => { y with slew := diff }
    else ((s.modClock fun c => { c with ntime := ns % 2 ^ 64 * nsUnit }).modSync fun y => { y with slew := 0, ppsSec := ns % 2 ^ 64 / 1000000000 }).record
      0x3306 2 3 ((diff / (1000 * nsUnit : Nat)) % (2 ^ 32 : Nat)).toNat origin
  s.anchor 1

/-! The advance of time -/

/-- One CK_FAB cycle of node time: 2.5 ns × (1 + r), with r in units of 0.001 ppm (R78). -/
def fabCycle (s : State) : Nat :=
  let r := s.getInt Reg.NTIME_RATE_RATE
  ((5 * 2 ^ 31 * (1000000000 + r)) / 1000000000).toNat

/-- What a period d of the offset correction in progress brings: O_n is spread evenly over 8 µs (R194). -/
def nitShare (s : State) (d : Nat) : Int :=
  if s.sync.nitLeft ≤ d then s.sync.nit else s.sync.nit * (d : Int) / (s.sync.nitLeft : Int)

/-- What a period d of a slewed alignment brings: 50 ppm at most (R209). -/
def slewShare (s : State) (d : Nat) : Int := clampInt (-(d / 20000 : Nat)) (d / 20000 : Nat) s.sync.slew

/-- The period in which the turn phase advances by x, with the offset correction in progress (R194). -/
def periodOf (s : State) (x : Nat) : Nat :=
  let whole : Int := (s.sync.nitLeft : Int) + s.sync.nit
  if whole ≤ (x : Int) then ((x : Int) - s.sync.nit).toNat else (x * s.sync.nitLeft + whole.toNat - 1) / whole.toNat

/-- PPS_OUT falls at the end of its pulse, or with PPS_OUT_EN (R205). -/
def ppsSettle (s : State) : State :=
  if s.pins.ppsOut && (s.clock.up ≥ s.sync.ppsEnd || !s.on Reg.SYNC_CTL_PPS_OUT_EN) then s.modPins fun p => { p with ppsOut := false } else s

/-- A period d passes, in 2^-32 ns by the reference as r corrects it (R78). Node time and the turn phase advance by d and the offset
correction's share (R79, R194), node time also by that of a slewed alignment (R80, R209); it never decreases. The phases of the weirs
are counted against the node's and stay where they are (R75). -/
def pass (s : State) (d : Nat) : State :=
  let e := s.nitShare d
  let l := s.slewShare d
  let s := s.modClock fun c => { c with
    ntime := (((c.ntime : Int) + d + e + l) % (2 ^ 96 : Nat)).toNat, up := c.up + d
    pre := c.pre - d, phase := ((c.phase : Int) + (d - c.pre : Nat) + e).toNat }
  let s := s.modSync fun y => { y with nit := y.nit - e, nitLeft := y.nitLeft - d, slew := y.slew - l }
  ({ s with weirs := { s.weirs with w := s.weirs.w.map fun x => { x with offs := x.offs - e } } } : State).ppsSettle

/-- Time passes until the turn phase reaches x ns, if it has not yet. -/
def passTo (s : State) (x : Nat) : State :=
  if s.clock.phase < x * nsUnit || s.clock.pre != 0 then s.pass (s.clock.pre + s.periodOf (x * nsUnit - s.clock.phase)) else s

/-! Delay and deviation -/

/-- Take one delay sample of a port (R184). D_tol is that of the trained rate. After four rejections in a row D stays until the next
sample, which is accepted as the first. -/
def delaySample (s : State) (n : Nat) (d : Int) : State :=
  let p := s.port n
  let tol : Int := tenths (if s.rate n == 4 || s.rate n == 3 then 40 else if s.rate n == 2 then 80 else 160)
  let dev := d - s.delay n
  if p.samples.isEmpty || p.rejects ≥ 4 || (dev ≤ tol && -tol ≤ dev) then
    let s := s.modPort n fun q => { q with samples := (d :: (if q.rejects ≥ 4 then [] else q.samples)).take 8, rejects := 0 }
    let s := s.set Reg.LPn_DELAY_VALID [n] 1
    s.set Reg.LPn_DELAY_D [n] (max 0 (min 65535 (s.delay n * 10 / (nsUnit : Nat)))).toNat
  else
    (s.inc Reg.LPn_DELAY_OUTLIERS [n]).modPort n fun q => { q with rejects := q.rejects + 1 }

/-- D exceeds D_max: the line link enters HELD with reason 7 (R185), whatever else holds it. -/
def delayLimit (s : State) (n : Nat) : State :=
  let dmax : Int := (tenths s.prof.hop : Int) - tenths (54 * byteTime (s.rate n)) - tenths 200
  if !s.isXlink n && (s.pst n == 4 || (s.pst n == 5 && s.get Reg.LPn_STAT_HELD_WHY [n] != 7)) && s.on Reg.LPn_DELAY_VALID [n] && s.delay n > dmax then
    (s.hold n 7).record 0x3305 3 3 n (s.get Reg.LPn_DELAY_D [n])
  else s

/-- The condition of R185 at a change of layout. -/
def delayLimits (s : State) : State := (List.range 4).foldl (fun s n => s.delayLimit n) s

/-- The deviation Δ of a frame (R187): arrival phase, slot, h of the receiver, incoming port, CORR (2^-16 ns). -/
def deviation (s : State) (n : Nat) (phase : Nat) (slot h : Nat) (corr : Int) : Int :=
  (phase : Int) - ((tenths (s.schedT slot h) : Int) - tenths s.prof.hop + s.delay n + corr * 2 ^ 16)

/-- The half-width W of the acceptance window (R188, R197). -/
def window (s : State) : Int := if s.on Reg.SYNC_STAT_WIDE then tenths s.prof.guard else tenths s.prof.guard / 2

/-- The greatest |Δ| whose value is used: L/2 while widened, else W (R197). -/
def valueLimit (s : State) : Int := if s.on Reg.SYNC_STAT_WIDE then tenths s.prof.slotLen / 2 else s.window

/-- Within a bound on both sides. -/
def within (x b : Int) : Bool := x ≤ b && -b ≤ x

/-- Note a sender's value (R190, R192). -/
def noteSender (s : State) (pos uid dist : Nat) (d : Int) : State :=
  s.modSync fun y => { y with senders :=
    if (y.senders.any fun v => v.pos == pos && v.uid == uid) then
      (y.senders.map fun v => if v.pos == pos && v.uid == uid then
        { v with dist := min v.dist dist, deltas := v.deltas ++ [d] } else v)
    else y.senders ++ [⟨pos, uid, dist, [d]⟩] }

/-! The midpoint and the corrections -/

/-- The values of the turn: at most 16 nearest senders, each the mean of its Δ (R190 to R192). -/
def syncValues (s : State) : List Int :=
  let near := sortBy (fun (a b : SenderVal) =>
    a.dist < b.dist || (a.dist == b.dist && (a.pos < b.pos || (a.pos == b.pos && a.uid ≤ b.uid)))) s.sync.senders
  (near.take 16).map fun v => v.deltas.foldl (· + ·) 0 / (v.deltas.length : Int)

/-- The midpoint of R193. -/
def midpoint (vals : List Int) : Option Int :=
  let v := sortBy (fun a b => decide (a ≤ b)) vals
  let n := v.length
  let at_ (i : Nat) : Int := v.getD i 0
  if n == 0 then none
  else if n ≤ 3 then some ((at_ 0 + at_ (n - 1)) / 2)
  else if n ≤ 6 then some ((at_ 1 + at_ (n - 2)) / 2)
  else some ((at_ 2 + at_ (n - 3)) / 2)

/-- Residual rate error in units of 2^-32 of 0.001 ppm (R196): exact but for its last bits. -/
def rateError (s : State) (m pm : Int) : Int :=
  (m - pm - s.sync.prevO) * 1000000000 * (2 ^ 32 : Nat) / (max 1 (s.turnNs * nsUnit) : Nat)

/-- The rate update of R196: new r, and whether it is clamped. -/
def rateUpdate (r delta : Int) (conv : Bool) : Int × Bool :=
  let step := clampInt (-20000) 20000 ((if conv then delta / 4 else delta) / (2 ^ 32 : Nat))
  let r' := clampInt (-200000) 200000 (r - step)
  (r', r' == -200000 || r' == 200000)

/-- Enter SELF_SILENT (R202): why 0 offset, 1 rate clamp. -/
def goSilent (s : State) (why : Nat) : State :=
  let s := (s.toLine 5).modSync fun y => { y with silentTurns := 0 }
  (s.inc Reg.SYNC_CNT_SILENT).record 0x3301 4 3 why (s.get Reg.SYNC_OFFSET_OFFSET)

/-- The rate update of a turn with a midpoint, where the previous turn had one too (R196, R199): |delta| < 5 ppm and |M| < 0.1 g. -/
def nitRate (s : State) (m : Int) : State :=
  match s.sync.prevM with
  | none => s
  | some pm =>
    let conv := s.on Reg.SYNC_STAT_CONVERGED
    let delta := s.rateError m pm
    let (r, clamped) := rateUpdate (s.getInt Reg.NTIME_RATE_RATE) delta conv
    let s := (s.flag Reg.SYNC_STAT_RATE_CLAMP [] clamped).modSync fun y => { y with nextRate := some r }
    if !conv && (m - pm - s.sync.prevO).natAbs * 200000 < s.turnNs * nsUnit && m.natAbs * 100 < s.prof.guard * nsUnit then
      let s := s.flag Reg.SYNC_STAT_CONVERGED [] true
      let s := s.set Reg.SYNC_STAT_CONV_TURNS [] (min 255 s.sync.since)
      let s := s.modSync fun y => { y with persistCount := 65536 }
      s.record 0x3304 1 3 s.sync.since (b2n s.sync.usedHist)
    else s

/-- The self-check at the end of a NIT (R202): of a node that was converged when the NIT began. In a pair the deciding device enters
SELF_SILENT (R229); a node that has lost its line does not (Table 9-2). -/
def nitCheck (s : State) (conv : Bool) : State :=
  if conv && s.lstate == 4 && s.decides && s.sync.noMid < 16 then
    if s.sync.bigO ≥ 3 then s.goSilent 0 else if s.on Reg.SYNC_STAT_RATE_CLAMP then s.goSilent 1 else s
  else s

/-- SYNC_CNT.CLAMP counts the NITs that end with r clamped. -/
def nitClamp (s : State) : State := if s.on Reg.SYNC_STAT_RATE_CLAMP then s.inc Reg.SYNC_CNT_CLAMP else s

/-- The NIT's synchronisation work in a turn with a midpoint (R194, R196, R199, R202, R203); O_n is spread over the first 8 µs. -/
def nitWith (s : State) (m : Int) : State :=
  let g4 : Int := tenths s.prof.guard / 4
  let o := -m
  let conv := s.on Reg.SYNC_STAT_CONVERGED
  let s := (s.modSync fun y => { y with nit := o, nitLeft := 8000 * nsUnit }).setInt Reg.SYNC_OFFSET_OFFSET [] (o / 2 ^ 24)
  let s := (s.nitRate m).nitClamp
  let big := !within o g4
  let s := s.modSync fun y => { y with
    prevM := some m, prevO := o, mids := y.mids + 1, noMid := 0, bigO := if big then y.bigO + 1 else 0
    goodRun := if !big && !s.on Reg.SYNC_STAT_RATE_CLAMP then y.goodRun + 1 else 0 }
  (s.set Reg.SYNC_STAT_GOOD [] (min 255 s.sync.goodRun)).nitCheck conv

/-- The NIT's synchronisation work (R190 to R203): a turn without a midpoint leaves both corrections (R195), and a clamped r
stays clamped at its end. -/
def nitSync (s : State) : State :=
  let vals := s.syncValues
  let s := s.set Reg.SYNC_STAT_SENDERS [] vals.length
  let s := match midpoint vals with
    | some m => s.nitWith m
    | none =>
      let s := s.inc Reg.SYNC_CNT_NOSRC
      let s := s.modSync fun y => { y with prevM := none, prevO := 0, bigO := 0, goodRun := 0, noMid := y.noMid + 1 }
      (s.set Reg.SYNC_STAT_GOOD [] 0).nitClamp.nitCheck (s.on Reg.SYNC_STAT_CONVERGED)
  s.modSync fun y => { y with senders := [] }

end State

end Sys2Proof.Machine
end

