-- ==== Sys2Proof/Machine/LineRx.lean ====
section
/-!
DEFINITION. Reception on line ports and crosslinks: the checks of R180 and R151, cut-through forwarding (R150), relaying
(R153), observations of start-up (R216), and the commands STATIC_FRAME_RECEIVE, KICKOFF_RECEIVE, HOP_FRAME_RECEIVE,
DYNAMIC_FRAME_RECEIVE, RECOVERY_STATE_TIMEOUT.
-/

namespace Sys2Proof.Machine

/-- What the receive checks say of a frame: dropped, to be ended with an inverted FCS, or good. -/
inductive Rx where
  | drop | stomp | good
  deriving DecidableEq, Repr

namespace State

/-- The line port at the other end of the same channel. -/
def across (n : Nat) : Nat := 2 * (1 - n / 2) + n % 2

/-- The ICOUNT check applies (R180): following the line, and not in the turns of an inauguration. A node without a phase of its own
takes no part in one (R237). -/
def icountChecked (s : State) : Bool := s.following && !(s.stopped && 1 ≤ s.phase && s.phase ≤ 4)

/-- A frame passes the checks of R180 but ICOUNT and window: FCS, version, kind and length, HCRC, and the tag where it is checked. -/
def rxSound (s : State) (f : Frame) (c : RxCheck) (tag : Bool) : Bool :=
  c.fcsOk f && c.formOk f s.prof.payload && c.hcrcOk f && tag

/-- The checks of R180 for a frame on port n. `icnt`: the ICOUNT check applies to this kind; `delta`: its deviation against the
window W, none where no window applies; `counted`: a window failure counts (STATIC frames, R188); `tag`: its tag is good, or is not
checked. -/
def rxCheck (s : State) (n : Nat) (f : Frame) (c : RxCheck) (icnt : Bool) (delta : Option Int) (counted tag : Bool) : Rx × State :=
  let inWindow : Bool := match delta with
    | none => true
    | some d => within d s.window
  let icOk := !icnt || f.hdr.icount == s.icount
  let formOk := c.formOk f s.prof.payload
  if !c.fcsOk f then
    (if formOk && c.hcrcOk f && icOk && inWindow then .stomp else .drop, s.inc Reg.LPn_RXERR_A_FCS [n])
  else if !formOk || !c.hcrcOk f then (.drop, s.inc Reg.LPn_RXERR_A_HDR [n])
  else if !icOk then (.drop, (s.inc Reg.LPn_RXERR_B_ICNT [n]).recordS 0x3202 2 3 n f.hdr.icount)
  else if !inWindow then (.drop, if counted then s.inc Reg.LPn_RXERR_A_HDR [n] else s)
  else if !tag then
    (.stomp, (s.inc Reg.LPn_RXERR_B_TAG [n]).recordS 0x3201 4 3 n (f.kind.code + 2 ^ 16 * f.hdr.sender))
  else (.good, s)

/-- The turn phase at which a frame received on port n leaves again: H after it left upstream (R150). -/
def forwardPhase (s : State) (n : Nat) (c : RxCheck) : Nat :=
  ((c.phase : Int) - s.delay n + (tenths s.prof.hop : Int)).toNat

/-- Forward a frame cut-through to the port across, unless that is no neighbour link; a stomped copy is counted (R151). -/
def forward (s : State) (n : Nat) (c : RxCheck) (stomp : Bool) (f : Frame) : State :=
  let m := across n
  let carries := f.payload.relay.isSome && f.hdr.slot ≤ 3 && (s.port m).foreign && !(s.port m).newlink && s.lineUp m
  if !s.nbrPort m && !carries then s
  else (if stomp then s.inc Reg.LPn_FWD_CNT_STOMPED [m] else s).transmit m (s.forwardPhase n c) true stomp f

/-- Pass a stored copy to the partner over the crosslinks, unchanged, past the weirs of their ports (R18, Table 13-2). -/
def toPartner (s : State) (f : Frame) : State :=
  s.xlinks.foldl (fun s x => s.transmit x s.clock.phase true false f) s

/-- A frame over a crosslink passes FCS, version, kind and length, and HCRC; neither its tag nor a window is checked (R320). -/
def rxX (s : State) (n : Nat) (f : Frame) (c : RxCheck) : Bool × State :=
  let (r, s) := s.rxCheck n f c false none false true
  (r == .good, s)

/-! STATIC frames of slots 4 and above -/

/-- Note the Δ of a home-slot frame in the running layout (R190, R197). -/
def noteHome (s : State) (f : Frame) (d : Int) : State :=
  if !s.stopped && bit f.hdr.flags 4 && f.hdr.sender != s.ownPos && within d s.valueLimit then
    s.noteSender f.hdr.sender 0 (max f.hdr.sender s.ownPos - min f.hdr.sender s.ownPos) d
  else s

/-- Note a home-slot frame for the witness message of the turn (R331). -/
def witnessHome (s : State) (chanB : Bool) (f : Frame) : State :=
  if bit f.hdr.flags 4 then
    s.modRed fun r => { r with homes := (f.hdr.sender, chanB, bit f.hdr.flags 7, f.hdr.epoch) :: r.homes }
  else s

/-- A static frame on a line port (R150, R151, R640). -/
def rxStatic (s : State) (n : Nat) (f : Frame) (c : RxCheck) : State :=
  match f.payload with
  | .parcels ps =>
    if !s.following || !s.lineUp n then s
    else if !s.nbrPort n then (s.rxCheck n f c s.icountChecked none false (s.tagOk n f)).2
    else
      let d := s.deviation n c.phase f.hdr.slot ((s.hBeyond (n / 2)).getD 0) f.hdr.corr
      let tag := s.tagOk n f
      let wide := s.rxSound f c tag && f.hdr.icount == s.icount && !within d s.window
      let (r, s) := s.rxCheck n f c s.icountChecked (some d) true tag
      match r with
      | .drop => if wide then s.noteHome f d else s
      | .stomp => s.forward n c true f
      | .good =>
        let s := s.forward n c false f
        if s.slotArmed f.hdr.slot then
          (((s.storeCopy f.hdr.slot f (readParcels ps)).witnessHome (n % 2 == 1) f).noteHome f d).toPartner f else s
  | _ => s

/-- A copy that the partner passes over crosslink n: valid when it passes FCS and HCRC (R313), and of use to a node that follows the
line (R640). -/
def rxStaticX (s : State) (n : Nat) (f : Frame) (c : RxCheck) : State :=
  match f.payload with
  | .parcels ps =>
    let (ok, s) := s.rxX n f c
    if ok && s.following && f.hdr.sender != s.ownPos && s.slotArmed f.hdr.slot then
      (s.storeCopy f.hdr.slot f (readParcels ps)).witnessHome (!s.pins.strapChan) f else s
  | _ => s

/-! Start-up observations (R216) -/

/-- Note what a valid KICKOFF or relay frame shows of a line: kind 1 KICKOFF, 2 relay. -/
def observe (s : State) (n kind luid hops : Nat) (f : Frame) (c : RxCheck) : State :=
  let p := profileOf ((s.port n).nbrLs / 16 % 4)
  let slot := if kind == 1 then 0 else f.hdr.slot
  let t : Int := (c.time : Int) - s.delay n - f.hdr.corr * 2 ^ 16 - (tenths (slot * p.slotLen + p.guard / 2 + hops * p.hop) : Int)
  s.modPort n fun q => { q with obs := ((kind, f.hdr.turn, luid, t, hops, f.hdr.icount) :: q.obs).take 24 }

/-- A valid KICKOFF or relay frame restarts the listen timeout, unless cold start is held (R215). -/
def restartListen (s : State) : State :=
  if s.lstate == 1 && !s.on Reg.LSTART_STAT_HOLD then s.modStart fun x => { x with listenEnd := s.inNs (s.tListen * 1000) } else s

/-- A valid relay frame or KICKOFF reaches a node that does not follow the line yet (Table 9-2, R215, R221): COLDSTART counts an answer,
which a copy over a crosslink never is; SOLITARY is left. -/
def heardLine (s : State) (n : Nat) (own : Bool) : State :=
  let s := s.restartListen
  if s.lstate == 2 && !own && !s.isXlink n then s.modStart fun x => { x with answered := true }
  else if s.lstate == 6 && !own && s.lineUpFw then s.leaveSolo n
  else s

/-- What a valid relay frame of slots 1 to 3 does in LISTEN, COLDSTART and SOLITARY (Table 9-2). -/
def startupRelay (s : State) (n : Nat) (f : Frame) (w : RelayWord) (c : RxCheck) : State :=
  let s := s.heardLine n (w.origUid == s.lineUid % 2 ^ 32)
  let s := if s.lstate == 2 && s.lineUpFw then
      (if f.hdr.icount != 0 then s.toLine 1 else s.modStart fun x => { x with zeroNow := true }) else s
  if s.isXlink n then s else s.observe n 2 w.origUid w.hops f c

/-- What a valid KICKOFF does in LISTEN, COLDSTART and SOLITARY (R215, R216, R220, R221). -/
def startupKickoff (s : State) (n : Nat) (f : Frame) (k : Kickoff) (c : RxCheck) : State :=
  let s := s.heardLine n (k.luid == s.lineUid)
  let s := if s.lstate == 2 && s.lineUpFw && k.luid < s.lineUid then
      ((s.toLine 1).inc Reg.LSTART_CNT_ABANDON).record 0x3402 2 1 (k.luid % 2 ^ 32) n else s
  if !s.isXlink n && k.duid == s.get Reg.LPn_NBR_LO_UID [n] + 2 ^ 32 * s.get Reg.LPn_NBR_HI_UID [n] then s.observe n 1 k.luid 0 f c else s

/-- A relay frame that the partner passes over crosslink n while this device does not follow the line: the device that decides counts it
as received (R229). -/
def startupX (s : State) (n : Nat) (f : Frame) (w : RelayWord) (c : RxCheck) : State :=
  if !s.following && s.lstate != 0 && 1 ≤ f.hdr.slot && f.hdr.slot ≤ 3 then s.startupRelay n f w c else s

/-! Relay frames (R153, R154) -/

/-- Note a relay frame's Δ in the stopped layout (R192). -/
def noteRelay (s : State) (w : RelayWord) (d : Int) : State :=
  if s.stopped && w.origUid != s.lineUid % 2 ^ 32 && within d s.valueLimit then
    s.noteSender w.origAddr w.origUid (w.hops + 1) d
  else s

/-- The deviation of a relay frame: h is its HOPS + 1 (R187). -/
def relayDev (s : State) (n : Nat) (f : Frame) (w : RelayWord) (c : RxCheck) : Int :=
  s.deviation n c.phase f.hdr.slot (w.hops + 1) f.hdr.corr

/-- Send a relay frame on with this node's hop count, position and tag (R153); MERGED when the content changed. -/
def relayOn (s : State) (n : Nat) (f : Frame) (w : RelayWord) (c : RxCheck) (stomp changed : Bool) (body : RelayWord → Payload) : State :=
  let s := s.withSalt
  let w' : RelayWord := { w with hops := w.hops + 1, merged := w.merged || changed }
  let g : Frame := { f with hdr := { f.hdr with sender := s.ownPos }, payload := body w' }
  s.forward n c stomp (s.tagged (across n) g)

/-- The checks of a relay frame on a line port, its Δ and its place in start-up. Answers what to do: drop, relay with an
inverted FCS, or store and relay; a node that does not follow the line relays nothing, and on a foreign link nothing is stored or
forwarded (R242). -/
def rxRelay (s : State) (n : Nat) (f : Frame) (w : RelayWord) (c : RxCheck) : Rx × State :=
  let s := if c.fcsOk f && c.hcrcOk f && 1 ≤ f.hdr.slot && f.hdr.slot ≤ 3 then s.weirRef n c.phase f.hdr.slot w.hops f.hdr.corr else s
  let tag := s.tagOk n f
  if s.following then
    if !s.nbrPort n then (.drop, (s.rxCheck n f c s.icountChecked none false tag).2)
    else
      let d := s.relayDev n f w c
      let late := s.rxSound f c tag && (f.hdr.icount == s.icount || !s.icountChecked) && !within d s.window
      let (r, s) := s.rxCheck n f c s.icountChecked (some d) false tag
      match r with
      | .good =>
        let s := (s.noteRelay w d).learnH (n / 2) (w.hops + 1)
        (.good, s.modPort n fun p => { p with relay := (f.hdr.slot, f) :: p.relay })
      | r => (r, if late then s.noteRelay w d else s)
  else if s.lstate == 0 then (.drop, s)
  else
    let (r, s) := s.rxCheck n f c false none false tag
    match r with
    | .good => (.drop, if 1 ≤ f.hdr.slot && f.hdr.slot ≤ 3 then (s.toPartner f).startupRelay n f w c else s)
    | _ => (.drop, s)

/-! KICKOFF frames (R155, R220 to R223) -/

/-- The node sends KICKOFF frames of its own: in COLDSTART once the floor is written, and until converged after it (R219, R222). -/
def kicks (s : State) : Bool := (s.lstate == 2 && !s.start.floorWait) || (s.lstate == 3 && s.start.kicking)

/-- At a turn phase the node is sending its own KICKOFF of 24 B on port m (R155). -/
def kickBusy (s : State) (m due : Nat) : Bool :=
  s.kicks && s.lineUp m && !(s.port m).newlink && !(s.port m).foreign &&
  tenths (s.prof.guard / 2) ≤ due && due < tenths (s.prof.guard / 2 + wireTime (s.rate m) 24)

/-- Forward a KICKOFF, unless the port across is sending the node's own (R155). -/
def forwardKickoff (s : State) (n : Nat) (f : Frame) (k : Kickoff) (c : RxCheck) (stomp : Bool) : State :=
  if s.kickBusy (across n) (s.forwardPhase n c) then
    (s.inc Reg.LPn_FWD_CNT_KICK_DROP [across n]).recordS 0x3205 2 3 (across n) (k.duid % 2 ^ 32)
  else s.forward n c stomp f

/-- A KICKOFF on a line port. On a foreign link nothing is stored or forwarded (R242). A node in SOLITARY forwards it too (R155; log 93). -/
def rxKickoff (s : State) (n : Nat) (f : Frame) (k : Kickoff) (c : RxCheck) : State :=
  let s := if c.fcsOk f && c.hcrcOk f then s.weirRef n c.phase 0 0 0 else s
  if s.lstate == 0 || s.pst n != 4 then s
  else
    let follows := s.following && s.start.kickLuid == some (k.luid, n) && k.duid == s.get Reg.LPn_NBR_LO_UID [n] + 2 ^ 32 * s.get Reg.LPn_NBR_HI_UID [n]
    let d := s.deviation n c.phase 0 1 0
    let (r, s) := s.rxCheck n f c false none false (s.tagOk n f)
    if (s.port n).foreign then s
    else match r with
      | .drop => s
      | .stomp => s.forwardKickoff n f k c true
      | .good =>
        let s := s.forwardKickoff n f k c false
        let s := if follows && within d s.valueLimit then s.noteSender 0 k.luid 1 d else s
        if s.following then s else (s.toPartner f).startupKickoff n f k c

/-- A KICKOFF that the partner passes over crosslink n (R229). -/
def rxKickoffX (s : State) (n : Nat) (f : Frame) (k : Kickoff) (c : RxCheck) : State :=
  let (ok, s) := s.rxX n f c
  if ok && !s.following && s.lstate != 0 then s.startupKickoff n f k c else s

/-! HOP frames (R127, R128, R138, R174 to R176, R183) -/

/-- Why a line link is held (R128), 0 if it is not. -/
def holdWhy (s : State) (n : Nat) (h : Hop) : Nat :=
  let r := s.rate n
  if r < s.get Reg.LPn_CTL_MIN [n] + 1 then 1
  else if r < s.slowestAllowed + 1 then 2
  else if h.chanB != (n % 2 == 1) then 3
  else if h.uid == s.uid then 4
  else if s.paired && h.uid == s.partnerUid then 5
  else 0

/-- The neighbour's identity arrives in IDENTIFY (R127). On a crosslink it must show paired deployment and the opposite CHANNEL_SEL
(R138); a pairing fault puts both crosslinks into HELD and keeps the line ports in DISABLED. -/
def identify (s : State) (n : Nat) (h : Hop) : State :=
  let s := s.set Reg.LPn_NBR_LO_UID [n] (h.uid % 2 ^ 32)
  let s := s.set Reg.LPn_NBR_HI_UID [n] (h.uid / 2 ^ 32)
  let s := s.modPort n fun p => { p with nbr := some h, nbrLs := h.lstate }
  if s.isXlink n then
    if h.paired && h.chanB != s.pins.strapChan && h.xlink then
      (s.flag Reg.LPn_STAT_XL_CROSSED [n] (h.end2 != (n / 2 == 1))).up n 0
    else
      let s := (List.range 4).foldl (fun s m => if s.isXlink m && s.pst m != 0 then s.hold m 6 else s) s
      ((s.set Reg.LINE_DEPLOY_PAIR_FAULT [] 1).record 0x3105 5 3 n (h.uid % 2 ^ 32)).settlePorts
  else
    match s.holdWhy n h with
    | 0 => s.upFrom n (if (s.port n).fellBack then 7 else 1)
    | w => s.hold n w

/-- A neighbour whose line state changes what its link is (R242, R243, R250): the run of SYNCED turns is counted by TICK. -/
def nbrState (s : State) (n ls : Nat) : State :=
  let s := s.modPort n fun p => { p with nbrLs := ls }
  let st := ls % 16
  let s := if (s.port n).foreign && st != 4 && st != 5 then
      (s.modPort n fun p => { p with foreign := false, met := false }).showEnds else s
  if s.lstate == 2 && !s.isXlink n && s.pst n == 4 && (st == 3 || st == 4 || st == 5) then
    s.modStart fun x => { x with answered := true } else s

/-- The delay sample of a HOP frame (R183), none without a matching T_ECHO; times in 2^-32 ns. -/
def hopSample (s : State) (n : Nat) (h : Hop) (t4 : Nat) : Option Int :=
  let p := s.port n
  if !p.sent.contains h.tEcho then none
  else
    let own : Int := (t4 : Int) - (h.tEcho : Int)
    let far : Int := (h.tTx : Int) - (h.tRx : Int)
    match p.lastHop with
    | none => some ((own - far) / 2)
    | some (pt, p4) =>
      let den : Int := (h.tTx : Int) - (pt : Int)
      if den == 0 then none else some ((own - ((t4 : Int) - (p4 : Int)) * far / den) / 2)

/-- A HOP frame (R174 to R176). It is checked as R180 states, without ICOUNT; on a crosslink neither tag nor window (R320). -/
def rxHop (s : State) (n : Nat) (f : Frame) (h : Hop) (c : RxCheck) : State :=
  let (r, s) := s.rxCheck n f c false none false (s.isXlink n || s.tagOk n f)
  if r != .good then s
  else
    let st := s.pst n
    let s := if st == 3 then s.identify n h else s
    if s.pst n == 4 || s.pst n == 5 then
      let had := s.on Reg.LPn_DELAY_VALID [n]
      let smp := s.hopSample n h c.time
      let s := match smp with
        | none => s
        | some d => s.delaySample n d
      let s := s.modPort n fun p => { p with nbr := some h, lastHop := some (h.tTx, c.time), granted := h.credit }
      let s := (s.nbrState n h.lstate).poolLate n
      if !had && s.on Reg.LPn_DELAY_VALID [n] then s.delayLimit n else s
    else s

/-! DYNAMIC frames (R171, R172, R317 to R319) -/

/-- Duplicate elimination (R318): whether the frame is delivered. -/
def eliminate (s : State) (sender stream seq : Nat) : Bool × State :=
  let chan := bit seq 31
  let c := seq % 2 ^ 31
  let same : Recovery → Bool := fun r => r.sender == sender && r.stream == stream && r.chan == chan
  let put (top hist : Nat) : State := s.modRed fun r => { r with
    recovery := ⟨sender, stream, chan, top, hist, s.clock.turn⟩ :: r.recovery.filter fun x => !same x }
  match s.red.recovery.find? fun r => same r && s.clock.turn ≤ r.last + 16 with
  | none => (true, put c 1)
  | some r =>
    let dist := (c + 2 ^ 31 - r.top) % 2 ^ 31
    if dist != 0 && dist < 2 ^ 30 then (true, put c (if dist ≥ 128 then 1 else (r.hist * 2 ^ dist + 1) % 2 ^ 128))
    else
      let back := (r.top + 2 ^ 31 - c) % 2 ^ 31
      if back ≥ 128 then (false, (put r.top r.hist).inc Reg.RED_DUP_CNT_ROGUE)
      else if bit r.hist back then (false, (put r.top r.hist).inc Reg.RED_DUP_CNT_DUPLICATES)
      else (true, put r.top (r.hist + 2 ^ back))

/-- Put a frame into a line receive queue's hold, or end its lifetime at once (R402, R403). -/
def toReceive (s : State) (f : Frame) (d : Dyn) : State :=
  let t := d.sel % 256
  let q := d.sel / 256 % 16
  let dev := bit d.sel 12
  if s.paired && dev != s.pins.strapChan then s
  else
    if t > 16 || !s.running t q || !(s.queue t q).kind || (s.queue t q).rxConsist || (s.queue t q).hold.length ≥ 64 then
      (if t > 16 then s else s.inc Reg.TN_RXDROP_FRAMES [t]).recordS 0x3A06 2 2 (t + 256 * q) f.hdr.sender
    else s.modQueue t q fun x => { x with hold := x.hold ++ [f] }

/-- Result value of a received frame (Table 15-12). -/
def recvValue (s : State) (f : Frame) : Nat :=
  let (cn, car) := match s.inaug.dir with
    | none => (0, 0)
    | some d => match d.nodes.find? fun x => x.pos == f.hdr.sender with
      | some x => (x.consistNo, x.carNo)
      | none => (0, 0)
  cn + 2 ^ 8 * car + 2 ^ 16 * (f.hdr.slot % 512) + 2 ^ 32 * f.hdr.seqGen

/-- Fill the oldest posted buffers from the receive hold (R402, R403). -/
def fillBuffers (s : State) (t q : Nat) : Nat → State
  | 0 => s
  | fuel + 1 =>
    let x := s.queue t q
    match x.hold, (x.works.find? fun w => w.desc.opcode == 2 && w.started && w.result.isNone) with
    | f :: rest, some w =>
      let data := match f.payload with
        | .dyn d => d.data ++ List.replicate (roundUp d.data.length 8 - d.data.length) 0
        | _ => []
      let s := s.modQueue t q fun y => { y with hold := rest }
      let cut := data.length > w.desc.len
      let s := s.memWrite t w.desc.buf (data.take w.desc.len)
      let s := s.completeC t q w.idx (if cut then 8 else 0) (b2n cut) (min data.length w.desc.len) (s.recvValue f)
      fillBuffers s t q fuel
    | _, _ => s

/-- Deliver a DYNAMIC frame locally once (R171, R318). A frame of DKIND 2 is handled by the command of its selector. -/
def deliver (s : State) (f : Frame) (d : Dyn) : State :=
  let (new, s) := s.eliminate f.hdr.sender f.hdr.slot f.hdr.seqGen
  if !new then s
  else if d.dkind == 1 then (s.toReceive f d).fillBuffers (d.sel % 256) (d.sel / 256 % 16) 64
  else if d.dkind == 0 then s.fromLine f.hdr.sender d.prio d.sel d.data
  else s

/-- Deliver a frame of this node to itself (R399): no duplicate can arise. -/
def deliverOwn (s : State) (f : Frame) (d : Dyn) : State :=
  if d.dkind == 1 then (s.toReceive f d).fillBuffers (d.sel % 256) (d.sel / 256 % 16) 64
  else if d.dkind == 0 then s.fromLine f.hdr.sender d.prio d.sel d.data else s

/-- A DYNAMIC frame whole and checked on a line port (R171). -/
def rxDynamic (s : State) (n : Nat) (f : Frame) (d : Dyn) (c : RxCheck) : State :=
  if !s.following || !s.lineUp n then s
  else
    let (r, s) := s.rxCheck n f c s.icountChecked none false (s.tagOk n f)
    if r != .good || !s.nbrPort n then s
    else
      let old := (s.turn32 + 2 ^ 32 - f.hdr.turn) % 2 ^ 32 ≥ d.life
      let cls := classOf f.hdr.slot d.prio
      let b := blocksOf f.payload.len
      let m := across n
      let mine := d.dest == s.ownPos || d.dest == 0xFFFF
      let s := if mine && !old then (s.toPartner f).deliver f d else s
      let on := d.dest != s.ownPos && (if d.dest == 0xFFFF then s.nbrPort m else (s.endTowards d.dest == m / 2 && !s.isXlink m && s.pst m != 0))
      if old then
        ((s.when on fun s => s.inc Reg.LPn_FWD_CNT_LIFE_DROP [m]).freeHeld (some n) cls b).recordS 0x3203 2 3 f.hdr.slot f.hdr.sender
      else if !on then s.freeHeld (some n) cls b
      else (s.modPort m fun p => { p with queue := p.queue ++ [⟨f, none, some n⟩] }).poolLate m

/-- A frame that the leader numbered leaves on this channel: a device that starts numbering goes on above it (R317). -/
def noteSent (s : State) (f : Frame) : State :=
  let c := (Sparse.find f.hdr.slot s.red.seqGen).getD 0
  s.modRed fun r => { r with seqGen := Sparse.put f.hdr.slot (max c (f.hdr.seqGen % 2 ^ 31 + 1)) r.seqGen }

/-- A DYNAMIC frame over crosslink n: a received copy (R319), of use to a node that follows the line (R640); the leader's frame to send
on this channel; or the follower's frame to number and send (R320, R401). -/
def rxDynamicX (s : State) (n : Nat) (f : Frame) (d : Dyn) (c : RxCheck) : State :=
  let (ok, s) := s.rxX n f c
  if !ok then s
  else if f.hdr.sender == s.ownPos then
    let here := d.dest == s.ownPos || (d.dest == 0xFFFF && d.dkind == 1)
    let s := if here then s.deliverOwn f d else s
    if s.isLeader then
      let k := (Sparse.find f.hdr.slot s.red.seqGen).getD 0
      let own := some (17, f.hdr.slot, k)
      let (seq, s) := s.originate f.hdr.slot d.dest d.dkind d.sel d.prio d.data own
      if (s.ports.any fun p => p.queue.any fun x => x.own == own) then s else s.complete 17 f.hdr.slot k 0 d.data.length seq
    else (s.queueOwn f d.dest none).noteSent f
  else if s.following then s.deliver f d
  else s

end State

/-- STATIC_FRAME_RECEIVE (R150, R151, R180, R188, R313 to R316, R640). -/
def execStaticFrameReceive (n : Fin 4) (f : Frame) (c : RxCheck) (s : State) : Result :=
  .next (if !s.alive || f.kind != .static then s
    else if s.isXlink n.val then (if s.pst n.val == 4 then s.rxStaticX n.val f c.stamp else s)
    else s.rxStatic n.val f c.stamp)

/-- KICKOFF_RECEIVE (R155, R216, R220, R221, R223). -/
def execKickoffReceive (n : Fin 4) (f : Frame) (c : RxCheck) (s : State) : Result :=
  .next (if !s.alive then s
    else match f.payload with
      | .kickoff k => if s.isXlink n.val then (if s.pst n.val == 4 then s.rxKickoffX n.val f k c.stamp else s) else s.rxKickoff n.val f k c.stamp
      | _ => s)

/-- HOP_FRAME_RECEIVE (R127, R128, R138, R176, R183). -/
def execHopFrameReceive (n : Fin 4) (f : Frame) (c : RxCheck) (s : State) : Result :=
  .next (if !s.alive then s
    else match f.payload with
      | .hop _ h => s.rxHop n.val f h c.stamp
      | _ => s)

/-- DYNAMIC_FRAME_RECEIVE (R171, R318, R319, R402, R403). -/
def execDynamicFrameReceive (n : Fin 4) (f : Frame) (c : RxCheck) (s : State) : Result :=
  .next (if !s.alive then s
    else match f.payload with
      | .dyn d => if s.isXlink n.val then (if s.pst n.val == 4 then s.rxDynamicX n.val f d c.stamp else s) else s.rxDynamic n.val f d c.stamp
      | _ => s)

/-- RECOVERY_STATE_TIMEOUT (R318): combinations of which no frame arrived in 16 turns are reset. -/
def execRecoveryStateTimeout (s : State) : Result :=
  .next (if s.alive then s.modRed fun r => { r with recovery := r.recovery.filter fun x => s.clock.turn ≤ x.last + 16 } else s)

end Sys2Proof.Machine
end

