-- ==== Sys2Proof/Machine/FarOps.lean ====
section
/-!
DEFINITION. The requester's side of the far-access bridge (16_far_access_bridge.md): targets, transfers, tags, order,
answers, completions, prefetched data, and the aperture's error FIFO.
-/

namespace Sys2Proof.Machine

/-- Reverse every piece of a width: between buffer order and line order (R425, R427). -/
def turnPieces (w : Nat) : Nat → List Byte → List Byte
  | 0, l => l
  | _, [] => []
  | fuel + 1, l => if w ≤ 1 then l else (l.take w).reverse ++ turnPieces w fuel (l.drop w)

/-- The far header and data after the address word (Table 16-3). -/
def farBytes (fop tag func off len pf fstat wnum pieces rturn : Nat) (data : List Byte) : List Byte :=
  beBytes 1 fop ++ beBytes 1 tag ++ beBytes 2 func ++ beBytes 4 off ++ beBytes 2 len ++ beBytes 2 pf ++ beBytes 1 fstat ++
  beBytes 1 wnum ++ beBytes 2 pieces ++ beBytes 4 rturn ++ beBytes 4 0 ++ data

/-- A transfer is another one's later transfer to the same window (R428). -/
def Transfer.sameWindow (a b : Transfer) : Bool := a.targetUid == b.targetUid && a.func == b.func

namespace State

/-- Far functions run: firmware is up and CPU pair 0 runs (Table 1-3, R106). -/
def farUp (s : State) : Bool := s.cpuUp 0

/-- Show tags and target queue entries in use. -/
def showFar (s : State) : State :=
  let s := s.set Reg.FAR_STAT_TAGS [] (s.far.transfers.filter fun x => x.tag.isSome && x.done.isNone).length
  s.set Reg.FAR_STAT_TQUEUE [] s.far.tqueue.length

/-- The directory node with a position. -/
def nodeAt (s : State) (pos : Nat) : Option Numbered :=
  match s.inaug.dir with
  | none => none
  | some d => d.nodes.find? fun x => x.pos == pos

/-- Own consist number, 0 without a directory. -/
def ownConsist (s : State) : Nat := s.get Reg.INAUG_POS_CONSIST_NO

/-- The node that a consist and a car name (R398, R422): consist 0 is the own one. -/
def nodeOfCar (s : State) (consist car : Nat) : Option Numbered :=
  match s.inaug.dir with
  | none => none
  | some d => d.nodes.find? fun x => x.consistNo == (if consist == 0 then s.ownConsist else consist) && x.carNo == car

/-- The node that a UID names: a line UID, or either device UID of a pair (Table 16-2). -/
def nodeOfUid (s : State) (uid : Nat) : Option Numbered :=
  match s.inaug.dir with
  | none => none
  | some d => d.nodes.find? fun x => x.entry.luid == uid || (uid != 0 && x.entry.puid == uid)

/-- The target of a descriptor or slice by MODE (Table 16-2). -/
def farTarget (s : State) (mode : Bool) (arg : Nat) : Option Numbered :=
  if mode then s.nodeOfCar (arg % 256) (arg / 256 % 256) else s.nodeOfUid arg

/-! Aperture error FIFO (R442 to R444) -/

/-- The PF of an aperture's port. -/
def apPf (port : Nat) : Nat := if port == 0 then 0 else 8

/-- Show the oldest entry (R444). -/
def showApErr (s : State) (port : Nat) : State :=
  let e := ((s.far.apErr.getD port []).head?).getD ⟨0, 0, 0, 0⟩
  (s.set Reg.FAR_AP_ERR_ADDR_x_OFFSET [port] e.off).set Reg.FAR_AP_ERR_SEQ_x_SEQ [port] e.seq

/-- Place an entry in the error FIFO (R443). -/
def apError (s : State) (port off seq fstat pieces : Nat) : State :=
  let l := s.far.apErr.getD port []
  let s := if l.length ≥ 32 then
      (s.modFar fun f => { f with apLost := listSet f.apLost port true }).recordS 0x3B07 4 11 port seq
    else s.modFar fun f => { f with apErr := listSet f.apErr port (l ++ [⟨off, seq, fstat, pieces⟩]) }
  let s := s.showApErr port
  let s := if s.on Reg.FAR_AP_CTL_x_IRQ [port] then s.msix (apPf port) (s.get Reg.FAR_AP_CTL_x_VEC [port]) else s
  s.recordS 0x3B05 3 11 (port + 256 * fstat) seq

/-- An aperture write is answered or has timed out: DONE moves to the highest number with every write up to it done. -/
def apDone (s : State) (port seq : Nat) : State :=
  let o := (s.far.apOpen.getD port []).filter fun x => x != seq
  let s := s.modFar fun f => { f with apOpen := listSet f.apOpen port o }
  let issued := s.get Reg.FAR_AP_ISSUED_x_SEQ [port]
  let dist (x : Nat) : Nat := (issued + 2 ^ 32 - x % 2 ^ 32) % 2 ^ 32
  let oldest := o.foldl (fun a x => max a (dist x + 1)) 0
  s.set Reg.FAR_AP_DONE_x_SEQ [port] ((issued + 2 ^ 32 - oldest) % 2 ^ 32)

/-! Prefetched data (R438 to R440) -/

/-- Discard entry i of the prefetch store, if it holds data (R440). -/
def pfDiscard (s : State) (i : Nat) : State :=
  match s.far.prefetch[i]? with
  | none => s
  | some e =>
    if !e.valid then s
    else
      let s := s.modFar fun f => { f with prefetch := listMod f.prefetch i fun e => { e with valid := false, data := [] } }
      let s := s.modFar fun f => { f with pfDiscards := listMod f.pfDiscards i fun c => min 65535 (c + 1) }
      s.recordS 0x3B04 2 11 (e.pos + 256 * (e.wnum % 16) + 2 ^ 16 * (e.data.length % 512)) e.off

/-- Discard every entry that a test names. -/
def pfDiscardIf (s : State) (p : Prefetch → Bool) : State :=
  (List.range 16).foldl (fun s i => if (match s.far.prefetch[i]? with
    | some e => e.valid && p e
    | none => false) then s.pfDiscard i else s) s

/-- Keep returned prefetch data in the least recently used entry (R439). -/
def pfKeep (s : State) (pos uid func wnum width off : Nat) (data : List Byte) : State :=
  if data.isEmpty then s
  else
    let l := s.far.prefetch
    let i := match (l.findIdx? fun e => e.valid && e.uid == uid && e.func == func) with
      | some i => i
      | none => match (l.findIdx? fun e => !e.valid) with
        | some i => i
        | none => (l.findIdx? fun e => e.used == l.foldl (fun a x => min a x.used) (l.headD default).used).getD 0
    let s := s.pfDiscard i
    let u := l.foldl (fun a x => max a x.used) 0 + 1
    s.modFar fun f => { f with prefetch := listSet f.prefetch i ⟨true, pos, uid, func, wnum, width, off, data, s.clock.turn, u⟩ }

/-! Completion (R433) -/

/-- The transfers of a descriptor. -/
def transfersOf (s : State) (t q i : Nat) : List Transfer :=
  s.far.transfers.filter fun x => match x.owner with
    | .desc t' q' i' => t' == t && q' == q && i' == i
    | _ => false

/-- Forget the transfers of a descriptor. -/
def dropTransfers (s : State) (t q i : Nat) : State :=
  (s.modFar fun f => { f with transfers := f.transfers.filter fun x => match x.owner with
    | .desc t' q' i' => !(t' == t && q' == q && i' == i)
    | _ => true }).showFar

/-- Leading pieces and bytes of answered transfers in order, and the first failure: FSTAT and WNUM (Table 16-5). -/
def leading : List Transfer → Nat × Nat × Option (Nat × Nat)
  | [] => (0, 0, none)
  | x :: l =>
    match x.done with
    | none => (0, 0, some (0x10, 0xFF))
    | some (0, p, b, _, _) =>
      let (p', b', e) := leading l
      (p + p', b + b', e)
    | some (fs, p, b, w, _) => (p, b, some (fs, w))

/-- This device's newest read of a window is answered in this turn (R438). -/
def noteAnswered (s : State) (uid func end_ : Nat) : State :=
  s.modFar fun f => { f with lastRead := f.lastRead.map fun x =>
    if x.1 == uid && x.2.1 == func && x.2.2.1 == end_ then (uid, func, end_, some s.clock.turn) else x }

/-- The read of a descriptor whose transfers all were answered has been answered. -/
def readAnswered (s : State) (l : List Transfer) : State :=
  match l.getLast? with
  | none => s
  | some x =>
    if x.write || l.any (fun y => match y.done with
      | some (fs, _) => fs ≥ 0x10
      | none => true) then s
    else s.noteAnswered x.targetUid x.func (x.off + x.len)

/-- Complete a descriptor once every transfer it sent has been answered or has timed out (R433). -/
def farComplete (s : State) (t q i : Nat) : State :=
  let l := s.transfersOf t q i
  let failed := l.any fun x => x.write && (match x.done with
    | some (fs, _) => fs != 0
    | none => false)
  let waits := l.any fun x => x.done.isNone && (x.sent.isSome || !failed)
  if l.isEmpty || waits then s
  else
    let (p, b, e) := leading l
    let s := s.readAnswered l
    let s := match e with
      | none => s.complete t q i 0 b p
      | some (fs, w) =>
        if p == 0 then (if fs == 0x10 then s.complete t q i 4 0 0 else s.complete t q i 3 0 (2 ^ 32 * fs + 2 ^ 40 * w))
        else s.complete t q i 8 b (p + 2 ^ 32 * fs + 2 ^ 40 * w)
    s.dropTransfers t q i

/-- Replace a transfer. -/
def setTransfer (s : State) (x y : Transfer) : State :=
  s.modFar fun f => { f with transfers := f.transfers.map fun z => if z == x then y else z }

/-- A transfer is answered, fails at the requester, or times out: its tag returns and its owner goes on (R431, R433, R443,
R445). -/
def farEnd (s : State) (x : Transfer) (fstat pieces bytes wnum : Nat) (data : List Byte) : State :=
  match x.owner with
  | .desc t q i =>
    ((s.setTransfer x { x with tag := none, done := some (fstat, pieces, bytes, wnum, []) }).showFar).farComplete t q i
  | .apWrite port seq off =>
    let s := (s.modFar fun f => { f with transfers := f.transfers.erase x }).showFar
    let s := if fstat != 0 then s.apError port (off + bytes) seq fstat pieces else s
    s.apDone port seq
  | .apRead port off _ =>
    let s := (s.modFar fun f => { f with transfers := f.transfers.erase x }).showFar
    if fstat == 0 then s.emit (.barRead port (x.data ++ data))
    else (s.emit (.barRead port (List.replicate (x.data.length + x.len) 0xFF))).apError port (off + x.data.length + bytes) 0 fstat pieces

/-- Remote attestation requests of this device end at a line stop (R566). -/
def attStop (s : State) : State :=
  let l := s.sec.requests
  l.foldl (fun s r => s.complete r.desc.1 r.desc.2.1 r.desc.2.2 9 0 s.icount) (s.modSec fun x => { x with requests := [] })

/-- Every transfer of the bridge is released at a line stop, and the target queue is emptied (R433, R437, R439). -/
def farStop (s : State) : State :=
  let s := s.pfDiscardIf fun _ => true
  let s := s.far.transfers.foldl (fun s x => match x.owner with
    | .desc _ _ _ => s
    | _ => s.farEnd x 0x13 0 0 0xFF []) s
  let s := (s.modFar fun f => { f with transfers := [], tqueue := [] }).showFar
  (s.completeAll [0x10, 0x11] false 9 s.icount).attStop

end State

end Sys2Proof.Machine
end

