-- ==== Sys2Proof/Machine/RegWord.lean ====
section
/-!
DEFINITION. Register words as a configuration image writes them (R585, Table 22-2), and what sections 1 and 3 change at a DISCOVER.
-/

namespace Sys2Proof.Machine

/-- The fields that the registers of a section type hold (Table 22-2). -/
def sectionFields (t : Nat) : List Fld :=
  match t with
  | 1 => [Reg.INAUG_CAR_INDEX, Reg.INAUG_CAR_COUNT, Reg.INAUG_CAR_FRONT_E2, Reg.INAUG_CONSIST_ID]
  | 2 => [Reg.TURN_LEN_LEN, Reg.LINE_RULES_SLOTS, Reg.LINE_RULES_PROF_ALLOW, Reg.LINE_STREAM_m_BUDGET, Reg.LINE_STREAM_m_LIFE,
      Reg.LINE_STREAM_m_EN, Reg.LINE_SVC_LIFE_POOL, Reg.LINE_SVC_LIFE_SVC, Reg.SYN_RULES_SPARES, Reg.SYN_RULES_ALG, Reg.WEIR_DYN_POOL]
  | 4 => [Reg.LPn_CTL_SEG_B, Reg.LPn_CTL_MIN, Reg.LPn_CTL_MODES, Reg.LPn_CTL_EN, Reg.CPn_CTL_PVID, Reg.CPn_CTL_PRIO, Reg.CPn_CTL_GPTP,
      Reg.CPn_CTL_MASTER, Reg.CPn_CTL_MODE, Reg.CPn_CTL_EN, Reg.CPn_PLCA_EN, Reg.CPn_PLCA_BURST, Reg.CPn_PLCA_TO_TIMER,
      Reg.CPn_PLCA_COUNT, Reg.CPn_PLCA_NODE_ID, Reg.CON_CTL_AGE, Reg.CON_VLAN_Av_EN, Reg.CON_VLAN_Av_VID, Reg.CON_VLAN_Av_MEMBER,
      Reg.CON_VLAN_Bv_LINE, Reg.CON_VLAN_Bv_UNTAG, Reg.SYNC_CTL_USE_HIST, Reg.SYNC_CTL_PPS_OUT_EN, Reg.SYNC_CTL_PPS_W]
  | 5 => [Reg.CANn_CTL_MWIN, Reg.CANn_CTL_EWL, Reg.CANn_CTL_MISS_ABORT, Reg.CANn_CTL_MIRROR, Reg.CANn_CTL_ALONE_HOLD,
      Reg.CANn_CTL_ABORT_ON_BUSOFF, Reg.CANn_CTL_AUTO_REC, Reg.CANn_CTL_PXE, Reg.CANn_CTL_FD_EN, Reg.CANn_CTL_MODE, Reg.CANn_CTL_EN,
      Reg.CANn_NBT_SJW, Reg.CANn_NBT_TSEG2, Reg.CANn_NBT_TSEG1, Reg.CANn_NBT_BRP, Reg.CANn_DBT_SJW, Reg.CANn_DBT_TSEG2,
      Reg.CANn_DBT_TSEG1, Reg.CANn_DBT_BRP, Reg.CANn_TDC_EN, Reg.CANn_TDC_OFFSET, Reg.CANn_WAKE_DLC, Reg.CANn_WAKE_WRATE,
      Reg.CANn_WAKE_WMODE, Reg.CANn_WAKE_ID_ID, Reg.CANn_WAKE_MASK_ID, Reg.CANn_WAKE_DATA_LO_BYTES, Reg.CANn_WAKE_DATA_HI_BYTES,
      Reg.CANn_WAKE_DMASK_LO_BYTES, Reg.CANn_WAKE_DMASK_HI_BYTES, Reg.CANn_MCOL_k_EN, Reg.CANn_MCOL_k_OFFSET, Reg.CANn_MCELL_r_j_EN1,
      Reg.CANn_MCELL_r_j_ALWAYS1, Reg.CANn_MCELL_r_j_BUF1, Reg.CANn_MCELL_r_j_EN0, Reg.CANn_MCELL_r_j_ALWAYS0, Reg.CANn_MCELL_r_j_BUF0]
  | 7 => [Reg.TRDP_CTL_VID, Reg.TRDP_CTL_EN, Reg.TRDP_IP_ADDR, Reg.TRDP_TOPO_OP]
  | 8 => [Reg.SLUk_A_MASK, Reg.SLUk_A_CODE, Reg.SLUk_B_EN, Reg.SLUk_B_CAP, Reg.SLUk_B_REFILL, Reg.TALLY_ANCHOR_HOURS]
  | 9 => [Reg.TN_RIGHTS_QMAX, Reg.TN_RIGHTS_ATTEST, Reg.TN_RIGHTS_CONFIG, Reg.TN_RIGHTS_TALLY_CLEAR, Reg.TN_RIGHTS_TALLY_READ,
      Reg.TN_RIGHTS_ROLE_SWAP, Reg.TN_RIGHTS_INAUG, Reg.TN_RIGHTS_MARK, Reg.TN_RIGHTS_FAR, Reg.TN_RIGHTS_CAN, Reg.TN_RIGHTS_CONSIST,
      Reg.TN_RIGHTS_LINE, Reg.TN_RIGHTS_IMAGE]
  | 10 => [Reg.FAR_CTL_PF_MAX, Reg.FAR_CTL_TGT_AGE, Reg.FAR_CTL_TMO, Reg.FWw_CFG_FUNC, Reg.FWw_CFG_KIND, Reg.FWw_CFG_WIDTH,
      Reg.FWw_CFG_BIG, Reg.FWw_CFG_SIDE_EFFECT, Reg.FWw_CFG_PREFETCHABLE, Reg.FWw_CFG_WRITE, Reg.FWw_CFG_READ, Reg.FWw_CFG_EN,
      Reg.FWw_MAP_OWNER, Reg.FWw_MAP_SCOPE, Reg.FWw_BASE_BASE, Reg.FWw_SIZE_SIZE]
  | 11 => [Reg.PWR_WARN_LEVEL, Reg.PWR_SHED_DELAY, Reg.PWR_SHED_DOMAINS, Reg.GPIO_DIR_OD, Reg.GPIO_DIR_OUT, Reg.GPIO_OUT_VAL,
      Reg.SEC_TAMPER_CTL_RESP, Reg.SEC_CTL_ATT_TMO, Reg.RED_CTL_EPOCH_P, Reg.RED_CTL_COMPARE, Reg.MEM_ARB_AGE, Reg.MEM_SCRUB_PERIOD,
      Reg.MEM_REGIONk_GROUP, Reg.HOST_CAPS_BAR4_EN, Reg.TI_PARAM_SUB_CNT, Reg.TI_PARAM_STALE_N, Reg.TI_PARAM_OFFSET,
      Reg.TI_SIZE_IMG_SIZE, Reg.TI_SIZE_PUB_SIZE]
  | _ => []

/-- The value that a write gives a field, where the register's Meaning limits it. -/
def limitField (f : Fld) (v : Nat) : Nat :=
  if f == Reg.PWR_WARN_LEVEL then min v 258
  else if f == Reg.TURN_LEN_LEN then max 250 (min v 8000)
  else if f == Reg.TI_SIZE_IMG_SIZE || f == Reg.TI_SIZE_PUB_SIZE then min v 4096
  else v

/-- The value an image's entries give a field at an index, else its reset value. -/
def imageField (regs : List (Nat × Nat × Nat)) (f : Fld) (ix : List Nat) : Nat :=
  match (regs.filter fun x => x.2.1 == f.off ix).getLast? with
  | some x => bits x.2.2 f.hi f.lo
  | none => f.rst

namespace State

/-- Set the fields of a list that lie in the register at an offset from a word. -/
def setWord (s : State) (fs : List Fld) (off v : Nat) : State :=
  fs.foldl (fun s f => match f.find off with
    | some ix => s.set f ix (limitField f (bits v f.hi f.lo))
    | none => s) s

/-- Write the entries of a section type, but for the registers a test excludes. -/
def applyRegs (s : State) (t : Nat) (regs : List (Nat × Nat × Nat)) (skip : Nat → Bool := fun _ => false) : State :=
  regs.foldl (fun s x => if x.1 == t && !skip x.2.1 then s.setWord (sectionFields t) x.2.1 x.2.2 else s) s

/-- Sections 1 and 3 of the last activation are taken at a DISCOVER (Table 22-2). -/
def takeIdentity (s : State) : State :=
  match s.conf.ident with
  | none => s
  | some (regs, table) =>
    ((s.applyRegs 1 regs).modSynth fun y => { y with ownTable := some table }).modConf fun c => { c with ident := none }

/-- The armed line rules take force at the adoption of a directory whose every node announces them (R264, R591). -/
def rulesAgreed (s : State) (d : List DirEntry) : Bool :=
  s.conf.lrStaged != 0 && s.conf.lrStaged != s.conf.lrActive && d.all fun e => e.lrStaged == s.conf.lrStaged

/-- The state with the line rules that the adoption of a directory brings into force: its schedule and profile follow them. -/
def rulesView (s : State) (d : List DirEntry) : State :=
  match s.conf.staged with
  | some c => if s.rulesAgreed d then s.applyRegs 2 c.regs else s
  | none => s

end State

end Sys2Proof.Machine
end

