-- ==== Sys2Proof/Machine/SynthAlg.lean ====
section
/-!
DEFINITION. Schedule synthesis (11_schedule_synthesis.md): the node list (R272 to R274), the slot budget (R275), the
algorithm of R276, unsatisfied demands (R282), claims and grants of the spare pool (R285 to R289).
-/

namespace Sys2Proof.Machine

/-- The declaring member of a consist: lowest car index, then lower position (R272). -/
def declaring (d : Directory) (consist : Nat) : Option Numbered :=
  (sortBy (fun (a b : Numbered) => a.entry.carIndex < b.entry.carIndex ||
    (a.entry.carIndex == b.entry.carIndex && a.pos ≤ b.pos))
    (d.nodes.filter fun x => x.entry.consist == consist)).head?

/-- The consists of a directory in consist-number order. -/
def consistsOf (d : Directory) : List Nat :=
  (d.nodes.map fun x => (x.consistNo, x.entry.consist)).foldl (fun l c =>
    if l.contains c.2 then l else l ++ [c.2]) []

/-- A car record's present node: the entry at the lowest position with its car index and one of its UIDs (R273). -/
def presentOf (d : Directory) (consist : Nat) (c : CarRec) : Option Numbered :=
  (sortBy (fun (a b : Numbered) => decide (a.pos ≤ b.pos)) (d.nodes.filter fun x =>
    x.entry.consist == consist && x.entry.carIndex == c.carIndex &&
    (x.entry.luid == c.uidA || (c.uidB != 0 && x.entry.luid == c.uidB)))).head?

/-- Sort UID: the lower non-zero value of UID_A and UID_B (R274). -/
def sortUid (c : CarRec) : Nat := if c.uidB == 0 then c.uidA else if c.uidA == 0 then c.uidB else min c.uidA c.uidB

/-- The list nodes of one consist from its declaring table (R274). -/
def consistNodes (d : Directory) (consist : Nat) (t : FuncTable) : List SynNode :=
  match declaring d consist with
  | none => []
  | some m => t.cars.map fun c =>
      let no := if m.reversed then t.carCount + 1 - c.carIndex else c.carIndex
      let pr := presentOf d consist c
      { consistNo := m.consistNo, carNo := no, consist := consist, carIndex := c.carIndex, uid := sortUid c,
        ghost := pr.isNone, pos := (pr.map fun x => x.pos).getD 0, demands := c.demands }

/-- Rank order: consist number, then car number (R274). -/
def rankLe (a b : SynNode) : Bool := a.consistNo < b.consistNo || (a.consistNo == b.consistNo && a.carNo ≤ b.carNo)

/-- Remove the ghost of highest rank while the list holds more than 63 nodes (R274); `fuel` bounds the removals. -/
def capNodes : Nat → List SynNode → List SynNode × List SynNode
  | 0, l => (l, [])
  | fuel + 1, l =>
    if l.length ≤ 63 then (l, [])
    else match (l.reverse.find? fun x => x.ghost) with
      | none => (l, [])
      | some g =>
        let (r, dropped) := capNodes fuel (l.filter fun x => !(x == g))
        (r, dropped ++ [g])

/-- A demand in the queue of R276. -/
structure QDemand where
  node : Nat
  index : Nat
  d : Demand
  consistNo : Nat
  carNo : Nat
  uid : Nat
  deriving DecidableEq, Repr, Inhabited

/-- The sort key of R276: class, consist number, car number, UID, index. -/
def qLe (a b : QDemand) : Bool :=
  let ka := [a.d.cls, a.consistNo, a.carNo, a.uid, a.index]
  let kb := [b.d.cls, b.consistNo, b.carNo, b.uid, b.index]
  !(decide (kb < ka))

/-- What the placement has built so far: free bytes of each slot and phase, owner of each slot, placements,
unsatisfied demands, next demand slot. -/
structure Build where
  free : List (Nat × List Nat)
  owners : List (Nat × Nat)
  placed : List Placed
  unsat : List (QDemand × Nat)
  next : Nat
  deriving DecidableEq, Repr, Inhabited

/-- The bytes a demand needs in a slot (R163). -/
def needOf (d : Demand) : Nat := 8 + 8 * ((d.size + 7) / 8)

/-- fits of R276: every phase o, o + p, … has the bytes. -/
def fits (row : List Nat) (o p need : Nat) : Bool :=
  row.zipIdx.all fun x => x.2 % p != o || need ≤ x.1

/-- place of R276 on one slot's row. -/
def placeRow (row : List Nat) (o p need : Nat) : List Nat :=
  row.zipIdx.map fun x => if x.2 % p == o then x.1 - need else x.1

/-- The first slot of a list, and its lowest offset, at which a demand fits (place_first_fit of R276). -/
def firstFit (free : List (Nat × List Nat)) (p need : Nat) : List Nat → Option (Nat × Nat)
  | [] => none
  | s :: l =>
    match (List.range p).find? fun o => fits ((Sparse.find s free).getD []) o p need with
    | some o => some (s, o)
    | none => firstFit free p need l

/-- Place a demand at a slot and offset. -/
def Build.place (b : Build) (q : QDemand) (s o : Nat) : Build :=
  { b with
    free := b.free.map fun e => if e.1 == s then (s, placeRow e.2 o (2 ^ q.d.period) (needOf q.d)) else e
    placed := b.placed ++ [⟨q.node, q.index, s, o, q.d⟩] }

/-- One demand of R276's loop. -/
def Build.step (payload poolFirst : Nat) (b : Build) (q : QDemand) : Build :=
  let need := needOf q.d
  let mine := (b.owners.filter fun o => o.2 == q.node).map fun o => o.1
  if need > payload then { b with unsat := b.unsat ++ [(q, 1)] }
  else match firstFit b.free (2 ^ q.d.period) need mine with
    | some (s, o) => b.place q s o
    | none =>
      if b.next ≥ poolFirst then { b with unsat := b.unsat ++ [(q, 2)] }
      else
        let s := b.next
        let b1 : Build := { b with
          next := s + 1
          owners := b.owners ++ [(s, q.node)]
          free := b.free ++ [(s, List.replicate 64 payload)] }
        b1.place q s 0

/-- The schedule of R276 for a list, a slot payload and a slot budget. -/
def synthesise (list : List SynNode) (payload sSyn poolFirst : Nat) : Schedule :=
  let homes := list.zipIdx.map fun x => (4 + x.2, x.2)
  let b0 : Build := ⟨homes.map fun h => (h.1, List.replicate 64 (payload - 16)), homes, [], [], 4 + list.length⟩
  let q := sortBy qLe (list.zipIdx.flatMap fun x => x.1.demands.zipIdx.map fun y =>
    QDemand.mk x.2 y.2 y.1 x.1.consistNo x.1.carNo x.1.uid)
  let b := q.foldl (Build.step payload poolFirst) b0
  ⟨list, sSyn, poolFirst, payload, b.owners, b.placed,
    b.unsat.map fun u => Unsat.mk (list.getD u.1.node default) u.1.index u.1.d u.2⟩

/-- The parcels due in a slot and phase, in order (plan of R276). -/
def Schedule.plan (c : Schedule) (slot phi : Nat) : List Placed :=
  c.placed.filter fun p => p.slot == slot && phi % 2 ^ p.demand.period == p.offset

/-- A position's home slot, 0 if it has none. -/
def Schedule.homeOf (c : Schedule) (pos : Nat) : Nat :=
  match c.list.zipIdx.find? fun x => x.1.pos == pos && pos != 0 with
  | some x => 4 + x.2
  | none => 0

/-- Slots with a present owner: (slot, position). -/
def Schedule.slotOwners (c : Schedule) : List (Nat × Nat) :=
  c.owners.filterMap fun o =>
    let p := (c.list.getD o.2 default).pos
    if p == 0 then none else some (o.1, p)

namespace State

/-- A verified table by its digest: the own one or one of the cache (R280). -/
def tableOf (s : State) (digest : Nat) : Option FuncTable :=
  match s.synth.ownTable with
  | some t => if t.digest == digest then some t else s.synth.cache.find? fun x => x.digest == digest
  | none => s.synth.cache.find? fun x => x.digest == digest

/-- The consists of a directory whose declaring table the node lacks (R281). -/
def tablesLacking (s : State) (d : Directory) : List Nat :=
  (consistsOf d).filter fun c => match declaring d c with
    | some m => (s.tableOf m.entry.ftDigest).isNone
    | none => false

/-- The synthesis node list of a directory, uncapped (R274). -/
def synNodes (s : State) (d : Directory) : List SynNode :=
  sortBy rankLe ((consistsOf d).flatMap fun c => match declaring d c with
    | some m => (match s.tableOf m.entry.ftDigest with
        | some t => consistNodes d c t
        | none => [])
    | none => [])

/-- The slot budget of R275: S_syn and pool_first. -/
def slotBudget (s : State) (d : Directory) (homes ghosts : Nat) : Nat × Nat :=
  let n := d.nodes.length
  let p := profileOf d.profile
  let sEff := sEffOf (s.get Reg.LINE_RULES_SLOTS) d.profile (s.get Reg.TURN_LEN_LEN) n
  let sSyn := min sEff ((s.get Reg.TURN_LEN_LEN * 10000 - 660000 - (min 63 (n + ghosts) - 1) * p.hop) / p.slotLen)
  let pool := min (s.get Reg.SYN_RULES_SPARES) (sSyn - 4 - homes)
  (sSyn, sSyn - pool)

/-- The node's own demands that the declaring table leaves out: all when undeclared, else those whose function the own
car record there lacks (R282, reason 3). -/
def undeclaredDemands (s : State) (d : Directory) (list : List SynNode) : List (Nat × Demand) :=
  match s.synth.ownTable with
  | none => []
  | some t =>
    match (t.cars.find? fun c => c.carIndex == s.get Reg.INAUG_CAR_INDEX) with
    | none => []
    | some c =>
      let own := c.demands.zipIdx.map fun x => (x.2, x.1)
      match (list.find? fun x => x.pos == d.ownPos && d.ownPos != 0) with
      | none => own
      | some m => own.filter fun x => !(m.demands.any fun y => y.func == x.2.func)

end State

end Sys2Proof.Machine
end

