-- ==== Sys2Proof/Machine/Relay.lean ====
section
/-!
DEFINITION. The line-service slots (R152, R153): KICKOFF, CONFIRM (R242 to R245, R256 to R258), CLAIM (R285 to R289), slot 3
(R569 to R571) and DIRECTORY frames (R251 to R253), sent and received.
-/

namespace Sys2Proof.Machine

namespace State

/-! What the node knows of its line (R242) -/

/-- The new directory's digest, first 128 bits. -/
def newDigest (s : State) : Nat := match s.inaug.newDir with
  | some d => d.digest / 2 ^ 256
  | none => 0

/-- N and ROOT of the line. -/
def lineN (s : State) : Nat := match s.dirKnown with
  | some d => d.nodes.length
  | none => match s.inaug.lineView with
    | some (_, _, n, _) => n
    | none => 0

def lineRoot (s : State) : Nat := match s.dirKnown with
  | some d => d.root
  | none => match s.inaug.lineView with
    | some (_, _, _, r) => r
    | none => 0

/-- The node can compare a CONFIRM frame with its own line. -/
def knowsLine (s : State) : Bool := s.dirKnown.isSome || s.inaug.lineView.isSome || s.icount == 0

/-! CONFIRM (R248, R256, R257) -/

/-- The node is ready in this turn (R248, R571). The first turn of STOP is judged neither on h nor on the neighbours' LSTATE [6],
which date from the turn before it: Tables 10-5 and 10-9 count it as ready. -/
def readyNow (s : State) : Bool :=
  let first := s.phase == 1 && s.get Reg.INAUG_STAT_TURNS == 0
  let still (ls : Nat) : Bool := ls % 16 == 4 && (first || bit ls 6)
  s.lstate == 4 && s.cpuUp 0 && (first || s.inaug.prevH == s.inaug.h) && !s.keys.saltUnsettled &&
  ((List.range 4).all fun n => !s.nbrPort n || still (s.port n).nbrLs) && s.partnerUp.all fun x => still x.2.ls

/-- PHASE of this node's CONFIRM frames (Table 10-4). -/
def phaseCode (s : State) : Nat :=
  if s.inaug.yielding then 6 else if s.inaug.stopReq && !s.pins.inhibit then 1
  else match s.phase with
    | 1 => 2 | 2 => 3 | 3 => 4 | 4 => 5 | _ => 0

/-- The CONFIRM payload this node originates (Table 10-4). -/
def confirmOf (s : State) : Confirm :=
  let new := s.phase == 3 || s.phase == 4
  { phase := s.phaseCode, notReady := s.standing && !s.readyNow, mismatch := s.inaug.ownMismatch, stagedMixed := false
    attempt := s.get Reg.INAUG_STAT_ATTEMPT, n := s.lineN
    adopt := if s.phase == 4 then s.get Reg.INAUG_ADOPT_TURN else 0
    root := s.lineRoot, digest := if new then s.newDigest else s.digest128, staged := s.conf.lrStaged }

/-- What a relayer makes of a CONFIRM payload (R257). -/
def mergeConfirm (s : State) (c : Confirm) : Confirm :=
  let new := s.phase == 3 || s.phase == 4
  let adopt := if s.phase == 4 then s.get Reg.INAUG_ADOPT_TURN else 0
  { c with
    phase := if s.inaug.yielding then 6 else if s.inaug.stopReq && !s.pins.inhibit then 1 else c.phase
    notReady := c.notReady || (s.standing && !s.readyNow)
    mismatch := c.mismatch || s.inaug.ownMismatch || (new && (c.digest != s.newDigest || c.adopt != adopt))
    stagedMixed := c.stagedMixed || c.staged != s.conf.lrStaged }

/-- The CONFIRM frames on a link differ from the node's own line (R242). -/
def differs (s : State) (f : Frame) (c : Confirm) : Bool :=
  f.hdr.icount != s.icount || c.root != s.lineRoot ||
  (c.digest != s.digest128 && !(c.phase == 4 || c.phase == 5) && !(s.phase == 3 || s.phase == 4))

/-- Decide a meeting (R244, R245): the larger N wins, then the lower ROOT. -/
def meet (s : State) (n : Nat) (c : Confirm) : State :=
  if (s.port n).met || s.pins.inhibit then s
  else
    let s := s.modPort n fun p => { p with met := true }
    let win := s.lineN > c.n || (s.lineN == c.n && s.lineRoot < c.root)
    let s := s.record 0x3503 2 1 (b2n !win) (c.root % 2 ^ 32)
    if win then s.raise 6 n else s.modInaug fun i => { i with yieldNext := true }

/-- Read a CONFIRM frame for the meeting rules (R242 to R244), before the ICOUNT check. -/
def readConfirm (s : State) (n : Nat) (f : Frame) (c : Confirm) : State :=
  let st := (s.port n).nbrLs % 16
  if !s.following || !s.knowsLine || !s.lineUp n then s
  else if (st == 4 || st == 5) && s.differs f c then
    let s := if (s.port n).foreign then s else (s.modPort n fun p => { p with foreign := true }).showEnds
    s.meet n c
  else if (s.port n).foreign && !s.differs f c then
    (s.modPort n fun p => { p with foreign := false, met := false }).showEnds
  else s

/-- Store a CONFIRM frame (R237, R245, R258, R259). A node that has integrated finds its own line again in a frame that names its
directory (R242). -/
def storeConfirm (s : State) (e : Nat) (f : Frame) (c : Confirm) : State :=
  let own := s.inaug.dir.any fun d =>
    f.hdr.icount == d.icount && c.root == d.root && c.digest == d.digest / 2 ^ 256 && c.phase != 4 && c.phase != 5
  s.modInaug fun i => { i with
    seen := { i.seen with
      stopReq := i.seen.stopReq || c.phase == 1, yielded := i.seen.yielded || c.phase == 6
      stop := i.seen.stop || c.phase == 2, notReady := i.seen.notReady || c.notReady
      mismatch := i.seen.mismatch || c.mismatch, confirms := i.seen.confirms ++ [(e, c)] }
    joined := i.joined && !own
    lineView := if i.dir.isNone || (i.joined && !own) then some (f.hdr.icount, c.digest, c.n, c.root) else i.lineView }

/-! CLAIM (R285 to R289) -/

/-- Note a slot 1 frame for the witness message of the turn (R331): the frame's sender is the node that tagged it. -/
def witness1 (s : State) (chanB : Bool) (f : Frame) : State :=
  if f.hdr.slot == 1 then s.modRed fun r => { r with seen1 := (f.hdr.sender, chanB) :: r.seen1 } else s

/-- Holder line UIDs of the pool slots in force at this turn's tick, and their CRC (Table 11-10). -/
def poolCrc (s : State) : Nat :=
  match s.synth.sched with
  | none => crc32c []
  | some c =>
    let slots := (List.range (c.sSyn - c.poolFirst)).map fun i => c.poolFirst + i
    crc32c (slots.flatMap fun x =>
      let g := s.synth.grants.find? fun g => g.effect ≤ s.clock.turn && g.first.contains x
      beBytes 8 ((g.map fun g => g.uid).getD 0))

/-- The node's reason 3 demands (R282). -/
def ownUndeclared (s : State) : List (Nat × Demand) :=
  match s.inaug.dir, s.synth.sched with
  | some d, some c => s.undeclaredDemands d c.list
  | _, _ => []

/-- The node is undeclared in the schedule in force (R273). -/
def isUndeclared (s : State) : Bool := s.on Reg.SYN_STAT_UNDECLARED

/-- The node may claim (R285). -/
def mayClaim (s : State) : Bool :=
  s.lstate == 4 && s.phase == 0 && !s.ownUndeclared.isEmpty && !(s.synth.grants.any fun g => g.uid == s.lineUid)

/-- The packing of the reason 3 demands into empty slots 0, 1, … (R285). -/
def claimPack (s : State) (c : Schedule) : Build :=
  let ds := sortBy (fun (a b : Nat × Demand) => a.2.cls < b.2.cls || (a.2.cls == b.2.cls && a.1 ≤ b.1)) s.ownUndeclared
  let q := ds.map fun x => QDemand.mk 0 x.1 x.2 0 0 0
  let b0 : Build := ⟨[], [], [], [], 0⟩
  q.foldl (Build.step c.payload 1000) b0

/-- The own grant in force. -/
def ownGrant (s : State) : Option Grant := s.synth.grants.find? fun g => g.uid == s.lineUid && g.effect ≤ s.clock.turn

/-- The demands that the declaring table leaves out and no grant carries, with their reason (R282, R285, R288): 3, or 2 for one that a
grant has no slot for. -/
def ownOpen (s : State) : List (Nat × Demand × Nat) :=
  match s.ownGrant, s.synth.sched with
  | some g, some c => s.ownUndeclared.filterMap fun x =>
    match (s.claimPack c).placed.find? fun p => p.index == x.1 with
    | some p => if p.slot + b2n g.home < g.first.length then none else some (x.1, x.2, 2)
    | none => some (x.1, x.2, 3)
  | _, _ => s.ownUndeclared.map fun x => (x.1, x.2, 3)

/-- Slots requested (R285): the packing of the reason 3 demands into empty slots, and one for a home. -/
def claimCount (s : State) : Nat :=
  match s.synth.sched with
  | none => 0
  | some c => min ((s.claimPack c).owners.length + b2n s.isUndeclared) (min 8 (c.sSyn - c.poolFirst))

/-- The node's own claim record (Table 11-10), where it is due in this turn (R286). -/
def ownClaim (s : State) : Option ClaimRec :=
  if s.mayClaim && s.clock.turn % 4 == s.ownPos % 4 && s.claimCount > 0 then
    some ⟨s.lineUid, s.claimCount, s.isUndeclared, min 65535 (s.clock.turn - s.synth.claimSince.getD s.clock.turn)⟩
  else none

/-- Append the own record to a CLAIM payload. -/
def mergeClaim (s : State) (c : Claim) : Claim :=
  { c with
    poolReset := c.poolReset || s.synth.resetNow
    recs := match s.ownClaim with
      | some r => if c.recs.any fun x => x.uid == r.uid then c.recs else c.recs ++ [r]
      | none => c.recs }

/-- The own claim is on the line (SYN_CLAIM). -/
def noteOwnClaim (s : State) : State :=
  match s.ownClaim with
  | none => s
  | some r =>
    let s := (s.set Reg.SYN_CLAIM_PENDING [] 1).set Reg.SYN_CLAIM_REQUEST [] r.count
    s.modSynth fun y => { y with
      claimSince := match y.claimSince with
        | some t => some t
        | none => some s.clock.turn
      claims := if y.claims.contains r then y.claims else y.claims ++ [r] }

/-- Store a CLAIM frame (R287, R289). -/
def storeClaim (s : State) (c : Claim) : State :=
  let s := s.modSynth fun y => { y with
    claims := y.claims ++ c.recs.filter fun r => !y.claims.any fun x => x.uid == r.uid
    gotReset := y.gotReset || c.poolReset }
  if s.phase == 0 && s.synth.sched.isSome && c.poolCrc != s.poolCrc then s.modSynth fun y => { y with resetNext := true } else s

/-! Slot 3 (R569 to R571) -/

/-- The slot 3 parcel this node originates (Table 21-10). -/
def serviceOf (s : State) : Service :=
  ⟨s.keys.salt.getD 0, s.get Reg.SEC_FK_ACTIVE_ID, s.get Reg.SEC_FK_STAGED_ID, 0⟩

/-- What a relayer makes of a slot 3 parcel (R570). -/
def mergeService (s : State) (v : Service) : Service :=
  let mixed := v.activeId != s.get Reg.SEC_FK_ACTIVE_ID || v.stagedId != s.get Reg.SEC_FK_STAGED_ID
  { v with
    salt := match s.keys.salt with
      | some x => min x v.salt
      | none => v.salt
    flags := if mixed then v.flags ||| 1 else v.flags }

/-- Store a slot 3 frame (R570, R571, R573). -/
def storeService (s : State) (n : Nat) (v : Service) : State :=
  s.modKeys fun k => { k with
    slot3 := k.slot3 ++ [(n, v)]
    lastSalt := Sparse.put n v.salt k.lastSalt
    saltUnsettled := k.saltUnsettled || k.salt != some v.salt }

/-! DIRECTORY (R251 to R253) -/

/-- NBR_E1 (Table 10-3): E1A before E1B, of either device of a pair. -/
def nbrE1 (s : State) : Nat :=
  let own (n : Nat) : Option Nat :=
    if s.nbrPort n then some (s.get Reg.LPn_NBR_LO_UID [n] + 2 ^ 32 * s.get Reg.LPn_NBR_HI_UID [n])
    else (s.partnerUp.find? fun x => x.1 == n).map fun x => x.2.nbr
  ((own 0).orElse fun _ => own 1).getD 0

/-- The DIRECTORY entry that this device composes (Table 10-3). -/
def composeEntry (s : State) : DirEntry :=
  { luid := s.lineUid, puid := if s.paired then (if s.lineUid == s.uid then s.partnerUid else s.uid) else 0
    nbrE1 := s.nbrE1, consist := s.get Reg.INAUG_CONSIST_ID, carIndex := s.get Reg.INAUG_CAR_INDEX
    carCount := s.get Reg.INAUG_CAR_COUNT, paired := s.paired
    cab := s.pins.cab || (s.paired && s.xlinkUp && (match s.red.partner with
      | some p => p.cab
      | none => false))
    frontE2 := s.on Reg.INAUG_CAR_FRONT_E2, linkMin := s.linkMin, profMax := s.get Reg.CAPS_PROFILE_MAX
    hE1 := (s.hBeyond 0).getD 0, hE2 := (s.hBeyond 1).getD 0, icountMax := s.inaug.icountMax
    cfgVer := s.get Reg.CFG_VER_ACTIVE_VER, ftDigest := (s.synth.ownTable.map fun t => t.digest).getD 0
    lrActive := s.conf.lrActive, lrStaged := s.conf.lrStaged }

/-- The own DIRECTORY entry: in a pair that of the deciding device (R252). -/
def ownEntry (s : State) : DirEntry :=
  if s.decides then s.composeEntry else (s.red.partner.bind fun p => p.entry).getD s.composeEntry

/-- The payload this node originates in a relay slot; none where it has none. -/
def slotBody (s : State) (slot h : Nat) : Option (RelayWord → Payload) :=
  if slot == 1 then some fun w => .confirm w s.confirmOf
  else if slot == 2 then some fun w => .claim w (s.mergeClaim ⟨false, s.poolCrc, []⟩)
  else if slot == 3 then some fun w => .service w s.serviceOf
  else if s.phase == 2 && slot == 4 + h && s.readyNow then some fun w => .directory w s.ownEntry
  else none

/-- Originate the relay frame of a slot on port n (R153, R251). -/
def sendRelay (s : State) (n slot : Nat) (mid : Bool) (corr : Int) : State :=
  let s := if slot == 3 then s.withSalt else s
  match s.slotBody slot (s.txH n) with
  | none => s
  | some body => (if slot == 2 then s.noteOwnClaim else s).originateRelay n slot mid corr body

end State

/-- KICKOFF_SEND (R155, R218, R219, R222): on every UP line port, g/2 after the tick. -/
def execKickoffSend (s : State) : Result :=
  .next (if s.alive && s.kicks && s.todo .kickoff then
    let s := (s.did s.clock.turn .kickoff).modStart fun x => { x with kcount := min 65535 (x.kcount + 1) }
    let k : Kickoff := ⟨s.lineUid, s.uid, s.start.kcount, s.paired, s.sync.histRate.isSome⟩
    (List.range 4).foldl (fun s n => if s.lineUp n && !(s.port n).newlink && !(s.port n).foreign then
      s.transmit n (tenths (s.prof.guard / 2)) false false (s.tagged n ⟨.kickoff, s.header 0 0 0 0, .kickoff k, 0, 0⟩) else s) s
  else s)

/-- RELAY_ORIGINATE (R153, R251): the node at the start end of a direction, in slots 1 to 3; in DISCOVER every node in slot
4 + h of each direction. `corr`: actual minus scheduled transmit time, in 2^-16 ns (R186). -/
def execRelayOriginate (slot : Fin 67) (corr : Int) (s : State) : Result :=
  .next (if s.alive && s.mayOriginate && slot.val != 0 && s.todo (.relay slot.val) then
    (List.range 4).foldl (fun s n =>
      let start := !s.endNbr (1 - n / 2)
      if s.lineUp n && !(s.port n).newlink && (start || slot.val ≥ 4) && (slot.val ≤ 3 || !(s.port n).foreign) then
        (if start then s.learnH (1 - n / 2) 0 else s).sendRelay n slot.val false corr
      else s) (s.did s.clock.turn (.relay slot.val))
  else s)

/-- RELAY_MID_ORIGINATE (R153): behind a silent upstream node on port n, in slots 1 to 3. -/
def execRelayMidOriginate (n : Fin 4) (slot : Fin 4) (corr : Int) (s : State) : Result :=
  let m := State.across n.val
  .next (if s.alive && s.mayOriginate && slot.val != 0 && s.nbrPort n.val && s.lineUp m && !(s.port m).newlink &&
      !(s.port m).midNow.contains slot.val && !((s.port n.val).relay.any fun r => r.1 == slot.val) then
    let s := if (s.port m).midRun.contains slot.val then s
      else s.recordS 0x3204 3 3 m slot.val
    (s.modPort m fun p => { p with midNow := slot.val :: p.midNow }).sendRelay m slot.val true corr
  else s)

namespace State

/-- A CONFIRM frame that the partner passes over crosslink n (R229, R258). -/
def rxConfirmX (s : State) (n : Nat) (f : Frame) (w : RelayWord) (b : Confirm) (c : RxCheck) : State :=
  let (ok, s) := s.rxX n f c
  if !ok then s
  else if s.following then (s.storeConfirm (b2n c.end2) f b).witness1 (!s.pins.strapChan) f
  else s.startupX n f w c

/-- A CONFIRM frame on a line port (R242 to R245, R256 to R258): read for the meeting rules before its ICOUNT is checked. -/
def rxConfirm (s : State) (n : Nat) (f : Frame) (w : RelayWord) (b : Confirm) (c : RxCheck) : State :=
  let sound := s.rxSound f c (s.tagOk n f)
  let s := s.when sound fun s => s.readConfirm n f b
  let solo := s.lstate == 1 && sound && s.inaug.dir.isNone
  let b' := s.mergeConfirm b
  let (r, s) := s.rxRelay n f w c
  let s := s.when solo fun s => s.modInaug fun i => { i with lineView := some (f.hdr.icount, b.digest, b.n, b.root) }
  match r with
  | .drop => s
  | .stomp => s.relayOn n f w c true (b' != b) fun w => .confirm w b'
  | .good => (((s.storeConfirm (n / 2) f b).witness1 (n % 2 == 1) f).toPartner f).relayOn n f w c false (b' != b) fun w => .confirm w b'

/-- A CLAIM frame that the partner passes over crosslink n (R229, R287). -/
def rxClaimX (s : State) (n : Nat) (f : Frame) (w : RelayWord) (b : Claim) (c : RxCheck) : State :=
  let (ok, s) := s.rxX n f c
  if !ok then s else if s.following then s.storeClaim b else s.startupX n f w c

/-- A CLAIM frame on a line port (R286, R287, R289). -/
def rxClaim (s : State) (n : Nat) (f : Frame) (w : RelayWord) (b : Claim) (c : RxCheck) : State :=
  let b' := s.mergeClaim b
  let (r, s) := s.rxRelay n f w c
  match r with
  | .drop => s
  | .stomp => s.relayOn n f w c true (b' != b) fun w => .claim w b'
  | .good => (((s.storeClaim b).noteOwnClaim).toPartner f).relayOn n f w c false (b' != b) fun w => .claim w b'

/-- A slot 3 frame that the partner passes over crosslink n (R229, R573). -/
def rxServiceX (s : State) (n : Nat) (f : Frame) (w : RelayWord) (b : Service) (c : RxCheck) : State :=
  let (ok, s) := s.rxX n f c
  if !ok then s else if s.following then s.storeService (2 * b2n c.end2 + b2n (!s.pins.strapChan)) b else s.startupX n f w c

/-- A slot 3 frame on a line port (R569 to R571, R573): a node in LISTEN keeps the salt for its integration. -/
def rxService (s : State) (n : Nat) (f : Frame) (w : RelayWord) (b : Service) (c : RxCheck) : State :=
  let b' := s.mergeService b
  let seen := !s.following && s.lstate == 1 && s.rxSound f c (s.tagOk n f)
  let (r, s) := s.rxRelay n f w c
  let s := s.when seen fun s => s.modKeys fun k => { k with lastSalt := Sparse.put n b.salt k.lastSalt }
  match r with
  | .drop => s
  | .stomp => s.relayOn n f w c true (b' != b) fun w => .service w b'
  | .good => ((s.storeService n b).toPartner f).relayOn n f w c false (b' != b) fun w => .service w b'

/-- Store a DIRECTORY entry of the DISCOVER turn, the first of its slot and end (R252, R253). -/
def storeEntry (s : State) (e : Nat) (f : Frame) (x : DirEntry) : State :=
  if s.phase != 2 then s
  else s.modInaug fun i => { i with
    wave := if i.wave.any fun y => y.1 == e && y.2.1 == f.hdr.slot then i.wave else i.wave ++ [(e, f.hdr.slot, x)] }

/-- A DIRECTORY frame that the partner passes over crosslink n (R252). -/
def rxDirectoryX (s : State) (n : Nat) (f : Frame) (e : DirEntry) (c : RxCheck) : State :=
  let (ok, s) := s.rxX n f c
  if ok && s.following then s.storeEntry (b2n c.end2) f e else s

/-- A DIRECTORY frame on a line port (R251 to R253). -/
def rxDirectory (s : State) (n : Nat) (f : Frame) (w : RelayWord) (e : DirEntry) (c : RxCheck) : State :=
  let (r, s) := s.rxRelay n f w c
  match r with
  | .drop => s
  | .stomp => s.relayOn n f w c true false fun w => .directory w e
  | .good => ((s.storeEntry (n / 2) f e).toPartner f).relayOn n f w c false false fun w => .directory w e

end State

/-- CONFIRM_FRAME_RECEIVE (R242 to R245, R256 to R258). -/
def execConfirmFrameReceive (n : Fin 4) (f : Frame) (c : RxCheck) (s : State) : Result :=
  .next (if !s.alive || s.pst n.val != 4 then s
    else match f.payload with
      | .confirm w b => if s.isXlink n.val then s.rxConfirmX n.val f w b c.stamp else s.rxConfirm n.val f w b c.stamp
      | _ => s)

/-- CLAIM_FRAME_RECEIVE (R286, R287, R289). -/
def execClaimFrameReceive (n : Fin 4) (f : Frame) (c : RxCheck) (s : State) : Result :=
  .next (if !s.alive || s.pst n.val != 4 then s
    else match f.payload with
      | .claim w b => if s.isXlink n.val then s.rxClaimX n.val f w b c.stamp else s.rxClaim n.val f w b c.stamp
      | _ => s)

/-- SERVICE_FRAME_RECEIVE (R569 to R571, R573). -/
def execServiceFrameReceive (n : Fin 4) (f : Frame) (c : RxCheck) (s : State) : Result :=
  .next (if !s.alive || s.pst n.val != 4 then s
    else match f.payload with
      | .service w b => if s.isXlink n.val then s.rxServiceX n.val f w b c.stamp else s.rxService n.val f w b c.stamp
      | _ => s)

/-- DIRECTORY_FRAME_RECEIVE (R251 to R253): relayed in every phase (R153). -/
def execDirectoryFrameReceive (n : Fin 4) (f : Frame) (c : RxCheck) (s : State) : Result :=
  .next (if !s.alive || s.pst n.val != 4 then s
    else match f.payload with
      | .directory w e => if s.isXlink n.val then s.rxDirectoryX n.val f e c.stamp else s.rxDirectory n.val f w e c.stamp
      | _ => s)

end Sys2Proof.Machine
end

