-- ==== Sys2Proof/Machine/Numbering.lean ====
section
/-!
DEFINITION. The directory (R132, R253 to R255): the order of a wave's entries, validity, the line profile, numbering and the
directory digest; consist function tables as bytes (R269 to R271).
-/

namespace Sys2Proof.Machine

/-- The position of the pivot: the only active cab, else the lowest line UID among several cabs or all entries (R254). -/
def pivotIndex (es : List DirEntry) : Nat :=
  let cabs := es.filter fun e => e.cab
  let pool := if cabs.length ≥ 1 then cabs else es
  let low := pool.foldl (fun a e => min a e.luid) ((pool.headD default).luid)
  if cabs.length == 1 then (es.findIdx? fun e => e.cab).getD 0
  else (es.findIdx? fun e => e.luid == low && (cabs.isEmpty || e.cab)).getD 0

/-- The reference end is at the first entry (R254). -/
def refLow (es : List DirEntry) : Bool :=
  let n := es.length
  let i := pivotIndex es
  if i < n - 1 - i then true else if i > n - 1 - i then false
  else (es.headD default).luid < (es.getD (n - 1) default).luid

/-- End 1 of the entry at position p (from 1) faces the reference end (R254). -/
def end1Faces (es : List DirEntry) (p : Nat) : Bool :=
  let x := es.getD (p - 1) default
  if p == 1 then x.nbrE1 == 0
  else
    let prev := es.getD (p - 2) default
    x.nbrE1 == prev.luid || x.nbrE1 == prev.puid

/-- Consist numbers in order of first appearance (R254). -/
def consistOrder (es : List DirEntry) : List Nat :=
  es.foldl (fun l e => if l.contains e.consist then l else l ++ [e.consist]) []

/-- Number the entries, given in position order (R254). -/
def numberEntries (es : List DirEntry) : List Numbered :=
  let order := consistOrder es
  es.zipIdx.map fun (x, k) =>
    let members := es.zipIdx.filter fun y => y.1.consist == x.consist
    let low := members.foldl (fun a y => min a y.1.carIndex) ((members.headD (x, k)).1.carIndex)
    let (m, mk) := (members.find? fun y => y.1.carIndex == low).getD (x, k)
    let e1 := end1Faces es (mk + 1)
    let fwd := if m.frontE2 then !e1 else e1
    { entry := x, pos := k + 1, consistNo := (order.findIdx? fun c => c == x.consist).getD 0 + 1
      carNo := if fwd then x.carIndex else x.carCount + 1 - x.carIndex, reversed := !fwd }

/-- The profile that meets R132: allowed, no faster than any LINK_MIN and any fastest profile. -/
def selectProfile (allow : Nat) (es : List DirEntry) : Option Nat :=
  [3, 2, 1, 0].find? fun p => bit allow p && es.all fun e => (e.linkMin == 0 || p + 1 ≤ e.linkMin) && p ≤ e.profMax

/-- The bytes the directory digest covers (R255). -/
def digestBytes (icount prof : Nat) (ns : List Numbered) : List Byte :=
  beBytes 4 icount ++ beBytes 1 ns.length ++ beBytes 1 prof ++
  ns.flatMap fun x => beBytes 1 x.pos ++ beBytes 1 x.consistNo ++ beBytes 1 x.carNo ++ beBytes 1 (b2n x.reversed) ++ x.entry.bytes

/-- The new directory of a list of entries in wave order; `base` is the highest ICOUNT_MAX (R254). -/
def makeDirectory (es : List DirEntry) (prof icount luid : Nat) : Directory :=
  let es := if refLow es then es else es.reverse
  let ns := numberEntries es
  { nodes := ns, icount := icount, profile := prof
    root := es.foldl (fun a e => min a e.luid) ((es.headD default).luid)
    digest := sha384 (digestBytes icount prof ns), adopt := 0
    ownPos := ((ns.find? fun x => x.entry.luid == luid).map fun x => x.pos).getD 0 }

/-- A consist function table's bytes (Tables 11-1 to 11-3). -/
def FuncTable.bytes (t : FuncTable) : List Byte :=
  let cars := t.cars.flatMap fun c =>
    beBytes 8 c.uidA ++ beBytes 8 c.uidB ++ beBytes 1 c.carIndex ++ beBytes 1 c.demands.length ++ beBytes 1 (b2n c.paired) ++
    beBytes 5 0 ++ c.demands.flatMap fun d => beBytes 2 d.func ++ beBytes 1 d.cls ++ beBytes 1 d.period ++ beBytes 2 d.size ++ beBytes 2 0
  beBytes 4 t.consist ++ beBytes 1 t.carCount ++ beBytes 1 1 ++ beBytes 2 t.length ++ beBytes 8 0 ++ cars

/-- Read n demand entries. -/
def parseDemands (l : List Byte) : Nat → Nat → List Demand
  | _, 0 => []
  | off, n + 1 => ⟨beAt l off 2, beAt l (off + 2) 1 % 8, beAt l (off + 3) 1 % 8, beAt l (off + 4) 2⟩ :: parseDemands l (off + 8) n

/-- Read n car records. -/
def parseCars (l : List Byte) : Nat → Nat → List CarRec
  | _, 0 => []
  | off, n + 1 =>
    let k := beAt l (off + 17) 1
    ⟨beAt l off 8, beAt l (off + 8) 8, beAt l (off + 16) 1, bit (beAt l (off + 18) 1) 0, parseDemands l (off + 24) k⟩ ::
      parseCars l (off + 24 + 8 * k) n

/-- Read a consist function table from its bytes (R269). -/
def parseTable (l : List Byte) (digest : Nat) : FuncTable :=
  let n := beAt l 4 1
  ⟨beAt l 0 4, n, parseCars l 16 n, beAt l 6 2, digest⟩

/-- FT_DIGEST of a table's bytes (R271). -/
def tableDigest (l : List Byte) : Nat := sha384 l / 2 ^ 256

namespace State

/-- The wave is complete: at each end E the H_E entries of slots 4 to 3 + H_E (R253). -/
def waveDone (s : State) : Bool :=
  [0, 1].all fun e => (List.range ((s.hBeyond e).getD 0)).all fun k =>
    s.inaug.wave.any fun x => x.1 == e && x.2.1 == 4 + k

/-- The entries in the order of R253: end 1 from slot 4 inward, the own entry, end 2 outward. -/
def waveEntries (s : State) : List DirEntry :=
  let at_ (e k : Nat) : List DirEntry := ((s.inaug.wave.find? fun x => x.1 == e && x.2.1 == 4 + k).map fun x => x.2.2).toList
  ((List.range ((s.hBeyond 0).getD 0)).flatMap fun k => at_ 0 k) ++ [s.ownEntry] ++
  ((List.range ((s.hBeyond 1).getD 0)).reverse.flatMap fun k => at_ 1 k)

/-- Why the directory of a wave is invalid (R253), 0 if it is valid. -/
def waveInvalid (s : State) (es : List DirEntry) : Nat :=
  if es.length > 63 then 1
  else if (consistOrder es).length > 32 then 2
  else if (es.any fun e => e.lrActive != (es.headD default).lrActive) then 3
  else if (selectProfile ((s.rulesView es).get Reg.LINE_RULES_PROF_ALLOW) es).isNone then 4
  else 0

/-- The directory of the wave (R254): ICOUNT is the greatest ICOUNT_MAX + 1. -/
def waveDirectory (s : State) (es : List DirEntry) : Directory :=
  makeDirectory es ((selectProfile ((s.rulesView es).get Reg.LINE_RULES_PROF_ALLOW) es).getD 0)
    ((es.foldl (fun a e => max a e.icountMax) 0 + 1) % 2 ^ 32) s.lineUid

/-- The train-of-one directory (R226). -/
def soloDirectory (s : State) : Directory :=
  let e := { s.ownEntry with hE1 := 0, hE2 := 0 }
  let prof := ([3, 2, 1, 0].find? fun p => bit (s.get Reg.LINE_RULES_PROF_ALLOW) p && p ≤ e.profMax).getD 0
  makeDirectory [e] prof ((s.icount + 1) % 2 ^ 32) s.lineUid

end State

end Sys2Proof.Machine
end

