-- ==== Sys2Proof/Machine/Inaug.lean ====
section
/-!
DEFINITION. Start-up (Table 9-2), triggers (R230 to R240), the line standing still (R246 to R250), fallback (R261, R262), the
schedule in force, and the commands LISTEN_TIMEOUT to STOP_HOLD_OUT and those of chapter 11.
-/

namespace Sys2Proof.Machine

namespace State

/-! The schedule in force (chapter 11) -/

/-- Slots with an owner in a turn: the schedule's, and the grants in force by then (R287): (slot, position). -/
def ownersAt (s : State) (turn : Nat) : List (Nat × Nat) :=
  match s.synth.sched with
  | none => []
  | some c => c.slotOwners ++ (s.synth.grants.filter fun g => g.effect ≤ turn && g.pos != 0).flatMap fun g =>
      g.first.map fun x => (x, g.pos)

/-- Own unsatisfied demands of every reason (R282). -/
def ownUnsat (s : State) : Nat :=
  match s.synth.sched with
  | none => 0
  | some c => (c.unsat.filter fun u => u.node.pos == s.ownPos && s.ownPos != 0).length + s.ownOpen.length

/-- Reason 1 and 2 demands of present nodes (R282). -/
def trainUnsat (s : State) : Nat :=
  match s.synth.sched with
  | none => 0
  | some c => (c.unsat.filter fun u => !u.node.ghost).length

/-- Show the schedule in force (SYN_OWN, SYN_UNSAT, SYN_CLAIM). -/
def showSched (s : State) : State :=
  let own := (s.ownersAt s.clock.turn).filter fun o => o.2 == s.ownPos && s.ownPos != 0
  let home := match s.synth.sched with
    | none => 0
    | some c => let h := c.homeOf s.ownPos
      if h == 0 then (match s.ownGrant with
        | some g => if g.home then g.first.headD 0 else 0
        | none => 0) else h
  let s := s.set Reg.SYN_OWN_HOME [] home
  let s := s.set Reg.SYN_OWN_SLOTS [] own.length
  let s := s.set Reg.SYN_UNSAT_TRAIN [] s.trainUnsat
  let s := s.set Reg.SYN_UNSAT_OWN [] s.ownUnsat
  match s.ownGrant with
  | some g => (s.set Reg.SYN_CLAIM_GRANTED [] g.first.length).set Reg.SYN_CLAIM_FIRST [] (g.first.headD 0)
  | none => (s.set Reg.SYN_CLAIM_GRANTED [] 0).set Reg.SYN_CLAIM_FIRST [] 0

/-- The pool is emptied, and every pending grant dropped (R289). -/
def emptyPool (s : State) : State := (s.modSynth fun y => { y with grants := [] }).showSched

/-- The pool of a new schedule, or of none: no grant and no claim (R289). -/
def freshPool (s : State) : State :=
  let s := s.modSynth fun y => { y with
    claims := [], prevClaims := [], resetNext := false, resetNow := false, gotReset := false, prevReset := false, resetAt := []
    claimSince := none }
  ((s.set Reg.SYN_CLAIM_PENDING [] 0).set Reg.SYN_CLAIM_REQUEST [] 0).emptyPool

/-- The pool resets whose tick has come (R289). -/
def poolResets (s : State) : State :=
  let due := s.synth.resetAt.filter fun r => r.1 ≤ s.clock.turn
  due.foldl (fun s r =>
    let crc := s.poolCrc
    ((s.emptyPool).inc Reg.SYN_POOL_CNT_RESETS).record 0x3607 3 1 (b2n !r.2) crc)
    (s.modSynth fun y => { y with resetAt := y.resetAt.filter fun r => s.clock.turn < r.1 })

/-- The weirs take the new layout's table at once (R299 at an adoption turn and at STOP). -/
def newTables (s : State) : State :=
  let owners := s.ownersAt s.clock.turn
  let t0 := s.buildTable 0 owners
  let t1 := s.buildTable 1 owners
  (s.modWeir 0 fun x => { x with table := t0, next := t0 }).modWeir 1 fun x => { x with table := t1, next := t1 }

/-! Phases -/

/-- SYN_STAT.TABLES_WAIT: the confirmed directory names a table that the node lacks (R280). -/
def showTables (s : State) : State :=
  s.flag Reg.SYN_STAT_TABLES_WAIT [] (s.phase == 4 && match s.inaug.newDir with
    | some d => !(s.tablesLacking d).isEmpty
    | none => false)

/-- Enter an inauguration phase. -/
def toPhase (s : State) (p : Nat) : State :=
  ((s.set Reg.INAUG_STAT_PHASE [] p).set Reg.INAUG_STAT_TURNS [] 0).showTables

/-- Discard the DYNAMIC frames of stream 1 and of streams 16 to 256 (R603), and end line and far work with LINE_STOPPED
(Table 15-15). -/
def stopWork (s : State) : State :=
  let goes : QFrame → Bool := fun q => streamOf q.frame == 1 || streamOf q.frame ≥ 16
  let s := (List.range 4).foldl (fun s n =>
    let gone := (s.port n).queue.filter goes
    let s := (s.dropQueued n goes).2
    gone.foldl (fun s q => s.freeHeld q.src (classOf (streamOf q.frame) (prioOf q.frame)) (blocksOf q.frame.payload.len)) s) s
  (s.completeAll [1] false 9 s.icount).farStop

/-- The filtering-database entries learned from the line are flushed (R462). -/
def flushLine (s : State) : State :=
  s.modCon fun c => { c with fdb := c.fdb.filter fun e => match e.port with
    | .line _ => false
    | _ => true }

/-- A fleet key rollover that is agreed is cancelled (R573). -/
def cancelRoll (s : State) : State :=
  (s.modKeys fun k => { k with roll := none }).set Reg.SEC_STAT_ROLL_PENDING [] 0

/-- Enter STOP (R237, R246): the line stands still from here, and the fence lifts (R308). -/
def enterStop (s : State) (attempt : Nat) : State :=
  let s := (s.toPhase 1).set Reg.INAUG_STAT_ATTEMPT [] attempt
  let s := s.modInaug fun i => { i with
    newDir := none, readyRun := 0, agreeRun := 0, wave := [], stopReqNext := false, stopReq := false, asking := none, retry := false,
    ownMismatch := false, last := default }
  let s := s.modSynth fun y => { y with running := false, newSched := none }
  ((((s.stopLayout.stopWork.flushLine.cancelRoll).delayLimits).newTables).showHops).liftFence

/-- Ports of the line as a bit set by a test. -/
def portBits (s : State) (p : Nat → Bool) : Nat :=
  (List.range 4).foldl (fun a n => if !s.isXlink n && p n then a + 2 ^ n else a) 0

/-- The train of one inaugurates (R226, R639): directory, ICOUNT + 1, then synthesis and adoption. -/
def soloStart (s : State) : State :=
  let s := s.takeIdentity
  let d := s.soloDirectory
  let s := s.modStart fun x => { x with solo := false }
  let s := s.modInaug fun i => { i with newDir := some d, asking := none }
  (s.modSynth fun y => { y with running := false, newSched := none }).toPhase 4

/-- Enter SOLITARY (R226). -/
def enterSolo (s : State) : State :=
  let s := ((s.toLine 6).inc Reg.LSTART_CNT_SOLO).record 0x3404 4 1 (s.portBits fun n => s.pst n == 4) 0
  s.soloStart

/-- Fall back (R261): first to the consist alone, then to the train of one. -/
def fallback (s : State) : State :=
  let s := (s.inc Reg.INAUG_CNT_FALLBACKS).modConf fun c => { c with lostLine := true }
  let s := s.when (s.on Reg.FW_BANK_STAT_TRIAL) fun s => s.modBoot fun b => { b with trialFail := some (b.trialFail.getD 2) }
  let att := s.get Reg.INAUG_STAT_ATTEMPT
  let mine (n : Nat) : Bool :=
    let u := s.get Reg.LPn_NBR_LO_UID [n] + 2 ^ 32 * s.get Reg.LPn_NBR_HI_UID [n]
    match s.synth.ownTable with
    | none => false
    | some t => t.cars.any fun c => c.uidA == u || (c.uidB != 0 && c.uidB == u)
  if !s.on Reg.INAUG_STAT_FALLBACK_CONSIST then
    let go (n : Nat) : Bool := s.lineUp n && !mine n
    let ps := s.portBits go
    let s := (List.range 4).foldl (fun s n => if bit ps n then s.hold n 8 else s) s
    let s := (s.set Reg.INAUG_STAT_FALLBACK_CONSIST [] 1).record 0x3506 5 1 att ps
    s.enterStop 0
  else
    let ps := s.portBits fun n => s.pst n == 4
    let s := (List.range 4).foldl (fun s n => if bit ps n then s.hold n 8 else s) s
    let s := (s.set Reg.INAUG_STAT_FALLBACK_NODE [] 1).record 0x3507 5 1 att ps
    (s.enterStop 0).enterSolo

/-- Release every HELD_WHY 8 link (R262). -/
def releaseFallback (s : State) : State :=
  (List.range 4).foldl (fun s n => if s.pst n == 5 && s.get Reg.LPn_STAT_HELD_WHY [n] == 8 then s.upFrom n 7 else s) s

/-- A failed attempt (R259): the next one, or the fallback after attempt 4. -/
def nextAttempt (s : State) (own : Bool) (toStop : Bool) : State :=
  let a := s.get Reg.INAUG_STAT_ATTEMPT
  if a ≥ 4 then s.fallback
  else if toStop then
    (s.enterStop a).modInaug fun i => { i with retry := true }
  else
    let s := ((s.inc Reg.INAUG_CNT_RESTARTS).set Reg.INAUG_STAT_ATTEMPT [] (a + 1)).record 0x3504 3 1 (a + 1) (b2n own)
    let s := s.modSynth fun y => { y with running := false, newSched := none }
    (s.takeIdentity.toPhase 2).modInaug fun i => { i with newDir := none, wave := [], agreeRun := 0, ownMismatch := false }

/-! Function tables (R279, R280) -/

/-- The declaring member sends its table in the first CONFIRM turn of an attempt (R279). -/
def sendTable (s : State) : State :=
  match s.inaug.newDir, s.synth.ownTable with
  | some d, some t =>
    match declaring d (s.get Reg.INAUG_CONSIST_ID) with
    | some m =>
      if m.pos == d.ownPos && s.decides then
        let l := t.bytes
        (List.range ((l.length + 1503) / 1504)).foldl (fun s k =>
          let body := beBytes 16 t.digest ++ beBytes 2 (1504 * k) ++ beBytes 2 t.length ++ beBytes 4 0 ++ (l.drop (1504 * k)).take 1504
          (s.originate 1 0xFFFF 2 1 0 body none).2) s
      else s
    | none => s
  | _, _ => s

/-- Use or add a verified table: most recently used first, at most 64 (R280). -/
def keepTable (s : State) (t : FuncTable) : State :=
  (s.modSynth fun y => { y with cache := (t :: y.cache.filter fun x => x.digest != t.digest).take 64 }).mramWrite .tables

/-- Synthesise the schedule of the new directory (R272 to R276). -/
def synthNow (s : State) : State :=
  match s.inaug.newDir with
  | none => s
  | some d =>
    let (list, dropped) := capNodes 64 (s.synNodes d)
    let ghosts := (list.filter fun x => x.ghost).length
    let (sSyn, first) := (s.rulesView (d.nodes.map fun x => x.entry)).slotBudget d list.length ghosts
    let sched := synthesise list (profileOf d.profile).payload sSyn first
    let own := d.nodes.find? fun x => x.pos == d.ownPos
    let decl := declaring d (s.get Reg.INAUG_CONSIST_ID)
    let mine := ((s.synth.ownTable).map fun t => t.digest).getD 0
    let diff : Bool := match decl with
      | some m => m.entry.ftDigest != mine
      | none => false
    let undecl : Bool := own.isSome && !(list.any fun x => x.pos == d.ownPos)
    let s := s.modSynth fun y => { y with newSched := some sched, running := false }
    let s := (consistsOf d).foldl (fun s c => match declaring d c with
      | some m => (match s.tableOf m.entry.ftDigest with
          | some t => if (s.synth.cache.any fun x => x.digest == t.digest) then s.keepTable t else s
          | none => s)
      | none => s) s
    let s := s.flag Reg.SYN_STAT_UNDECLARED [] undecl
    let s := s.flag Reg.SYN_STAT_FT_DIFF [] diff
    let s := if diff then s.record 0x3603 3 1 mine (s.get Reg.INAUG_CONSIST_ID) else s
    let s := s.flag Reg.SYN_STAT_GHOSTS_DROPPED [] (!dropped.isEmpty)
    dropped.foldl (fun s g => s.record 0x3605 3 1 g.consist g.carIndex) s

/-! Integration (R86, R216, R217) -/

/-- Pairs of observations of one port that make a full valid turn (R216): the later one, with the node time of its implied tick. The
tolerance is that of the neighbour's profile. -/
def validTurns (s : State) (n : Nat) : List (Int × FoundTurn) :=
  let p := s.port n
  let tol : Int := tenths (profileOf (p.nbrLs / 16 % 4)).slotLen / 2
  let tt : Int := (s.turnNs * nsUnit : Nat)
  (p.obs.filter fun b => p.obs.any fun a =>
    a.1 == b.1 && a.2.2.1 == b.2.2.1 && (a.2.1 + 1) % 2 ^ 32 == b.2.1 && within (b.2.2.2.1 - a.2.2.2.1 - tt) tol).map fun (kind, t, luid, imp, hops, ic) =>
      (imp, ⟨kind, t, luid, hops, ic, (s.clock.ntime : Int) - imp, n, p.nbrLs, Sparse.find n s.keys.lastSalt⟩)

/-- Of several full valid turns one of relay frames before those of KICKOFF frames, of these that of the lowest line UID (R216). -/
def preferFound (l : List (Int × FoundTurn)) : Option (Int × FoundTurn) :=
  match l.find? fun x => x.2.kind == 2 with
  | some x => some x
  | none => l.foldl (fun a x => match a with
      | some y => if x.2.luid < y.2.luid then some x else a
      | none => some x) none

/-- The full valid turn that this device has observed. -/
def ownFound (s : State) : Option (Int × FoundTurn) := preferFound ((List.range 4).flatMap fun n => s.validTurns n)

/-- The full valid turn that the node takes, observed by either device of a pair (R216, R229). -/
def fullValid (s : State) : Option (Int × FoundTurn) := preferFound (s.ownFound.toList ++ s.start.found.toList)

/-- The stopped layout in COLDSTART (R219), and where a node that keeps an earlier layout joins a line that stands still (R147, R212). -/
def lineLayout (s : State) : State := if s.stopped then s else s.stopLayout.delayLimits.showHops

/-- Take over the line's phase, turn number and ICOUNT in one step (R86, R217); `imp` is the implied tick. -/
def integrate (s : State) (imp : Int) (o : FoundTurn) : State :=
  let tt : Int := (s.turnNs * nsUnit : Nat)
  let el : Int := (s.clock.ntime : Int) - (s.clock.phase : Int) - imp
  let gone := el / tt
  let ph := el % tt
  let short := decide (tt - ph < tt / 2)
  let step : Int := if short then tt - ph else -ph
  let listened := s.clock.turn - s.start.listenAt
  let s := s.modClock fun c => { c with
    turn := s.fullTurn o.turn + gone.toNat + (if short then 1 else 0)
    phase := if short then 0 else (ph + (s.clock.phase : Int)).toNat
    pre := if short then (tt - ph).toNat else 0, stepped := decide (step ≠ 0) }
  let s := s.set Reg.INAUG_ICOUNT_ICOUNT [] o.icount
  let s := if bit o.ls 6 then s.lineLayout else s
  let s := s.learnH (o.port / 2) (o.hops + 1)
  let s := s.modInaug fun i => { i with h := listSet i.h (1 - o.port / 2) none, icountMax := max i.icountMax o.icount }
  let s := s.set Reg.LSTART_STAT_SRC_KIND [] o.kind
  let s := s.set Reg.LSTART_REF_UID [] o.luid
  let s := s.modStart fun x => { x with kickLuid := if o.kind == 1 then some (o.luid, o.port) else none, kicking := false }
  let s := match o.salt with
    | some v => s.modKeys fun k => { k with salt := some v }
    | none => s
  let s := s.toLine 3
  let s := if step ≠ 0 then (s.set Reg.TURN_STAT_STEP [] 1).record 0x3001 1 3 ((step / (nsUnit : Nat)) % (2 ^ 32 : Nat)).toNat s.turn32 else s
  s.record 0x3403 1 1 listened (o.kind + 256 * o.port)

/-- The node has lost its line (R224). -/
def loseLine (s : State) (cause : Nat) : State :=
  let turns := s.get Reg.LSTART_STAT_TURNS
  let s := (s.inc Reg.LSTART_CNT_LOST).record 0x3406 4 1 cause turns
  let s := s.modKeys fun k => { k with salt := none }
  let s := s.modInaug fun i => { i with retry := false, trigTime := none, asking := none, stopReq := false, stopReqNext := false }
  let s := s.modSynth fun y => { y with running := false, newSched := none }
  let s := if s.standing then (s.modInaug fun i => { i with newDir := none }).toPhase 5 else s
  let s := s.modConf fun c => { c with lostLine := true }
  let s := s.when (s.on Reg.FW_BANK_STAT_TRIAL) fun s => s.modBoot fun b => { b with trialFail := some (b.trialFail.getD 2) }
  s.toLine 1

/-- Yield (R245): directory and schedule are discarded, LISTEN with cold start held for 64 turns. -/
def doYield (s : State) : State :=
  let turns := s.get Reg.LSTART_STAT_TURNS
  let s := s.record 0x3406 4 1 3 turns
  let s := s.modInaug fun i => { i with
    dir := none, newDir := none, lineView := none, joined := false, yielding := false, yieldNext := false, last := default, seen := default,
    retry := false, asking := none, stopReq := false, stopReqNext := false, h := [none, none], wave := [] }
  let s := s.modSynth fun y => { y with sched := none, newSched := none, running := false }
  let s := (s.freshPool.stopLayout.delayLimits.showHops.stopWork.flushLine.cancelRoll).set Reg.SYN_STAT_VALID [] 0
  let s := s.modKeys fun k => { k with salt := none }
  let s := ((s.set Reg.INAUG_POS_POSITION [] 0).set Reg.INAUG_POS_N [] 0).set Reg.INAUG_POS_CAR_NO [] 0
  let s := (s.set Reg.INAUG_POS_CONSIST_NO [] 0).toPhase 5
  let s := (s.set Reg.INAUG_ROOT_LO_ROOT [] 0).set Reg.INAUG_ROOT_HI_ROOT [] 0
  let s := (List.range 4).foldl (fun s k => s.set Reg.INAUG_DIGEST_k_BYTES [k] 0) s
  let s := (s.modStart fun x => { x with hold := 64 }).set Reg.LSTART_STAT_HOLD [] 1
  (s.toLine 1).newTables

/-- Every UP line neighbour, of either device of a pair, reports SYNCED or SELF_SILENT (R230). -/
def nbrsSynced (s : State) : Bool :=
  let run (ls : Nat) : Bool := ls % 16 == 4 || ls % 16 == 5
  ((List.range 4).all fun n => !s.nbrPort n || run (s.port n).nbrLs) && s.partnerUp.all fun x => run x.2.ls

/-- Change phase at a tick from what the turn just ended showed (Table 10-2). -/
def phaseStep (s : State) : State :=
  let l := s.inaug.last
  let p := s.phase
  if p == 1 then
    if s.inaug.readyRun ≥ 2 || s.get Reg.INAUG_STAT_TURNS ≥ 64 then
      let s := if s.inaug.retry then
          let a := s.get Reg.INAUG_STAT_ATTEMPT
          ((s.inc Reg.INAUG_CNT_RESTARTS).set Reg.INAUG_STAT_ATTEMPT [] (a + 1)).record 0x3504 3 1 (a + 1) 0
        else s
      (s.takeIdentity.toPhase 2).modInaug fun i => { i with wave := [], newDir := none, retry := false }
    else s
  else if p == 2 then
    if s.waveDone then
      let es := s.waveEntries
      let why := s.waveInvalid es
      if why != 0 then (s.record 0x350A 5 1 why es.length).fallback
      else
        let s := (s.modInaug fun i => { i with newDir := some (s.waveDirectory es), agreeRun := 0 }).toPhase 3
        s.sendTable
    else (s.modInaug fun i => { i with newDir := none, agreeRun := 0 }).toPhase 3
  else if p == 3 || p == 4 then
    if s.lstate == 6 then s
    else if l.notReady then s.nextAttempt false true
    else if l.mismatch then s.nextAttempt l.ownOnly false
    else if p == 3 && s.inaug.agreeRun ≥ 3 then
      let wait := (25000 + s.get Reg.TURN_LEN_LEN_ACT - 1) / s.get Reg.TURN_LEN_LEN_ACT
      let adopt := s.clock.turn - 1 + wait + 1
      let s := s.modInaug fun i => { i with newDir := i.newDir.map fun d => { d with adopt := adopt } }
      (s.set Reg.INAUG_ADOPT_TURN [] adopt).toPhase 4
    else s
  else s

/-- A turn's CONFIRM frames agree (R258): from each direction that has a neighbour, PHASE CONFIRM, CFLAGS clear, own DIGEST. -/
def agrees (s : State) (l : Seen) : Bool :=
  s.inaug.newDir.isSome && [0, 1].all fun e => !s.endNbr e ||
    ((l.confirms.any fun x => x.1 == e) && (l.confirms.filter fun x => x.1 == e).all fun x =>
      x.2.phase == 4 && !x.2.notReady && !x.2.mismatch && !x.2.stagedMixed && x.2.digest == s.newDigest)

/-- R248's condition for one turn: CONFIRM from both directions, or the one, with NOT_READY clear, and itself ready. -/
def readyTurn (s : State) (l : Seen) : Bool :=
  s.readyNow && [0, 1].all fun e => !s.endNbr e ||
    ((l.confirms.any fun x => x.1 == e) && (l.confirms.filter fun x => x.1 == e).all fun x => !x.2.notReady)

/-- The adoption turn's tick, for the line (R263): ICOUNT, directory, profile, layout, schedule, weirs, session key. The time from the
trigger is known to a node that raised one; on another it is a free value (log 95). -/
def adoptLine (s : State) : State :=
  match s.inaug.newDir, s.synth.newSched with
  | some d, some c =>
    let own := (d.nodes.find? fun x => x.pos == d.ownPos).getD default
    let es := d.nodes.map fun x => x.entry
    let asc2 := end1Faces es d.ownPos
    let below := d.ownPos - 1
    let above := d.nodes.length - d.ownPos
    let (us, s) : Nat × State := match s.inaug.trigTime with
      | some t => ((s.clock.up - t) / nsUnit / 1000, s)
      | none => s.take 32
    let s := s.modInaug fun i => { i with
      dir := some d, newDir := none, lineView := none, joined := false, end2Asc := asc2, trigTime := none, asking := none
      h := if asc2 then [some below, some above] else [some above, some below]
      icountMax := max i.icountMax d.icount, wave := [], agreeRun := 0, readyRun := 0, ownMismatch := false, retry := false
      latest := i.latest.filter fun _ => false }
    let s := s.modSynth fun y => { y with sched := some c, newSched := none, running := false }
    let s := s.set Reg.INAUG_ICOUNT_ICOUNT [] d.icount
    let s := (s.set Reg.INAUG_POS_POSITION [] d.ownPos).set Reg.INAUG_POS_N [] d.nodes.length
    let s := (s.set Reg.INAUG_POS_CAR_NO [] own.carNo).set Reg.INAUG_POS_CONSIST_NO [] own.consistNo
    let s := s.set Reg.INAUG_ADOPT_TURN [] s.clock.turn
    let s := (s.set Reg.INAUG_ROOT_LO_ROOT [] (d.root % 2 ^ 32)).set Reg.INAUG_ROOT_HI_ROOT [] (d.root / 2 ^ 32)
    let dg := beBytes 48 d.digest
    let s := (List.range 4).foldl (fun s k => s.set Reg.INAUG_DIGEST_k_BYTES [k] (leAt dg (4 * k) 4)) s
    let s := (s.inc Reg.INAUG_CNT_RUNS).set Reg.INAUG_TIME_US [] (min us (2 ^ 32 - 1))
    let s := s.set Reg.TURN_LEN_LEN_ACT [] (s.get Reg.TURN_LEN_LEN)
    let s := (s.setLayout false d.profile d.nodes.length).set Reg.LINE_DEPLOY_PROFILE [] d.profile
    let s := (s.toPhase 0).set Reg.INAUG_STAT_ATTEMPT [] 0
    let s := s.modRed fun r => { r with seqGen := [], recovery := [] }
    let s := (s.set Reg.SYN_STAT_VALID [] 1).set Reg.SYN_LAYOUT_HOMES [] c.list.length
    let s := (s.set Reg.SYN_LAYOUT_S_SYN [] c.sSyn).set Reg.SYN_LAYOUT_POOL [] (c.sSyn - c.poolFirst)
    let s := (s.set Reg.SYN_LAYOUT_POOL_FIRST [] c.poolFirst).freshPool
    let s := s.rebuildCells c fun p => s.uidAt p
    let s := s.modHost fun h => { h with images := h.images.map fun x => (x.1, { x.2 with resolve := some s.clock.turn }) }
    let s := s.modStart fun x => { x with wasSolo := false }
    let s := ((s.showHops.delayLimits).newTables).record 0x3505 1 1 d.icount us
    let s := if s.trainUnsat != 0 then
        let u := (c.unsat.filter fun u => !u.node.ghost).foldl (fun (a : Option Unsat) u => match a with
          | some b => if u.demand.cls < b.demand.cls then some u else a
          | none => some u) none
        let x := (u.map fun u => u.demand).getD default
        s.record 0x3602 3 1 s.trainUnsat (x.cls + 2 ^ 16 * x.func)
      else s
    let reqs := s.inaug.requests
    let s := s.modInaug fun i => { i with requests := [] }
    let s := reqs.foldl (fun s r => s.complete r.1 r.2.1 r.2.2 0 0 d.icount) s
    if s.on Reg.INAUG_STAT_PENDING && !s.pins.inhibit then
      (s.set Reg.INAUG_STAT_PENDING [] 0).actPending
    else s
  | _, _ => s

end State

/-- LISTEN_TIMEOUT (R214, R215): to COLDSTART at once, unless cold start is held or a full valid turn is observed. -/
def execListenTimeout (s : State) : Result :=
  .next (if s.alive && s.lstate == 1 && !s.on Reg.LSTART_STAT_HOLD && s.lineUpFw && s.start.listenEnd ≤ s.clock.up && s.fullValid.isNone then
    (s.toLine 2).lineLayout else s)

/-- KICKOFF_FLOOR_PERSIST (R572): the floor is written once the turn number has reached the old one, and MRAM takes writes (R67, R72). -/
def execKickoffFloorPersist (s : State) : Result :=
  let floor := s.get Reg.SEC_KICK_FLOOR_LO_TURN + 2 ^ 32 * s.get Reg.SEC_KICK_FLOOR_HI_TURN
  let v := s.clock.turn + 2 ^ 20
  .next (if s.alive && s.start.floorWait && floor ≤ s.clock.turn && !s.mramWaits then
    ((s.set Reg.SEC_KICK_FLOOR_LO_TURN [] (v % 2 ^ 32)).set Reg.SEC_KICK_FLOOR_HI_TURN [] (v / 2 ^ 32)).modStart fun x =>
      { x with floorWait := false }
  else s)

/-- INTEGRATION (R86, R217): at the tick after a full valid turn. -/
def execIntegration (s : State) : Result :=
  .next (if s.alive && s.lstate == 1 && s.lineUpFw then
    match s.fullValid with
    | some (imp, o) => s.integrate imp o
    | none => s
  else s)

/-- COLDSTART_INTEGRATE (R222): with a step of 0; KICKOFF goes on until the node has converged. -/
def execColdstartIntegrate (s : State) : Result :=
  .next (if s.alive && s.lstate == 2 && s.start.zeroRun ≥ 2 && s.lineUpFw then
    let listened := s.clock.turn - s.start.listenAt
    let s := ((s.toLine 3).modStart fun x => { x with kicking := true, kickLuid := none }).set Reg.LSTART_STAT_SRC_KIND [] 0
    s.record 0x3403 1 1 listened 0
  else s)

/-- SOLITARY_ENTRY (R214, R226). -/
def execSolitaryEntry (s : State) : Result :=
  .next (if s.alive && s.lstate == 2 && s.start.zeroRun < 2 && s.start.unanswered ≥ 16 && s.lineUpFw then s.enterSolo else s)

/-- SOLITARY_REINAUGURATE (R639): every trigger held so far has acted then. -/
def execSolitaryReinaugurate (s : State) : Result :=
  .next (if s.alive && s.lstate == 6 && s.start.solo && s.phase != 4 && s.cpuUp 0 then
    ((s.set Reg.LSTART_STAT_PENDING [] 0).modInaug fun i => { i with pending := if s.on Reg.INAUG_STAT_PENDING then i.pending else [] }).soloStart
  else s)

/-- LINE_LOST (R214, R224): a condition of a higher row of Table 9-2 goes before. -/
def execLineLost (s : State) : Result :=
  let turns := s.get Reg.LSTART_STAT_TURNS
  let going := s.lstate == 3 && s.on Reg.SYNC_STAT_CONVERGED
  .next (if s.alive && s.lineUpFw then
    if s.lstate == 3 && !going && turns ≥ 64 then s.loseLine 1
    else if s.following && !going && turns ≥ 1 && s.sync.noMid ≥ 16 then s.loseLine 0
    else if s.lstate == 2 && turns ≥ 128 && s.start.zeroRun < 2 && s.start.unanswered < 16 then s.loseLine 2
    else s
  else s)

/-- YIELD_HOLD_END (R214, R215): t_listen then starts afresh. -/
def execYieldHoldEnd (s : State) : Result :=
  .next (if s.alive && s.on Reg.LSTART_STAT_HOLD && s.start.hold == 0 then
    (s.set Reg.LSTART_STAT_HOLD [] 0).modStart fun x => { x with listenEnd := s.inNs (s.tListen * 1000) } else s)

/-- PENDING_TRIGGER_ACT (R230); STOP absorbs the trigger and SYNTHESIZE holds it pending (R238). -/
def execPendingTriggerAct (s : State) : Result :=
  let p := s.phase
  .next (if s.alive && s.lstate == 4 && s.on Reg.LSTART_STAT_PENDING && s.cpuUp 0 && !s.pins.inhibit &&
      ((s.start.synced ≥ 8 && s.nbrsSynced) || s.start.synced ≥ 64) then
    let s := (s.set Reg.LSTART_STAT_PENDING [] 0).record 0x3501 1 1 8 0xFF
    if p == 1 then s.modInaug fun i => { i with pending := [] }
    else if p == 4 then (s.modInaug fun i => { i with pending := [] }).pend ⟨8, 0xFF⟩ false
    else s.actPending
  else s)

/-- The inputs of the always-on domain are filtered whenever VIN is present (R44), under the mill brake too. -/
def State.pinsLive (s : State) : Bool := s.power.on

/-- A filtered change of an end's coupler input acts on the line (R235). -/
def State.couplerMoves (s : State) (e : Nat) (level : Bool) : State :=
  let ports := [2 * e, 2 * e + 1].filter fun n => !s.isXlink n
  let held (n : Nat) : Bool := s.pst n == 5 && s.get Reg.LPn_STAT_HELD_WHY [n] == 9
  let nbr := (ports.any fun n => s.pst n == 4 || held n) || s.partnerUp.any fun x => x.1 / 2 == e
  if level then
    if nbr then
      let s := s.modStart fun x => { x with cplHold := listSet x.cplHold e false }
      let s := ports.foldl (fun s n => if s.pst n == 5 && s.get Reg.LPn_STAT_HELD_WHY [n] == 9 then s.upFrom n 0 else s) s
      s.raise 3 0xFF
    else s.modStart fun x => { x with cplWait := listSet x.cplWait e (some (s.inNs 5000000000)) }
  else
    let s := s.modStart fun x => { x with cplWait := listSet x.cplWait e none }
    if nbr then (s.modStart fun x => { x with cplHold := listSet x.cplHold e true }).raise 3 0xFF else s

/-- COUPLER_INPUT_CHANGE (R44, R235): a filtered level of CPL_E1 or CPL_E2. -/
def execCouplerInputChange (e : Fin 2) (level : Bool) (s : State) : Result :=
  .next (if !s.pinsLive || s.pins.cpl.getD e.val false == level then s
    else
      let s := s.modPins fun p => { p with cpl := listSet p.cpl e.val level }
      if s.alive then (s.flag (if e.val == 0 then Reg.INAUG_STAT_CPL_E1 else Reg.INAUG_STAT_CPL_E2) [] level).couplerMoves e.val level else s)

/-- COUPLER_NO_LINK (R235): within 5 s of a rise no line port of the end has entered UP. -/
def execCouplerNoLink (e : Fin 2) (s : State) : Result :=
  .next (match s.start.cplWait.getD e.val none with
    | some t => if s.alive && t ≤ s.clock.up then
        (s.modStart fun x => { x with cplWait := listSet x.cplWait e.val none }).record 0x3509 3 1 (e.val + 1) 0
      else s
    | none => s)

/-- CAB_ACTIVE_CHANGE (R44). -/
def execCabActiveChange (level : Bool) (s : State) : Result :=
  .next (if s.pinsLive then
    let s := s.modPins fun p => { p with cab := level }
    if s.alive then s.flag Reg.INAUG_STAT_CAB [] level else s
  else s)

/-- INAUG_INHIBIT_RISE (R239): a STOP_REQ or YIELD that is due is not sent; the trigger it stands for is held pending. -/
def execInaugInhibitRise (s : State) : Result :=
  .next (if !s.pinsLive || s.pins.inhibit then s
    else
      let s := s.modPins fun p => { p with inhibit := true }
      if s.alive then
        let s := (s.set Reg.INAUG_STAT_INHIBIT [] 1).modInaug fun i => { i with yieldNext := i.yieldNext || i.yielding, yielding := false }
        match s.inaug.asking with
        | some t => if (s.inaug.stopReq || s.inaug.stopReqNext || !s.decides) && t.kind ≤ 7 then
            ((s.modInaug fun i => { i with stopReq := false, stopReqNext := false, asking := none }).pend t false).record 0x3502 2 1 t.kind t.port
          else s
        | none => s
      else s)

/-- INAUG_INHIBIT_FALL (R240): at the first tick, new links become ordinary and pending triggers act. -/
def execInaugInhibitFall (s : State) : Result :=
  .next (if !s.pinsLive || !s.pins.inhibit then s
    else
      let s := s.modPins fun p => { p with inhibit := false }
      if s.alive then
        let s := s.set Reg.INAUG_STAT_INHIBIT [] 0
        let s := ((List.range 4).foldl (fun s n => s.modPort n fun p => { p with newlink := false }) s).showEnds
        if s.on Reg.INAUG_STAT_PENDING && s.phase != 4 && s.cpuUp 0 then
          let s := s.set Reg.INAUG_STAT_PENDING [] 0
          if s.phase == 1 then s.modInaug fun i => { i with pending := [] } else s.actPending
        else s
      else s)

/-- STOP_ENTRY (R237, R238): at the tick after STOP_REQ was stored, or STOP by a node without a phase of its own. Each device of a pair
stores the frames of both (R229). -/
def execStopEntry (s : State) : Result :=
  .next (if s.alive && s.following && s.cpuUp 0 && s.phase != 1 &&
      (s.inaug.last.stopReq || ((s.phase == 5 || (s.phase == 0 && s.inaug.joined)) && s.inaug.last.stop)) then s.enterStop 0 else s)

/-- INAUG_PHASE_CHANGE (R247, R253, R254, R258, R259, R261). -/
def execInaugPhaseChange (s : State) : Result :=
  .next (if s.alive && s.following && s.cpuUp 0 then s.phaseStep else s)

/-- STOP_HOLD_OUT (R250). -/
def execStopHoldOut (s : State) : Result :=
  .next (if s.alive && s.phase == 1 && s.get Reg.INAUG_STAT_TURNS ≥ 64 then
    (List.range 4).foldl (fun s n =>
      if s.nbrPort n && !((s.port n).nbrLs % 16 == 4 && bit (s.port n).nbrLs 6) then
        let u := s.get Reg.LPn_NBR_LO_UID [n]
        (s.hold n 10).record 0x3508 4 1 n u
      else s) s
  else s)

/-- HOLD_OUT_END (R250). -/
def execHoldOutEnd (n : Fin 4) (s : State) : Result :=
  let p := s.port n.val
  let st := p.nbrLs % 16
  .next (if s.alive && s.pst n.val == 5 && s.get Reg.LPn_STAT_HELD_WHY [n.val] == 10 &&
      (p.nbrSynced ≥ 8 || st == 1 || st == 2 || st == 6) then s.upFrom n.val 7 else s)

/-- YIELD (R245): at the tick after YIELD was stored or sent. -/
def execYield (s : State) : Result :=
  .next (if s.alive && s.inaug.last.yielded && s.following && s.cpuUp 0 then s.doYield else s)

/-- TABLE_FRAGMENT_RECEIVE (R279, R280): the payload after the address word (Table 11-4). -/
def execTableFragmentReceive (body : List Byte) (s : State) : Result :=
  let dg := beAt body 0 16
  let off := beAt body 16 2
  let tlen := beAt body 18 2
  let data := (body.drop 24).take (tlen - off)
  .next (if !s.alive || tlen > 2048 || (s.tableOf dg).isSome then s
    else
      let old := ((s.synth.parts.find? fun x => x.1 == dg).map fun x => x.2.2).getD []
      let pieces := Sparse.put off data old
      let whole := pieces.foldl (fun (a : List Byte) x => if x.1 == a.length then a ++ x.2 else a) []
      let rest := s.synth.parts.filter fun x => x.1 != dg
      if whole.length == tlen then
        let s := s.modSynth fun y => { y with parts := rest }
        (if tableDigest whole == dg then s.keepTable (parseTable whole dg) else s).showTables
      else s.modSynth fun y => { y with parts := (dg, tlen, pieces) :: rest })

/-- SYNTHESIS_START (R281): at the first tick after the confirm turn with every table held. -/
def execSynthesisStart (s : State) : Result :=
  .next (if s.alive && s.phase == 4 && !s.synth.running && s.synth.newSched.isNone && s.cpuUp 0 &&
      (match s.inaug.newDir with
        | some d => (s.tablesLacking d).isEmpty
        | none => false) then s.modSynth fun y => { y with running := true } else s)

/-- SYNTHESIS_COMPLETE (R281), with its duration in µs; a train of one adopts at the next tick (R226). -/
def execSynthesisComplete (us : Nat) (s : State) : Result :=
  .next (if s.alive && s.synth.running && s.cpuUp 0 then
    let s := (s.synthNow).set Reg.SYN_TIME_US [] (min us (2 ^ 32 - 1))
    let s := if s.lstate == 6 then
        (s.modInaug fun i => { i with newDir := i.newDir.map fun d => { d with adopt := s.clock.turn + 1 } }).set
          Reg.INAUG_ADOPT_TURN [] (s.clock.turn + 1) else s
    let un := match s.synth.newSched with
      | some c => (c.unsat.filter fun u => !u.node.ghost).length
      | none => 0
    s.record 0x3601 1 1 us un
  else s)

/-- SPARE_CLAIM (R285, R286): the node's own claim record is due in this turn. -/
def execSpareClaim (s : State) : Result := .next (if s.alive then s.noteOwnClaim else s)

/-- The claims stored in the turn just ended are granted the lowest free pool slots (R287); those of a turn that carried POOL_RESET are
ignored (R289). -/
def State.resolveClaims (s : State) (c : Schedule) : State :=
  let claims := if s.synth.prevReset then [] else
    sortBy (fun (a b : ClaimRec) => a.wait > b.wait || (a.wait == b.wait && a.uid ≤ b.uid))
      (s.synth.prevClaims.filter fun r => !s.synth.grants.any fun g => g.uid == r.uid)
  claims.foldl (fun s r =>
    let used := s.synth.grants.flatMap fun g => g.first
    let free := ((List.range (c.sSyn - c.poolFirst)).map fun i => c.poolFirst + i).filter fun x => !used.contains x
    if r.count ≤ free.length then
      let pos := match s.inaug.dir with
        | some d => ((d.nodes.find? fun x => x.entry.luid == r.uid).map fun x => x.pos).getD 0
        | none => 0
      let g : Grant := ⟨r.uid, pos, free.take r.count, r.home, s.clock.turn + 2⟩
      let s := s.modSynth fun y => { y with grants := y.grants ++ [g] }
      let s := if r.uid == s.lineUid then s.set Reg.SYN_CLAIM_PENDING [] 0 else s
      (s.inc Reg.SYN_POOL_CNT_GRANTS).record 0x3606 1 1 (r.uid % 2 ^ 32) (free.headD 0 + 2 ^ 16 * r.count)
    else if r.uid == s.lineUid then s.inc Reg.SYN_POOL_CNT_REFUSED else s) (s.modSynth fun y => { y with prevClaims := [] })

/-- CLAIM_RESOLVE (R287), after a pool reset of the same tick (R289). -/
def execClaimResolve (s : State) : Result :=
  .next (match s.synth.sched with
    | some c => if s.alive && !s.synth.prevClaims.isEmpty then s.poolResets.resolveClaims c else s
    | none => s)

/-- SPARE_GRANT_EFFECT (R287, R288): grants of this tick come into force. -/
def execSpareGrantEffect (s : State) : Result :=
  .next (if s.alive && (s.synth.grants.any fun g => g.effect == s.clock.turn) then s.showSched else s)

/-- POOL_RESET (R289). -/
def execPoolReset (s : State) : Result := .next (if s.alive then s.poolResets else s)

end Sys2Proof.Machine
end

