-- ==== Sys2Proof/Machine/Millpond.lean ====
section
/-!
DEFINITION. Own static frames, publishing and turn images (R149, R164, R322, R323, R351 to R366): the commands FRAME_BUILD,
STATIC_SLOT_TRANSMIT, STATIC_HANDOFF_RECEIVE, PUBLISH_FETCH, PUBLISH_FETCH_DONE, TI_ENABLE and SUBSCRIPTION_RESOLVE.
-/

namespace Sys2Proof.Machine

namespace State

/-! Tenants' images -/

/-- A tenant's turn image and publish state. -/
def image (s : State) (t : Nat) : Image := (Sparse.find t s.host.images).getD default

/-- Change a tenant's image. -/
def modImage (s : State) (t : Nat) (f : Image → Image) : State :=
  s.modHost fun h => { h with images := Sparse.put t (f ((Sparse.find t h.images).getD default)) h.images }

/-- Show the read requests outstanding on each PCIe port (HOST_RDREQ): those of publish fetches, at 512 B a request (Table 15-1;
log 38). -/
def showReads (s : State) : State :=
  let n (p : Nat) : Nat := ((s.host.images.filter fun x => portOf x.1 == p && x.2.fetch.isSome).map fun x => (64 * x.2.pubSize + 511) / 512).foldl (· + ·) 0
  (s.set Reg.HOST_RDREQ_P [] (min 256 (n 0))).set Reg.HOST_RDREQ_Q [] (min 256 (n 1))

/-! Own parcels -/

/-- What the schedule plans of the own node in a slot of a turn, in order (R163, R276, R288). -/
def planIn (s : State) (slot turn : Nat) : List Demand :=
  match s.synth.sched with
  | none => []
  | some c =>
    if (c.slotOwners.any fun o => o.1 == slot && o.2 == s.ownPos) then (c.plan slot (turn % 64)).map fun p => p.demand
    else match s.ownGrant with
      | none => []
      | some g =>
        match (g.first.findIdx? fun x => x == slot) with
        | none => []
        | some i =>
          if g.home && i == 0 then []
          else ((s.claimPack c).placed.filter fun p => p.slot == i - b2n g.home && turn % 2 ^ p.demand.period == p.offset).map fun p => p.demand

/-- The demands of the own car in the own table. -/
def ownDemands (s : State) : List Demand :=
  ((s.synth.ownTable.bind fun t => t.cars.find? fun c => c.carIndex == s.get Reg.INAUG_CAR_INDEX).map fun c => c.demands).getD []

/-- What is due of the own node in a slot of a turn; a planned demand that the own table lacks is left out (R277). -/
def dueIn (s : State) (slot turn : Nat) : List Demand :=
  (s.planIn slot turn).filter fun d => s.ownDemands.any fun x => x.func == d.func

/-- The own slots of a turn. -/
def ownSlots (s : State) (turn : Nat) : List Nat :=
  if s.ownPos == 0 then [] else ((s.ownersAt turn).filter fun o => o.2 == s.ownPos).map fun o => o.1

/-- The own source of a function. -/
def pubOf (s : State) (func : Nat) : Option OwnPub := s.mill.pubs.find? fun p => p.func == func

/-- The stale threshold N of a source (R357). -/
def staleN (s : State) (p : OwnPub) : Nat :=
  match p.source with
  | .tenant t => let n := (s.image t).staleN
    if n == 0 then 4 else n
  | .map _ => p.staleN
  | .partner => if p.staleN == 0 then 4 else p.staleN

/-- The device's firmware sends its last parcels (Table 1-3, R106). -/
def lastParcels (s : State) : Bool := s.on Reg.GLOBAL_STAT_FW_RESTART || !s.cpuUp 1

/-- The parcel of a demand as this device sends it now (R357, R358); `own`: from a follower's own view (R323), where a
function that is not its own comes from the last copy it received. -/
def ownParcel (s : State) (own : Bool) (d : Demand) : Parcel :=
  let dflt (data : List Byte) : Parcel := ⟨d.func, 0, 255, true, true, slice data 0 d.size⟩
  let held : Option Parcel :=
    match (s.mill.cells.find? fun c => c.uid == s.uidAt s.ownPos && c.func == d.func) with
    | some c => c.ready.map fun p => { p with age := min 255 (p.age + c.age), stale := true }
    | none => none
  match s.pubOf d.func with
  | none => (if own then held else none).getD (dflt [])
  | some p =>
    if own && !p.refreshed && held.isSome then held.getD default
    else if !p.refreshed then dflt p.dflt
    else ⟨d.func, p.pseq, p.age, s.lastParcels || p.age ≥ max (s.staleN p) (2 ^ d.period),
      s.con.maps.any fun e => e.skind != 0 && e.dkind == 1 && e.dstA == d.func && e.isDefault, p.data⟩

/-- This device's heartbeat (R164): LSTATE (R212), its flags, the unsatisfied demands and the device UID. Its PSEQ stays 0 (log 89). -/
def heartbeat (s : State) : Parcel :=
  let serves := !s.paired || s.isLeader
  let b1 := b2n s.paired + 2 * b2n serves + 4 * b2n (s.on Reg.GLOBAL_STAT_FW_RESTART)
  ⟨0xFF01, 0, 0, false, false, beBytes 1 s.lstateByte ++ beBytes 1 b1 ++ beBytes 2 s.ownUnsat ++ beBytes 4 (s.uid % 2 ^ 32)⟩

/-- FLAGS of a frame of the own slots (Table 7-6). -/
def slotFlags (s : State) (home own : Bool) (ps : List Parcel) : Nat :=
  128 * b2n (s.paired && s.isLeader && !own) + 64 * b2n own + 32 * b2n s.paired + 16 * b2n home +
  4 * b2n (ps.any fun p => p.stale) + 2 * b2n (s.on Reg.GLOBAL_STAT_FW_RESTART)

/-- Build the frame of an own slot, silent when nothing is planned in it (R277, R354). -/
def buildSlot (s : State) (slot : Nat) (own : Bool) : State :=
  let home := slot == s.get Reg.SYN_OWN_HOME
  let ps := (if home then [s.heartbeat] else []) ++ (s.dueIn slot s.clock.turn).map fun d => s.ownParcel own d
  if !home && (s.planIn slot s.clock.turn).isEmpty then s
  else s.modMill fun m => { m with built := ⟨slot, s.slotFlags home own ps, ps⟩ :: m.built.filter fun b => b.slot != slot }

/-- Tenants whose parcel is due in a slot of a turn. -/
def tenantsIn (s : State) (slot turn : Nat) : List Nat :=
  (s.dueIn slot turn).filterMap fun d => match s.pubOf d.func with
    | some p => (match p.source with
        | .tenant t => some t
        | _ => none)
    | none => none

/-- The first transmit time of an own slot on a line port, in 0.1 ns from its tick (R148). -/
def firstTx (s : State) (slot : Nat) : Nat :=
  (((List.range 4).filter fun n => !s.isXlink n).map fun n => s.schedT slot (s.txH n)).foldl min (s.schedT slot 63)

/-- When a tenant's publish fetch for a turn starts, in 0.1 ns from that turn's tick (R353): OFFSET µs before the first own transmit time
among the slots that carry a parcel of the tenant, and on a follower 5 µs earlier; none in a turn without such a slot. -/
def fetchStart (s : State) (t turn : Nat) : Option Int :=
  let off := (s.image t).offset
  let lead : Int := ((if off == 0 then 20 else off) + (if s.paired && s.isFollower then 5 else 0) : Nat) * 10000
  (((s.ownSlots turn).filter fun sl => (s.tenantsIn sl turn).contains t).map s.firstTx).min?.map fun x => (x : Int) - lead

/-- The turn for which a tenant's publish fetch is due now (R353): the present one, or the next. -/
def fetchDue (s : State) (t : Nat) : Option Nat :=
  let due (turn : Nat) (ahead : Nat) : Bool :=
    !s.clock.once.contains (turn, .fetch t) && ((s.fetchStart t turn).any fun x => x ≤ (s.nowTenths : Int) - (ahead : Int))
  if due s.clock.turn 0 then some s.clock.turn
  else if due (s.clock.turn + 1) (s.turnNs * 10) then some (s.clock.turn + 1)
  else none

/-- A fetch that has not completed when a frame is built (R354). -/
def lateFetches (s : State) (slot : Nat) : State :=
  (s.tenantsIn slot s.clock.turn).eraseDups.foldl (fun s t =>
    if ((s.image t).fetch.any fun x => x.2 == s.clock.turn) then (s.inc Reg.TI_CNT_LATE_FETCH [t]).recordS 0x3901 2 2 t slot else s) s

/-- The device sends or keeps static frames of its own: SYNCED and converged, SOLITARY, on the train-of-one schedule it
still runs, or standing still, where frames are only kept (R199, R202, R227, R228, R366). -/
def buildsOwn (s : State) : Bool := s.mayOriginate || s.lstate == 6 || s.start.wasSolo || s.standing

/-- The static frame of a built slot with a correction field. -/
def builtFrame (s : State) (b : Built) (corr : Int) : Frame :=
  ⟨.static, s.header b.flags b.slot corr (s.get Reg.CFG_VER_ACTIVE_VER), .parcels b.parcels, 0, 0⟩

/-- How long before its first transmit time an own frame is built, in 0.1 ns (R354). With a crosslink the leader's first one is the handoff,
due 3 µs before the follower transmits (R322; log 23). -/
def buildAhead (s : State) : Nat := if s.paired && s.isLeader && s.xlinkUp then 40000 else 10000

/-- By when the handoff of an own slot must have arrived, in 0.1 ns from the tick (R322); where that lies before the tick, until the slot. -/
def handoffBy (s : State) (slot : Nat) : Nat := if s.firstTx slot < 30000 then s.firstTx slot else s.firstTx slot - 30000

/-- The leader hands a built frame to the follower on both crosslinks (R322). -/
def handOff (s : State) (slot : Nat) : State :=
  match (s.mill.built.find? fun b => b.slot == slot) with
  | none => s
  | some b => if s.paired && s.isLeader then
      s.sendX (s.builtFrame b 0) else s

/-- What a follower changes in a frame handed to it (R322): FLAGS.ROLE and the heartbeat's leader bit and UID. -/
def asFollower (s : State) (f : Frame) (ps : List Parcel) : Built :=
  ⟨f.hdr.slot, f.hdr.flags % 128, ps.map fun p => if p.func == 0xFF01 then
    { p with data := p.data.take 1 ++ ((p.data.drop 1).take 1).map (fun b => b &&& 0xFD) ++ (p.data.drop 2).take 2 ++ beBytes 4 (s.uid % 2 ^ 32) }
    else p⟩

/-- The own copy of a built slot goes into the own cells (R349). -/
def storeOwn (s : State) (b : Built) : State :=
  (s.fillCells (s.uidAt s.ownPos) b.parcels (copyRank b.flags)).noteHeartbeat s.ownPos (s.get Reg.CFG_VER_ACTIVE_VER) b.parcels

/-! Publishing (R351 to R356) -/

/-- Refresh the source of a function with new data (R356). -/
def refresh (s : State) (func : Nat) (data : List Byte) : State :=
  s.modMill fun m => { m with pubs := m.pubs.map fun p =>
    if p.func == func then { p with data := data, pseq := (p.pseq + 1) % 65536, age := 0, refreshed := true } else p }

/-- Note the SEQ of a function's entry. -/
def noteSeq (s : State) (func seq : Nat) : State :=
  s.modMill fun m => { m with pubs := m.pubs.map fun p => if p.func == func then { p with lastSeq := some seq } else p }

/-- Take the entries of a publish buffer (Table 14-2, R355, R356). Answers the functions refreshed. -/
def takeEntries (t : Nat) : Nat → List Byte → State → List (Nat × List Byte) × State
  | 0, _, s => ([], s)
  | fuel + 1, l, s =>
    let func := leAt l 0 2
    let plen := leAt l 2 2
    if l.length < 8 || func == 0 then ([], s)
    else
      let rest := l.drop (8 + roundUp plen 8)
      let ok : Option OwnPub := match s.pubOf func with
        | some p => if p.source == .tenant t && 1 ≤ plen && plen ≤ p.size then some p else none
        | none => none
      match ok with
      | none => takeEntries t fuel rest ((s.set Reg.TI_STAT_PUB_ERR [t] 1).recordS 0x3903 3 2 t (func + 2 ^ 16 * plen))
      | some p =>
        let seq := leAt l 4 2
        let data := slice l 8 plen
        if p.lastSeq == some seq then takeEntries t fuel rest s
        else
          let (r, s) := takeEntries t fuel rest ((s.refresh func data).noteSeq func seq)
          ((func, data) :: r, s)

/-- The follower's published parcels go to the leader over the crosslink (R353, Table 13-2). -/
def passPublished (s : State) (l : List (Nat × List Byte)) : State :=
  if s.paired && s.isFollower && !s.xlinks.isEmpty && !l.isEmpty then
    s.emit (.xlink "published" (l.flatMap fun x => beBytes 2 x.1 ++ beBytes 2 x.2.length ++ x.2))
  else s

/-- The leader takes the follower's published parcels (Table 13-2): they refresh functions whose source is not an own tenant
that has delivered. -/
def takePublished (s : State) (l : List (Nat × List Byte)) : State :=
  if !s.isLeader then s
  else l.foldl (fun s x => match s.pubOf x.1 with
    | some p =>
      let mine : Bool := match p.source with
        | .tenant _ => p.refreshed
        | .map _ => true
        | .partner => false
      if mine || x.2.length > p.size then s
      else (s.modMill fun m => { m with pubs := m.pubs.map fun q => if q.func == x.1 then { q with source := .partner } else q }).refresh x.1 x.2
    | none => s) s

/-! Subscriptions (R359, R360) -/

/-- n entries of a subscription list (Table 14-3). -/
def parseSubs (l : List Byte) (n : Nat) : List SubEntry :=
  (List.range n).map fun i =>
    let e := slice l (8 * i) 8
    ⟨leAt e 0 2, leAt e 2 1, leAt e 3 1, leAt e 4 1⟩

/-- The cars of the line, ghosts included, in consist and car order: (consist, car, position, UID, list place). -/
def carsOf (s : State) (c : Schedule) : List (Nat × Nat × Nat × Nat × Option Nat) :=
  let nodes : List Numbered := match s.inaug.dir with
    | some d => d.nodes
    | none => []
  let present := nodes.map fun (x : Numbered) => (x.consistNo, x.carNo, x.pos, x.entry.luid, c.list.findIdx? fun n => !n.ghost && n.pos == x.pos)
  let ghosts := (c.list.zipIdx.filter fun x => x.1.ghost).map fun x => (x.1.consistNo, x.1.carNo, 0, x.1.uid, some x.2)
  sortBy (fun a b => a.1 < b.1 || (a.1 == b.1 && a.2.1 ≤ b.2.1)) (present ++ ghosts)

/-- The record of a car for a function. -/
def recordOf (c : Schedule) (sub func : Nat) (x : Nat × Nat × Nat × Nat × Option Nat) : ImgRec :=
  let dem : Option Demand := match x.2.2.2.2 with
    | some i => (c.list.getD i default).demands.find? fun d => d.func == func
    | none => none
  let placed : Bool := match x.2.2.2.2 with
    | some i => !(c.list.getD i default).ghost && c.placed.any fun p => p.node == i && p.demand.func == func
    | none => false
  ⟨sub, func, x.2.2.1, x.1, x.2.1, x.2.2.2.1, (dem.map fun d => d.size).getD 0, !placed⟩

/-- The records of one entry (R360). -/
def entryRecords (s : State) (c : Schedule) (i : Nat) (e : SubEntry) : List ImgRec :=
  let cars := s.carsOf c
  let cn := if e.consist == 0 then s.ownConsist else e.consist
  let hits := cars.filter fun x =>
    if e.scope == 0 then x.2.2.1 == s.ownPos else if e.scope == 1 then x.1 == cn && x.2.1 == e.car
    else if e.scope == 2 then x.1 == cn else true
  if hits.isEmpty then
    (if e.scope == 1 || e.scope == 2 then [⟨i, e.func, 0, cn, if e.scope == 1 then e.car else 0, 0, 0, true⟩] else [])
  else hits.map (recordOf c i e.func)

/-- Bytes of one record of an image. -/
def recLen (r : ImgRec) : Nat := 16 + roundUp r.size 8

/-- Records kept up to the limits of R360. -/
def keepRecords (room : Nat) : List ImgRec → Nat → List ImgRec
  | [], _ => []
  | r :: l, n => if n ≥ 1024 || recLen r > room then [] else r :: keepRecords (room - recLen r) l (n + 1)

/-- Resolve a tenant's list against the schedule in force (R360). -/
def resolveSubs (s : State) (t : Nat) : State :=
  match s.synth.sched with
  | none => s
  | some c =>
    let x := s.image t
    let all := x.subs.zipIdx.flatMap fun e => s.entryRecords c e.2 e.1
    let kept := keepRecords (64 * x.imgSize - 72) all 0
    let trunc := kept.length < all.length
    let s := s.modImage t fun y => { y with recs := kept, resolve := none, layoutNew := true, trunc := trunc, icount := s.icount }
    let s := s.set Reg.TI_STAT_RECORDS [t] kept.length
    if trunc then (s.set Reg.TI_STAT_TRUNC [t] 1).recordS 0x3902 3 2 t kept.length else s

/-! Turn images (R361 to R366) -/

/-- The bytes of one record (Table 14-5, R362). -/
def recBytes (s : State) (r : ImgRec) : List Byte :=
  let cell := if r.noSource then none else s.mill.cells.find? fun c => c.uid == r.uid && c.func == r.func
  let ready : Option (Parcel × Cell) := match cell with
    | some c => c.ready.map fun p => (p, c)
    | none => none
  let head (flags : Nat) : List Byte := leBytes 1 r.pos ++ leBytes 1 r.consist ++ leBytes 1 r.car ++ leBytes 1 flags ++ leBytes 2 r.sub ++ leBytes 2 0
  let body (plen pseq age pf : Nat) (d : List Byte) : List Byte :=
    leBytes 2 r.func ++ leBytes 2 plen ++ leBytes 2 pseq ++ leBytes 1 age ++ leBytes 1 pf ++ slice d 0 (roundUp r.size 8)
  match ready with
  | some (p, c) =>
    let missed := c.age ≥ c.period
    head (b2n c.fresh + 2 * b2n missed) ++
      body p.data.length p.pseq (min 255 (p.age + c.age)) (b2n (p.stale || missed) + 2 * b2n p.dflt) p.data
  | none => head (4 * b2n r.noSource + 8 * b2n (!r.noSource)) ++ body 0 0 255 1 []

/-- Job 3 for one tenant (R361 to R366): the image of the turn just ended. -/
def writeImage (s : State) (t : Nat) : State :=
  let x := s.image t
  if !s.on Reg.TI_CTL_EN [t] then s
  else if x.bad then (s.modImage t fun x => { x with bad := false }).inc Reg.TI_CNT_SKIPPED [t]
  else if !s.on Reg.TN_RIGHTS_IMAGE [t] || !s.bme t || 64 * x.imgSize < 72 then s.inc Reg.TI_CNT_SKIPPED [t]
  else
    let g := s.get Reg.TI_GEN_LO_GEN [t] + 2 ^ 32 * s.get Reg.TI_GEN_HI_GEN [t] + 1
    let turn := s.clock.turn - 1
    let recs := x.recs
    let data := recs.flatMap s.recBytes
    let len := 72 + data.length
    let flags := b2n s.standing + 2 * b2n x.layoutNew + 4 * b2n (s.get Reg.INAUG_POS_N == 1) + 8 * b2n s.taiOn + 16 * b2n x.trunc
    let skipped := match x.lastTurn with
      | some l => min 65535 (turn - l - 1)
      | none => 0
    let base := x.base + (g % 2) * (64 * x.imgSize)
    let s := s.memWrite t base (leBytes 8 g)
    let s := s.memWrite t (base + 8) (leBytes 8 turn ++ leBytes 4 x.icount ++ leBytes 2 recs.length ++ leBytes 1 flags ++
      leBytes 1 s.ownPos ++ leBytes 4 len ++ leBytes 2 skipped ++ leBytes 2 0 ++ leBytes 8 ((s.clock.ntime - s.clock.phase) / nsUnit) ++ leBytes 24 0 ++ data)
    let s := s.memWrite t (base + 64 + data.length) (leBytes 8 g)
    let s := (s.set Reg.TI_GEN_LO_GEN [t] (g % 2 ^ 32)).set Reg.TI_GEN_HI_GEN [t] (g / 2 ^ 32)
    let s := s.modImage t fun y => { y with layoutNew := false, lastTurn := some turn }
    if s.on Reg.TI_CTL_IRQ [t] then s.signal t 16 (s.get Reg.TI_CTL_VEC [t]) else s

/-- TI_CTL.EN changes from 0 to 1 (R359): the settings are taken and the list is read. -/
def enableImage (s : State) (t : Nat) (list : List Byte) : State :=
  if s.on Reg.TI_CTL_EN [t] || !s.on Reg.TN_RIGHTS_IMAGE [t] then s
  else
    let addr (lo hi : Fld) (sh : Nat) : Nat := s.get lo [t] * 2 ^ sh + (if t == 16 then 0 else 2 ^ 32 * s.get hi [t])
    let n := s.get Reg.TI_PARAM_SUB_CNT [t]
    let sub := addr Reg.TI_SUB_LO_ADDR Reg.TI_SUB_HI_ADDR 3
    let s := if t == 16 then s else s.emit (.hostRead t sub (8 * n))
    let subs := parseSubs (s.memIn t sub (8 * n) list) n
    let s := s.modImage t fun x => { x with
      subs := subs, resolve := some (s.clock.turn + 1), lastTurn := none, recs := [], trunc := false, layoutNew := false
      base := addr Reg.TI_BASE_LO_ADDR Reg.TI_BASE_HI_ADDR 6, imgSize := s.get Reg.TI_SIZE_IMG_SIZE [t]
      pubBase := addr Reg.TI_PUB_LO_ADDR Reg.TI_PUB_HI_ADDR 6, pubSize := s.get Reg.TI_SIZE_PUB_SIZE [t]
      offset := s.get Reg.TI_PARAM_OFFSET [t], staleN := s.get Reg.TI_PARAM_STALE_N [t] }
    let s := (s.set Reg.TI_GEN_LO_GEN [t] 0).set Reg.TI_GEN_HI_GEN [t] 0
    (s.set Reg.TI_CTL_EN [t] 1).set Reg.TI_STAT_ACTIVE [t] 1

end State

/-- FRAME_BUILD (R354): an own slot's frame, once, from 1 µs before its first transmit time on, the handoff's on a leader. A follower
without the leader's frame builds it from its own view (R323). -/
def execFrameBuild (slot : Nat) (s : State) : Result :=
  .next (if !s.alive || !s.ticking || slot < 4 || !(s.ownSlots s.clock.turn).contains slot || !s.buildsOwn || !s.slotArmed slot ||
        s.nowTenths + s.buildAhead < s.firstTx slot || (s.mill.built.any fun b => b.slot == slot) then s
    else if s.paired && s.isFollower then
      (if s.red.handed.contains slot then s
      else
        let s := (s.lateFetches slot).buildSlot slot true
        (s.inc Reg.RED_HANDOFF_CNT_OWN_VIEW).modRed fun r => { r with ownView := r.ownView + 1 })
    else ((s.lateFetches slot).buildSlot slot false).handOff slot)

/-- STATIC_SLOT_TRANSMIT (R149, R349): a built frame leaves on each UP line port at that port's time; `corr`: actual minus
scheduled transmit time, in 2^-16 ns (R186). -/
def execStaticSlotTransmit (slot : Nat) (corr : Int) (s : State) : Result :=
  .next (match (s.mill.built.find? fun b => b.slot == slot) with
    | none => s
    | some b =>
      if !s.alive || !s.slotArmed slot || !s.todo (.slot slot) then s
      else
        let s := (s.did s.clock.turn (.slot slot)).storeOwn b
        if s.stopped || s.inaug.joined || !s.mayOriginate || s.degraded 1 then s
        else (List.range 4).foldl (fun s n =>
          if s.nbrPort n then
            let f := s.builtFrame b corr
            let start : Int := (tenths (s.schedT slot (s.txH n)) : Int) + corr * 2 ^ 16
            s.transmit n start.toNat false false (s.tagged n f)
          else s) s)

/-- STATIC_HANDOFF_RECEIVE (R322, R323): the leader's frame of an own slot, over crosslink n; one that comes late is not used. -/
def execStaticHandoffReceive (n : Fin 4) (f : Frame) (c : RxCheck) (s : State) : Result :=
  .next (match f.payload with
    | .parcels ps =>
      if !s.alive || !s.isXlink n.val || s.pst n.val != 4 then s
      else
        let (ok, s) := s.rxX n.val f c.stamp
        if !ok || !s.isFollower || f.hdr.sender != s.ownPos || c.phase > tenths (s.handoffBy f.hdr.slot) || (s.mill.built.any fun b => b.slot == f.hdr.slot) then s
        else
          let b := s.asFollower f ps
          (s.modMill fun m => { m with built := b :: m.built }).modRed fun r => { r with handed := f.hdr.slot :: r.handed }
    | _ => s)

/-- PUBLISH_FETCH (R352, R353): when it is due, once for each turn, the node reads FLIP and asks for the buffer it names. -/
def execPublishFetch (t : Fin 17) (flip : Nat) (s : State) : Result :=
  let x := s.image t.val
  .next (match s.fetchDue t.val with
    | some turn =>
      if s.alive && s.hostUp && s.on Reg.TI_CTL_PUB_EN [t.val] && s.on Reg.TN_RIGHTS_IMAGE [t.val] && s.bme t.val && x.fetch.isNone then
        let fl := leNat (s.memIn t.val x.pubBase 4 (leBytes 4 flip))
        let s := if t.val == 16 then s else
          (s.emit (.hostRead t.val x.pubBase 4)).emit (.hostRead t.val (x.pubBase + 64 + fl % 2 * (64 * x.pubSize)) (64 * x.pubSize))
        ((s.modImage t.val fun y => { y with fetch := some (fl, turn) }).did turn (.fetch t.val)).showReads
      else s
    | none => s)

/-- PUBLISH_FETCH_DONE (R352, R355, R356): the buffer's bytes; the node refreshes what changed and writes ACK. -/
def execPublishFetchDone (t : Fin 17) (data : List Byte) (s : State) : Result :=
  let x := s.image t.val
  .next (match x.fetch with
    | none => s
    | some (fl, _) =>
      if !s.alive then s
      else
        let n := 64 * x.pubSize
        let buf := s.memIn t.val (x.pubBase + 64 + fl % 2 * n) n data
        let s := (s.modImage t.val fun y => { y with fetch := none }).showReads
        let (fresh, s) := State.takeEntries t.val (n / 8) buf s
        (s.memWrite t.val (x.pubBase + 4) (leBytes 4 fl)).passPublished fresh)

/-- TI_ENABLE (R359): the list as the host returns it. -/
def execTiEnable (t : Fin 17) (list : List Byte) (s : State) : Result := 
  .next (if s.alive && s.postsOpen t.val then s.enableImage t.val list else s)

/-- SUBSCRIPTION_RESOLVE (R359, R360): at the tick after the list was read, and at every adoption turn. -/
def execSubscriptionResolve (t : Fin 17) (s : State) : Result :=
  .next (if s.alive && s.on Reg.TI_CTL_EN [t.val] && ((s.image t.val).resolve.any fun k => k ≤ s.clock.turn) then s.resolveSubs t.val else s)

end Sys2Proof.Machine
end

