-- ==== Sys2Proof/Machine/CanOps.lean ====
section
/-!
DEFINITION. The CAN controllers (18_can_controllers.md): modes, interrupts, the pending set and arbitration (R491), reception
(R486, R487, R502), windows (R494, R495), bus-off (R499), sleep and wake (R503 to R506), and their commands.
-/

namespace Sys2Proof.Machine

/-- The arbitration field of a frame as a number, the lower winning (R491): base identifier, RTR or SRR, IDE, the rest. -/
def CanFrame.arb (f : CanFrame) : Nat :=
  let base := f.id / 2 ^ 18 % 2 ^ 11
  if f.ide then base * 2 ^ 21 + 2 ^ 20 + 2 ^ 19 + f.id % 2 ^ 18 * 2 + b2n f.rtr
  else base * 2 ^ 21 + b2n f.rtr * 2 ^ 20

/-- Identical in identifier, format bits, DLC and data (R502). -/
def CanFrame.same (a b : CanFrame) : Bool :=
  a.id == b.id && a.ide == b.ide && a.rtr == b.rtr && a.fdf == b.fdf && a.brs == b.brs && a.esi == b.esi && a.dlc == b.dlc && a.data == b.data

/-- Data bytes of a DLC (ISO 11898-1:2015). -/
def dlcLen (dlc : Nat) (fdf : Bool) : Nat :=
  if dlc ≤ 8 then dlc
  else if !fdf then 8
  else match dlc with
    | 9 => 12 | 10 => 16 | 11 => 20 | 12 => 24 | 13 => 32 | 14 => 48 | _ => 64

/-- A buffer's frame as it goes onto the bus: the data bytes that its DLC names. -/
def CanFrame.sent (f : CanFrame) : CanFrame := { f with data := if f.rtr then [] else slice f.data 0 (dlcLen f.dlc f.fdf) }

/-- The CAN frame of a CAN_SEND buffer (R406), none where its layout or its checks fail. -/
def parseCan (l : List Byte) (len : Nat) : Option CanFrame :=
  let w := leAt l 0 4
  let ide := bit w 29
  let rtr := bit w 30
  let dlc := leAt l 4 1
  let fl := leAt l 5 1
  let fdf := bit fl 0
  let brs := bit fl 1
  if bit w 31 || dlc ≥ 16 || fl ≥ 4 || leAt l 6 2 != 0 || (rtr && fdf) || (!fdf && len > 16) || (brs && !fdf) || len != 8 + dlcLen dlc fdf then none
  else some ⟨if ide then w % 2 ^ 29 else w % 2 ^ 29 / 2 ^ 18 * 2 ^ 18, ide, rtr, fdf, brs, false, dlc, if rtr then [] else slice l 8 (len - 8)⟩

namespace State

/-- Controller n's part of the state. -/
def ctl (s : State) (n : Nat) : CanCtl := s.can.ctls.getD n default

/-- Change a controller's part. -/
def modCtl (s : State) (n : Nat) (f : CanCtl → CanCtl) : State := s.modCan fun c => { c with ctls := listMod c.ctls n f }

/-- State of a controller (CANn_STAT.STATE): 0 OFF, 1 INIT, 2 INTEGRATING, 3 ACTIVE, 4 BUSOFF, 5 SLEEP. -/
def cst (s : State) (n : Nat) : Nat := s.get Reg.CANn_STAT_STATE [n]

/-- Controllers n and its neighbour form a mirror pair (R501). -/
def mirrored (s : State) (n : Nat) : Bool := s.on Reg.CANn_CTL_MIRROR [n - n % 2]

/-- The controller whose buffers, matrix and configuration govern n (R501). -/
def govern (s : State) (n : Nat) : Nat := if s.mirrored n then n - n % 2 else n

/-- This device drives the car-service outputs (R324, R333, Table 13-12). -/
def drives (s : State) : Bool :=
  !s.paired ||
  match s.red.swap with
  | some w => if w.w ≤ s.clock.turn then (if w.leader then w.aborted else w.done) else s.isLeader && s.red.driveFrom ≤ s.clock.turn
  | none => s.isLeader && s.red.driveFrom ≤ s.clock.turn

/-- The mode in force (R483): restricted operation on a device that does not drive. -/
def canMode (s : State) (n : Nat) : Nat := if s.drives then s.get Reg.CANn_CTL_MODE [s.govern n] else 2

/-- Buffer b of a governing controller. -/
def canBuf (s : State) (g b : Nat) : CanBuf := (Sparse.find b (s.ctl g).bufs).getD default

/-- Change a buffer. -/
def modBuf (s : State) (g b : Nat) (f : CanBuf → CanBuf) : State :=
  s.modCtl g fun c => { c with bufs := Sparse.write default b (f ((Sparse.find b c.bufs).getD default)) c.bufs }

/-- Set a bit of CANn_IRQ, signalling it when it becomes set (R498). -/
def canIrq (s : State) (n : Nat) (f en : Fld) : State :=
  if s.on f [n] then s
  else
    let s := s.set f [n] 1
    if s.on en [n] && s.on Reg.CANn_IRQ_ROUTE_EN [n] then
      s.msix (if s.on Reg.CANn_IRQ_ROUTE_PF [n] then 8 else 0) (s.get Reg.CANn_IRQ_ROUTE_VEC [n])
    else s

/-! The pending set (R491, R501) -/

/-- The pending set that controller n sends from. -/
def pendOf (s : State) (n : Nat) : List Nat :=
  let c := s.ctl (s.govern n)
  if s.mirrored n && n % 2 == 1 then c.pendingOdd else c.pending

/-- Show the frames pending on a governing controller's bus or buses. -/
def showPending (s : State) (g : Nat) : State :=
  let s := s.set Reg.CANn_STAT_PENDING [g] (s.ctl g).pending.length
  if s.mirrored g then s.set Reg.CANn_STAT_PENDING [g + 1] (s.ctl g).pendingOdd.length else s

/-- Make a buffer pending on the even (or only) and the odd bus of a governing controller as asked; it is pending once. -/
def canPendOn (s : State) (g b : Nat) (even odd : Bool) : State :=
  let add (l : List Nat) : List Nat := if l.contains b then l else l ++ [b]
  (s.modCtl g fun c => { c with
    pending := if even then add c.pending else c.pending, pendingOdd := if odd then add c.pendingOdd else c.pendingOdd
    confirmed := c.confirmed.filter fun x => x != b }).showPending g

/-- Controller n is asleep. -/
def asleep (s : State) (n : Nat) : Bool := s.cst n == 5

/-- Make a buffer pending, on both buses of a mirror pair; not on one that sleeps while the other does not (R501, R503, log 97). -/
def canPend (s : State) (g b : Nat) : State :=
  if s.mirrored g then s.canPendOn g b (!s.asleep g || s.asleep (g + 1)) (!s.asleep (g + 1) || s.asleep g)
  else s.canPendOn g b true false

/-- The buses that a governing controller's windows and frames reach: its own, and of a mirror pair the odd one. -/
def busesOf (s : State) (g : Nat) : List Nat := if s.mirrored g then [g, g + 1] else [g]

/-- A window that opens makes its buffer pending on controller n's bus: not in BUSOFF with ABORT_ON_BUSOFF (R496, R499). -/
def canTakes (s : State) (n : Nat) : Bool :=
  2 ≤ s.cst n && s.cst n ≤ 4 && !(s.cst n == 4 && s.on Reg.CANn_CTL_ABORT_ON_BUSOFF [s.govern n])

/-- Take a buffer out of the set that controller n sends from. -/
def canUnpend (s : State) (n b : Nat) : State :=
  let g := s.govern n
  let odd := s.mirrored n && n % 2 == 1
  (s.modCtl g fun c => if odd then { c with pendingOdd := c.pendingOdd.filter fun x => x != b }
    else { c with pending := c.pending.filter fun x => x != b }).showPending g

/-- A buffer is pending on some bus. -/
def canPending (s : State) (g b : Nat) : Bool := (s.ctl g).pending.contains b || (s.ctl g).pendingOdd.contains b

/-- A buffer's frame is on a bus. -/
def canOnBus (s : State) (g b : Nat) : Bool :=
  (s.ctl g).onBus == some b || (s.mirrored g && (s.ctl (g + 1)).onBus == some b)

/-- CAN transmission is not paused (R496, R106): job 4's functions run and there is a tick. In a line state OFF whose tick runs on, as
without a valid image or key, car services go on (R84). -/
def canRuns (s : State) : Bool := s.cpuUp 1 && s.ticking

/-- The transmitter loop delay is measured afresh (R481): a free value. -/
def canLoop (s : State) (n : Nat) : State :=
  let (v, s) := s.take 7
  s.set Reg.CANn_TDC_MEAS [n] v

/-- Controller n may start a frame (R483, R496, R500). -/
def canMayStart (s : State) (n : Nat) : Bool :=
  s.cst n == 3 && (s.canMode n == 0 || s.canMode n == 3) && !s.on Reg.CANn_STAT_ALONE_HELD [n] && s.canRuns && (s.ctl n).onBus.isNone

/-- The pending buffer that wins arbitration (R491). -/
def canWinner (s : State) (n : Nat) : Option Nat :=
  let g := s.govern n
  let key (b : Nat) : Nat := (s.canBuf g b).frame.arb * 128 + b
  match s.pendOf n with
  | [] => none
  | b :: l => some (l.foldl (fun a x => if key x < key a then x else a) b)

/-! Buffers of CAN_SEND (R492) -/

/-- The free TX_HOST buffer with the lowest index; one whose descriptor was discarded is free once its frame has ended (R412). -/
def canFree (s : State) (g : Nat) : Option Nat :=
  (List.range 128).find? fun b => (s.canBuf g b).type == 3 && (s.canBuf g b).own.isNone && !s.canPending g b && !s.canOnBus g b

/-- Put a descriptor's frame into a TX_HOST buffer and make it pending. -/
def canTake (s : State) (g b t q i : Nat) (f : CanFrame) : State :=
  (s.modBuf g b fun x => { x with frame := f, own := some (t, q, i), isNew := true }).canPend g b

/-- Waiting descriptors take buffers that have become free. -/
def canFeed (s : State) (g : Nat) : Nat → State
  | 0 => s
  | fuel + 1 =>
    match (s.ctl g).waits, s.canFree g with
    | (t, q, i, f) :: rest, some b => canFeed ((s.modCtl g fun c => { c with waits := rest }).canTake g b t q i f) g fuel
    | _, _ => s

/-- Take a frame of CAN_SEND: into the lowest free TX_HOST buffer, or to wait (R492). -/
def canQueue (s : State) (g t q i : Nat) (f : CanFrame) : State :=
  match s.canFree g with
  | some b => if (s.ctl g).waits.isEmpty then s.canTake g b t q i f
    else s.modCtl g fun c => { c with waits := c.waits ++ [(t, q, i, f)] }
  | none => (s.modCtl g fun c => { c with waits := c.waits ++ [(t, q, i, f)] }).inc Reg.CANn_CNT_B_HOST_WAIT [g]

/-- The controller, or each one of a mirror pair, does not take a CAN_SEND when it starts (Table 18-5). -/
def canClosed (s : State) (g : Nat) : Bool := ((s.busesOf g).all fun n => s.cst n ≤ 1 || s.cst n == 5) || s.canMode g != 0

/-- A TX_HOST buffer's CAN_SEND completes, and the buffer is free again. -/
def canEnd (s : State) (g b status rval : Nat) : State :=
  match (s.canBuf g b).own with
  | none => s.canFeed g 128
  | some (t, q, i) =>
    ((s.modBuf g b fun x => { x with own := none, isNew := false }).complete t q i status 0 rval).canFeed g 128

/-- CAN_SENDs that wait for a TX_HOST buffer end with those that have one (Table 18-5), unless the other bus of a mirror pair still
sends. -/
def canDropWaits (s : State) (n : Nat) : State :=
  if s.mirrored n then s
  else
    let l := (s.ctl n).waits
    let s := s.modCtl n fun c => { c with waits := [] }
    l.foldl (fun s w => s.complete w.1 w.2.1 w.2.2.1 1 0 0) s

/-- Abort the pending set of controller n's bus (R499, R503): TX_HOST frames that wait on no other bus complete with DISCARDED,
TX_MATRIX buffers keep NEW. -/
def canAbort (s : State) (n : Nat) : State :=
  let g := s.govern n
  let s := s.canDropWaits n
  (s.pendOf n).foldl (fun s b =>
    let s := s.canUnpend n b
    if (s.canBuf g b).type == 3 && !s.canPending g b then s.canEnd g b 1 0 else s) s

/-- The abort of a swap turn (Table 13-12): the pending frames of controller n's bus that are not on it. A CAN_SEND keeps its buffer, for
it ends at the tick of the role change (Table 15-15). -/
def canPark (s : State) (n : Nat) : State :=
  ((s.pendOf n).filter fun b => (s.ctl n).onBus != some b).foldl (fun s b => s.canUnpend n b) s

/-- The frames of CAN_SEND that a swap parked are pending again: the swap is aborted (R341). -/
def canUnpark (s : State) (g : Nat) : State :=
  (((s.ctl g).bufs.filter fun x => x.2.type == 3 && x.2.own.isSome && !s.canPending g x.1 && !s.canOnBus g x.1).map fun x => x.1).foldl
    (fun s b => s.canPend g b) s

/-! Writes of TX_MATRIX buffers (R474, R493) -/

/-- Apply a write. -/
def canWrite (s : State) (g : Nat) (w : CanPut) : State :=
  s.modBuf g w.buf fun x => { x with
    isNew := x.isNew || w.mark
    frame := { x.frame with
      dlc := w.dlc.getD x.frame.dlc
      data := if w.data.isEmpty then x.frame.data
        else slice x.frame.data 0 w.place ++ w.data ++ x.frame.data.drop (w.place + w.data.length) } }

/-- A write of a TX_MATRIX buffer; it is held while the buffer's frame is on a bus. -/
def canUpdate (s : State) (g : Nat) (w : CanPut) : State :=
  if s.canOnBus g w.buf then s.modCtl g fun c => { c with heldWrites := c.heldWrites ++ [w] }
  else s.canWrite g w

/-- The frame on controller n's bus ends: held writes reach the buffer, and a waiting SLEEP command goes on. -/
def canHeld (s : State) (g b : Nat) : State :=
  if s.canOnBus g b then s
  else
    let mine := (s.ctl g).heldWrites.filter fun w => w.buf == b
    let s := s.modCtl g fun c => { c with heldWrites := c.heldWrites.filter fun w => w.buf != b }
    mine.foldl (fun s w => s.canWrite g w) s

/-! Fault confinement (R497) -/

/-- CANn_ERR as one value. -/
def canErrWord (s : State) (n : Nat) : Nat :=
  s.get Reg.CANn_ERR_TEC [n] + 2 ^ 16 * s.get Reg.CANn_ERR_REC [n] + 2 ^ 24 * s.get Reg.CANn_ERR_LEC [n] + 2 ^ 28 * s.get Reg.CANn_ERR_DATA_PHASE [n]

/-- Give the error counters values, with what R497 makes of them. -/
def canCounters (s : State) (n tec rec_ : Nat) : State :=
  let lim := s.get Reg.CANn_CTL_EWL [s.govern n]
  let was := s.on Reg.CANn_STAT_EWARN [n]
  let wasP := s.on Reg.CANn_STAT_EPASS [n]
  let s := (s.set Reg.CANn_ERR_TEC [n] (min tec 511)).set Reg.CANn_ERR_REC [n] (min rec_ 255)
  let warn := decide (tec ≥ lim) || decide (rec_ ≥ lim)
  let pass := decide (tec ≥ 128) || decide (rec_ ≥ 128)
  let s := (s.flag Reg.CANn_STAT_EWARN [n] warn).flag Reg.CANn_STAT_EPASS [n] pass
  let s := if warn && !was then (s.canIrq n Reg.CANn_IRQ_EWARN Reg.CANn_IRQ_EN_EWARN).recordS 0x3D01 2 10 n (s.canErrWord n) else s
  if pass && !wasP then (s.canIrq n Reg.CANn_IRQ_EPASS Reg.CANn_IRQ_EN_EPASS).recordS 0x3D02 3 10 n (s.canErrWord n) else s

/-- Entry into BUSOFF (R499). -/
def canBusOff (s : State) (n : Nat) : State :=
  let g := s.govern n
  let pend := (s.pendOf n).length
  let s := s.set Reg.CANn_STAT_STATE [n] 4
  let s := s.modCtl n fun c => { c with onBus := none, recovering := s.on Reg.CANn_CTL_AUTO_REC [g], busOffAt := s.clock.up, sleepReq := false }
  let s := (s.inc Reg.CANn_CNT_B_BUSOFF [n]).canIrq n Reg.CANn_IRQ_BOFF Reg.CANn_IRQ_EN_BOFF
  let s := s.recordS 0x3D03 4 10 n pend
  if s.on Reg.CANn_CTL_ABORT_ON_BUSOFF [g] then s.canAbort n else s

/-- The first valid frame received, or the first transmission that succeeds, ends ALONE (R500). -/
def canHeard (s : State) (n : Nat) : State :=
  ((s.set Reg.CANn_STAT_ALONE [n] 0).set Reg.CANn_STAT_ALONE_HELD [n] 0).modCtl n fun c => { c with ackErrs := 0 }

/-! Sleep and wake (R503, R506) -/

/-- Enter SLEEP. -/
def canSleep (s : State) (n : Nat) : State :=
  let s := s.canAbort n
  let s := (s.set Reg.CANn_STAT_STATE [n] 5).modCtl n fun c => { c with sleepReq := false, armed := true, wins := [] }
  let s := s.modPins fun p => { p with canStb := listSet p.canStb n true }
  let s := s.set Reg.CAN_WAKE_STAT_DECERR [] 0
  s.recordS 0x3D08 1 10 n (s.get Reg.CANn_WAKE_WMODE [n])

/-- The end of a frame on controller n's bus lets a SLEEP command go on. -/
def canIdle (s : State) (n : Nat) : State := if (s.ctl n).sleepReq && s.cst n == 3 then s.canSleep n else s

/-- Wake a sleeping controller with a cause. -/
def canWake (s : State) (n cause : Nat) : State :=
  if !(s.ctl n).armed then s
  else
    let s := s.modCtl n fun c => { c with armed := false }
    let s := (s.setBits Reg.CAN_WAKE_STAT_PEND [] (2 ^ n)).set Reg.CAN_WAKE_STAT_CAUSE [] cause
    let s := s.recordS 0x3D09 1 10 n cause
    if s.domainOn 8 then
      let s := s.modPins fun p => { p with canStb := listSet p.canStb n false }
      (s.set Reg.CANn_STAT_STATE [n] 2).canIrq n Reg.CANn_IRQ_WAKE Reg.CANn_IRQ_EN_WAKE
    else s.modCtl n fun c => { c with wakeHeld := true }

/-- A frame meets the selective wake settings of controller n (R505). -/
def canWakes (s : State) (n : Nat) (f : CanFrame) : Bool :=
  let m := s.get Reg.CANn_WAKE_MASK_ID [n]
  let data (lo hi : Fld) : Nat := s.get lo [n] + 2 ^ 32 * s.get hi [n]
  let dm := data Reg.CANn_WAKE_DMASK_LO_BYTES Reg.CANn_WAKE_DMASK_HI_BYTES
  !f.fdf && !f.rtr && ((f.id + 2 ^ 29 * b2n f.ide) &&& m) == (s.get Reg.CANn_WAKE_ID_ID [n] &&& m) &&
  f.dlc == s.get Reg.CANn_WAKE_DLC [n] &&
  (leAt f.data 0 8 &&& dm) == (data Reg.CANn_WAKE_DATA_LO_BYTES Reg.CANn_WAKE_DATA_HI_BYTES &&& dm)

/-- What controller n sends is cut off recessive (R47). -/
def canCut (s : State) (n : Nat) : State :=
  if (s.ctl n).onBus.isSome && s.canMode n == 0 then s.emit (.canCut n) else s

/-- Frames in progress are cut off: the transmitters fall silent, CANn_TXD goes recessive (R47, R53). A port that is sending nothing has
nothing cut off. -/
def cutFrames (s : State) : State :=
  (List.range 8).foldl (fun s n => s.canCut n) ((List.range 4).foldl (fun s n => if s.pst n == 4 then s.emit (.lineCut n) else s) s)

/-- Controller n enters INIT; a frame on its bus is cut off and stays pending, and the writes held for it reach its buffer. -/
def canInit (s : State) (n : Nat) : State :=
  let b := (s.ctl n).onBus
  let s := ((s.canCut n).set Reg.CANn_STAT_STATE [n] 1).modCtl n fun c => { c with
    onBus := none, wins := [], sleepReq := false, armed := false }
  match b with
  | some b => s.canHeld (s.govern n) b
  | none => s

/-- A controller takes up its configuration: INIT, and INTEGRATING with EN (Table 18-3). -/
def canSettle (s : State) (n : Nat) : State :=
  let en := s.on Reg.CANn_CTL_EN [s.govern n]
  let st := s.cst n
  let stb (s : State) (b : Bool) : State := s.modPins fun p => { p with canStb := listSet p.canStb n b }
  if st == 0 then s
  else if !en then (if st == 1 then s else stb (s.canInit n) true)
  else if st == 1 then stb (s.set Reg.CANn_STAT_STATE [n] 2) false
  else s

/-! Reception (R486, R487, R502) -/

/-- Store a frame into an RX buffer. -/
def canStore (s : State) (n g b : Nat) (f : CanFrame) (ns turn : Nat) : State :=
  let x := s.canBuf g b
  let lost := x.hostRead && x.isNew
  let s := s.modBuf g b fun y => { y with
    frame := f, isNew := true, msgLost := y.msgLost || lost, bus := decide (n ≠ g)
    tsNs := ns % 2 ^ 32, tsTurn := turn % 2 ^ 32, storedTurn := some s.clock.turn }
  let s := s.inc Reg.CANn_CNT_A_RX_OK [n]
  let s := if x.irq then s.canIrq n Reg.CANn_IRQ_RX Reg.CANn_IRQ_EN_RX else s
  if lost then
    ((s.inc Reg.CANn_CNT_B_MSGLOST [n]).canIrq n Reg.CANn_IRQ_MSGLOST Reg.CANn_IRQ_EN_MSGLOST).recordS 0x3D07 2 10 n b
  else s

/-- The lowest RX buffer whose filter a frame matches (R486). -/
def canMatch (s : State) (g : Nat) (f : CanFrame) : Option Nat :=
  let w := f.id + 2 ^ 29 * b2n f.ide
  (List.range 128).find? fun b =>
    let x := s.canBuf g b
    x.type == 1 && (w &&& x.filtMask) == (x.filtId &&& x.filtMask)

/-- A mirror pair's twin window in ns: MWIN in units of 100 µs, 0 for 1 ms (R502). -/
def twinWindow (s : State) (g : Nat) : Nat :=
  let m := s.get Reg.CANn_CTL_MWIN [g]
  if m == 0 then 1000000 else m * 100000

/-- A valid frame: stored, taken for a mirror twin, or dropped. -/
def canReceive (s : State) (n : Nat) (f : CanFrame) (ns turn : Nat) : State :=
  let g := s.govern n
  let odd := decide (n ≠ g)
  match (s.ctl g).twins.find? fun t => t.2.1 != odd && t.1.same f && !s.since t.2.2 (s.twinWindow g) with
  | some t => (s.modCtl g fun c => { c with twins := c.twins.erase t }).inc Reg.CANn_CNT_B_TWINS [g]
  | none =>
    match s.canMatch g f with
    | none => s.inc Reg.CANn_CNT_B_NOMATCH [n]
    | some b =>
      let s := s.canStore n g b f ns turn
      if s.mirrored n then s.modCtl g fun c => { c with twins := c.twins ++ [(f, odd, s.clock.up)] } else s

/-! Windows (R494, R495) -/

/-- The cell (r, c): the buffer it names and its ALWAYS bit, where it is enabled. -/
def canCell (s : State) (g r c : Nat) : Option (Nat × Bool) :=
  let j := c / 2
  if c % 2 == 0 then
    (if s.on Reg.CANn_MCELL_r_j_EN0 [g, r, j] then some (s.get Reg.CANn_MCELL_r_j_BUF0 [g, r, j], s.on Reg.CANn_MCELL_r_j_ALWAYS0 [g, r, j]) else none)
  else
    (if s.on Reg.CANn_MCELL_r_j_EN1 [g, r, j] then some (s.get Reg.CANn_MCELL_r_j_BUF1 [g, r, j], s.on Reg.CANn_MCELL_r_j_ALWAYS1 [g, r, j]) else none)

/-- Offset in µs of an enabled column; while job 4 is degraded no window opens before 50 µs (Table 4-4). -/
def canCol (s : State) (g c : Nat) : Option Nat :=
  if s.on Reg.CANn_MCOL_k_EN [g, c] then some (max (s.get Reg.CANn_MCOL_k_OFFSET [g, c]) (if s.degraded 4 then 50 else 0)) else none

/-- The phase in µs at which a window that opens at `off` ends, none at the next tick. -/
def canWinEnd (s : State) (g off : Nat) : Option Nat :=
  let l := ((List.range 32).filterMap fun c => s.canCol g c).filter fun o => o > off
  match l with
  | [] => none
  | o :: r => some (r.foldl min o)

/-- Open the window of a column in the row that job 4 has taken in this turn, once, when the turn has come to its offset (R494). -/
def canOpen (s : State) (g c : Nat) : State :=
  match s.canCol g c, s.can.row with
  | some off, some row =>
    if off ≥ s.get Reg.TURN_LEN_LEN_ACT || s.phaseNs < off * 1000 || (s.ctl g).opened.contains c ||
        !((s.busesOf g).any fun n => 2 ≤ s.cst n && s.cst n ≤ 4) || !s.canRuns || !s.drives then s
    else
      let takes := (s.busesOf g).any s.canTakes
      let b : Option Nat := match s.canCell g row c with
        | some (b, always) => if ((s.canBuf g b).isNew || always) && takes && (s.canBuf g b).type == 2 then some b else none
        | none => none
      let s := match b with
        | some b => s.canPendOn g b (s.canTakes g) (s.mirrored g && s.canTakes (g + 1))
        | none => s
      s.modCtl g fun x => { x with
        wins := ⟨row, c, b, s.canWinEnd g off⟩ :: x.wins.filter fun w => w.col != c, opened := c :: x.opened }
  | _, _ => s

/-- A window ends; it misses when its buffer is still to be sent (R495). -/
def canMiss (s : State) (g : Nat) (w : CanWin) : State :=
  let s := s.modCtl g fun x => { x with wins := x.wins.filter fun v => v.col != w.col }
  match w.buf with
  | none => s
  | some b =>
    let s := (s.setBits Reg.CANn_MISS_r_COL [g, w.row] (2 ^ w.col)).inc Reg.CANn_CNT_B_MISSED [g]
    let s := s.canIrq g Reg.CANn_IRQ_MISSED Reg.CANn_IRQ_EN_MISSED
    let s := s.recordS 0x3D06 2 10 (g + 2 ^ 8 * w.row + 2 ^ 16 * w.col) b
    if s.on Reg.CANn_CTL_MISS_ABORT [g] then (s.canUnpend g b).canUnpend (g + b2n (s.mirrored g)) b else s

/-- The windows of a row that lie before the completion of a late job 4, in µs, are flagged missed (R495, Table 4-4). -/
def canLate (s : State) (row done : Nat) : State :=
  (List.range 8).foldl (fun s g => (List.range 32).foldl (fun s c =>
    match s.canCol g c, s.canCell g row c with
    | some off, some (b, always) =>
      if s.govern g == g && off < done && off < s.get Reg.TURN_LEN_LEN_ACT && s.cst g ≥ 2 && s.cst g != 5 && s.drives &&
          ((s.canBuf g b).isNew || always) && (s.canBuf g b).type == 2 then
        s.canMiss g ⟨row, c, some b, none⟩
      else s
    | _, _ => s) s) s

/-- Windows that reach the next tick end there (R494). -/
def canTick (s : State) : State :=
  (List.range 8).foldl (fun s g => ((s.ctl g).wins.foldl (fun s w => s.canMiss g w) s).modCtl g fun x => { x with opened := [] }) s

/-- The buffer's frame has succeeded: windows that wait for it are met. -/
def canMet (s : State) (g b : Nat) : State :=
  s.modCtl g fun x => { x with wins := x.wins.map fun w => if w.buf == some b then { w with buf := none } else w }

/-- A frame on controller n's bus has been acknowledged up to the end of EOF (R491, R501). `ns`, `turn`: its time stamp. -/
def canSuccess (s : State) (n b ns turn : Nat) : State :=
  let g := s.govern n
  let x := s.canBuf g b
  let first := !(s.ctl g).confirmed.contains b
  let s := (s.modCtl n fun c => { c with onBus := none }).canUnpend n b
  let s := s.modCtl g fun c => { c with confirmed := if s.canPending g b then b :: c.confirmed else c.confirmed.filter fun x => x != b }
  let s := (s.inc Reg.CANn_CNT_A_TX_OK [n]).canHeard n
  let s := s.canCounters n (s.get Reg.CANn_ERR_TEC [n] - 1) (s.get Reg.CANn_ERR_REC [n])
  let s := if first then
      let s := s.modBuf g b fun y => { y with isNew := false, bus := decide (n ≠ g), tsNs := ns % 2 ^ 32, tsTurn := turn % 2 ^ 32 }
      let s := s.canMet g b
      if x.type == 3 then s.canEnd g b 0 (ns % 2 ^ 32 + 2 ^ 32 * (turn % 2 ^ 32)) else s
    else s
  let s := if s.canMode n == 3 then s.canReceive n x.frame.sent ns turn else s
  (s.canHeld g b).canIdle n

/-- Receive error counter after a frame received without error (ISO 11898-1:2015): one less, or a value of 119 to 127 from
above 127, which the standard leaves open. -/
def canRecDown (s : State) (n : Nat) : State :=
  let r := s.get Reg.CANn_ERR_REC [n]
  if r == 0 then s
  else if r ≤ 127 then s.canCounters n (s.get Reg.CANn_ERR_TEC [n]) (r - 1)
  else
    let (v, s) := s.take 8
    s.canCounters n (s.get Reg.CANn_ERR_TEC [n]) (119 + v % 9)

/-- PD8 goes off (Table 3-2, Table 18-3): every controller is OFF; what its detectors hold in PD0 stays. -/
def canOff (s : State) : State :=
  (List.range 8).foldl (fun s n =>
    let s := (s.canCut n).set Reg.CANn_STAT_STATE [n] 0
    let s := (s.set Reg.CANn_STAT_PENDING [n] 0).set Reg.CANn_STAT_ALONE [n] 0
    let s := ((s.set Reg.CANn_STAT_ALONE_HELD [n] 0).set Reg.CANn_STAT_EWARN [n] 0).set Reg.CANn_STAT_EPASS [n] 0
    let s := (s.set Reg.CANn_ERR_TEC [n] 0).set Reg.CANn_ERR_REC [n] 0
    let s := s.modPins fun p => { p with canStb := listSet p.canStb n true }
    s.modCtl n fun c => { c with
      bufs := [], pending := [], pendingOdd := [], confirmed := [], onBus := none, heldWrites := [], wins := [], opened := [], ackErrs := 0, recovering := false,
      sleepReq := false, twins := [], waits := [] }) s

/-- A frame of another node has come while the controller had one of its own on the bus: it lost arbitration, and its frame stays
pending (R491). -/
def canYield (s : State) (n : Nat) : State :=
  match (s.ctl n).onBus with
  | none => s
  | some b => (s.modCtl n fun c => { c with onBus := none }).canHeld (s.govern n) b

/-- Controller n acknowledges a frame: in normal and restricted operation; in listen-only it sends no bit (R483). -/
def canAck (s : State) (n : Nat) : State := if s.canMode n == 0 || s.canMode n == 2 then s.emit (.canAck n) else s

/-- Controller n signals an error: in normal operation alone does it send error flags (R483). -/
def canFlag (s : State) (n : Nat) : State := if s.canMode n == 0 then s.emit (.canError n) else s

/-- An FD frame meets a controller whose FD_EN is 0 (R478): an error frame answers it, and the receive error counter takes the receiver's
step of ISO 11898-1:2015. Which error code it is the spec does not state: a free value. -/
def canRefuse (s : State) (n : Nat) : State :=
  let (v, s) := (s.canYield n).take 3
  let s := (s.set Reg.CANn_ERR_LEC [n] (v % 6 + 1)).set Reg.CANn_ERR_DATA_PHASE [n] 0
  ((s.canFlag n).canCounters n (s.get Reg.CANn_ERR_TEC [n]) (s.get Reg.CANn_ERR_REC [n] + 1)).canIdle n

/-! CANn_CMD -/

/-- RECOVER: recovery starts to be counted (R499). -/
def canRecover (s : State) (n : Nat) : State :=
  if s.cst n == 4 && !s.on Reg.CANn_CTL_AUTO_REC [s.govern n] then s.modCtl n fun c => { c with recovering := true } else s

/-- SLEEP: at the end of the frame on the bus (R503). -/
def canSleepCmd (s : State) (n : Nat) : State :=
  if s.cst n == 3 then (if (s.ctl n).onBus.isSome then s.modCtl n fun c => { c with sleepReq := true } else s.canSleep n) else s

end State

/-- CAN_FRAME_RECEIVE (R478, R482, R486, R487, R502): a frame that passes every check of ISO 11898-1:2015, with its time stamp. -/
def execCanFrameReceive (n : Fin 8) (f : CanFrame) (ns turn : Nat) (s : State) : Result :=
  .next (if !s.alive || s.cst n.val != 3 then s
    else if f.fdf && !s.on Reg.CANn_CTL_FD_EN [s.govern n.val] then s.canRefuse n.val
    else (((((s.canYield n.val).canAck n.val).canHeard n.val).canRecDown n.val).canReceive n.val f ns turn).canIdle n.val)

/-- CAN_TX_START (R491, R501): the bus is idle. In loopback the output stays recessive (R483). -/
def execCanTxStart (n : Fin 8) (s : State) : Result :=
  .next (if !s.alive || !s.canMayStart n.val then s
    else match s.canWinner n.val with
      | none => s
      | some b =>
        let f := (s.canBuf (s.govern n.val) b).frame.sent
        let s := if f.fdf && f.brs && s.on Reg.CANn_TDC_EN [s.govern n.val] then s.canLoop n.val else s
        let s := s.modCtl n.val fun c => { c with onBus := some b }
        if s.canMode n.val == 0 then s.emit (.can n.val f) else s)

/-- CAN_TX_SUCCESS (R490, R491, R501): `ns`, `turn`: node time and turn at the start-of-frame edge. -/
def execCanTxSuccess (n : Fin 8) (ns turn : Nat) (s : State) : Result :=
  .next (if !s.alive || s.cst n.val != 3 then s
    else match (s.ctl n.val).onBus with
      | none => s
      | some b => s.canSuccess n.val b ns turn)

/-- CAN_WINDOW_OPEN (R494). -/
def execCanWindowOpen (n : Fin 8) (c : Fin 32) (s : State) : Result :=
  .next (if s.alive && s.govern n.val == n.val then s.canOpen n.val c.val else s)

/-- CAN_WINDOW_MISS (R495): a window ends before the next tick. -/
def execCanWindowMiss (n : Fin 8) (c : Fin 32) (s : State) : Result :=
  .next (if !s.alive then s
    else match (s.ctl n.val).wins.find? fun w => w.col == c.val with
      | some w => if w.ends.any fun e => s.phaseNs ≥ e * 1000 then s.canMiss n.val w else s
      | none => s)

/-- CAN_BUS_ERROR (R479, R497, R499, R500): as transmitter or receiver, the error code, its phase, and the step of ISO 11898-1:2015.
An acknowledge error raises an error-active
transmitter's counter by 8, so that the 16th in a row makes it error-passive, and an error-passive one's not at all (R500). `res`: a recessive res bit in a received FD frame, which is a form
error unless PXE enables the protocol exception. -/
def execCanBusError (n : Fin 8) (tx : Bool) (lec : Fin 7) (dataPhase : Bool) (step : Fin 9) (res : Bool) (s : State) : Result :=
  let g := s.govern n.val
  let ack := tx && lec.val == 3
  let st := if ack then (if s.on Reg.CANn_STAT_EPASS [n.val] then 0 else 8) else step.val
  .next (if !s.alive || s.cst n.val != 3 || (tx && (s.ctl n.val).onBus.isNone) || (res && !tx && s.on Reg.CANn_CTL_PXE [g]) then s
    else
      let b := (s.ctl n.val).onBus
      let s := ((s.canFlag n.val).set Reg.CANn_ERR_LEC [n.val] lec.val).flag Reg.CANn_ERR_DATA_PHASE [n.val] dataPhase
      let s := if tx then s.modCtl n.val fun c => { c with onBus := none, ackErrs := if ack then c.ackErrs + 1 else 0 } else s
      let tec := s.get Reg.CANn_ERR_TEC [n.val] + (if tx then st else 0)
      let s := s.canCounters n.val tec (s.get Reg.CANn_ERR_REC [n.val] + (if tx then 0 else st))
      let s := if tec > 255 then s.canBusOff n.val else s
      match b with
      | some b => if tx then (s.canHeld g b).canIdle n.val else s
      | none => s)

/-- CAN_RECOVERY_DONE (R499). -/
def execCanRecoveryDone (n : Fin 8) (s : State) : Result :=
  .next (if s.alive && s.cst n.val == 4 && (s.ctl n.val).recovering then
    let us := (s.clock.up - (s.ctl n.val).busOffAt) / (1000 * State.nsUnit)
    let s := (s.set Reg.CANn_STAT_STATE [n.val] 3).modCtl n.val fun c => { c with recovering := false, ackErrs := 0 }
    let s := s.canCounters n.val 0 0
    (s.canIrq n.val Reg.CANn_IRQ_RECOVERED Reg.CANn_IRQ_EN_RECOVERED).recordS 0x3D04 2 10 n.val us
  else s)

/-- CAN_RECOVER_CMD (R499). -/
def execCanRecoverCmd (n : Fin 8) (s : State) : Result :=
  .next (if s.alive then s.canRecover n.val else s)

/-- CAN_ALONE (R500): 32 attempts in a row have ended in an acknowledge error. -/
def execCanAlone (n : Fin 8) (s : State) : Result :=
  let hold := s.on Reg.CANn_CTL_ALONE_HOLD [s.govern n.val]
  .next (if s.alive && (s.ctl n.val).ackErrs ≥ 32 && !s.on Reg.CANn_STAT_ALONE [n.val] then
    let s := (s.set Reg.CANn_STAT_ALONE [n.val] 1).flag Reg.CANn_STAT_ALONE_HELD [n.val] hold
    (s.canIrq n.val Reg.CANn_IRQ_ALONE Reg.CANn_IRQ_EN_ALONE).recordS 0x3D05 3 10 n.val (b2n hold)
  else s)

/-- CAN_BUS_INTEGRATED (R482): 11 consecutive recessive bits. -/
def execCanBusIntegrated (n : Fin 8) (s : State) : Result :=
  .next (if s.alive && s.cst n.val == 2 then s.set Reg.CANn_STAT_STATE [n.val] 3 else s)

/-- CAN_SLEEP_CMD (R503). -/
def execCanSleepCmd (n : Fin 8) (s : State) : Result :=
  .next (if s.alive then s.canSleepCmd n.val else s)

/-- CAN_WAKE_CMD (R506). -/
def execCanWakeCmd (n : Fin 8) (s : State) : Result := .next (if s.alive then s.canWake n.val 4 else s)

/-- CAN_WAKE_DETECT (R504, R505): what the wake detector of a sleeping controller sees. Between 3.0 and 5.0 µs the spec leaves
open whether a dominant level wakes. -/
def execCanWakeDetect (n : Fin 8) (w : WakeSeen) (s : State) : Result :=
  let sel := s.on Reg.CANn_WAKE_WMODE [n.val]
  .next (if !s.power.on || !(s.ctl n.val).armed then s
    else match w with
      | .dominant d =>
        if sel || d ≤ 30 then s
        else if d ≥ 50 then s.canWake n.val 1
        else
          let (v, s) := s.take 1
          if v == 1 then s.canWake n.val 1 else s
      | .frame f => if sel && s.canWakes n.val f then s.canWake n.val 2 else s
      | .undecodable =>
        if !sel then s
        else
          let s := s.inc Reg.CAN_WAKE_STAT_DECERR
          if s.get Reg.CAN_WAKE_STAT_DECERR ≥ 32 then s.canWake n.val 3 else s)

/-- MIRROR_TWIN_EXPIRY (R502): an expectation of a mirror pair, oldest first, ends once its window has passed. -/
def execMirrorTwinExpiry (n : Fin 8) (k : Nat) (s : State) : Result :=
  let g := s.govern n.val
  .next (if s.alive && ((s.ctl g).twins[k]?).any fun t => s.since t.2.2 (s.twinWindow g) then
    s.modCtl g fun c => { c with twins := c.twins.eraseIdx k } else s)

/-- CAN_BUFFER_NEW_WRITE (R493): a PF writes 1 to NEW of a TX_MATRIX buffer. -/
def execCanBufferNewWrite (n : Fin 8) (b : Fin 128) (s : State) : Result :=
  .next (if s.alive && s.domainOn 8 && (s.canBuf n.val b.val).type == 2 then s.canUpdate n.val ⟨b.val, none, 0, [], true⟩ else s)

end Sys2Proof.Machine
end

