-- ==== Sys2Proof/Machine/Gptp.lean ====
section
/-!
DEFINITION. The time-aware relay of the consist ports (08_line_synchronisation.md, R207; CPn_CTL.GPTP). R207 names IEEE 802.1AS for it and
limits it; the layouts, intervals and formulas here are that standard's, PRESUMED (log 99). Times are in 2^-16 ns, as in its correction
fields.
-/

namespace Sys2Proof.Machine

/-- A field of n bytes as two's complement. -/
def intAt (l : List Byte) (off n : Nat) : Int :=
  let v := beAt l off n
  if 2 * v < 256 ^ n then (v : Int) else (v : Int) - (256 ^ n : Nat)

/-- An integer as n bytes in two's complement. -/
def intBytes (n : Nat) (x : Int) : List Byte := beBytes n (x % (256 ^ n : Nat)).toNat

/-- A time stamp of 10 bytes, seconds and nanoseconds. -/
def stampBytes (ns : Nat) : List Byte := beBytes 6 (ns / 1000000000) ++ beBytes 4 (ns % 1000000000)

/-- A time stamp of a message, with the message's correction. -/
def stampAt (m : List Byte) (off : Nat) : Int :=
  ((beAt m off 6 * 1000000000 + beAt m (off + 6) 4) * 2 ^ 16 : Nat) + intAt m 8 8

/-- A rate as an offset from 1 in units of 2^-41, applied to a duration. -/
def scaleRate (x ratio : Int) : Int := x * (2 ^ 41 + ratio) / 2 ^ 41

/-- The order of grandmasters: priority1 to identity, steps removed, source port, and the port that heard it; the lower is the better. -/
def GptpMaster.order (g : GptpMaster) : Nat := ((g.rank * 2 ^ 16 + g.steps) * 2 ^ 80 + g.source) * 16 + g.port

namespace State

/-- The protocol's state of a port. -/
def gptpPort (s : State) (n : Nat) : GptpPort := (Sparse.find n s.con.gptpPorts).getD default

/-- Change the protocol's state of a port. -/
def modGptp (s : State) (n : Nat) (f : GptpPort → GptpPort) : State :=
  s.modCon fun c => { c with gptpPorts := Sparse.put n (f ((Sparse.find n c.gptpPorts).getD default)) c.gptpPorts }

/-- Send a message of a type on a port: domain 0, from this node's port identity. -/
def gptpSend (s : State) (n typ flags : Nat) (corr : Int) (seq ctl interval : Nat) (body : List Byte) : State :=
  let m := beBytes 1 (0x10 + typ) ++ beBytes 1 2 ++ beBytes 2 (34 + body.length) ++ beBytes 2 0 ++ beBytes 2 flags ++ intBytes 8 corr ++
    beBytes 4 0 ++ beBytes 8 s.uid ++ beBytes 2 (n + 1) ++ beBytes 2 seq ++ beBytes 1 ctl ++ beBytes 1 interval ++ body
  s.emit (.eth n ⟨0x0180C200000E, s.pdMac, 0, 0, false, 0x88F7, m ++ List.replicate (46 - m.length) 0, true⟩)

/-! The peer-to-peer delay mechanism -/

/-- Ask the neighbour of a port, once a second. -/
def gptpAsk (s : State) (n : Nat) : State :=
  let p := s.gptpPort n
  if !s.gptpOn n || p.sent.any (fun t => !s.since t.2 1000000000) then s
  else
    let seq := (p.seq + 1) % 65536
    (s.modGptp n fun p => { p with seq := seq, sent := some (s.nowNs, s.clock.up), heard := none }).gptpSend n 2 0 0 seq 5 0 (beBytes 20 0)

/-- Answer a neighbour's request in two steps: when it came, and when the answer left. -/
def gptpAnswer (s : State) (n time : Nat) (m : List Byte) : State :=
  let asker := slice m 20 10
  let seq := beAt m 30 2
  (s.gptpSend n 3 0x200 0 seq 5 0x7F (stampBytes time ++ asker)).gptpSend n 10 0 0 seq 5 0x7F (stampBytes s.nowNs ++ asker)

/-- An answer is to this port's last request. -/
def gptpMine (s : State) (n : Nat) (m : List Byte) : Bool :=
  beAt m 44 8 == s.uid && beAt m 52 2 == n + 1 && beAt m 30 2 == (s.gptpPort n).seq

/-- The follow-up of an answer gives the neighbour's rate and the mean delay of the link. -/
def gptpDelay (s : State) (n : Nat) (m : List Byte) : State :=
  let p := s.gptpPort n
  match p.sent, p.heard with
  | some (t1, _), some (t4, t2) =>
    let t3 := stampAt m 34
    let ratio := match p.last with
      | some (a, b) => if (t4 * 2 ^ 16 : Nat) > b then (t3 - a) * 2 ^ 41 / ((t4 * 2 ^ 16 : Nat) - b) - 2 ^ 41 else p.ratio
      | none => p.ratio
    let delay := (scaleRate ((t4 : Int) - t1) ratio * 2 ^ 16 - (t3 - t2)) / 2
    s.modGptp n fun p => { p with heard := none, last := some (t3, (t4 * 2 ^ 16 : Nat)), ratio := ratio, delay := delay }
  | _, _ => s

/-! Grandmasters -/

/-- A grandmaster is still heard: its port runs gPTP, and it has announced itself within three intervals of a second. -/
def gmLive (s : State) (g : GptpMaster) : Bool := s.gptpOn g.port && !s.since g.seen 3000000000

/-- A grandmaster is selected on the consist ports (R207). -/
def gmSelected (s : State) : Bool := s.con.gptpBest.any s.gmLive

/-- A message comes from the grandmaster's port and source. -/
def gmFrom (s : State) (n : Nat) (m : List Byte) : Bool :=
  s.con.gptpBest.any fun g => s.gmLive g && g.port == n && g.source == beAt m 20 10

/-- The other ports that run gPTP. -/
def gptpOthers (s : State) (n : Nat) : List Nat := (List.range 12).filter fun k => k != n && s.gptpOn k

/-- An announcement: the best grandmaster is selected, never one with priority1 255 nor one whose path has come through this node, and its
announcements are passed on. -/
def gptpAnnounce (s : State) (n : Nat) (m : List Byte) : State :=
  let len := beAt m 66 2
  let own := (List.range (len / 8)).any fun k => beAt m (68 + 8 * k) 8 == s.uid
  let g : GptpMaster := ⟨n, beAt m 47 14, beAt m 61 2, beAt m 20 10, s.clock.up⟩
  if beAt m 47 1 == 255 || g.steps ≥ 255 || own then s
  else
    let s := if s.gmFrom n m || !(s.con.gptpBest.any fun b => s.gmLive b && b.order ≤ g.order) then
        s.modCon fun c => { c with gptpBest := some g }
      else s
    if s.gmFrom n m then
      let body := slice m 34 27 ++ beBytes 2 (g.steps + 1) ++ slice m 63 1 ++ beBytes 2 8 ++ beBytes 2 (len + 8) ++ slice m 68 len ++ beBytes 8 s.uid
      (s.gptpOthers n).foldl (fun s k => s.gptpSend k 11 (beAt m 6 2) 0 (beAt m 30 2) 5 (beAt m 33 1) body) s
    else s

/-! Synchronisation: residence time in node time, with the rate ratio (R207) -/

/-- Pass a synchronisation on in two steps. `time`: node time at which it came; `corr`: its correction; `m`: the message with the origin's
time stamp and the rate information. -/
def gptpRelay (s : State) (n time : Nat) (corr : Int) (m : List Byte) : State :=
  let p := s.gptpPort n
  let ratio := intAt m 54 4 + p.ratio
  let stay := ((s.nowNs : Int) - time) * 2 ^ 16 + p.delay * 2 ^ 41 / (2 ^ 41 + p.ratio)
  let seq := beAt m 30 2
  let body := slice m 34 10 ++ slice m 44 10 ++ intBytes 4 ratio ++ slice m 58 18
  (s.gptpOthers n).foldl (fun s k =>
    (s.gptpSend k 0 0x208 0 seq 0 (beAt m 33 1) (beBytes 10 0)).gptpSend k 8 8 (corr + scaleRate stay ratio) seq 2 (beAt m 33 1) body) s

/-- A synchronisation of the grandmaster: a one-step one is passed on, a two-step one waits for its follow-up. -/
def gptpSync (s : State) (n time : Nat) (m : List Byte) : State :=
  if !s.gmFrom n m then s
  else if bit (beAt m 6 2) 9 then s.modCon fun c => { c with gptpSync := some (n, beAt m 30 2, time, intAt m 8 8) }
  else s.gptpRelay n time (intAt m 8 8) m

/-- The follow-up of a two-step synchronisation. -/
def gptpFollow (s : State) (n : Nat) (m : List Byte) : State :=
  match s.con.gptpSync with
  | some (k, seq, time, corr) =>
    if s.gmFrom n m && k == n && seq == beAt m 30 2 then
      (s.modCon fun c => { c with gptpSync := none }).gptpRelay n time (corr + intAt m 8 8) m
    else s
  | none => s

/-- A gPTP frame arrives on a port that runs gPTP, at a node time; only domain 0 is served (R207). -/
def gptpFrame (s : State) (n time : Nat) (f : EthFrame) : State :=
  let m := f.data
  if beAt m 0 1 / 16 != 1 || beAt m 4 1 != 0 then s
  else match beAt m 0 1 % 16 with
    | 0 => s.gptpSync n time m
    | 2 => s.gptpAnswer n time m
    | 3 => if s.gptpMine n m then s.modGptp n fun p => { p with heard := some (time, stampAt m 34) } else s
    | 8 => s.gptpFollow n m
    | 10 => if s.gptpMine n m then s.gptpDelay n m else s
    | 11 => s.gptpAnnounce n m
    | _ => s

/-- Every port that runs gPTP asks its neighbour. -/
def gptpTick (s : State) : State := (List.range 12).foldl gptpAsk s

/-- A port leaves UP: what gPTP knows of its neighbour is gone. -/
def gptpLeave (s : State) (n : Nat) : State :=
  s.modCon fun c => { c with
    gptpPorts := Sparse.del n c.gptpPorts, gptpBest := c.gptpBest.filter fun g => g.port != n
    gptpSync := c.gptpSync.filter fun x => x.1 != n }

end State

end Sys2Proof.Machine
end

