-- ==== Sys2Proof/Machine/Gateway.lean ====
section
/-!
DEFINITION. Gateway maps (R469 to R474) and the process-data engine (R463 to R468), job 5, and the commands of the consist
side (17_consist_ports_and_gateway.md).
-/

namespace Sys2Proof.Machine

/-- Bits of a data area in the order of their weight, most significant first, for a field of n bits (R470). -/
def fieldBits (big : Bool) (start n : Nat) : List Nat :=
  if big then (List.range n).map fun i =>
    let p := start / 8 * 8 + (7 - start % 8) + i
    p / 8 * 8 + (7 - p % 8)
  else ((List.range n).map fun i => start + i).reverse

/-- A bit of a data area. -/
def areaBit (d : List Byte) (b : Nat) : Nat := (d.getD (b / 8) 0).toNat / 2 ^ (b % 8) % 2

/-- Extract a field, sign-extended where signed (R470). -/
def extractField (d : List Byte) (start n : Nat) (signed big : Bool) : Int :=
  let v := (fieldBits big start n).foldl (fun a b => 2 * a + areaBit d b) 0
  if signed && 2 * v ≥ 2 ^ n then (v : Int) - (2 ^ n : Nat) else v

/-- Put a bit into a data area. -/
def putBit (d : List Byte) (b v : Nat) : List Byte :=
  listMod d (b / 8) fun x => BitVec.ofNat 8 (x.toNat - x.toNat / 2 ^ (b % 8) % 2 * 2 ^ (b % 8) + v * 2 ^ (b % 8))

/-- Put the low n bits of a raw value into a field (R470). -/
def putField (d : List Byte) (start n : Nat) (big : Bool) (raw : Nat) : List Byte :=
  (fieldBits big start n).zipIdx.foldl (fun d x => putBit d x.1 (raw / 2 ^ (n - 1 - x.2) % 2)) d

/-- Saturate to a field's range (R471). -/
def saturateTo (x : Int) (n : Nat) (signed : Bool) : Int :=
  if signed then clampInt (-(2 ^ (n - 1) : Nat)) ((2 ^ (n - 1) : Nat) - 1) x else clampInt 0 ((2 ^ n : Nat) - 1) x

/-- The conversion of an entry (R471): the result before and after saturation. -/
def GwEntry.convert (e : GwEntry) (x : Int) : Int × Int :=
  let x := if e.skind == 4 then e.add else (x * e.mul) / (2 ^ e.shift : Nat) + e.add
  (x, saturateTo x e.dstLen e.dstSigned)

/-- Ones' complement sum of 16-bit words (IPv4, UDP and IGMP checksums). -/
def inetSum (l : List Byte) : Nat :=
  let t := (List.range ((l.length + 1) / 2)).foldl (fun a i => a + beAt l (2 * i) 2) 0
  let t := t % 65536 + t / 65536
  65535 - (t % 65536 + t / 65536) % 65536

/-- MAC address of an IPv4 multicast group. -/
def groupMac (ip : Nat) : Nat := 0x01005E000000 + ip % 2 ^ 23

/-- A multicast IPv4 address. -/
def isGroupIp (ip : Nat) : Bool := ip / 2 ^ 28 == 14

/-- The 40-byte process-data header (IEC 61375-2-3): sequence counter, comId, operational topology count, data length, and its FCS,
the CRC-32 of what precedes it, in network order like every field (R8; log 26). -/
def pdHeader (seq comId topo dlen : Nat) : List Byte :=
  let h := beBytes 4 seq ++ beBytes 2 0x0100 ++ beBytes 2 0x5064 ++ beBytes 4 comId ++ beBytes 4 0 ++ beBytes 4 topo ++
    beBytes 4 dlen ++ beBytes 4 0 ++ beBytes 4 0 ++ beBytes 4 0
  h ++ beBytes 4 (crc32 h)

namespace State

/-! Sources of gateway entries (R472) -/

/-- The cell of a parcel source. -/
def gwCell (s : State) (func consist car : Nat) : Option Cell :=
  let uid := if consist == 0 && car == 0 then s.uidAt s.ownPos
    else ((s.nodeOfCar consist car).map fun x => x.entry.luid).getD 0
  s.mill.cells.find? fun c => c.uid == uid && c.func == func

/-- Telegram i. -/
def tel (s : State) (i : Nat) : Tel := s.con.tels.getD i default

/-- The data area of an entry's source, and whether it is stale. -/
def gwSource (s : State) (e : GwEntry) : List Byte × Bool :=
  if e.skind == 1 then
    match s.gwCell e.srcA e.srcConsist e.srcCar with
    | some c => (match c.ready with
        | some p => (p.data, p.stale || c.age ≥ c.period)
        | none => ([], true))
    | none => ([], true)
  else if e.skind == 2 then ((s.tel e.srcA).data, (s.tel e.srcA).touted)
  else if e.skind == 3 then
    let b := s.canBuf (e.srcA / 2 ^ 13) (e.srcA % 128)
    let n := if e.srcN == 0 then 4 else e.srcN
    (b.frame.data, match b.storedTurn with
      | some t => decide (s.clock.turn - t ≥ n)
      | none => true)
  else ([], false)

/-- Change a gateway entry. -/
def modMap (s : State) (i : Nat) (f : GwEntry → GwEntry) : State := s.modCon fun c => { c with maps := listMod c.maps i f }

/-- Change a telegram entry. -/
def modTel (s : State) (i : Nat) (f : Tel → Tel) : State := s.modCon fun c => { c with tels := listMod c.tels i f }

/-- Write a raw value into an entry's destination (R474); `dflt`: the value is DEFAULT. -/
def gwWrite (s : State) (e : GwEntry) (raw : Nat) (dflt : Bool) : State :=
  let put (d : List Byte) : List Byte := putField d e.dstBit e.dstLen e.dstBig raw
  if e.dkind == 1 then
    match s.pubOf e.dstA with
    | none => s
    | some p =>
      let d := put (slice p.data 0 p.size)
      if dflt then s.modMill fun m => { m with pubs := m.pubs.map fun q => if q.func == e.dstA then { q with data := d } else q }
      else s.refresh e.dstA d
  else if e.dkind == 2 then s.modTel e.dstA fun t => { t with data := put (slice t.data 0 t.dlen) }
  else
    let g := e.dstA / 2 ^ 13
    let b := e.dstA % 128
    let x := s.canBuf g b
    s.canUpdate g ⟨b, none, 0, put (slice x.frame.data 0 (dlcLen x.frame.dlc x.frame.fdf)), true⟩

/-- An entry fires with a raw value (R473). -/
def gwFires (s : State) (e : GwEntry) (raw : Nat) : Bool :=
  e.must || e.trig == 0 || e.last != some raw || (e.trig == 2 && (match e.fired with
    | some t => decide (s.clock.turn ≥ t + e.period)
    | none => true))

/-- Evaluate one entry on its source as of the job's start (R469 to R474). -/
def gwEval (src : List Byte × Bool) (s : State) (i : Nat) : State :=
  let e := s.con.maps.getD i default
  if e.skind == 0 then s
  else if e.bad then s.modMap i fun x => { x with bad := false }
  else
    let (data, stale) := src
    let s := if stale && !e.stale then s.recordS 0x3C04 3 9 i (e.skind + 2 ^ 16 * e.srcA) else s
    let s := s.modMap i fun x => { x with stale := stale, valid := true }
    if stale && !e.useDefault then s
    else
      let (x, y) := e.convert (extractField data e.srcBit e.srcLen e.srcSigned e.srcBig)
      let raw := if stale then e.dflt % 2 ^ e.dstLen else (y % (2 ^ e.dstLen : Nat)).toNat
      let sat := !stale && x != y
      let s := if stale then s else s.modMap i fun z => { z with sat := sat }
      let s := if sat then s.inc Reg.GW_CNT_SAT else s
      if s.gwFires e raw then
        (s.modMap i fun z => { z with last := some raw, fired := some s.clock.turn, must := false, isDefault := stale }).gwWrite e raw stale
      else s

/-- Every entry fires at its next evaluation (R473). -/
def gwRestart (s : State) : State := s.modCon fun c => { c with maps := c.maps.map fun e => { e with must := true } }

/-- Job 5's copy of a bound subscriber's dataset, as of the job's start, into its own parcel (R468). -/
def bindCopies (tels : List Tel) (s : State) : State :=
  tels.zipIdx.foldl (fun s x =>
    match x.1.bind with
    | some (func, _, _) =>
      if x.1.dir == 2 && x.1.fresh then (s.refresh func x.1.data).modTel x.2 fun t => { t with fresh := false } else s
    | none => s) s

/-- The sources of the gateway entries that count (R469). -/
def gwSources (s : State) : List (List Byte × Bool) :=
  (s.con.maps.take (s.get Reg.GW_CTL_COUNT)).map s.gwSource

/-- Job 5 on given inputs (R469): the gateway maps and the copies of bound telegrams. Degraded, it evaluates the entries of the
turn's parity (Table 4-4). -/
def job5On (s : State) (srcs : List (List Byte × Bool)) (tels : List Tel) : State :=
  let half := s.degraded 5
  let t := srcs.zipIdx.foldl (fun t x => if half && x.2 % 2 != s.clock.turn % 2 then t else gwEval x.1 t x.2) s
  let t := bindCopies tels t
  t.set Reg.GW_CNT_STALE [] ((t.con.maps.take srcs.length).filter fun e => e.skind != 0 && e.stale).length

/-- Job 5 on its inputs as of now. -/
def job5 (s : State) : State := s.job5On s.gwSources s.con.tels

/-! The process-data engine (R464 to R468) -/

/-- The engine runs: enabled, and its firmware functions are not paused (Table 1-3, R106). -/
def pdUp (s : State) : Bool := s.on Reg.TRDP_CTL_EN && s.cpuUp 1

/-- The engine sends a frame into the bridge. Its start delimiter's time is not stated: a free value. -/
def pdSend (s : State) (vid prio dst etype : Nat) (data : List Byte) : State :=
  match s.vlanOf vid with
  | none => s
  | some v =>
    let (time, s) := s.take 32
    s.bridge .engine 15 v vid prio time ⟨dst, s.pdMac, 0, 0, false, etype, data ++ List.replicate (46 - data.length) 0, true⟩

/-- An IPv4 packet of the engine; the rules state no identification, so it is a free value. -/
def ipPacket (s : State) (ttl proto dst : Nat) (opts body : List Byte) : List Byte × State :=
  let (ident, s) := s.take 16
  let (tos, s) := s.take 8
  let head (sum : Nat) : List Byte :=
    beBytes 1 (0x45 + opts.length / 4) ++ beBytes 1 tos ++ beBytes 2 (20 + opts.length + body.length) ++ beBytes 2 ident ++ beBytes 2 0 ++
    beBytes 1 ttl ++ beBytes 1 proto ++ beBytes 2 sum ++ beBytes 4 (s.get Reg.TRDP_IP_ADDR) ++ beBytes 4 dst ++ opts
  (head (inetSum (head 0)) ++ body, s)

/-- The dataset a publisher sends (R466). -/
def pdDataset (s : State) (t : Tel) : List Byte :=
  match t.bind with
  | some (func, cn, car) => slice (((s.gwCell func cn car).bind fun c => c.ready).map (fun p => p.data) |>.getD []) 0 t.dlen
  | none => slice t.data 0 t.dlen

/-- Publish a telegram (R466). Time to live and source port are not stated: free values. -/
def pdPublish (s : State) (i : Nat) : State :=
  let t := s.tel i
  let d := s.pdDataset t
  let body := pdHeader t.seq t.comId (s.get Reg.TRDP_TOPO_OP) t.dlen ++ d
  let (ttl, s) := s.take 8
  let (port, s) := s.take 16
  let udp (sum : Nat) : List Byte := beBytes 2 port ++ beBytes 2 17224 ++ beBytes 2 (8 + body.length) ++ beBytes 2 sum ++ body
  let pseudo := beBytes 4 (s.get Reg.TRDP_IP_ADDR) ++ beBytes 4 t.destIp ++ beBytes 2 17 ++ beBytes 2 (8 + body.length)
  let sum := inetSum (pseudo ++ udp 0)
  let (pkt, s) := s.ipPacket ttl 17 t.destIp [] (udp (if sum == 0 then 65535 else sum))
  let s := s.pdSend t.vid t.prio (if isGroupIp t.destIp then groupMac t.destIp else t.destMac) 0x0800 pkt
  (s.modTel i fun t => { t with seq := (t.seq + 1) % 2 ^ 32, age := 0 }).inc Reg.TRDP_CNT_SENT

/-- Job 5 has completed in the present turn (R466). -/
def mapsDone (s : State) : Bool := (s.clock.jobs.getD 5 default).lastRun == some s.clock.turn

/-- A publisher is due in a turn (R466). -/
def pdDue (t : Tel) (turn : Nat) : Bool := t.dir == 1 && t.cycle != 0 && (turn + t.cycle - t.offset % t.cycle) % t.cycle == 0

/-- An entry accepts a telegram (R467): source and destination address, destination port, VID and the UDP data. -/
def pdAccepts (s : State) (t : Tel) (src dst port vid : Nat) (d : List Byte) : Bool :=
  let topo := beAt d 16 4
  let dl := beAt d 20 4
  t.dir == 2 && t.destIp == dst && port == 17224 && d.length ≥ 40 && beAt d 6 2 == 0x5064 && beAt d 4 1 == 1 &&
  beAt d 36 4 == crc32 (d.take 36) && beAt d 8 4 == t.comId && t.vid == vid && (t.srcIp == 0 || t.srcIp == src) &&
  (topo == 0 || topo == s.get Reg.TRDP_TOPO_OP) && dl == t.dlen && d.length == 40 + dl &&
  Sparse.find src t.last != some (beAt d 0 4)

/-- The turn's counting of telegrams: ages and the run towards a timeout. -/
def pdTick (s : State) : State :=
  s.modCon fun c => { c with tels := c.tels.map fun t => { t with age := min 65535 (t.age + 1), run := min 65535 (t.run + 1) } }

/-! Consist ports (R452) -/

/-- A consist port may be UP: enabled and its domain on. -/
def cpMay (s : State) (n : Nat) : Bool := s.on Reg.CPn_CTL_EN [n] && s.domainOn (cpDomain n)

/-- A consist port leaves UP; the frames left in its queues, and those that wait in the fabric for it, are discarded and counted
(R452, R456), and a CONSIST_SEND among them completes with DISCARDED (R404). -/
def cpLeave (s : State) (n st : Nat) : State :=
  let up := s.cpUp n
  let s := s.gptpLeave n
  let s := ((s.set Reg.CPn_STAT_STATE [n] st).set Reg.CPn_STAT_RATE [n] 0).set Reg.CPn_STAT_PLCA_ACT [n] 0
  let gone := (s.con.egress ++ s.con.fabric).filter fun f => f.port == n
  let queued := gone.length + (s.con.ingress.filter fun x => x.1 == n).length
  let s := s.modCon fun c => { c with
    egress := c.egress.filter fun f => f.port != n, fabric := c.fabric.filter fun f => f.port != n
    ingress := c.ingress.filter fun x => x.1 != n }
  let s := gone.foldl (fun s f => s.sendDone f 1) s
  if up then (s.inc Reg.CPn_CNT_A_DOWN [n] queued).recordS 0x3C02 3 8 n queued else s

/-- The rate codes at which a port's link can come up (R448 to R450, CPn_CTL.MODE): a C port at its configured rate, an S port at
10 Mbit/s, an X port as its mode and, in SGMII, its PHY have it. -/
def cpRates (s : State) (n : Nat) : List Nat :=
  let mode := s.get Reg.CPn_CTL_MODE [n]
  if n < 8 then (if mode == 0 then [3] else if mode == 1 then [2] else [])
  else if n < 10 then [1]
  else if mode == 0 then [1, 2, 3] else if mode == 1 then [3] else if mode == 2 then [4] else []

/-- A port's state as its enable and domain ask (R452). -/
def cpSettle (s : State) (n : Nat) : State :=
  if !s.cpMay n then (if s.get Reg.CPn_STAT_STATE [n] == 0 then s else s.cpLeave n 0)
  else if s.get Reg.CPn_STAT_STATE [n] == 0 then s.set Reg.CPn_STAT_STATE [n] 1 else s

/-- Issue an MDIO frame (R450). -/
def mdioGo (s : State) : State :=
  if s.on Reg.MDIO_CMD_BUSY then s
  else
    let c45 := s.on Reg.MDIO_CMD_C45
    let op := s.get Reg.MDIO_CMD_OP
    let phy := s.get Reg.MDIO_CMD_PHYAD
    let reg := s.get Reg.MDIO_CMD_REG
    let s := (s.set Reg.MDIO_CMD_BUSY [] 1).modCon fun c => { c with mdio := some (c45, op, phy, reg) }
    s.emit (.mdio c45 op phy reg (s.get Reg.MDIO_DATA_DATA))

end State

/-- CONSIST_FRAME_INGRESS (R454 to R457, R461): `time`: node time at the start delimiter. A frame waits behind an earlier one of its
port that waits in the fabric, and is dropped where its ingress queue has no room; how much that holds the spec does not state
(Config.ingressRoom, log 96). A gPTP message (0x88F7) on a port with gPTP is the time-aware relay's and is not switched (R207). -/
def execConsistFrameIngress (n : Fin 12) (f : EthFrame) (time : Nat) (s : State) : Result :=
  .next (if !s.alive || !s.cpUp n.val then s
    else if !f.fcsOk then s.inc Reg.CPn_CNT_B_FCS [n.val]
    else
      let vid := s.cpVid n.val f
      if s.gptpOn n.val && f.etype == 0x88F7 then s.gptpFrame n.val time f
      else match s.vlanOf vid with
      | none => s.inc Reg.CPn_CNT_B_FILTER [n.val]
      | some v =>
        if !s.member v n.val || f.len < 64 || f.len > 1522 then s.inc Reg.CPn_CNT_B_FILTER [n.val]
        else if s.ingressBytes n.val != 0 && s.ingressBytes n.val + f.len > Config.ingressRoom n.val then s.inc Reg.CPn_CNT_A_TAIL [n.val]
        else if s.ingressBlocked n.val then s.modCon fun c => { c with ingress := c.ingress ++ [(n.val, time, f)] }
        else s.ingest n.val time v vid (s.cpPrio n.val f) f)

/-- CONSIST_PORT_UP (R449, R450, R452): the link's rate code and, on an S port, whether PLCA is active. -/
def execConsistPortUp (n : Fin 12) (rate : Fin 5) (plca : Bool) (s : State) : Result :=
  .next (if s.alive && s.cpMay n.val && !s.cpUp n.val && (s.cpRates n.val).contains rate.val then
    let s := (s.set Reg.CPn_STAT_STATE [n.val] 2).set Reg.CPn_STAT_RATE [n.val] rate.val
    let s := s.flag Reg.CPn_STAT_PLCA_ACT [n.val] (plca && (n.val == 8 || n.val == 9) && s.on Reg.CPn_PLCA_EN [n.val])
    s.recordS 0x3C01 1 8 n.val rate.val
  else s)

/-- CONSIST_PORT_DOWN (R452, R456). -/
def execConsistPortDown (n : Fin 12) (s : State) : Result :=
  .next (if s.alive && s.cpUp n.val then s.cpLeave n.val (if s.cpMay n.val then 1 else 0) else s)

/-- FDB_AGEING (R453): an entry not seen for CON_CTL.AGE seconds. -/
def execFdbAgeing (mac vid : Nat) (s : State) : Result :=
  let lim := s.get Reg.CON_CTL_AGE * 1000000000
  .next (if s.alive && lim != 0 then
    s.modCon fun c => { c with fdb := c.fdb.filter fun e => !(e.mac == mac && e.vid == vid && s.since e.seen lim) } else s)

/-- FOREIGN_BEACON (R451). -/
def execForeignBeacon (n : Fin 12) (s : State) : Result :=
  .next (if s.alive && (n.val == 8 || n.val == 9) && s.cpUp n.val && s.on Reg.CPn_PLCA_EN [n.val] && s.get Reg.CPn_PLCA_NODE_ID [n.val] == 0 then
    s.recordS 0x3C05 3 8 n.val 0 else s)

/-- MDIO_FRAME (R450): MDIO_CMD written with GO. -/
def execMdioFrame (c45 : Bool) (op : Fin 4) (phy reg : Fin 32) (s : State) : Result :=
  .next (if !s.alive || s.on Reg.MDIO_CMD_BUSY then s
    else
      let s := (s.flag Reg.MDIO_CMD_C45 [] c45).set Reg.MDIO_CMD_OP [] op.val
      ((s.set Reg.MDIO_CMD_PHYAD [] phy.val).set Reg.MDIO_CMD_REG [] reg.val).mdioGo)

/-- MDIO_FRAME_DONE (R450): the PHY's answer to a read. -/
def execMdioFrameDone (data : Fin 65536) (s : State) : Result :=
  .next (match s.con.mdio with
    | none => s
    | some (c45, op, _, _) =>
      if !s.alive then s
      else
        let s := (s.set Reg.MDIO_CMD_BUSY [] 0).modCon fun c => { c with mdio := none }
        if op == (if c45 then 3 else 2) then s.set Reg.MDIO_DATA_DATA [] data.val else s)

/-- TRDP_PUBLISH (R466): telegram i, in a due turn after job 5, once. -/
def execTrdpPublish (i : Fin 1024) (s : State) : Result :=
  .next (if s.alive && s.pdUp && s.drives && s.mapsDone && (s.tel i.val).age != 0 && State.pdDue (s.tel i.val) s.clock.turn then
    s.pdPublish i.val else s)

/-- TRDP_TELEGRAM_RECEIVE (R467): source and destination IPv4 address, UDP destination port, VID and UDP data. -/
def execTrdpTelegramReceive (src dst port vid : Nat) (d : List Byte) (s : State) : Result :=
  .next (if !s.alive || !s.pdUp then s
    else
      let hits := (List.range s.con.tels.length).filter fun i => s.pdAccepts (s.tel i) src dst port vid d
      if hits.isEmpty then s.inc Reg.TRDP_CNT_REFUSED
      else hits.foldl (fun s i => s.modTel i fun t => { t with
        data := d.drop 40, age := 0, run := 0, touted := false, fresh := true, last := Sparse.put src (beAt d 0 4) t.last }) s)

/-- TRDP_SUBSCRIBER_TIMEOUT (R468). -/
def execTrdpSubscriberTimeout (i : Fin 1024) (s : State) : Result :=
  let t := s.tel i.val
  .next (if s.alive && s.pdUp && t.dir == 2 && !t.touted && t.run ≥ t.timeout then
    (s.modTel i.val fun t => { t with touted := true, data := if t.zeroOnTout then List.replicate t.dlen 0 else t.data }).recordS
      0x3C03 3 8 i.val t.comId
  else s)

/-- ARP_REQUEST (R464): the asker's MAC and IPv4 address and the address asked for. The answer's priority is not stated: a free
value. -/
def execArpRequest (mac ip target : Nat) (s : State) : Result :=
  .next (if s.alive && s.pdUp && s.drives && target == s.get Reg.TRDP_IP_ADDR then
    let (prio, s) := s.take 3
    s.pdSend (s.get Reg.TRDP_CTL_VID) prio mac 0x0806
      (beBytes 2 1 ++ beBytes 2 0x0800 ++ beBytes 1 6 ++ beBytes 1 4 ++ beBytes 2 2 ++ beBytes 6 s.pdMac ++
        beBytes 4 (s.get Reg.TRDP_IP_ADDR) ++ beBytes 6 mac ++ beBytes 4 ip)
  else s)

/-- IGMP_REPORT (R464): a version 2 report for each subscribed group, at enable and every 60 s after. -/
def execIgmpReport (s : State) : Result :=
  .next (if s.alive && s.pdUp && s.con.igmpAt.all fun t => s.since t 60000000000 then
    let s := s.modCon fun c => { c with igmpAt := some s.clock.up }
    let groups := ((s.con.tels.filter fun t => t.dir == 2 && isGroupIp t.destIp).map fun t => t.destIp).eraseDups
    groups.foldl (fun s g =>
      let (prio, s) := s.take 3
      let msg (sum : Nat) : List Byte := beBytes 1 0x16 ++ beBytes 1 0 ++ beBytes 2 sum ++ beBytes 4 g
      let (pkt, s) := s.ipPacket 1 2 g (beBytes 4 0x94040000) (msg (inetSum (msg 0)))
      s.pdSend (s.get Reg.TRDP_CTL_VID) prio (groupMac g) 0x0800 pkt) s
  else s)

end Sys2Proof.Machine
end

