-- ==== Sys2Proof/Machine/Arbiter.lean ====
section
/-!
DEFINITION. The arbiters of the SRAM banks (19_on_chip_memory.md, R508, R510 to R512, R516, R517): the requests that wait, and who is
granted in a cycle. What a granted line read does is Memory.lean's.
-/

namespace Sys2Proof.Machine

/-- The bank of an SRAM offset (Table 19-1). -/
def bankOf (a : Nat) : Nat :=
  let g := a / 0x400000
  if g < 7 then 8 * g + a / 64 % 8 else if a < 0x1E00000 then 56 + a / 64 % 4 else 60 + a / 64 % 4

/-- The number under which a request breaks ties: a scrubber comes after every master (log 98). -/
def MemReq.rank (q : MemReq) : Nat := q.master.getD 12

namespace State

/-- An access of a master to banks 60 to 63 that is refused (R517): the security engine has access, and so has a CPU pair, whose accesses
are taken to be those of secure mode; one outside secure mode is SECURE_ACCESS_REFUSED. -/
def secForbids (m a : Nat) : Bool := bankOf a ≥ 60 && m != 10 && m ≥ 2

/-- What a refused access to banks 60 to 63 leaves: counted, shown and recorded (R517). -/
def secRefuse (s : State) (m a : Nat) : State :=
  ((s.inc Reg.MEM_SEC_STAT_VIOL).set Reg.ALARM_SRC_SEC_VIOL [] 1).recordS 0x3E03 5 13 m a

/-- MEM_ARB.AGE in cycles; 0 gives 8. -/
def arbAge (s : State) : Nat := if s.get Reg.MEM_ARB_AGE == 0 then 8 else s.get Reg.MEM_ARB_AGE

/-- A request counts as aged: it has waited AGE cycles (R511), a scrub read 1,024 (R516). -/
def aged (s : State) (q : MemReq) : Bool := if q.master.isNone then q.age ≥ 1024 else q.age ≥ s.arbAge

/-- The better of two by a key, the lower winning. -/
def least (key : MemReq → Nat) : List MemReq → Option MemReq
  | [] => none
  | q :: l => match least key l with
    | none => some q
    | some r => if key r < key q then some r else some q

/-- Which of the requests at a bank is granted in a cycle (R511): of the aged ones the oldest, between equal ages the lower number; else
round-robin from the master after the last winner; a scrubber where no master asks. -/
def arbitrate (s : State) (bank : Nat) (l : List MemReq) : Option MemReq :=
  match least (fun q => (2 ^ 32 - q.age) * 16 + q.rank) (l.filter s.aged) with
  | some q => some q
  | none =>
    let last := (Sparse.find bank s.mem.lastWon).getD 11
    match least (fun q => (q.rank + 12 - last - 1) % 12) (l.filter fun q => q.master.isSome) with
    | some q => some q
    | none => l.head?

/-- The bank serves nobody: a wipe of the secure bank set is under way (R519). -/
def bankShut (s : State) (bank : Nat) : Bool := bank ≥ 60 && s.on Reg.MEM_SEC_STAT_WIPING

/-- The bank refuses every access: the secure bank set is disabled (R520). -/
def bankLost (s : State) (bank : Nat) : Bool := bank ≥ 60 && s.on Reg.MEM_SEC_STAT_FAILED

/-- The bank is free: nothing waits there, and it has not granted in this cycle. -/
def bankFree (s : State) (bank : Nat) : Bool :=
  !s.bankShut bank && !s.bankLost bank && !s.mem.granted.contains bank && s.mem.waiting.all fun q => q.bank != bank

/-- A bank grants a request. -/
def memGrant (s : State) (q : MemReq) : State :=
  s.modMem fun x => { x with
    granted := q.bank :: x.granted
    lastWon := match q.master with
      | some m => Sparse.put q.bank m x.lastWon
      | none => x.lastWon }

/-- A request that has not been granted at once waits; a master, or the scrubber, has at most one at a bank (R510). -/
def memWait (s : State) (q : MemReq) : State :=
  if s.bankLost q.bank || s.mem.waiting.any fun x => x.bank == q.bank && x.master == q.master then s
  else s.modMem fun x => { x with waiting := x.waiting ++ [q] }

/-- A master presents an access at an SRAM offset; it is arbitrated at the end of the cycle with the others of that cycle (R511). -/
def memAccess (s : State) (m a : Nat) : State :=
  if secForbids m a then s.secRefuse m a else s.memWait ⟨bankOf a, some m, 0, false, none⟩

/-- A cycle at a request that is not granted: it has waited one more, and where others were served it has lost arbitration; both are
counted while RUN is set (R512). -/
def memLose (s : State) (lost : Bool) (q : MemReq) : State :=
  let s := match q.master with
    | some m => if s.on Reg.MEM_CNT_CTL_RUN then
        (if q.lost || !lost then s else s.inc Reg.MEM_CONFLICTm_COUNT [m]).inc Reg.MEM_STALLm_COUNT [m]
      else s
    | none => s
  s.modMem fun x => { x with waiting := x.waiting.map fun r => if r == q then { r with age := r.age + 1, lost := r.lost || lost } else r }

end State

end Sys2Proof.Machine
end

