-- ==== Sys2Proof/Machine/RedOps.lean ====
section
/-!
DEFINITION. Redundancy and takeover (13_redundancy_and_takeover.md): roles, pair states, epochs, witnesses, takeover, planned
swap, and their commands PAIR_STATE_SEND to SWAP_ROLE_EXCHANGE and the swap that ROLE_SWAP accepts.
-/

namespace Sys2Proof.Machine

/-- CRC-64/ECMA-182 (R328). -/
def crc64 (l : List Byte) : Nat :=
  l.foldl (fun r b => (List.range 8).foldl (fun r i => crcBit 64 0x42F0E1EBA9EA3693 r (bit b.toNat (7 - i))) r) 0

/-- a is newer than b, as 32-bit turn numbers. -/
def newer32 (a b : Nat) : Bool :=
  let d := (a + 2 ^ 32 - b % 2 ^ 32) % 2 ^ 32
  d != 0 && d < 2 ^ 31

/-- Pieces of 1,024 bytes (Table 13-6). -/
def pieces1k : Nat → List Byte → List (List Byte)
  | 0, _ => []
  | n + 1, l => slice l 0 1024 :: pieces1k n (l.drop 1024)

namespace State

/-- The own takeover epoch. -/
def epoch (s : State) : Nat := s.get Reg.RED_STAT_EPOCH

/-- The takeover epoch changes, and is persisted (R326, R68). -/
def setEpoch (s : State) (e : Nat) : State :=
  let e := e % 65536
  if s.epoch == e then s else (s.set Reg.RED_STAT_EPOCH [] e).mramWrite (.takeoverEpoch e)

/-- The device changes its role: 1 leader, 2 follower, 3 none (R325). The committed epoch is persisted (R330). -/
def setRole (s : State) (r : Nat) : State :=
  if s.get Reg.GLOBAL_STAT_ROLE == r then s
  else
    let s := (s.set Reg.GLOBAL_STAT_ROLE [] r).modRed fun x => { x with roles := r :: x.roles }
    match s.red.committed with
    | some (n, c) => s.bulkStart (.epoch n c) c.length
    | none => s

/-- The higher of two takeover epochs in serial arithmetic (R314). -/
def higherEpoch (a b : Nat) : Nat := if serialHigher b a then b else a

/-- A device becomes leader outside a swap: it drives the car-service outputs from a turn on (R333). -/
def lead (s : State) (e from_ : Nat) : State :=
  ((s.setEpoch e).setRole 1).modRed fun r => { r with driveFrom := from_, claim := none, noneSince := none, takeover := none }

/-- The line work and CAN work that a role change cuts off (Table 15-15): what the old leader holds, and what a follower has
handed to it. -/
def roleWork (s : State) (led : Bool) : State :=
  let cut := s.host.queues.flatMap fun (x : Nat × Queue) =>
    (x.2.works.filter fun w => (w.desc.opcode == 1 || w.desc.opcode == 5) && w.started && w.result.isNone).map fun w => (x.1 / 16, x.1 % 16, w.idx)
  let free (s : State) : State :=
    let s := (List.range 4).foldl (fun s n => s.modPort n fun p => { p with queue := p.queue.filter fun f => f.own.isNone }) s
    let s := (List.range 8).foldl (fun s g => s.modCtl g fun c => { c with waits := [] }) s
    (List.range 8).foldl (fun s g => (s.ctl g).bufs.foldl (fun s x =>
      if x.2.own.isSome && !s.canOnBus g x.1 then
        ((s.canUnpend g x.1).canUnpend (g + b2n (s.mirrored g)) x.1).modBuf g x.1 fun b => { b with own := none, isNew := false }
      else s) s) s
  let s := if led then free s else s
  let held : List (Nat × Nat × Nat) := (s.ports.flatMap fun p => p.queue.filterMap fun f => f.own) ++
    s.can.ctls.flatMap fun c => (c.bufs.filterMap fun x => x.2.own) ++ c.waits.map fun w => (w.1, w.2.1, w.2.2.1)
  (cut.filter fun d => !held.contains d).foldl (fun s d => s.complete d.1 d.2.1 d.2.2 2 0 s.icount) s

/-! Pair state (R321, R325, R331, R337) -/

/-- The leader's self-fault (R332). -/
def selfFault (s : State) : Bool :=
  s.isLeader && (s.isFenced || s.wst (b2n s.pins.strapChan) == 5 || s.on Reg.GLOBAL_STAT_FW_RESTART)

/-- The pair-state message of this device (Table 13-3). -/
def pairState (s : State) : PairState :=
  { uid := s.uid, role := if s.isLeader then 1 else if s.isFollower then 2 else 0, pref := s.pins.strapPref, fault := s.selfFault
    fwRestart := s.on Reg.GLOBAL_STAT_FW_RESTART, line := s.lstateByte, epoch := s.epoch
    commit := s.get Reg.RED_EPOCH_COMMIT_ENUM, sentTurn := s.turn32
    ports := (List.range 4).map fun n =>
      ⟨s.pst n, s.rate n, s.get Reg.LPn_NBR_LO_UID [n] + 2 ^ 32 * s.get Reg.LPn_NBR_HI_UID [n], (s.port n).foreign, (s.port n).nbrLs⟩
    cab := s.pins.cab, phase := s.clock.phase, icount := s.icount
    asks := (s.inaug.asking.map fun t => (t.kind, t.port)).toList, stopReq := s.inaug.stopReq, yield := s.inaug.yielding
    entry := if s.decides then some s.composeEntry else none, found := s.ownFound.map fun x => x.2 }

/-- The partner wins at equal epochs: LEADER_PREF, then the lower UID (R337). -/
def partnerWins (s : State) (pref : Bool) (uid : Nat) : Bool :=
  if pref != s.pins.strapPref then pref else uid < s.uid

/-- A partner's claim with an epoch is seen (R337). -/
def seeClaim (s : State) (e : Nat) (wins : Bool) : State :=
  s.modRed fun r => { r with dualNow := true, claim := if wins then some (s.clock.turn, e) else r.claim }

/-- A settled role is recorded. -/
def settled (s : State) : State := s.recordS 0x3801 1 1 (s.get Reg.GLOBAL_STAT_ROLE) s.epoch

/-- Car services at their configuration defaults (R326, R335). -/
def carDefaults (s : State) : State :=
  let s := s.modCon fun c => { c with
    maps := c.maps.map fun e => { e with valid := false, sat := false, stale := false, isDefault := false, last := none, fired := none, must := true }
    tels := c.tels.map fun t => { t with seq := 0, data := List.replicate t.dlen 0, age := 65535, run := 0, touted := false, last := [], fresh := false } }
  s.modMill fun m => { m with pubs := m.pubs.map fun p => match p.source with
    | .map _ => { p with data := slice p.dflt 0 p.size, refreshed := false, age := 0 }
    | _ => p }

/-- A role settles from NONE on the partner's message (Table 13-4); not while CPU pair 0 restarts (R106). -/
def settleRole (s : State) (p : PairState) : State :=
  if s.get Reg.GLOBAL_STAT_ROLE != 3 || !s.cpuUp 0 then s
  else if p.role == 1 then (((s.setEpoch p.epoch).setRole 2).modRed fun r => { r with noneSince := none }).settled
  else if p.role == 0 then
    let e := higherEpoch s.epoch p.epoch + 1
    if s.partnerWins p.pref p.uid then (((s.setEpoch e).setRole 2).modRed fun r => { r with noneSince := none }).settled
    else (s.carDefaults.lead e s.clock.turn).settled
  else s

/-- The leader takes the follower's CAN_SEND buffers: controller and buffer bytes (R406). -/
def takeCans (s : State) (l : List (Nat × List Byte)) : State :=
  if !s.isLeader then s
  else l.zipIdx.foldl (fun s x =>
    let g := x.1.1 % 8
    let i := s.clock.turn * 64 + x.2
    match parseCan x.1.2 x.1.2.length with
    | none => s.complete 17 g i 6 0 0
    | some f => if s.canClosed g then s.complete 17 g i 1 0 0 else s.canQueue g 17 g i f) s

/-- The leader reports on work that this follower's tenants handed to it. -/
def takeReports (s : State) (l : List SentReport) : State :=
  if !s.isFollower then s
  else l.foldl (fun s r =>
    if (s.queue r.tenant r.queue).works.any fun w => w.idx == r.idx && w.started && w.result.isNone && (w.desc.opcode == 1 || w.desc.opcode == 5) then
      s.complete r.tenant r.queue r.idx r.status r.rlen r.rval
    else s) s

/-- What the partner reports for the whole logical node (R229, R237, R245): a full valid turn it has observed, triggers it has raised for
the deciding device to act on, and the STOP_REQ or YIELD that is due in the CONFIRM frames of this turn. `d` is the delay of the crosslink. -/
def partnerSays (s : State) (p : PairState) (d : Int) : State :=
  let s := s.modStart fun x => { x with found := p.found.map fun f => ((s.clock.ntime : Int) - d - f.ago, f) }
  let s := if s.decides || s.lstate == 6 then
      p.asks.foldl (fun s a =>
        if s.inaug.asking.isSome || s.inaug.stopReq then s
        else if s.lstate ≤ 3 then s.pend ⟨a.1, a.2⟩ true
        else if s.pins.inhibit && a.1 ≤ 7 then s.pend ⟨a.1, a.2⟩ false
        else if s.phase == 1 then s else if s.phase == 4 then s.pend ⟨a.1, a.2⟩ false else s.actTrigger ⟨a.1, a.2⟩) s
    else s
  s.modInaug fun i => { i with
    stopReq := i.stopReq || (p.stopReq && !s.decides && !s.pins.inhibit), yielding := i.yielding || (p.yield && !s.pins.inhibit) }

/-- Take over turn number, tick phase and ICOUNT from the deciding partner (R229). -/
def partnerClock (s : State) (p : PairState) (d : Int) : State :=
  (s.modClock fun c => { c with turn := s.fullTurn p.sentTurn, phase := ((p.phase : Int) + d).toNat, pre := 0, stepped := true }).set
    Reg.INAUG_ICOUNT_ICOUNT [] p.icount

/-- Follow the deciding partner's line state, and in LISTEN and COLDSTART its tick (R229). -/
def followPartner (s : State) (p : PairState) (d : Int) : State :=
  if s.decides || !s.cpuUp 0 then s
  else
    let st := p.line % 16
    let s :=
      if st == s.lstate then s
      else if st == 3 || st == 4 || st == 5 then
        if s.following then (let s := s.toLine st
          if st == 4 && s.icount == 0 then s.set Reg.LSTART_STAT_PENDING [] 1 else s)
        else
          let listened := s.clock.turn - s.start.listenAt
          let src := (p.found.map fun f => f.kind + 256 * f.port).getD 0
          let s := ((s.partnerClock p d).toLine 3).modStart fun x => { x with kickLuid := none, kicking := s.lstate == 2 }
          ((s.set Reg.LSTART_STAT_SRC_KIND [] (src % 256)).record 0x3403 1 1 listened src).toLine st
      else if st == 6 then s.enterSolo
      else if st == 2 then (s.toLine 2).lineLayout
      else if s.following then s.loseLine (if s.lstate == 3 && s.get Reg.LSTART_STAT_TURNS ≥ 64 then 1 else 0)
      else if s.lstate == 6 then s.leaveSolo 0xFF
      else if s.lstate == 2 && s.get Reg.LSTART_STAT_TURNS ≥ 128 then s.loseLine 2
      else s.toLine 1
    if st == 1 || st == 2 then s.modClock fun c => { c with turn := s.fullTurn p.sentTurn, phase := ((p.phase : Int) + d).toNat, pre := 0 } else s

/-! Epochs (R327 to R330, R334, R597) -/

/-- The car-service state of this device (Table 13-5). -/
def epochImage (s : State) : EpochImage :=
  { maps := s.con.maps.map fun e => ⟨e.last, e.fired, e.must⟩
    tels := s.con.tels.map fun t => ⟨t.seq, t.run, t.touted, t.data, t.last⟩
    bufs := s.can.ctls.zipIdx.flatMap fun x => (x.1.bufs.filter fun b => b.2.type ≥ 2).map fun b =>
      ⟨x.2, b.1, b.2.frame, b.2.isNew, s.canPending x.2 b.1⟩
    missed := (List.range 8).flatMap fun n => (List.range 16).map fun r => (n, r, s.get Reg.CANn_MISS_r_COL [n, r])
    ctls := (List.range 8).map fun n => (s.on Reg.CANn_STAT_ALONE [n], s.cst n == 4)
    epoch := s.epoch, roles := s.red.roles, version := s.get Reg.CFG_VER_ACTIVE_VER }

/-- Send an epoch in chunks, with its end marker (Tables 13-6, 13-7). -/
def sendEpoch (s : State) (num : Nat) (swap : Bool) (e : EpochImage) : State :=
  let data := (Config.epochBytes e).take 163840
  let count := max 1 ((data.length + 1023) / 1024)
  let s := (pieces1k count data).zipIdx.foldl (fun s x =>
    let head := beBytes 4 num ++ beBytes 2 x.2 ++ beBytes 2 count
    s.pairSend 0x0302 (head ++ beBytes 4 (crc32c (head ++ x.1)) ++ beBytes 4 0 ++ x.1)) s
  s.pairSend 0x0303 (beBytes 4 num ++ beBytes 2 count ++ beBytes 1 (b2n swap) ++ beBytes 1 0 ++ beBytes 4 data.length ++ beBytes 4 0 ++
    beBytes 8 (crc64 data))

/-- Discard the shadow (R329). -/
def dropShadow (s : State) : State :=
  match s.red.shadow with
  | none => s
  | some h => ((s.modRed fun r => { r with shadow := none }).inc Reg.RED_EPOCH_CNT_DISCARDED).recordS 0x3804 3 1 h.enum h.chunks.length

/-- Publications of a telegram due in n turns from a turn on. -/
def dueCount (t : Tel) (turn : Nat) : Nat → Nat
  | 0 => 0
  | n + 1 => b2n (pdDue t turn) + dueCount t (turn + 1) n

/-- Restore an epoch of age a, taken in turn `at_`, into the car-service blocks (R333, R334, Table 13-10). -/
def restore (s : State) (e : EpochImage) (at_ a : Nat) : State :=
  let s := s.modCon fun c => { c with
    maps := c.maps.zipIdx.map fun x =>
      let m := e.maps.getD x.2 default
      { x.1 with last := m.last, fired := m.fired, must := true }
    tels := c.tels.zipIdx.map fun x =>
      let m := e.tels.getD x.2 default
      { x.1 with
        seq := (m.seq + dueCount x.1 at_ (a + 1)) % 2 ^ 32, run := min 65535 (m.run + a), touted := m.touted
        data := slice m.data 0 x.1.dlen, last := m.last } }
  let s := e.missed.foldl (fun s x => s.set Reg.CANn_MISS_r_COL [x.1, x.2.1] x.2.2) s
  e.bufs.foldl (fun s x =>
    if (s.canBuf x.ctl x.buf).type ≥ 2 && s.govern x.ctl == x.ctl then
      let s := s.modBuf x.ctl x.buf fun y => { y with frame := x.frame, isNew := x.isNew || x.pend }
      if x.pend then s.canPend x.ctl x.buf else s
    else s) s

/-- The epoch a takeover restores: the committed one in SRAM, else the one in MRAM (R330). -/
def epochHeld (s : State) : Option (Nat × List Byte) :=
  match s.red.committed with
  | some x => some x
  | none => s.red.persisted

/-- Every chunk of a shadow has arrived; their data in index order. -/
def shadowData (h : Shadow) : Option (List Byte) :=
  if (List.range h.count).all fun i => h.chunks.any fun c => c.1 == i then
    some ((List.range h.count).flatMap fun i => (Sparse.find i h.chunks).getD [])
  else none

/-- Commit a shadow (R329, R330). -/
def commitEpoch (s : State) (num : Nat) (data : List Byte) : State :=
  let n := s.red.commits + 1
  let s := s.modRed fun r => { r with shadow := none, committed := some (num, data), commits := n }
  let s := ((s.set Reg.RED_EPOCH_COMMIT_ENUM [] num).inc Reg.RED_EPOCH_CNT_COMMITTED).set Reg.FIRST_USE_PAIR_EPOCH [] 0
  if n % 1024 == 0 then s.bulkStart (.epoch num data) data.length else s

/-- Jobs 4 and 5 of a swap turn on the device that comes to drive (Table 13-12, R341). -/
def swapJobs (s : State) : State :=
  if s.cpuUp 1 then (s.modCan fun c => { c with row := some (s.clock.turn % 16) }).job5 else s

/-! Takeover (R332 to R336) -/

/-- A takeover under a trigger code at the present tick. -/
def takeOver (s : State) (code : Nat) : State :=
  let s := s.dropShadow
  let e := (s.epoch + 1) % 65536
  let s := (s.lead e (s.clock.turn + 1)).roleWork false
  let s := s.inc Reg.RED_TAKE_CNT_TAKEOVERS
  match s.epochHeld with
  | some (num, data) =>
    let a := (s.turn32 + 2 ^ 32 - num) % 2 ^ 32
    let s := (s.set Reg.RED_EPOCH_AGE_TURNS [] (min a 65535)).set Reg.RED_STAT_COLD [] 0
    (s.restore (Config.epochParse data) (s.clock.turn - a) a).recordS 0x3802 4 1 (code + 2 ^ 16 * e) num
  | none =>
    let s := (s.carDefaults.set Reg.RED_STAT_COLD [] 1).recordS 0x3802 4 1 (code + 2 ^ 16 * e) 0
    s.recordS 0x3803 5 1 code e

/-! Planned swap (R340 to R342) -/

/-- The swap message naming w on stream 3, SEL 0x0305. Its layout is not stated: w in eight bytes, then free bytes (log 34). -/
def sendSwap (s : State) (w : Nat) : State :=
  let (pad, s) := s.take 64
  s.pairSend 0x0305 (beBytes 8 w ++ beBytes 8 pad)

/-- A swap for turn w begins on this device. -/
def beginSwap (s : State) (w : Nat) (desc : Option (Nat × Nat × Nat)) : State :=
  (s.set Reg.RED_STAT_SWAP_PENDING [] 1).modRed fun r => { r with swap := some ⟨w, s.isLeader, desc, false, false⟩ }

/-- A swap ends on this device, with its descriptor's status. -/
def endSwap (s : State) (x : Swap) (status rval : Nat) : State :=
  let s := (s.set Reg.RED_STAT_SWAP_PENDING [] 0).modRed fun r => { r with swap := none }
  let s := if x.leader && status != 0 then (List.range 8).foldl (fun s g => s.canUnpark g) s else s
  match x.desc with
  | some (t, q, i) => s.complete t q i status 0 rval
  | none => s

end State

/-- The pair-state message is due (R321): once in a turn from its tick + 2 µs on, or 1 ms after the last without a tick. -/
def State.pairStateDue (s : State) : Bool :=
  match s.red.psSent with
  | none => !s.ticking || 2000 ≤ s.phaseNs
  | some (turn, t) => if s.ticking then turn != s.clock.turn && 2000 ≤ s.phaseNs else s.since t 1000000

/-- PAIR_STATE_SEND (R321): the pair-state message when it is due, on the crosslinks whose weir lets frames pass. -/
def execPairStateSend (s : State) : Result :=
  .next (if s.alive && s.paired && !s.xlinks.isEmpty && s.pairStateDue then
    ((s.emit (.pairState s.pairState)).modRed fun r => { r with psSent := some (s.clock.turn, s.clock.up) }).modInaug fun i =>
      { i with asking := if s.decides then i.asking else none } else s)

/-- PAIR_STATE_RECEIVE (R229, R320, R321, R325, R337): the message with what the crosslinks bring beside it in that turn: the
parcels the follower's tenants published and the CAN_SEND buffers they handed over (Table 13-2), and the leader's reports on the follower's LINE_SEND and CAN_SEND work
(R401, R406): queue and index, status, RLEN and RVAL. Their forms are not stated (log 37). -/
def execPairStateReceive (p : PairState) (pubs : List (Nat × List Byte)) (cans : List (Nat × List Byte)) (done : List SentReport)
    (s : State) : Result :=
  .next (if !s.alive || !s.paired || s.xlinks.isEmpty then s
    else
      let old := s
      let d := s.delay (s.xlinks.headD 0)
      let s := (s.set Reg.RED_PARTNER_LO_UID [] (p.uid % 2 ^ 32)).set Reg.RED_PARTNER_HI_UID [] (p.uid / 2 ^ 32)
      let s := s.modRed fun r => { r with partner := some p, partnerPorts := p.ports, psNow := true, noneSince := r.noneSince.map fun _ => s.clock.up }
      let s := (((s.settleRole p).takePublished pubs).takeCans cans).takeReports done
      let s := if s.isLeader && p.role == 1 then
          s.seeClaim p.epoch (serialHigher p.epoch s.epoch || (p.epoch == s.epoch && s.partnerWins p.pref p.uid)) else s
      let rose := (List.range 4).any fun n => (p.ports.getD n default).st == 4 && (old.red.partnerPorts.getD n default).st != 4 && s.partnerUp.any fun x => x.1 == n
      let s := if rose && s.lineUpFw then s.leaveSolo 0xFF else s
      ((s.partnerSays p d).followPartner p d).splitsFrom old |>.showEnds)

/-- ROLE_TIMEOUT (R325): 2 s out of OFF without pair state and without a witnessed claim. -/
def execRoleTimeout (s : State) : Result :=
  .next (match s.red.noneSince with
    | some t => if s.alive && s.paired && s.cpuUp 0 && s.get Reg.GLOBAL_STAT_ROLE == 3 && s.lstate != 0 && s.since t 2000000000 then (s.carDefaults.lead (s.epoch + 1) s.clock.turn).settled else s
    | none => s)

/-- EPOCH_SNAPSHOT (R327): the leader sends the snapshot taken at the tick of this turn. -/
def execEpochSnapshot (s : State) : Result :=
  .next (match s.red.snap with
    | some e => if s.alive && s.isLeader && s.cpuUp 0 && !(s.red.swap.any fun x => x.w == s.clock.turn) then (s.sendEpoch s.turn32 false e).modRed fun r => { r with snap := none } else s
    | none => s)

/-- EPOCH_CHUNK_RECEIVE (R329): the chunk's fields (Table 13-6). -/
def execEpochChunkReceive (num index count ccrc : Nat) (data : List Byte) (s : State) : Result :=
  .next (if !s.alive || !s.isFollower || !s.cpuUp 0 then s
    else if crc32c (beBytes 4 num ++ beBytes 2 index ++ beBytes 2 count ++ slice data 0 1024) != ccrc then s.inc Reg.RED_EPOCH_CNT_CHUNK_ERR
    else
      let s := match s.red.shadow with
        | some h => if h.enum == num then s else s.dropShadow
        | none => s
      let h := s.red.shadow.getD ⟨num, count, []⟩
      if index < count && count ≤ 160 then
        s.modRed fun r => { r with shadow := some { h with chunks := Sparse.put index (slice data 0 1024) h.chunks } }
      else s)

/-- EPOCH_END_MARKER_RECEIVE (R329, R340, R597): the marker's fields (Table 13-7). -/
def execEpochEndMarkerReceive (num count dlen ecrc : Nat) (swap : Bool) (s : State) : Result :=
  .next (if !s.alive || !s.isFollower || !s.cpuUp 0 then s
    else match s.red.shadow with
      | none => s
      | some h =>
        match State.shadowData h with
        | none => s
        | some all =>
          let data := all.take dlen
          let fresh : Bool := match s.red.committed with
            | some (n, _) => newer32 num n
            | none => true
          if h.enum != num || h.count != count || crc64 data != ecrc || !fresh then s
          else if (Config.epochParse data).version % 2 ^ 32 != s.get Reg.CFG_VER_ACTIVE_VER then s.dropShadow
          else
            let s := s.commitEpoch num data
            match s.red.swap with
            | some x => if swap && !x.leader && !x.aborted && x.w == s.clock.turn && num == s.turn32 then
                ((s.restore (Config.epochParse data) s.clock.turn 0).modRed fun r => { r with swap := some { x with done := true } }).swapJobs
              else s
            | none => s)

/-- WITNESS_RECEIVE (R325, R331, R337): a witness message about this logical node. -/
def execWitnessReceive (sender : Nat) (body : List Byte) (s : State) : Result :=
  let seen := beAt body 1 1
  let claim := beAt body 2 1
  let w : Witness := ⟨sender, beAt body 0 1, bit seen 0, bit seen 1, bit seen 2, bit seen 3, bit claim 0, bit claim 1, beAt body 4 2, beAt body 6 2⟩
  .next (if !s.alive || !s.paired || (s.ownPos != 0 && w.subject != s.ownPos) then s
    else
      let s := s.modRed fun r => { r with witnesses := w :: r.witnesses }
      let partnerB := !s.pins.strapChan
      let claims := if partnerB then w.claimB else w.claimA
      let e := if partnerB then w.epochB else w.epochA
      if !claims then s
      else if s.get Reg.GLOBAL_STAT_ROLE == 3 then s.modRed fun r => { r with noneSince := r.noneSince.map fun _ => s.clock.up }
      else if !s.isLeader then s
      else
        let pref := (s.red.partner.map fun p => p.pref).getD false
        s.seeClaim e (serialHigher e s.epoch || (e == s.epoch && s.red.partner.isSome && s.partnerWins pref s.partnerUid)))

/-- TAKEOVER (R333, R335, R336): at the tick after the turn that met a condition of Table 13-9, or once CPU pair 0 runs again. -/
def execTakeover (s : State) : Result :=
  .next (match s.red.takeover with
    | some (t, code) => if s.alive && s.isFollower && s.cpuUp 0 && t < s.clock.turn then s.takeOver code else s
    | none => s)

/-- LEADER_YIELD (R337): at the tick after the turn in which a winning claim was seen. -/
def execLeaderYield (s : State) : Result :=
  .next (match s.red.claim with
    | some (t, e) => if s.alive && s.isLeader && s.cpuUp 0 && t < s.clock.turn then
        let own := s.epoch
        let s := ((s.setEpoch e).setRole 2).modRed fun r => { r with claim := none }
        let s := (s.modFar fun f => { f with tqueue := [] }).showFar
        ((s.roleWork true).inc Reg.RED_TAKE_CNT_YIELDS).recordS 0x3805 4 1 own e
      else s
    | none => s)

/-- SWAP_MESSAGE_RECEIVE (R340): the partner names the swap turn w. -/
def execSwapMessageReceive (w : Nat) (s : State) : Result :=
  .next (if s.alive && s.paired && (s.isLeader || s.isFollower) && s.red.swap.isNone && s.clock.turn < w then s.beginSwap w none else s)

/-- SWAP_EPOCH_SNAPSHOT (Table 13-12): at tick w the leader snapshots and sends the swap epoch and aborts its pending CAN
transmit buffers. -/
def execSwapEpochSnapshot (s : State) : Result :=
  .next (match s.red.swap with
    | some x => if s.alive && x.leader && s.cpuUp 0 && x.w == s.clock.turn && !x.aborted && !x.done then
        let s := s.sendEpoch s.turn32 true (s.red.snap.getD s.epochImage)
        let s := s.modRed fun r => { r with snap := none, swap := some { x with done := true } }
        (List.range 8).foldl (fun s n => s.canPark n) s
      else s
    | none => s)

/-- SWAP_COMMIT_DEADLINE (R341): 200 µs after tick w the swap epoch is not committed. `committed`: on the old leader, that the
partner has committed it; how it learns this the spec does not say (log 36). The leader cannot count the partner's chunks: free. It acts
at any later time too: a device whose CPU pair 0 restarts in turn w gives the swap up once the pair runs again (R106). -/
def execSwapCommitDeadline (committed : Bool) (s : State) : Result :=
  .next (match s.red.swap with
    | some x =>
      if s.alive && s.cpuUp 0 && (x.w < s.clock.turn || (x.w == s.clock.turn && s.phaseNs ≥ 200000)) && !x.aborted && !(if x.leader then committed else x.done) then
        let (n, s) := if x.leader then s.take 8 else ((s.red.shadow.map fun h => h.chunks.length).getD 0, s)
        ((s.endSwap x 7 0).recordS 0x3807 3 1 (x.w % 2 ^ 32) n).swapJobs
      else s
    | none => s)

/-- SWAP_ROLE_EXCHANGE (Table 13-12): at tick w + 1. -/
def execSwapRoleExchange (s : State) : Result :=
  .next (match s.red.swap with
    | some x => if s.alive && s.cpuUp 0 && x.w < s.clock.turn && x.done then
        let e := (s.epoch + 1) % 65536
        let s := if x.leader then ((s.setEpoch e).setRole 2) else s.lead e s.clock.turn
        let s := if x.leader then (s.modFar fun f => { f with tqueue := [] }).showFar else s
        let s := (s.roleWork x.leader).inc Reg.RED_TAKE_CNT_SWAPS
        (s.recordS 0x3806 1 1 (x.w % 2 ^ 32) e).endSwap x 0 x.w
      else s
    | none => s)

end Sys2Proof.Machine
end

