-- ==== Sys2Proof/Machine/Queues.lean ====
section
/-!
DEFINITION. Queue pairs, doorbells, descriptor fetch and the opcodes of lines, consists, CAN, directory and roles (R379 to
R406, R266, R267, R283, R340): the commands QUEUE_ENABLE to MODERATION_TIMER and NOP to CAN_SEND, DIRECTORY_READ,
UNSATISFIED_READ, INAUG_REQUEST and ROLE_SWAP.
-/

namespace Sys2Proof.Machine

/-- A submission descriptor from its 32 bytes (Table 15-6). -/
def parseDesc (l : List Byte) : Desc := ⟨leAt l 0 1, leAt l 1 1, leAt l 2 2, leAt l 4 4, leAt l 8 8, leAt l 16 8, leAt l 24 8⟩

/-- Opcodes of Table 15-9. -/
def opcodes : List Nat :=
  [0x00, 0x01, 0x02, 0x03, 0x04, 0x05, 0x10, 0x11, 0x20, 0x21, 0x22, 0x30, 0x31, 0x32, 0x33, 0x40, 0x41, 0x50]

/-- The right an opcode needs (Table 15-9). -/
def rightOf (op : Nat) : Option Fld :=
  match op with
  | 0x01 => some Reg.TN_RIGHTS_LINE
  | 0x02 => some Reg.TN_RIGHTS_LINE
  | 0x03 => some Reg.TN_RIGHTS_CONSIST
  | 0x04 => some Reg.TN_RIGHTS_CONSIST
  | 0x05 => some Reg.TN_RIGHTS_CAN
  | 0x10 => some Reg.TN_RIGHTS_FAR
  | 0x11 => some Reg.TN_RIGHTS_FAR
  | 0x20 => some Reg.TN_RIGHTS_TALLY_READ
  | 0x21 => some Reg.TN_RIGHTS_MARK
  | 0x22 => some Reg.TN_RIGHTS_TALLY_CLEAR
  | 0x30 => some Reg.TN_RIGHTS_ATTEST
  | 0x31 => some Reg.TN_RIGHTS_CONFIG
  | 0x32 => some Reg.TN_RIGHTS_CONFIG
  | 0x33 => some Reg.TN_RIGHTS_CONFIG
  | 0x41 => some Reg.TN_RIGHTS_INAUG
  | 0x50 => some Reg.TN_RIGHTS_ROLE_SWAP
  | _ => none

namespace State

/-! Queue pairs (R379, R380) -/

/-- Address of a ring from its register pair; tenant 16 uses window offsets. -/
def ringAddr (s : State) (lo hi : Fld) (t q : Nat) : Nat :=
  64 * s.get lo [t, q] + (if t == 16 then 0 else 2 ^ 32 * s.get hi [t, q])

/-- HQq_CTL.EN changes from 0 to 1, with the other fields as the registers hold them (R379). -/
def enableQueue (s : State) (t q : Nat) : State :=
  if s.on Reg.HQq_CTL_EN [t, q] then s
  else
    let size := s.get Reg.HQq_CTL_SIZE [t, q]
    let sqb := s.ringAddr Reg.HQq_SQB_LO_ADDR Reg.HQq_SQB_HI_ADDR t q
    let cqb := s.ringAddr Reg.HQq_CQB_LO_ADDR Reg.HQq_CQB_HI_ADDR t q
    if q ≥ s.get Reg.TN_RIGHTS_QMAX [t] || size < 6 || size > 12 || !inWin t sqb (32 * 2 ^ size) || !inWin t cqb (16 * 2 ^ size) then
      s.tnErr t Reg.TN_ERR_QSETUP
    else
      let s := (s.set Reg.HQq_CTL_EN [t, q] 1).set Reg.HQq_STAT_RUN [t, q] 1
      let s := ((s.set Reg.HQq_STAT_HEAD [t, q] 0).set Reg.HQq_TAIL_TAIL [t, q] 0).set Reg.HQq_STAT_PHASE [t, q] 1
      let s := s.modQueue t q fun _ => {
        sqb := sqb, cqb := cqb, size := size, kind := s.on Reg.HQq_CTL_KIND [t, q], rxConsist := s.on Reg.HQq_CTL_RX_CONSIST [t, q]
        irq := s.on Reg.HQq_CTL_IRQ [t, q], vec := s.get Reg.HQq_CTL_VEC [t, q], next := 0, works := [], count := 0, since := 0, hold := [] }
      (s.showFlight t q).showQen t

/-- HQq_CTL.EN written 0 (R380): its work is discarded; RUN returns to 0 with QUEUE_STOPPED. -/
def disableQueue (s : State) (t q : Nat) : State :=
  let s := (s.set Reg.HQq_STAT_ERR [t, q] 0).set Reg.HQq_CTL_EN [t, q] 0
  (s.discardQueue t q).showQen t

/-! Doorbells and fetch (R387 to R391) -/

/-- A doorbell of a tenant (Table 15-8). -/
def doorbell (s : State) (t w : Nat) : State :=
  let q := w / 2 ^ 16 % 256
  let tail := w % 65536
  let off := q ≥ 16 || !s.on Reg.HQq_CTL_EN [t, q]
  let range := w / 2 ^ 24 != 0 || (!off && tail ≥ 2 ^ (s.queue t q).size)
  if off || range then
    let s := if off then s.tnErr t Reg.TN_ERR_DB_OFF else s
    let s := if range then s.tnErr t Reg.TN_ERR_DB_RANGE else s
    s.recordS 0x3A05 2 (5 + portOf t) t (s.tnErrWord t)
  else s.set Reg.HQq_TAIL_TAIL [t, q] tail

/-- Enabled queues device-wide. -/
def enabledQueues (s : State) : Nat :=
  (s.host.queues.filter fun x => s.on Reg.HQq_CTL_EN [x.1 / 16, x.1 % 16]).length

/-- A queue has a free in-flight place (R390): one of its 4 guaranteed ones, or a shared one. -/
def hasFlight (s : State) (t q : Nat) : Bool :=
  let n := (s.queue t q).works.length
  let shared := s.host.queues.foldl (fun a x => a + (x.2.works.length - 4)) 0
  n < 64 && (n < 4 || shared + 4 * s.enabledQueues < 1024)

/-- A queue takes an opcode (R378). -/
def kindOk (x : Queue) (op : Nat) : Bool :=
  if op == 2 then x.kind && !x.rxConsist else if op == 4 then x.kind && x.rxConsist else !x.kind

/-- A queue has a pending descriptor that may be fetched (R371, R389). -/
def wantsFetch (s : State) (t q : Nat) : Bool :=
  s.hostUp && s.running t q && s.bme t && !s.on Reg.HQq_STAT_ERR [t, q] && (s.queue t q).next != s.get Reg.HQq_TAIL_TAIL [t, q]

/-- Round robin: of an ascending list, the first number after the one that was served last. -/
def roundRobin (l : List Nat) (last : Option Nat) : Option Nat :=
  match last with
  | none => l.head?
  | some k => (l.find? fun x => k < x).or l.head?

/-- The queue whose turn it is: round-robin across tenants, and across the queues within a tenant (R390). -/
def fetchNext (s : State) : Option (Nat × Nat) :=
  let of (t : Nat) : List Nat := (List.range 16).filter fun q => s.wantsFetch t q && s.hasFlight t q
  match roundRobin ((List.range 17).filter fun t => !(of t).isEmpty) (s.host.fetched.head?.map fun x => x.1) with
  | none => none
  | some t => (roundRobin (of t) (Sparse.find t s.host.fetched)).map fun q => (t, q)

/-- A queue has had its turn: it was served, or found no read tag and stalls no other (R24). -/
def passTurn (s : State) (t q : Nat) : State :=
  s.modHost fun h => { h with fetched := (t, q) :: h.fetched.filter fun x => x.1 != t }

/-- Fetch the next pending descriptor and check its opcode, its queue's kind, its right and DFLAGS (R390, R394). A
RETIRED node serves ATTEST only (Table 21-1). -/
def fetchDesc (s : State) (t q : Nat) (given : List Byte) : State :=
  let x := s.queue t q
  let i := x.next
  let a := x.sqb + 32 * i
  let s := if t == 16 then s else s.emit (.hostRead t a 32)
  let d := parseDesc (s.memIn t a 32 given)
  let s := ((s.passTurn t q).modQueue t q fun y => { y with next := (i + 1) % 2 ^ y.size, works := y.works ++ [⟨i, d, false, none⟩] }).showFlight t q
  if !opcodes.contains d.opcode || !kindOk x d.opcode then s.failCheck t q i 6
  else if (match rightOf d.opcode with
    | some f => !s.on f [t]
    | none => false) then s.failCheck t q i 5
  else if d.flags ≥ 4 then s.failCheck t q i 6
  else if s.sec.lifecycle == 4 && d.opcode != 0x30 then s.complete t q i 5 0 0
  else s

/-- A descriptor's buffer waits to be read: no read tag of the port was free, and the host returned no byte (R391, log 101). -/
def bufWaits (t : Nat) (d : Desc) (given : List Byte) : Bool := t != 16 && d.len != 0 && given.isEmpty

/-- A read request finds no tag (R391). -/
def readStall (s : State) : State := s.inc Reg.HOST_STALL_RDREQ

/-- The bytes of a descriptor's buffer, asked from the host or read in the window. -/
def takeBuf (s : State) (t : Nat) (d : Desc) (given : List Byte) : List Byte × State :=
  (s.memIn t d.buf d.len given, if t == 16 then s else s.emit (.hostRead t d.buf d.len))

/-! LINE_SEND (R398 to R401, R458) -/

/-- The argument check of LINE_SEND: the status it fails with. -/
def lineArgs (s : State) (t : Nat) (d : Desc) : Option Nat :=
  let dkind := d.arg0 / 2 ^ 32 % 4
  let stream := d.arg0 / 2 ^ 48 % 512
  let sel := d.arg0 / 2 ^ 16 % 65536
  let zero := d.arg0 / 2 ^ 34 % 4 == 0 && d.arg0 / 2 ^ 39 % 512 == 0 && d.arg0 / 2 ^ 57 == 0 && d.arg1 / 2 ^ 32 == 0
  let named := s.conf.senders.contains (stream, t)
  let selOk := if dkind == 1 then sel / 2 ^ 13 == 0 else sel % 16 < 12 || sel % 16 == 15
  let lenOk := if dkind == 1 then 1 ≤ d.len && d.len ≤ 1528 else 60 ≤ d.len && d.len ≤ 1518
  if !zero || dkind ≥ 2 || !selOk || !lenOk || !inWin t d.buf d.len then some 6
  else if stream == 256 then none
  else if stream < 16 || stream > 255 || !s.streamOn stream then some 6
  else if !named then some 5 else none

/-- LINE_SEND. For DKIND 0 the consist header stands before the frame; a host's frame has no start delimiter, so its time is a
free value (R458). -/
def lineSend (s : State) (t q i : Nat) (d : Desc) (given : List Byte) : State :=
  match s.lineArgs t d with
  | some st => s.failCheck t q i st
  | none =>
    let cons := d.arg0 % 256
    let car := d.arg0 / 256 % 256
    let dkind := d.arg0 / 2 ^ 32 % 4
    let stream := d.arg0 / 2 ^ 48 % 512
    let want := d.arg1 % 2 ^ 32
    if s.standing || s.ownPos == 0 then s.complete t q i 9 0 s.icount
    else if want != 0 && want != s.icount then s.complete t q i 2 0 s.icount
    else
      match (if cons == 255 then some 0xFFFF else (s.nodeOfCar cons car).map fun x => x.pos) with
      | none => s.complete t q i 2 0 (s.icount + 2 ^ 32)
      | some dest =>
        if bufWaits t d given then s.readStall else
        let (data, s) := s.takeBuf t d given
        let (time, s) := if dkind == 0 then s.take 32 else (0, s)
        let body := if dkind == 0 then beBytes 2 d.len ++ beBytes 1 15 ++ beBytes 1 0 ++ beBytes 4 time ++ data else data
        let sel := d.arg0 / 2 ^ 16 % 65536
        let prio := d.arg0 / 2 ^ 36 % 8
        let s := s.startWork t q i
        if s.paired && s.isFollower && !s.xlinks.isEmpty then (s.lineOut stream dest dkind sel prio body none).2
        else
          let w : Dyn := ⟨dest, dkind, s.lifeOf stream, sel, prio, body⟩
          let (f, s) := s.makeDyn stream dest dkind sel prio body (s.lifeOf stream)
          let s := if dest == s.ownPos || dest == 0xFFFF then s.deliverOwn f w else s
          let s := if s.paired && s.isLeader then s.sendX f else s
          if (s.duePorts dest).isEmpty then s.complete t q i 0 d.len f.hdr.seqGen
          else s.queueOwn f dest (some (t, q, i))

/-! Consist and CAN work (R404 to R406, R461, R492) -/

/-- CONSIST_SEND: on a named port it completes once the frame has left there (cpServe), or with DISCARDED. The host frame's start-delimiter time is a free value. -/
def consistSend (s : State) (t q i : Nat) (d : Desc) (given : List Byte) : State :=
  if bufWaits t d given && inWin t d.buf d.len then s.readStall else
  let port := d.arg0 % 16
  let (data, s1) := s.takeBuf t d given
  let f := ethTagged data
  let lenOk := if f.tagged then 64 ≤ d.len && d.len ≤ 1522 else 60 ≤ d.len && d.len ≤ 1518
  if (12 ≤ port && port ≤ 14) || !lenOk || !inWin t d.buf d.len then s.failCheck t q i 6
  else
    let own := s.get Reg.CT_CTL_VID [t]
    let prio := if f.tagged then f.pcp else d.arg0 / 16 % 8
    match (if s.on Reg.CT_CTL_EN [t] && (!f.tagged || f.vid == own) then s.vlanOf own else none) with
    | none => s1.complete t q i 5 0 0
    | some v =>
      let s := s1.startWork t q i
      if port == 15 then
        let (time, s) := s.take 32
        (s.bridge (.host t) 15 v own prio time f).complete t q i 0 0 0
      else if !s.member v port then s.complete t q i 5 0 0
      else
        let up := s.cpUp port
        let s := s.cpSend none (some (t, q, i)) port v own prio f
        if up then s else s.complete t q i 1 0 0

/-- A follower's CAN_SEND goes to the leader over the crosslink (R406). -/
def passCan (s : State) (g : Nat) (b : List Byte) : State := s.emit (.xlink "can_send" (beBytes 1 g ++ b))

/-- CAN_SEND (R406, R492). -/
def canSend (s : State) (t q i : Nat) (d : Desc) (given : List Byte) : State :=
  if bufWaits t d given && inWin t d.buf d.len then s.readStall else
  let g := d.arg0 % 8
  let (data, s1) := s.takeBuf t d given
  match (if inWin t d.buf d.len then parseCan data d.len else none) with
  | none => s.failCheck t q i 6
  | some f =>
    if (f.fdf && !s.on Reg.CANn_CTL_FD_EN [g]) || s.govern g != g then s.failCheck t q i 6
    else
      let s := s1.startWork t q i
      if s.paired && s.isFollower && !s.xlinks.isEmpty then s.passCan g data
      else if s.canClosed g then s.complete t q i 1 0 0
      else s.canQueue g t q i f

/-! Directory (R266, R283) -/

/-- The node reports a directory: standing still, train of one, consist fallback, TAI (Table 10-6, byte 6). -/
def directoryFlags (s : State) : Nat :=
  b2n s.standing + 2 * b2n (s.get Reg.INAUG_POS_N == 1) + 4 * b2n (s.on Reg.INAUG_STAT_FALLBACK_CONSIST) + 8 * b2n s.taiOn

/-- An entry of the directory for tenants (Table 10-7). -/
def directoryEntry (s : State) (x : Numbered) : List Byte :=
  let e := x.entry
  let l := (s.inaug.latest.find? fun y => y.1 == x.pos).getD (x.pos, 0, 0, 0)
  leBytes 1 x.pos ++ leBytes 1 x.consistNo ++ leBytes 1 x.carNo ++
  leBytes 1 (b2n e.paired + 2 * b2n x.reversed + 4 * b2n e.cab + 8 * b2n (x.pos == s.ownPos)) ++
  leBytes 4 e.consist ++ leBytes 8 e.luid ++ leBytes 8 e.puid ++ leBytes 4 e.cfgVer ++ leBytes 4 l.2.1 ++ leBytes 16 e.ftDigest ++
  leBytes 1 e.linkMin ++ leBytes 1 e.profMax ++ leBytes 1 e.carIndex ++ leBytes 1 e.carCount ++ leBytes 2 l.2.2.2 ++ leBytes 1 l.2.2.1 ++
  leBytes 9 0

/-- The directory last adopted, for tenants (R266); while the line state is OFF it reports no line (R29). -/
def directoryBytes (s : State) : List Byte :=
  match if s.lstate == 0 then none else s.inaug.dir with
  | some d =>
    leBytes 4 d.icount ++ leBytes 1 d.nodes.length ++ leBytes 1 d.profile ++ leBytes 1 s.directoryFlags ++ leBytes 1 d.ownPos ++
    leBytes 4 d.adopt ++ leBytes 4 s.trainUnsat ++ beBytes 48 d.digest ++ d.nodes.flatMap s.directoryEntry
  | none => leBytes 6 0 ++ leBytes 1 (b2n s.standing + 8 * b2n s.taiOn) ++ leBytes 57 0

/-- Unsatisfied demands in descending order of the sort key of R276: queue entry, reason, ghost, position. -/
def unsatList (s : State) : List (QDemand × Nat × Bool × Nat) :=
  match s.synth.sched with
  | none => []
  | some c =>
    let a := c.unsat.map fun u => (QDemand.mk 0 u.index u.demand u.node.consistNo u.node.carNo u.node.uid, u.reason, u.node.ghost, u.node.pos)
    let uid := match s.synth.ownTable with
      | some t => ((t.cars.find? fun x => x.carIndex == s.get Reg.INAUG_CAR_INDEX).map sortUid).getD 0
      | none => 0
    let b := s.ownOpen.map fun x =>
      (QDemand.mk 0 x.1 x.2.1 s.ownConsist (s.get Reg.INAUG_POS_CAR_NO) uid, x.2.2, false, s.ownPos)
    sortBy (fun x y => qLe y.1 x.1) (a ++ b)

/-- Tables 11-5 and 11-6, of the schedule last adopted. -/
def unsatBytes (s : State) : List Byte :=
  let l := s.unsatList
  let (icount, prof) := match s.inaug.dir with
    | some d => (d.icount, d.profile)
    | none => (0, 0)
  leBytes 4 icount ++ leBytes 2 l.length ++ leBytes 1 prof ++ leBytes 1 (b2n s.standing) ++ leBytes 8 0 ++ l.flatMap fun x =>
    leBytes 2 x.1.d.func ++ leBytes 1 x.1.d.cls ++ leBytes 1 x.1.d.period ++ leBytes 2 x.1.d.size ++ leBytes 1 x.2.1 ++
    leBytes 1 (b2n x.2.2.1 + 2 * b2n (x.2.2.2 == s.ownPos && !x.2.2.1)) ++ leBytes 1 x.2.2.2 ++ leBytes 1 x.1.consistNo ++
    leBytes 1 x.1.carNo ++ leBytes 1 x.1.index ++ leBytes 4 x.1.uid

/-- Write a result into a descriptor's buffer and complete it, or NO_RESOURCE with the length needed. -/
def answer (s : State) (t q i : Nat) (d : Desc) (l : List Byte) : State :=
  if l.length > d.len then s.complete t q i 7 0 l.length
  else (s.memWrite t d.buf l).complete t q i 0 l.length 0

/-- DIRECTORY_READ with argument 0. -/
def directoryRead (s : State) (t q i : Nat) (d : Desc) (l : List Byte) : State :=
  if d.arg0 > 1 || d.arg1 != 0 || !inWin t d.buf d.len then s.failCheck t q i 6 else s.answer t q i d l

/-! ROLE_SWAP (R340) -/

/-- The partner is integrated: its last pair state shows it SYNCED, SELF_SILENT or SOLITARY (log 40). -/
def partnerIn (s : State) : Bool :=
  match s.red.partner with
  | some p => p.line % 16 == 4 || p.line % 16 == 5 || p.line % 16 == 6
  | none => false

/-- ROLE_SWAP is refused. -/
def swapDenied (s : State) : Bool :=
  !s.paired || s.xlinks.isEmpty || !s.partnerIn || s.get Reg.GLOBAL_STAT_ROLE == 3 || s.red.swap.isSome ||
  s.get Reg.TURN_LEN_LEN_ACT < 500

end State

/-- QUEUE_ENABLE (R379). -/
def execQueueEnable (t : Fin 17) (q : Fin 16) (s : State) : Result := 
  .next (if s.alive && s.postsOpen t.val then s.enableQueue t.val q.val else s)

/-- QUEUE_DISABLE (R380, Table 15-15). -/
def execQueueDisable (t : Fin 17) (q : Fin 16) (s : State) : Result :=
  .next (if s.alive && s.postsOpen t.val && s.on Reg.HQq_CTL_EN [t.val, q.val] then s.disableQueue t.val q.val else s)

/-- QUEUE_STOPPED (R380). -/
def execQueueStopped (t : Fin 17) (q : Fin 16) (s : State) : Result :=
  .next (if s.alive && !s.on Reg.HQq_CTL_EN [t.val, q.val] then s.set Reg.HQq_STAT_RUN [t.val, q.val] 0 else s)

/-- DOORBELL (R387, R388): a 32-bit write to HOST_DB. -/
def execDoorbell (t : Fin 17) (w : Word) (s : State) : Result := 
  .next (if s.alive && s.postsOpen t.val then s.doorbell t.val w.toNat else s)

/-- DESCRIPTOR_FETCH (R389 to R391, R394): a queue whose turn it is fetches a descriptor, with its bytes as the host returns them; `tag`: a
read tag is free. -/
def execDescriptorFetch (t : Fin 17) (q : Fin 16) (tag : Bool) (given : List Byte) (s : State) : Result :=
  let t := t.val
  let q := q.val
  .next (if !s.alive || !s.wantsFetch t q then s
    else if !s.hasFlight t q then s.inc Reg.HOST_STALL_POOL
    else if s.fetchNext != some (t, q) then s
    else if t != 16 && !tag then (s.passTurn t q).readStall
    else s.fetchDesc t q given)

/-- MODERATION_TIMER (R392). -/
def execModerationTimer (t : Fin 17) (q : Fin 16) (s : State) : Result :=
  let x := s.queue t.val q.val
  let tm := s.get Reg.HQq_MOD_TIME [t.val, q.val]
  .next (if s.alive && x.count != 0 && tm != 0 && s.since x.since (tm * 1000) then
    let s := s.modQueue t.val q.val fun y => { y with count := 0 }
    if x.irq then s.signal t.val q.val x.vec else s
  else s)

/-- NOP (R395). -/
def execNop (t : Fin 17) (q : Fin 16) (i : Nat) (s : State) : Result :=
  .next (if !s.alive then s else match s.ready t.val q.val i 0x00 with
    | some d => s.complete t.val q.val i 0 0 d.arg0
    | none => s)

/-- LINE_SEND (R398 to R401). -/
def execLineSend (t : Fin 17) (q : Fin 16) (i : Nat) (data : List Byte) (s : State) : Result :=
  .next (if !s.alive then s else match s.ready t.val q.val i 0x01 with
    | some d => s.lineSend t.val q.val i d data
    | none => s)

/-- LINE_RECV_POST (R402, R403). -/
def execLineRecvPost (t : Fin 17) (q : Fin 16) (i : Nat) (s : State) : Result :=
  .next (if !s.alive then s else match s.ready t.val q.val i 0x02 with
    | some d => if !State.inWin t.val d.buf d.len then s.failCheck t.val q.val i 6
      else (s.startWork t.val q.val i).fillBuffers t.val q.val 64
    | none => s)

/-- CONSIST_SEND (R404). -/
def execConsistSend (t : Fin 17) (q : Fin 16) (i : Nat) (data : List Byte) (s : State) : Result :=
  .next (if !s.alive then s else match s.ready t.val q.val i 0x03 with
    | some d => s.consistSend t.val q.val i d data
    | none => s)

/-- CONSIST_RECV_POST (R405): a buffer of at least 64 bytes. -/
def execConsistRecvPost (t : Fin 17) (q : Fin 16) (i : Nat) (s : State) : Result :=
  .next (if !s.alive then s else match s.ready t.val q.val i 0x04 with
    | some d => if d.len < 64 || !State.inWin t.val d.buf d.len then s.failCheck t.val q.val i 6
      else (s.startWork t.val q.val i).fillConsist t.val q.val 64
    | none => s)

/-- CAN_SEND (R406, R492). -/
def execCanSend (t : Fin 17) (q : Fin 16) (i : Nat) (data : List Byte) (s : State) : Result :=
  .next (if !s.alive then s else match s.ready t.val q.val i 0x05 with
    | some d => s.canSend t.val q.val i d data
    | none => s)

/-- DIRECTORY_READ (R266), with any argument 0 but 1. -/
def execDirectoryRead (t : Fin 17) (q : Fin 16) (i : Nat) (s : State) : Result :=
  .next (if !s.alive then s else match s.ready t.val q.val i 0x40 with
    | some d => if d.arg0 == 1 then s else s.directoryRead t.val q.val i d s.directoryBytes
    | none => s)

/-- UNSATISFIED_READ (R283): DIRECTORY_READ with argument 0 = 1. -/
def execUnsatisfiedRead (t : Fin 17) (q : Fin 16) (i : Nat) (s : State) : Result :=
  .next (if !s.alive then s else match s.ready t.val q.val i 0x40 with
    | some d => if d.arg0 == 1 then s.directoryRead t.val q.val i d s.unsatBytes else s
    | none => s)

/-- INAUG_REQUEST (R262, R267): it releases links held after a fallback and raises a kind 4 trigger; it completes at the adoption turn
(R263). -/
def execInaugRequest (t : Fin 17) (q : Fin 16) (i : Nat) (s : State) : Result :=
  .next (if !s.alive then s else match s.ready t.val q.val i 0x41 with
    | some _ =>
      let s := (s.startWork t.val q.val i).modInaug fun x => { x with requests := x.requests ++ [(t.val, q.val, i)] }
      s.releaseFallback.raise 4 0xFF
    | none => s)

/-- ROLE_SWAP (R340). -/
def execRoleSwap (t : Fin 17) (q : Fin 16) (i : Nat) (s : State) : Result :=
  .next (if !s.alive then s else match s.ready t.val q.val i 0x50 with
    | some _ =>
      if s.swapDenied then s.complete t.val q.val i 5 0 0
      else
        let w := s.clock.turn + 2
        ((s.startWork t.val q.val i).beginSwap w (some (t.val, q.val, i))).sendSwap w
    | none => s)

end Sys2Proof.Machine
end

