-- ==== Sys2Proof/Machine/Far.lean ====
section
/-!
DEFINITION. The far-access bridge (16_far_access_bridge.md), but for the target's service of a request: the commands FAR_READ,
FAR_WRITE, FAR_TRANSFER_START, FAR_REQUEST_RECEIVE, FAR_RESPONSE_RECEIVE, FAR_TRANSFER_TIMEOUT, PREFETCH_EXPIRY, EXPORT_REGION and
those of the BAR4 aperture.
-/

namespace Sys2Proof.Machine

/-- A far header and its data as received (Table 16-3, from byte 8 of the payload). -/
structure FarMsg where
  fop : Nat
  tag : Nat
  func : Nat
  off : Nat
  len : Nat
  pf : Nat
  fstat : Nat
  wnum : Nat
  pieces : Nat
  rturn : Nat
  data : List Byte

/-- Read a far header. -/
def parseFar (l : List Byte) : FarMsg :=
  ⟨beAt l 0 1, beAt l 1 1, beAt l 2 2, beAt l 4 4, beAt l 8 2, beAt l 10 2, beAt l 12 1, beAt l 13 1, beAt l 14 2, beAt l 16 4, l.drop 24⟩

namespace State

/-! Requester (R422 to R433, R438 to R440) -/

/-- The argument check of FAR_READ and FAR_WRITE (Table 16-2). -/
def farArgs (t : Nat) (d : Desc) : Bool :=
  1 ≤ d.len && d.len ≤ 4096 && d.arg1 / 2 ^ 48 % 2 ^ 15 == 0 && (!bit d.arg1 63 || d.arg0 / 2 ^ 16 == 0) && inWin t d.buf d.len

/-- This device's bit in FTAG [7]. -/
def devBit (s : State) : Nat := b2n (s.paired && s.pins.strapChan)

/-- The prefetch entry of a window. -/
def pfFind (s : State) (uid func : Nat) : Option Nat :=
  s.far.prefetch.findIdx? fun e => e.valid && e.uid == uid && e.func == func && s.clock.turn < e.turn + 2

/-- What prefetched data give a read that starts at an offset: bytes, their native width, and the entry when it covers the read
wholly. Bytes taken leave the entry (log 41); an entry whose first byte is another is discarded (R439). -/
def pfTake (s : State) (uid func off len : Nat) : List Byte × Nat × Option Nat × State :=
  match s.pfFind uid func with
  | none => ([], 1, none, s)
  | some i =>
    let e := s.far.prefetch.getD i default
    if e.off != off then ([], 1, none, s.pfDiscard i)
    else
      let n := min len e.data.length
      let u := s.far.prefetch.foldl (fun a x => max a x.used) 0 + 1
      let s := s.modFar fun f => { f with prefetch := listMod f.prefetch i fun e =>
        { e with off := off + n, data := e.data.drop n, valid := decide (n < e.data.length), used := u } }
      (e.data.take n, e.width, if n == len then some i else none, s)

/-- A read is sequential (R438). -/
def farSequential (s : State) (uid func off : Nat) : Bool :=
  s.far.lastRead.any fun x => x.1 == uid && x.2.1 == func && x.2.2.1 == off && (match x.2.2.2 with
    | some q => decide (s.clock.turn ≤ q + 1)
    | none => false)

/-- Note this device's newest read of a window, not answered yet (R438). -/
def noteRead (s : State) (uid func end_ : Nat) : State :=
  s.modFar fun f => { f with lastRead := (uid, func, end_, none) :: f.lastRead.filter fun x => !(x.1 == uid && x.2.1 == func) }

/-- Transfers of at most 1,024 B for the bytes from `start` of a descriptor (R424). -/
def splitFar (base : Transfer) (len start pf : Nat) : List Transfer :=
  let n := (len + 1023) / 1024
  (List.range n).filterMap fun i =>
    let a := max (i * 1024) start
    let b := min ((i + 1) * 1024) len
    if a < b then
      some { base with index := i, off := base.off + a, len := b - a, place := a, pf := if i + 1 == n then pf else 0, data := slice base.data a (b - a) }
    else none

/-- FAR_READ (R422 to R424, R438, R439). -/
def farRead (s : State) (t q i : Nat) (d : Desc) : State :=
  if !farArgs t d then s.failCheck t q i 6
  else if s.standing || s.inaug.dir.isNone then s.complete t q i 9 0 s.icount
  else match s.farTarget (bit d.arg1 63) d.arg0 with
    | none => s.complete t q i 2 0 (s.icount + 2 ^ 32)
    | some x =>
      let off := d.arg1 % 2 ^ 32
      let func := d.arg1 / 2 ^ 32 % 65536
      let uid := x.entry.luid
      let seq := s.farSequential uid func off
      let s := (s.startWork t q i).noteRead uid func (off + d.len)
      let (pre, w, hit, s) := s.pfTake uid func off d.len
      let s := s.memWrite t d.buf pre
      match hit with
      | some e =>
        let s := (s.modFar fun f => { f with pfHits := listMod f.pfHits e fun c => min 65535 (c + 1) }).noteAnswered uid func (off + d.len)
        s.complete t q i 0 d.len (d.len / w + 2 ^ 63)
      | none =>
        let base : Transfer := ⟨.desc t q i, 0, false, none, x.pos, uid, func, off, 0, 0, 0, [], false, false, none, none⟩
        let first := if pre.isEmpty then [] else
          [{ base with len := pre.length, sent := some s.clock.turn, done := some (0, pre.length / w, pre.length, 0xFF, []) }]
        let l := splitFar base d.len pre.length (if seq then s.get Reg.FAR_CTL_PF_MAX else 0)
        (s.modFar fun f => { f with transfers := f.transfers ++ first ++ l }).showFar

/-- FAR_WRITE (R422 to R424, R439). -/
def farWrite (s : State) (t q i : Nat) (d : Desc) (given : List Byte) : State :=
  if !farArgs t d then s.failCheck t q i 6
  else if s.standing || s.inaug.dir.isNone then s.complete t q i 9 0 s.icount
  else match s.farTarget (bit d.arg1 63) d.arg0 with
    | none => s.complete t q i 2 0 (s.icount + 2 ^ 32)
    | some x =>
      let func := d.arg1 / 2 ^ 32 % 65536
      let uid := x.entry.luid
      if bufWaits t d given then s.readStall else
      let (data, s) := (s.startWork t q i).takeBuf t d given
      let s := s.pfDiscardIf fun e => e.uid == uid && e.func == func
      let base : Transfer := ⟨.desc t q i, 0, true, none, x.pos, uid, func, d.arg1 % 2 ^ 32, 0, 0, 0, data, false, false, none, none⟩
      (s.modFar fun f => { f with transfers := f.transfers ++ splitFar base d.len 0 0 }).showFar

/-- A free tag: which of them is taken is not stated, so a free value chooses (R424). -/
def takeTag (s : State) : Option Nat × State :=
  let free := (List.range 128).filter fun g => !s.far.transfers.any fun x => x.tag == some g && x.done.isNone
  match free with
  | [] => (none, s)
  | g :: _ =>
    let (v, s) := s.take 16
    (some (free.getD (v % free.length) g), s)

/-- A transfer must wait for earlier ones to its window (R428), or is never sent because an earlier write of its descriptor failed. -/
def farHeld (s : State) (k : Nat) (x : Transfer) : Bool :=
  (s.far.transfers.take k).any fun y => y.sameWindow x && y.done.isNone && (x.write || y.write)

/-- An earlier write transfer of the same descriptor failed (R433). -/
def farCut (s : State) (x : Transfer) : Bool :=
  x.write && s.far.transfers.any fun y => y.owner == x.owner && y.write && (match y.done with
    | some (fs, _) => fs != 0
    | none => false)

/-- Answer a request: on the line, to this device itself, or to the partner (R425, R423). `mine`: the request is this device's own. -/
def farSend (s : State) (dest sel : Nat) (body : List Byte) : State := (s.lineOut 1 dest 2 sel 0 body none).2

/-- Take a request into the target queue (R434); a full queue answers BUSY. -/
def farEnqueue (s : State) (r : FarReq) (answer : State → State) : State :=
  if s.far.tqueue.length ≥ 256 then answer (s.inc Reg.FAR_TGT_CNT_BUSY)
  else (s.modFar fun f => { f with tqueue := f.tqueue ++ [r] }).showFar

/-- The width of the pieces of a local window. -/
def ownWidth (s : State) (func : Nat) : Nat :=
  match (List.range 16).find? fun w => s.on Reg.FWw_CFG_EN [w] && s.get Reg.FWw_CFG_FUNC [w] == func with
  | some w => 2 ^ s.get Reg.FWw_CFG_WIDTH [w]
  | none => 1

/-- A transfer is answered (R429, R433, R438, R439): data in line order. -/
def farAnswer (s : State) (x : Transfer) (m : FarMsg) (sender : Nat) : State :=
  let s := if x.write then s.inc Reg.FAR_CNT_A_WRITES else s.inc Reg.FAR_CNT_A_READS
  let s := if m.fstat != 0 then s.inc Reg.FAR_CNT_B_ERRORS else s
  let w := if m.pieces == 0 then 1 else max 1 (m.len / m.pieces)
  let body := turnPieces w m.data.length m.data
  let bytes := min m.len x.len
  if x.write then s.farEnd x m.fstat m.pieces bytes m.wnum []
  else
    let s := match x.owner with
      | .desc t q i => (match ((s.queue t q).works.find? fun (v : Work) => v.idx == i) with
          | some v => s.memWrite t (v.desc.buf + x.place) (body.take bytes)
          | none => s)
      | _ => s
    let s := match x.owner with
      | .apRead _ _ _ => s.noteAnswered x.targetUid x.func (x.off + x.len)
      | _ => s
    let s := if m.fstat == 0 then s.pfKeep sender x.targetUid x.func m.wnum w (x.off + x.len) ((body.drop bytes).take (min m.pf x.pf)) else s
    s.farEnd x m.fstat m.pieces bytes m.wnum (body.take bytes)

/-- Send transfer k (R424, R425, R428). -/
def farStart (s : State) (k : Nat) : State :=
  match s.far.transfers[k]? with
  | none => s
  | some x =>
    if x.sent.isSome || x.done.isSome || s.farCut x then s
    else if s.farHeld k x then
      (if x.ordWait then s else (s.setTransfer x { x with ordWait := true }).inc Reg.FAR_STALL_ORDER)
    else
      match s.takeTag with
      | (none, s) => if x.tagWait then s else (s.setTransfer x { x with tagWait := true }).inc Reg.FAR_STALL_TAG
      | (some g, s) =>
        let y := { x with tag := some g, sent := some s.clock.turn }
        let s := (s.setTransfer x y).showFar
        let tag := g + 128 * s.devBit
        let serves := !s.paired || s.isLeader
        if x.target == s.ownPos && serves then
          let w := s.ownWidth x.func
          let data := turnPieces w x.data.length x.data
          s.farEnqueue ⟨s.ownPos, x.write, tag, x.func, x.off, x.len, x.pf, s.turn32, data, true⟩ fun s =>
            s.farAnswer y ⟨2, tag, x.func, x.off, 0, 0, 6, 0xFF, 0, s.turn32, []⟩ s.ownPos
        else
          let w := Config.farWidth x.targetUid x.func
          let data := if x.write then turnPieces w x.data.length x.data else []
          s.farSend x.target 0x0010 (farBytes (b2n x.write) tag x.func x.off x.len x.pf 0 0 0 s.turn32 data)

/-- The turn whose tick ends a transfer's time (R431). -/
def farDeadline (s : State) (x : Transfer) (q : Nat) : Nat :=
  let d := max x.target s.ownPos - min x.target s.ownPos
  let tmo := if s.get Reg.FAR_CTL_TMO == 0 then 4 else s.get Reg.FAR_CTL_TMO
  q + 2 * d + tmo + b2n (s.paired && s.isFollower)

/-- A transfer's time is not over (R431), and an aperture read's 8 ms are not (R445). -/
def farOpen (s : State) (x : Transfer) : Bool :=
  (x.sent.any fun q => s.clock.turn < s.farDeadline x q) && (match x.owner with
    | .apRead _ _ born => !s.since born 8000000
    | _ => true)

/-- The outstanding transfer a response answers (R429). -/
def farMatch (s : State) (m : FarMsg) : Option Transfer :=
  s.far.transfers.find? fun x => m.tag / 128 == s.devBit && s.farOpen x && x.tag == some (m.tag % 128) && x.done.isNone && x.func == m.func && x.off == m.off &&
    (match x.sent with
      | some q => q % 2 ^ 32 == m.rturn
      | none => false)

/-- A response arrives (R429, R432); one for the other device of the pair is not this device's. -/
def farResponse (s : State) (sender : Nat) (m : FarMsg) : State :=
  if s.paired && m.tag / 128 != s.devBit then s
  else match s.farMatch m with
    | some x => s.farAnswer x m sender
    | none => (s.inc Reg.FAR_CNT_B_LATE).recordS 0x3B03 1 11 (sender % 64 + 2 ^ 16 * m.func) m.rturn

/-! Exports (R419) -/

/-- A write of FXw_LO in a tenant's page. -/
def exportLo (s : State) (t w v : Nat) : State :=
  if s.get Reg.FWw_MAP_OWNER [w] == t then (s.set Reg.FXw_LO_ADDR [t, w] (v / 2 ^ 12)).set Reg.FXw_LO_EN [t, w] (v % 2) else s

/-! The BAR4 aperture (R441 to R446) -/

/-- A slice's target, window offset and function, or the far status the access fails with (Table 16-4). -/
def apTarget (s : State) (port off : Nat) : Nat × Option (Numbered × Nat × Nat) :=
  let k := off / 2 ^ 22 % 16
  if !s.on Reg.TN_RIGHTS_FAR [apPf port] then (0x14, none)
  else if !s.on Reg.FAR_APSk_CTL_x_EN [port, k] then (0x11, none)
  else if s.standing || s.inaug.dir.isNone then (0x13, none)
  else match s.farTarget (s.on Reg.FAR_APSk_CTL_x_MODE [port, k])
      (s.get Reg.FAR_APSk_TGT_LO_x_TGT [port, k] + 2 ^ 32 * s.get Reg.FAR_APSk_TGT_HI_x_TGT [port, k]) with
    | none => (0x12, none)
    | some x => (0, some (x, s.get Reg.FAR_APSk_BASE_x_BASE [port, k] * 2 ^ 22 + off % 2 ^ 22, s.get Reg.FAR_APSk_CTL_x_FUNC [port, k]))

/-- The aperture exists and takes another transfer. -/
def apOn (s : State) (port : Nat) : Bool := s.on Reg.HOST_CAPS_BAR4_EN && s.domainOn 9 && s.postsOpen (apPf port)

/-- A memory write TLP to BAR4 (R442). -/
def apWriteTlp (s : State) (port off : Nat) (data : List Byte) (whole : Bool) : State :=
  let seq := (s.get Reg.FAR_AP_ISSUED_x_SEQ [port] + 1) % 2 ^ 32
  let s := (s.set Reg.FAR_AP_ISSUED_x_SEQ [port] seq).modFar fun f => { f with apOpen := listMod f.apOpen port fun l => l ++ [seq] }
  match s.apTarget port off with
  | (fs, none) => (s.apError port off seq fs 0).apDone port seq
  | (_, some (x, wo, func)) =>
    let uid := x.entry.luid
    if !whole then (s.apError port off seq 3 0).apDone port seq
    else
      let s := s.pfDiscardIf fun e => e.uid == uid && e.func == func
      (s.modFar fun f => { f with transfers := f.transfers ++
        [⟨.apWrite port seq off, 0, true, none, x.pos, uid, func, wo, data.length, 0, 0, data, false, false, none, none⟩] }).showFar

/-- A memory read TLP to BAR4 (R445). -/
def apReadTlp (s : State) (port off len : Nat) : State :=
  match s.apTarget port off with
  | (fs, none) => (s.emit (.barRead port (List.replicate len 0xFF))).apError port off 0 fs 0
  | (_, some (x, wo, func)) =>
    let uid := x.entry.luid
    let seq := s.farSequential uid func wo
    let (pre, _, hit, s) := (s.noteRead uid func (wo + len)).pfTake uid func wo len
    match hit with
    | some e => ((s.modFar fun f => { f with pfHits := listMod f.pfHits e fun c => min 65535 (c + 1) }).noteAnswered uid func (wo + len)).emit
        (.barRead port pre)
    | none =>
      let n := pre.length
      (s.modFar fun f => { f with transfers := f.transfers ++
        [⟨.apRead port off s.clock.up, 0, false, none, x.pos, uid, func, wo + n, len - n, if seq then s.get Reg.FAR_CTL_PF_MAX else 0, 0, pre,
          false, false, none, none⟩] }).showFar

/-- Read FAR_AP_ERR_STAT_x: the oldest entry is popped (R444). -/
def apPop (s : State) (port : Nat) : Nat × State :=
  let ovf := b2n (s.far.apLost.getD port false) * 2 ^ 30
  let s := s.modFar fun f => { f with apLost := listSet f.apLost port false }
  match s.far.apErr.getD port [] with
  | [] => (ovf, s)
  | e :: l => (2 ^ 31 + ovf + 2 ^ 8 * (e.pieces % 65536) + e.fstat % 256,
      (s.modFar fun f => { f with apErr := listSet f.apErr port l }).showApErr port)

end State

/-- FAR_READ (R422 to R424, R438, R439). -/
def execFarRead (t : Fin 17) (q : Fin 16) (i : Nat) (s : State) : Result :=
  .next (if !s.alive || !s.farUp then s else match s.ready t.val q.val i 0x10 with
    | some d => s.farRead t.val q.val i d
    | none => s)

/-- FAR_WRITE (R422 to R424). -/
def execFarWrite (t : Fin 17) (q : Fin 16) (i : Nat) (data : List Byte) (s : State) : Result :=
  .next (if !s.alive || !s.farUp then s else match s.ready t.val q.val i 0x11 with
    | some d => s.farWrite t.val q.val i d data
    | none => s)

/-- FAR_TRANSFER_START (R424, R425, R428): the k-th transfer of the bridge, in order of arrival. -/
def execFarTransferStart (k : Nat) (s : State) : Result :=
  .next (if s.alive && s.farUp && !s.standing && s.ownPos != 0 then s.farStart k else s)

/-- FAR_REQUEST_RECEIVE (R434): the sender's position and the payload after the address word. -/
def execFarRequestReceive (sender : Nat) (body : List Byte) (s : State) : Result :=
  let m := parseFar body
  .next (if !s.alive || s.standing || (s.paired && !s.isLeader) then s
    else s.farEnqueue ⟨sender, bit m.fop 0, m.tag, m.func, m.off, m.len, m.pf, m.rturn, m.data, false⟩ fun s =>
      s.farSend sender 0x0011 (farBytes (m.fop % 2 + 2) m.tag m.func m.off 0 0 6 0xFF 0 m.rturn []))

/-- FAR_RESPONSE_RECEIVE (R429, R432, R433). -/
def execFarResponseReceive (sender : Nat) (body : List Byte) (s : State) : Result :=
  .next (if s.alive && s.farUp then s.farResponse sender (parseFar body) else s)

/-- FAR_TRANSFER_TIMEOUT (R431): the k-th transfer of the bridge. -/
def execFarTransferTimeout (k : Nat) (s : State) : Result :=
  .next (match s.far.transfers[k]? with
    | none => s
    | some x => match x.sent with
      | some q => if s.alive && x.done.isNone && s.farDeadline x q ≤ s.clock.turn then
          let s := (s.inc Reg.FAR_CNT_B_TIMEOUTS).recordS 0x3B01 2 11 (x.target % 64 + 2 ^ 16 * x.func) x.off
          s.farEnd x 0x10 0 0 0xFF []
        else s
      | none => s)

/-- PREFETCH_EXPIRY (R439): an entry whose data arrived two turns ago. -/
def execPrefetchExpiry (i : Fin 16) (s : State) : Result :=
  .next (match s.far.prefetch[i.val]? with
    | some e => if s.alive && e.valid && e.turn + 2 ≤ s.clock.turn then s.pfDiscard i.val else s
    | none => s)

/-- EXPORT_REGION (R419): a tenant writes FXw_LO. -/
def execExportRegion (t : Fin 17) (w : Fin 16) (v : Word) (s : State) : Result :=
  .next (if s.alive && s.postsOpen t.val then s.exportLo t.val w.val v.toNat else s)

/-- APERTURE_WRITE (R442): BAR4 offset, data in address order, and whether every byte enable is set. -/
def execApertureWrite (port : Fin 2) (off : Nat) (data : List Byte) (whole : Bool) (s : State) : Result :=
  .next (if s.alive && s.apOn port.val then s.apWriteTlp port.val (off % 2 ^ 26) data whole else s)

/-- APERTURE_READ (R445): a read TLP of up to 512 B. -/
def execApertureRead (port : Fin 2) (off : Nat) (len : Fin 513) (s : State) : Result :=
  .next (if s.alive && s.apOn port.val && len.val != 0 then s.apReadTlp port.val (off % 2 ^ 26) len.val else s)

/-- APERTURE_READ_TIMEOUT (R445): the k-th transfer of the bridge is an aperture read of 8 ms ago. -/
def execApertureReadTimeout (k : Nat) (s : State) : Result :=
  .next (match s.far.transfers[k]? with
    | none => s
    | some x => match x.owner with
      | .apRead _ _ born => if s.alive && s.since born 8000000 then s.farEnd x 0x10 0 0 0xFF [] else s
      | _ => s)

/-- APERTURE_ERROR_POP (R444): the port's PF reads FAR_AP_ERR_STAT_x. -/
def execApertureErrorPop (port : Fin 2) (s : State) : Result :=
  .next (if s.alive then
    let (v, s) := s.apPop port.val
    s.emit (.read (.tenant (State.apPf port.val)) (Reg.FAR_AP_ERR_STAT_x_VALID.off [port.val]) (BitVec.ofNat 32 v))
  else s)

end Sys2Proof.Machine
end

