-- ==== Sys2Proof/Machine/Tally.lean ====
section
/-!
DEFINITION. The tally book (20_tally_book.md): the sluice, job 6's write units, pointers, recovery, clearing, degradation,
anchors, and the opcodes TALLY_READ, TALLY_MARK and TALLY_CLEAR.
-/

namespace Sys2Proof.Machine

namespace State

/-- Queue the records of sources whose records found no place, now that there are places again (R527). -/
def overflowRecords (s : State) : State :=
  if s.on Reg.TALLY_STAT_DEGRADED || s.tally.queue.length ≥ 4064 then s
  else s.tally.overflow.foldl (fun s x =>
    if s.hasPlace 0x2004 0 then
      (s.recordT 0x2004 3 0 x.1 x.2).modTally fun t => { t with overflow := Sparse.del x.1 t.overflow }
    else s) s

/-! The sluice's tokens (R538, R539) -/

/-- Entry k at an increment of operating time. -/
def sluiceGain (s : State) (k : Nat) : State :=
  let cap := s.get Reg.SLUk_B_CAP [k]
  let tok := s.get Reg.SLUk_CNT_TOKENS [k]
  let b : Bucket := (Sparse.find k s.tally.buckets).getD default
  let put (s : State) (acc : Nat) : State := s.modTally fun t => { t with
    buckets := Sparse.put k { (Sparse.find k t.buckets).getD default with acc := acc } t.buckets }
  if tok ≥ cap then (if b.acc == 0 then s else put s 0)
  else
    let acc := b.acc + s.get Reg.SLUk_B_REFILL [k]
    if acc < 100 then put s acc
    else
      let s := (put s (if tok + 1 ≥ cap then 0 else acc - 100)).set Reg.SLUk_CNT_TOKENS [k] (tok + 1)
      let n := s.get Reg.SLUk_CNT_PENDING [k]
      if n == 0 then s
      else (s.set Reg.SLUk_CNT_PENDING [k] 0).enqueue b.last b.maxSev b.lastSrc 1 n (b.first + b.last * 65536) k

/-- Every entry at an increment of operating time. -/
def sluiceTick (s : State) : State :=
  (List.range 256).foldl (fun s k => if s.get Reg.SLUk_B_CAP [k] == 0 then s else s.sluiceGain k) s

/-! Anchors (R535) -/

/-- The anchors due at an increment of operating time. -/
def anchorTick (s : State) : State :=
  if !s.utcOn then (if s.tally.utcSet then s.modTally fun t => { t with utcSet := false } else s)
  else if !s.tally.utcSet then s.anchor 0
  else
    let h := s.get Reg.TALLY_ANCHOR_HOURS
    let done : Bool := match s.tally.anchor with
      | some (o, _) => o == s.clock.optime
      | none => false
    if !done && s.clock.optime % ((if h == 0 then 1 else h) * 360000) == 0 then s.anchor 3 else s

/-- A write of TALLY_UTC (R535). -/
def writeUtc (s : State) (valid : Bool) (offset : Nat) : State :=
  let s := (s.flag Reg.TALLY_UTC_VALID [] valid).set Reg.TALLY_UTC_OFFSET [] offset
  let s := if valid then s else s.modTally fun t => { t with utcSet := false }
  s.anchor 2

/-! TALLY_READ (R540, R541) -/

/-- The entries of an area, oldest first: place index and what the place yields; records of the queue follow in numbers beyond the
places. -/
def areaOf (s : State) (a : Nat) : List (Nat × Place) :=
  let num (l : List Rec) : List (Nat × Place) := (List.range l.length).zip (l.map Place.good)
  match a with
  | 0 => (List.range (s.get Reg.TALLY_PERM_CNT_COUNT)).zip (s.tally.perm.take (s.get Reg.TALLY_PERM_CNT_COUNT))
  | 1 =>
    let n := s.get Reg.TALLY_CIRC_CNT_COUNT
    ((List.range n).map fun i =>
      let k := (s.get Reg.TALLY_CIRC_HEAD_HEAD + circCap - n + i) % circCap
      (k, (Sparse.find k s.tally.circ).getD .torn)) ++ (num s.tally.queue).map fun x => (circCap + x.1, x.2)
  | 2 => num s.tally.emer
  | 3 => num s.tally.clears
  | _ => num s.tally.queue

/-- Capacity of an area (Tables 20-4, 20-8). -/
def areaCap (a : Nat) : Nat := [permCap, circCap, 1008, 16].getD a 4096

/-- An entry: the stored record, or a skipped entry (R541). -/
def entryBytes (x : Nat × Place × Nat) : List Byte :=
  match x.2.1 with
  | .good r => r.bytes
  | p => leBytes 2 0 ++ leBytes 1 (if p == .torn then 1 else 2) ++ leBytes 1 0 ++ leBytes 4 x.1 ++ leBytes 4 x.2.2 ++ leBytes 20 0

/-- The entries with, for each, the SEQ of the nearest good record up to it. -/
def withSeqs : Nat → List (Nat × Place) → List (Nat × Place × Nat)
  | _, [] => []
  | p, x :: l =>
    let q := x.2.seq.getD p
    (x.1, x.2, q) :: withSeqs q l

/-- TALLY_READ. `bad` names places whose read the MRAM could not correct, with their MRAM offsets. The SEQ fields of an empty area
are free values. -/
def tallyRead (s : State) (t q i : Nat) (d : Desc) (bad : List (Nat × Nat)) : State :=
  let a := d.arg0 % 16
  if a > 4 || d.len % 32 != 0 || d.len < 64 || d.len > 2 ^ 20 || !inWin t d.buf d.len then s.failCheck t q i 6
  else
    let hit (x : Nat × Place) : Bool := a < 2 && bad.any fun b => b.1 == x.1
    let area := (s.areaOf a).map fun x => if hit x then (x.1, Place.unreadable) else x
    let l := withSeqs 0 area
    let start := d.arg1 % 2 ^ 32
    let oldest := match area.find? (fun x => x.2.seq.isSome) with
      | some x => x.2.seq
      | none => none
    let newest := (l.getLast?).bind fun x => oldest.map fun _ => x.2.2
    let fromOld := bit d.arg0 8
    let gap : Bool := !fromOld && (match oldest with
      | some o => seqNewer o start
      | none => false)
    let rest := if fromOld || gap then l else l.dropWhile fun x => seqNewer start x.2.2
    let out := rest.take ((d.len - 32) / 32)
    let next := match out.getLast? with
      | some x => (x.2.2 + 1) % 2 ^ 32
      | none => start
    let (free, s) := if oldest.isNone then s.take 32 else (0, s)
    let (free2, s) := if oldest.isNone then s.take 32 else (0, s)
    let skipped := (out.filter fun x => x.2.1.seq.isNone).length
    let head := leBytes 2 a ++ leBytes 2 (b2n (s.on Reg.TALLY_STAT_DEGRADED) + 2 * b2n (s.on Reg.TALLY_STAT_PTR_REBUILT) +
        4 * b2n (out.length < rest.length) + 8 * b2n gap) ++ leBytes 4 out.length ++ leBytes 4 skipped ++
      leBytes 4 (oldest.getD free) ++ leBytes 4 (newest.getD free2) ++ leBytes 4 next ++ leBytes 4 (areaCap a) ++ leBytes 4 l.length
    let s := (s.memWrite t d.buf (head ++ out.flatMap entryBytes)).complete t q i 0 (32 + 32 * out.length) out.length
    match bad with
    | b :: _ => s.degrade 2 b.2
    | [] => s

/-! TALLY_MARK (R542, R527) -/

/-- TALLY_MARK. -/
def tallyMark (s : State) (t q i : Nat) (d : Desc) : State :=
  let sev := d.arg0 / 2 ^ 16 % 8
  if sev > 3 then s.failCheck t q i 6
  else
    let n := s.get Reg.TALLY_SEQ_NEXT
    let over0 := s.tally.overflow
    let s := s.sluiced (0x8000 + d.arg0 % 4096) sev (15 + t) (d.arg1 % 2 ^ 32) (d.arg1 / 2 ^ 32) (d.arg0 / 2 ^ 32)
    if s.get Reg.TALLY_SEQ_NEXT != n then s.complete t q i 0 0 n
    else if s.tally.overflow != over0 then s.complete t q i 7 0 0
    else s.complete t q i 0 0 (2 ^ 32)

/-! Clearing (R543 to R546) -/

/-- A tenant's nonce is no longer valid. -/
def dropNonce (s : State) (t : Nat) : State :=
  (s.set Reg.TCL_CTL_VALID [t] 0).modTally fun x => { x with nonces := Sparse.del t x.nonces }

/-- Issue a nonce (R543). -/
def newNonce (s : State) (t : Nat) : State :=
  let (b, s) := s.takeRandom 32
  let s := (List.range 8).foldl (fun s k => s.set Reg.TCL_NONCE_k_BYTES [t, k] (leAt b (4 * k) 4)) s
  (s.set Reg.TCL_CTL_VALID [t] 1).modTally fun x => { x with nonces := Sparse.put t ⟨slice b 0 32, s.clock.optime⟩ x.nonces }

/-- Why a clear token is refused (Table 20-9): 0 no nonce, 1 UID, 2 signature, 3 length; bytes 40 to 47 other than 0 are taken
as a bad signature (log 43). -/
def clearFault (s : State) (t : Nat) (d : Desc) (tok : List Byte) (sig : Bool) : Option Nat :=
  if d.len != 144 then some 3
  else match Sparse.find t s.tally.nonces with
    | none => some 0
    | some n =>
      if slice tok 0 32 != n.bytes || n.born + 60000 ≤ s.clock.optime then some 0
      else if beAt tok 32 8 != s.uid then some 1
      else if beAt tok 40 8 != 0 || !sig || s.sec.maintKey.isNone then some 2
      else none

/-- TALLY_CLEAR; `sig`: the signature verifies under the maintainer key. -/
def tallyClear (s : State) (t q i : Nat) (d : Desc) (data : List Byte) (sig : Bool) : State :=
  if !inWin t d.buf d.len then s.failCheck t q i 6
  else if bufWaits t d data then s.readStall
  else
    let (tok, s) := s.takeBuf t d data
    let bad := s.clearFault t d tok sig
    let s := s.dropNonce t
    match bad with
    | some why => ((s.recordT 0x2011 3 0 t why).inc Reg.TALLY_CLR_REFUSED).complete t q i 5 0 0
    | none =>
      if s.on Reg.TALLY_STAT_DEGRADED then s.complete t q i 7 0 0
      else
        let n := s.get Reg.TALLY_SEQ_NEXT
        let s := (s.startWork t q i).recordT 0x2010 3 0 0 (sha384 tok / 2 ^ 352)
        if s.get Reg.TALLY_SEQ_NEXT == n then s.complete t q i 7 0 0
        else s.modTally fun x => { x with clearReqs := x.clearReqs ++ [⟨t, q, i, n, false⟩] }

/-- The areas are erased at RETIRED, and record 0x2012 stands first in the permanent area (R546). -/
def eraseRetired (s : State) : State :=
  let p := s.get Reg.TALLY_PERM_CNT_COUNT
  let c := s.get Reg.TALLY_CIRC_CNT_COUNT
  let n := s.get Reg.TALLY_SEQ_NEXT
  let s := s.recordT 0x2012 5 0 p c
  let new := s.tally.queue.filter fun r => r.seq == n && r.code == 0x2012
  let s := s.modTally fun t => { t with
    queue := t.queue.filter fun r => !(r.seq == n && r.code == 0x2012), perm := new.map Place.good, circ := [] }
  ((((s.showPerm new.length).set Reg.TALLY_CIRC_CNT_COUNT [] 0).set Reg.TALLY_CIRC_HEAD_HEAD [] 0).showTally).writePtr

end State

/-- POINTER_PERSIST (R531): every 6,000 units; `fail`: the MRAM offset of a pointer write that failed. The power die store takes its part in
slack too (R530); the MRAM's waits there (R67). -/
def execPointerPersist (fail : Option Nat) (s : State) : Result :=
  let last := match s.tally.header with
    | some h => h.1
    | none => 0
  .next (if s.alive && s.on Reg.TALLY_STAT_READY && last + 6000 ≤ s.clock.optime && !s.power.deferred.contains .pointers then
    (s.modTally fun t => { t with header := some (s.clock.optime, s.clock.pcycle) }).mramWrite .pointers fail else s)

/-- ANCHOR_PERIODIC (R535): the anchor due now by operating time. -/
def execAnchorPeriodic (s : State) : Result := .next (if s.alive then s.anchorTick else s)

/-- TALLY_READ (R540, R541). -/
def execTallyRead (t : Fin 17) (q : Fin 16) (i : Nat) (bad : List (Nat × Nat)) (s : State) : Result :=
  .next (if !s.alive then s else match s.ready t.val q.val i 0x20 with
    | some d => s.tallyRead t.val q.val i d bad
    | none => s)

/-- TALLY_MARK (R542). -/
def execTallyMark (t : Fin 17) (q : Fin 16) (i : Nat) (s : State) : Result :=
  .next (if !s.alive then s else match s.ready t.val q.val i 0x21 with
    | some d => s.tallyMark t.val q.val i d
    | none => s)

/-- TALLY_CLEAR (R544, R545). -/
def execTallyClear (t : Fin 17) (q : Fin 16) (i : Nat) (data : List Byte) (sig : Bool) (s : State) : Result :=
  .next (if !s.alive then s else match s.ready t.val q.val i 0x22 with
    | some d => s.tallyClear t.val q.val i d data sig
    | none => s)

/-- OVERFLOW_RECORD (R527). -/
def execOverflowRecord (s : State) : Result := .next (if s.alive then s.overflowRecords else s)

/-- UTC_WRITE (R535): a PF writes TALLY_UTC. -/
def execUtcWrite (port : Fin 2) (valid : Bool) (offset : Fin 65536) (s : State) : Result :=
  .next (if s.alive && s.domainOn 9 && port.val < 2 then
    s.writeUtc valid offset.val else s)

/-- CLEAR_NONCE_NEW (R543). -/
def execClearNonceNew (t : Fin 17) (s : State) : Result := .next (if s.alive && s.domainOn 9 then s.newNonce t.val else s)

/-- CLEAR_NONCE_EXPIRY (R543). -/
def execClearNonceExpiry (t : Fin 17) (s : State) : Result :=
  .next (match Sparse.find t.val s.tally.nonces with
    | some n => if s.alive && n.born + 60000 ≤ s.clock.optime then s.dropNonce t.val else s
    | none => s)

end Sys2Proof.Machine
end

