-- ==== Sys2Proof/Machine/Reset.lean ====
section
/-!
DEFINITION. Reset levels (05_reset_boot_first_turns.md): full reset, firmware restart and lockstep-pair restart, and the
commands that bring them about.
-/

namespace Sys2Proof.Machine

/-- The register fields that show what a full reset keeps (Table 5-2, R13, R27, R586): straps, the UID, what PD0 and the always-on
logic hold, levels the hardware measures, and what the MRAM and the fuses hold. -/
def heldFields : List (Fld × List Nat) :=
  ([Reg.UID_LO_UID, Reg.UID_HI_UID, Reg.STRAP_STAT_LEADER_PREF, Reg.STRAP_STAT_CHANNEL_SEL, Reg.STRAP_STAT_PAIR_MODE,
    Reg.LINE_DEPLOY_PAIRED, Reg.LINE_DEPLOY_CHANNEL,
    Reg.PWR_STAT_VBACK_OK, Reg.PWR_STAT_VOUT_OK,
    Reg.CLK_STAT_LOCK_GUARD, Reg.CLK_STAT_LOCK_NVM, Reg.CLK_STAT_LOCK_CPU, Reg.CLK_STAT_LOCK_FAB, Reg.CLK_STAT_XT32_OK,
    Reg.CLK_STAT_GX_OK, Reg.CLK_STAT_REF_OK, Reg.CLK_STAT_REF_SRC,
    Reg.RST_CAUSE_ESCALATE, Reg.RST_CAUSE_LS1, Reg.RST_CAUSE_LS0, Reg.RST_CAUSE_FW_CMD, Reg.RST_CAUSE_FW_UPDATE,
    Reg.RST_CAUSE_FW_FAULT, Reg.RST_CAUSE_FW_WDOG, Reg.RST_CAUSE_FATAL, Reg.RST_CAUSE_REF_LOST, Reg.RST_CAUSE_VIN_RST,
    Reg.RST_CAUSE_RESET_N, Reg.RST_CAUSE_POR,
    Reg.FW_VER_0_VER, Reg.FW_VER_1_VER,
    Reg.FW_SVN_BANK1, Reg.FW_SVN_BANK0, Reg.FW_SVN_FUSE,
    Reg.FIRST_USE_NO_PREV_FW, Reg.FIRST_USE_NO_PREV_CFG, Reg.FIRST_USE_OPTIME_ZERO, Reg.FIRST_USE_RATE_HIST,
    Reg.SYNC_HIST_RATE,
    Reg.TALLY_CLR_DONE, Reg.TALLY_EMER_COUNT, Reg.TALLY_EMER_CLEARS,
    Reg.SEC_LC_STATE, Reg.SEC_STAT_TAMPER, Reg.SEC_REPORT_CNT_COUNT,
    Reg.SEC_TAMPER_CTL_RESP, Reg.SEC_TAMPER_STAT_UNPOWERED, Reg.SEC_TAMPER_STAT_NOW, Reg.SEC_TAMPER_STAT_EVENT,
    Reg.SEC_KICK_FLOOR_LO_TURN, Reg.SEC_KICK_FLOOR_HI_TURN,
    Reg.CFG_VER_ACTIVE_VER, Reg.CFG_VER_PREV_VER, Reg.CFG_VER_STAGED_VER, Reg.CFG_VER_MAX_VER,
    Reg.DIAG_STAT_LAST, Reg.CAN_WAKE_STAT_DECERR, Reg.CAN_WAKE_STAT_CAUSE, Reg.CAN_WAKE_STAT_PEND].map fun f => (f, [])) ++
  ([Reg.CANn_WAKE_DLC, Reg.CANn_WAKE_WRATE, Reg.CANn_WAKE_WMODE, Reg.CANn_WAKE_ID_ID, Reg.CANn_WAKE_MASK_ID,
    Reg.CANn_WAKE_DATA_LO_BYTES, Reg.CANn_WAKE_DATA_HI_BYTES, Reg.CANn_WAKE_DMASK_LO_BYTES, Reg.CANn_WAKE_DMASK_HI_BYTES].flatMap fun f =>
      (List.range 8).map fun n => (f, [n]))

namespace State

/-- The parts that a full reset leaves beside the register file (R99, R101): everything but PD0 at its power-on state, what Table 5-2
keeps, and the wipe of R518 begun. A wipe already under way goes on and takes its causes with it (R520). -/
def partsReset (o : State) : State :=
  let z := State.reset
  let wasDeg := o.on Reg.TALLY_STAT_DEGRADED
  { z with
    pending := o.pending, out := o.out, free := o.free,
    pins := { z.pins with
      strapPair := o.pins.strapPair, strapChan := o.pins.strapChan, strapPref := o.pins.strapPref, cpl := o.pins.cpl, cab := o.pins.cab,
      inhibit := o.pins.inhibit, gpioExt := o.pins.gpioExt, perst := o.pins.perst, freezeLow := o.pins.freezeLow }
    power := { z.power with lostInSlack := o.power.lostInSlack, aoLost := o.power.aoLost }
    clock := { z.clock with optime := o.clock.optime, optFrac := o.clock.optFrac, pcycle := o.clock.pcycle, gxBad := o.clock.gxBad }
    boot := { z.boot with bl := o.boot.bl, banks := o.boot.banks, active := o.boot.active }
    tally := { z.tally with
      perm := o.tally.perm, circ := o.tally.circ, emer := o.tally.emer, clears := o.tally.clears, header := o.tally.header, ptr := o.tally.ptr,
      anchor := o.tally.anchor, ringAtReset := if wasDeg then some o.tally.queue.length else none }
    ports := o.ports.map fun (p : Port) => { resetPort with hopSeq := (p.hopMark / 2 ^ 20 + 1) * 2 ^ 20 - 1, hopMark := p.hopMark }
    sync := { z.sync with histRate := o.sync.histRate }
    inaug := { z.inaug with icountMax := o.inaug.icountMax }
    synth := { z.synth with cache := o.synth.stored, stored := o.synth.stored }
    red := { z.red with persisted := o.red.persisted, persistedEpoch := o.red.persistedEpoch }
    conf := { z.conf with
      active := o.conf.slots.active, prev := o.conf.slots.prev, staged := o.conf.slots.staged, trial := o.conf.slots.trial
      slots := o.conf.slots }
    sec := { z.sec with
      lifecycle := o.sec.lifecycle, fuses := o.sec.fuses, stored := o.sec.stored,
      unpowered := o.sec.unpowered, groups := o.sec.groups, wipeFor := if o.sec.wipe.isSome then o.sec.wipeFor else [], locked := o.sec.locked,
      wipe := match o.sec.wipe with
        | some (c, b) => some (c ||| 1, b)
        | none => some (1, false) }
    dbg := { z.dbg with frozen := o.dbg.frozen } }

/-- The state a full reset leaves: the fields that Table 5-2 keeps, and the areas of the tally book as recovery finds them (R533, R534). -/
def afterReset (o : State) : State :=
  let f := o.tally.recover
  let z := heldFields.foldl (fun s x => s.set x.1 x.2 (o.get x.1 x.2)) o.partsReset
  let z := (z.set Reg.GLOBAL_STAT_ROLE [] (if o.pins.strapPair then 3 else 0)).set Reg.RED_STAT_EPOCH [] o.red.persistedEpoch
  let z := (z.set Reg.SEC_FK_ACTIVE_ID [] o.sec.stored.activeId).set Reg.SEC_FK_STAGED_ID [] o.sec.stored.stagedId
  let z := (z.flag Reg.INAUG_STAT_CPL_E1 [] (o.pins.cpl.getD 0 false)).flag Reg.INAUG_STAT_CPL_E2 [] (o.pins.cpl.getD 1 false)
  let z := (z.flag Reg.INAUG_STAT_CAB [] o.pins.cab).flag Reg.INAUG_STAT_INHIBIT [] o.pins.inhibit
  let z := (z.set Reg.GPIO_IN_LEVEL [] (o.pins.gpioExt % 2 ^ 16)).showLuid
  let z := z.flag Reg.FIRST_USE_PAIR_EPOCH [] o.red.persisted.isNone
  let z := z.flag Reg.MEM_SEC_STAT_FAILED [] (o.on Reg.MEM_SEC_STAT_FAILED)
  let z := match o.sec.wipe with
    | some (c, _) => z.set Reg.MEM_SEC_STAT_CAUSE [] (c ||| 1)
    | none => z
  let z := (List.range 2).foldl (fun s p => s.flag Reg.HOST_PORT_PERST [p] (o.pins.perst.getD p false)) z
  let z := (z.showPerm f.perm).set Reg.TALLY_CIRC_HEAD_HEAD [] f.head
  (z.set Reg.TALLY_CIRC_CNT_COUNT [] f.count).set Reg.TALLY_SEQ_NEXT [] (o.tally.nextSeq f)

/-- Full reset for a cause (R98, R101); frames in progress are cut off (R47, R53). While VIN is absent the node stays off until power-on
reset. -/
def fullReset (s : State) (cause : List Fld) : State :=
  let z := s.cutFrames.afterReset
  cause.foldl (fun z f => z.set f [] 1) { z with power := { z.power with on := s.power.on } }

/-! Firmware restart (R102 to R105) -/

/-- The RST_CAUSE bit of a restart's cause. -/
def causeBit : FwCause → Fld
  | .wdog => Reg.RST_CAUSE_FW_WDOG
  | .fault => Reg.RST_CAUSE_FW_FAULT
  | .update => Reg.RST_CAUSE_FW_UPDATE
  | .cmd => Reg.RST_CAUSE_FW_CMD

/-- A restart by watchdog or fault counts towards escalation (R103) and fails the trials (R116, Table 22-4). -/
def isFault : FwCause → Bool
  | .wdog => true
  | .fault => true
  | _ => false

/-- The flush of job 6 ends where it stands: what was due stays queued, and the run with it (R95, R106, Table 1-3). -/
def flushCut (s : State) : State :=
  (s.modTally fun t => { t with due := 0 }).modJob 6 fun j => { j with run := none }

/-- Firmware restart for a cause; an update names the bank to start (R102, R115). The third by watchdog or fault within 10 min
of operating time is a full reset instead (R103). -/
def fwRestart (s : State) (cause : FwCause) (bank : Option Nat) : State :=
  let s := s.set (causeBit cause) [] 1
  let recent := if isFault cause then s.clock.optime :: (s.boot.faultRestarts.filter fun t => s.clock.optime < t + 60000) else s.boot.faultRestarts
  if isFault cause && recent.length ≥ 3 then s.fullReset [Reg.RST_CAUSE_ESCALATE]
  else
    let s := (s.set Reg.GLOBAL_STAT_FW_RESTART [] 1).set Reg.GLOBAL_STAT_FW_READY [] 0
    let s := s.inc Reg.RST_CNT_FW
    let s := s.modBoot fun b => { b with
      restart := some (cause, bank), restartAt := s.clock.up, faultRestarts := recent, lsStopped := [false, false],
      trialFail := if isFault cause && s.on Reg.FW_BANK_STAT_TRIAL && b.trialFail.isNone then some 4 else b.trialFail }
    let s := s.flushCut
    if isFault cause && s.on Reg.CFG_STAT_TRIAL then
      s.modConf fun c => { c with failed := if c.failed.isNone then some (4, s.clock.turn) else c.failed } else s

/-- Firmware runs, or is in its restart: the reset has brought it up. -/
def fwPresent (s : State) : Bool := s.fwUp || s.boot.restart.isSome

/-- The version of a bank. -/
def bankVersion (s : State) (b : Nat) : Nat := (s.boot.banks.getD b default).version

/-! Lockstep-pair restart (R106) -/

/-- The cores of pair i disagree. What the pair has put out since its last checkpoint is discarded: no command of the model leaves work of
a pair between two commands, so there is none (log 88). Pair 1 stops the tally flush (Table 1-3). -/
def lockstep (s : State) (i : Nat) : State :=
  let s := (s.inc (if i == 0 then Reg.LS_STAT_PAIR0 else Reg.LS_STAT_PAIR1)).set (if i == 0 then Reg.RST_CAUSE_LS0 else Reg.RST_CAUSE_LS1) [] 1
  let last := s.boot.lsLast.getD i none
  let other := s.boot.lsTurn.getD (1 - i) none
  let again : Bool := match last with
    | some t => s.clock.optime < t + 360000
    | none => false
  let s := s.recordT 0x4012 4 (1 + i) i (s.get Reg.LS_STAT_PAIR0 + 256 * s.get Reg.LS_STAT_PAIR1)
  let both := other == some s.clock.turn
  let s := s.modBoot fun b => { b with lsLast := listSet b.lsLast i (some s.clock.optime), lsTurn := listSet b.lsTurn i (some s.clock.turn) }
  if again || both then s.fwRestart .fault none
  else
    let s := (s.inc Reg.RST_CNT_LS).modBoot fun b => { b with lsStopped := listSet b.lsStopped i true }
    s.when (i == 1) flushCut

end State

/-- RESET_N_LOW (R45, R98). -/
def execResetNLow (s : State) : Result := .next (if s.power.on then s.fullReset [Reg.RST_CAUSE_RESET_N] else s)

/-- NODE_REF_LOST (R77). -/
def execNodeRefLost (s : State) : Result := .next (if s.alive then s.fullReset [Reg.RST_CAUSE_REF_LOST] else s)

/-- FATAL_FAULT (R98). -/
def execFatalFault (s : State) : Result := .next (if s.alive then s.fullReset [Reg.RST_CAUSE_FATAL] else s)

/-- RESET_ESCALATION (R103): firmware is not up 500 ms after a restart began. -/
def execResetEscalation (s : State) : Result :=
  .next (if s.alive && s.boot.restart.isSome && s.since s.boot.restartAt 500000000 then s.fullReset [Reg.RST_CAUSE_ESCALATE] else s)

/-- RST_CMD_FULL_RESET (R98): ACTION 2 with the key, by a PF. -/
def execRstCmdFullReset (port : Fin 2) (s : State) : Result :=
  .next (if s.alive && s.domainOn 9 && port.val < 2 then s.fullReset [Reg.RST_CAUSE_FATAL] else s)

/-- RST_CMD_FW_RESTART (R98): ACTION 1 with the key, by a PF. -/
def execRstCmdFwRestart (port : Fin 2) (s : State) : Result :=
  .next (if s.alive && s.domainOn 9 && port.val < 2 && s.fwUp then s.fwRestart .cmd none else s)

/-- FW_WATCHDOG_EXPIRY (R98). -/
def execFwWatchdogExpiry (s : State) : Result := .next (if s.alive && s.fwUp then s.fwRestart .wdog none else s)

/-- FW_EXCEPTION (R98). -/
def execFwException (s : State) : Result := .next (if s.alive && s.fwUp then s.fwRestart .fault none else s)

/-- LOCKSTEP_MISMATCH (R106). -/
def execLockstepMismatch (i : Fin 2) (s : State) : Result :=
  .next (if s.alive && s.fwUp && !(s.boot.lsStopped.getD i.val false) then s.lockstep i.val else s)

/-- LOCKSTEP_RESTART_DONE (R106). -/
def execLockstepRestartDone (i : Fin 2) (s : State) : Result :=
  .next (if s.alive && s.fwUp && s.boot.lsStopped.getD i.val false then
    s.modBoot fun b => { b with lsStopped := listSet b.lsStopped i.val false } else s)

/-- RESET_OUT_RELEASE (R45): 10 ms after reset ends. -/
def execResetOutRelease (s : State) : Result :=
  .next (if s.power.on && s.pins.resetOutLow && s.since 0 10000000 then s.modPins fun p => { p with resetOutLow := false } else s)

/-- LINE_KEEPALIVE_LOSS (R51). The spec does not say how a keep-alive that has stopped returns: here only a reset, which starts the line
engine anew, brings it back (DESIGN CHOICE, log 87). -/
def execLineKeepaliveLoss (s : State) : Result :=
  .next (if s.alive then (s.modPins fun p => { p with keepalive := false }).relays else s)

end Sys2Proof.Machine
end

