-- ==== Sys2Proof/Machine/HostPorts.lean ====
section
/-!
DEFINITION. The host's ports (R46, R105, R107 to R109, R368, R371, R377, R408 to R416): function-level resets, PERST_N, PCIe links
and errors, Bus Master Enable, and the commands of the QSPI port but for its register accesses.
-/

namespace Sys2Proof.Machine

namespace State

/-- Record source of a tenant's port (Table 20-2): host interface P, Q, QSPI. -/
def portSrc (port : Nat) : Nat := 5 + port

/-- Tenants of a PCIe port. -/
def portTenants (port : Nat) : List Nat := (List.range 8).map fun k => 8 * port + k

/-! Function-level reset (R107, R412) -/

/-- Return a range of the register file to reset values, but for the registers that a test keeps by offset (R13). -/
def clearRegs (s : State) (from_ to_ : Nat) (keep : Nat → Bool) : State :=
  { s with regs := s.regs.filter fun x => !(from_ ≤ x.1 / 32 && x.1 / 32 < to_ && !keep (x.1 / 32)) }

/-- The aperture of a PF's port at reset: its registers, its open accesses and its error FIFO (R107, R444). -/
def resetAperture (s : State) (port : Nat) : State :=
  let s := s.clearRegs (0xA0400 + 0x200 * port) (0xA0600 + 0x200 * port) fun _ => false
  (s.modFar fun f => { f with
    transfers := f.transfers.filter fun x => match x.owner with
      | .apWrite p _ _ => p != port
      | .apRead p _ _ => p != port
      | _ => true
    apOpen := listSet f.apOpen port [], apErr := listSet f.apErr port [], apLost := listSet f.apLost port false }).showFar

/-- A tenant's queues, page, images and interrupts return to reset values; TN_RIGHTS and PRESENT stay. -/
def clearTenant (s : State) (t : Nat) : State :=
  let s := (List.range 16).foldl (fun s q => s.discardQueue t q) s
  let s := s.modHost fun h => { h with
    queues := h.queues.filter fun x => x.1 / 16 != t, images := h.images.filter fun x => x.1 != t
    masked := h.masked.filter fun x => x.1 / 64 != t, pba := h.pba.filter fun v => v / 64 != t
    vectors := h.vectors.filter fun x => x.1 / 256 != t }
  let s := (s.dropNonce t).showReads
  let base := 0x80000 + 0x1000 * t
  let s := s.clearRegs base (base + 0x1000) fun o => o == base || o == base + 4
  let s := (s.set Reg.TN_STAT_QEN [t] 0).flag Reg.TN_STAT_BME [t] (t == 16 && s.on Reg.TN_STAT_BME [t])
  if isPf t then s.resetAperture (t / 8) else s

/-- Function-level reset of a tenant with its cause (R107, Table 15-17); a function that is not present is no function. -/
def tenantReset (s : State) (t why : Nat) : State :=
  if s.on Reg.TN_STAT_PRESENT [t] then (s.clearTenant t).recordS 0x3A02 2 (portSrc (portOf t)) t why else s

/-- The VFs of a port beyond a number are removed, those up to it exist (Table 15-15). -/
def setVfs (s : State) (port n why : Nat) : State :=
  let vf (k : Nat) : Nat := 8 * port + k
  let old := s.get Reg.HOST_PORT_NUMVFS [port]
  let s := (List.range 8).foldl (fun s k =>
    if n < k && k ≤ old then (s.tenantReset (vf k) why).set Reg.TN_STAT_PRESENT [vf k] 0
    else if old < k && k ≤ n then s.set Reg.TN_STAT_PRESENT [vf k] 1 else s) s
  s.set Reg.HOST_PORT_NUMVFS [port] n

/-- Every function of a port is reset and absent, and its link is down (R46). -/
def portDown (s : State) (port why : Nat) : State :=
  let s := s.setVfs port 0 why
  let s := (s.tenantReset (8 * port) why).set Reg.TN_STAT_PRESENT [8 * port] 0
  let was := s.on Reg.HOST_PORT_LINK_UP [port]
  let u := if port == 0 then 3 else 8
  let s := ({ s with held := Sparse.del u s.held } : State).modJob u fun j => { j with run := none }
  let s := (s.set Reg.HOST_PORT_LINK_UP [port] 0).set Reg.HOST_PORT_WIDTH [port] 0
  let s := (s.set Reg.HOST_PORT_SPEED [port] 0).modHost fun h => { h with vfWait := Sparse.del port h.vfWait }
  if was then s.recordS 0x3A04 3 (portSrc port) port 0 else s

/-- FLR of a function (Table 15-15); a PF's takes its VFs with it. -/
def flr (s : State) (t why : Nat) : State := (if isPf t then s.setVfs (t / 8) 0 3 else s).tenantReset t why

/-- Boot milestone 0x6 is reached: hosts are served (R109, Table 15-14). -/
def hostsServed (s : State) : Bool := s.get Reg.BOOT_STAT_STAGE == 6

/-- A NumVFs as software set it: VF Enable with a number, or cleared (R105). -/
def writeVfs (s : State) (port n : Nat) : State :=
  if s.boot.restart.isSome then s.modHost fun h => { h with vfWait := Sparse.put port n h.vfWait } else s.setVfs port n 3

/-- NumVFs as a configuration read returns it: in a firmware restart the value written (R105). -/
def vfsShown (s : State) (port : Nat) : Nat := (Sparse.find port s.host.vfWait).getD (s.get Reg.HOST_PORT_NUMVFS [port])

/-- The NumVFs writes of a firmware restart take effect (R105). -/
def applyVfs (s : State) : State :=
  let w := s.host.vfWait
  w.foldl (fun s x => s.setVfs x.1 x.2 3) (s.modHost fun h => { h with vfWait := [] })

/-- A PCIe error on a ring or buffer stops its queue (Table 15-15). -/
def queueError (s : State) (t q kind : Nat) : State :=
  let s := (s.discardQueue t q).set Reg.HQq_STAT_RUN [t, q] 0
  let s := (s.set Reg.HQq_STAT_ERR [t, q] 1).tnErr t Reg.TN_ERR_DMA
  s.recordS 0x3A01 4 (portSrc (portOf t)) (t + 2 ^ 8 * q) kind

/-- PD9 is switched off: the work of every tenant is discarded (Tables 3-2 and 15-15), and no queue stays enabled. -/
def hostsOff (s : State) : State :=
  (List.range 17).foldl (fun s t =>
    let s := s.dropNonce t
    let s := (List.range 16).foldl (fun s q =>
      if s.on Reg.HQq_CTL_EN [t, q] then (s.disableQueue t q).set Reg.HQq_STAT_RUN [t, q] 0 else s) s
    ((s.modImage t fun x => { x with fetch := none }).set Reg.TI_CTL_EN [t] 0).set Reg.TI_STAT_ACTIVE [t] 0) s

/-- QSPI_INT_N is asserted (R410). -/
def qspiInt (s : State) : Bool :=
  (s.get Reg.TN_IRQ_CQ [16] + 2 ^ 16 * s.get Reg.TN_IRQ_IMAGE [16] + 2 ^ 17 * s.get Reg.TN_IRQ_ERR [16]) &&&
    s.get Reg.TN_IRQ_EN_EN [16] != 0

/-- The QSPI engine runs: PD9 is on. -/
def qspiOn (s : State) : Bool := s.alive && s.domainOn 9

end State

/-- PCIE_CONFIG_REQUEST (R105, R109): a configuration request; `vfs`: a write that leaves that many VFs enabled, none a read. -/
def execPcieConfigRequest (port : Fin 2) (vfs : Option (Fin 8)) (s : State) : Result :=
  .next (if !s.alive || !s.domainOn 9 || !s.on Reg.HOST_PORT_LINK_UP [port.val] then s
    else if !s.hostsServed then s.emit (.cfgReply port.val none)
    else
      let s := match vfs with
        | some n => s.writeVfs port.val n.val
        | none => s
      s.emit (.cfgReply port.val (some (s.vfsShown port.val))))

/-- PERST_ASSERT (R46): PERST_N of a port goes low. -/
def execPerstAssert (port : Fin 2) (s : State) : Result :=
  let low (s : State) : State :=
    (s.modPins fun p => { p with perst := listSet p.perst port.val false }).set Reg.HOST_PORT_PERST [port.val] 0
  .next (if s.alive && s.pins.perst.getD port.val false then (low s).portDown port.val 1 else low s)

/-- PERST_RELEASE (R109): PERST_N goes high; the link may train. -/
def execPerstRelease (port : Fin 2) (s : State) : Result :=
  .next ((s.modPins fun p => { p with perst := listSet p.perst port.val true }).set Reg.HOST_PORT_PERST [port.val] 1)

/-- PCIE_LINK_UP (R109, Table 15-17): speed 1 to 4 and width 1 or 2. No port trains in ROM recovery (R111). -/
def execPcieLinkUp (port : Fin 2) (speed : Fin 5) (width : Fin 3) (s : State) : Result :=
  .next (if s.alive && s.domainOn 9 && s.pins.perst.getD port.val false && !s.on Reg.HOST_PORT_LINK_UP [port.val] &&
      s.get Reg.BOOT_STAT_STAGE != 0xE && speed.val != 0 && width.val != 0 then
    let s := (s.set Reg.HOST_PORT_LINK_UP [port.val] 1).set Reg.HOST_PORT_SPEED [port.val] speed.val
    let s := (s.set Reg.HOST_PORT_WIDTH [port.val] width.val).set Reg.TN_STAT_PRESENT [8 * port.val] 1
    s.recordS 0x3A03 1 (State.portSrc port.val) port.val (speed.val + 16 * width.val)
  else s)

/-- PCIE_LINK_DOWN (R46, Table 15-15): the link goes down; after a hot reset it stays up (`hot`). -/
def execPcieLinkDown (port : Fin 2) (hot : Bool) (s : State) : Result :=
  .next (if !s.alive || !s.on Reg.HOST_PORT_LINK_UP [port.val] then s
    else if hot then (s.setVfs port.val 0 2).tenantReset (8 * port.val) 2
    else s.portDown port.val 2)

/-- PCIE_ERROR (Table 15-15): on a ring or buffer of queue q, or on an image or publish access; kinds 0 UR, 1 CA, 2 poisoned,
3 completion timeout. -/
def execPcieError (t : Fin 17) (q : Option (Fin 16)) (kind : Fin 4) (s : State) : Result :=
  .next (if !s.alive || t.val == 16 then s
    else match q with
      | some q => if s.running t.val q.val then s.queueError t.val q.val kind.val else s
      | none =>
        let s := (s.modImage t.val fun x => { x with fetch := none }).showReads
        s.tnErr t.val Reg.TN_ERR_DMA)

/-- FUNCTION_LEVEL_RESET (R107, Table 15-15): an FLR of a function, or its removal by VF disable. -/
def execFunctionLevelReset (t : Fin 17) (vfDisable : Bool) (s : State) : Result :=
  let port := t.val / 8
  .next (if !s.alive || t.val == 16 || !s.on Reg.TN_STAT_PRESENT [t.val] then s
    else if vfDisable && !State.isPf t.val then s.writeVfs port (t.val % 8 - 1)
    else s.flr t.val 0)

/-- BUS_MASTER_ENABLE_CHANGE (R371): held work goes on. -/
def execBusMasterEnableChange (t : Fin 17) (b : Bool) (s : State) : Result :=
  .next (if !s.alive || t.val == 16 || !s.on Reg.TN_STAT_PRESENT [t.val] then s
    else
      let s := s.flag Reg.TN_STAT_BME [t.val] b
      if b then (List.range 16).foldl (fun s q => s.flushQueue t.val q) s else s)

/-- READ_STATUS (Table 15-14). -/
def execReadStatus (s : State) : Result :=
  .next (if s.qspiOn then
    s.emit (.qspi [BitVec.ofNat 8 (b2n s.hostsServed + 2 * b2n s.qspiInt + 4 * b2n (s.tnErrWord 16 != 0))]) else s)

/-- READ_WIN (Table 15-14). -/
def execReadWin (addr : Fin 262144) (n : Nat) (s : State) : Result :=
  .next (if s.qspiOn then s.emit (.qspi (s.winRead addr.val n)) else s)

/-- WRITE_WIN (Table 15-14): without effect until READY. -/
def execWriteWin (addr : Fin 262144) (data : List Byte) (s : State) : Result :=
  .next (if s.qspiOn && s.hostsServed then s.winWrite addr.val data else s)

/-- TENANT_RESET (R411): with key 0xA5; another data byte makes it an unknown command (R408, log 46). -/
def execTenantReset (key : Byte) (s : State) : Result :=
  .next (if !s.qspiOn then s
    else if key.toNat != 0xA5 then s.tnErr 16 Reg.TN_ERR_QSPI
    else (s.tenantReset 16 4).modHost fun h => { h with window := [] })

/-- QSPI_INVALID_COMMAND (R408): an unknown command byte, or a command cut short. -/
def execQspiInvalidCommand (s : State) : Result := .next (if s.qspiOn then s.tnErr 16 Reg.TN_ERR_QSPI else s)

end Sys2Proof.Machine
end

