-- ==== Sys2Proof/Machine/SecOps.lean ====
section
/-!
DEFINITION. Shared operations of security (19_on_chip_memory.md, 21_security_and_attestation.md): measurement registers, the
certified configuration, the presence of keys, the loss of the conditions of R29, and wipes of the secure bank set.
-/

namespace Sys2Proof.Machine

namespace State

/-! Measurement registers (R560, R561) -/

/-- Extend MEAS_k with m. -/
def extend (s : State) (k : Nat) (m : List Byte) : State :=
  s.modSec fun x => { x with meas := listMod x.meas k fun v => sha384 (beBytes 48 v ++ m) }

/-- MEAS_k returns to zero. -/
def zeroMeas (s : State) (k : Nat) : State := s.modSec fun x => { x with meas := listSet x.meas k 0 }

/-- MEAS_3: the ACTIVE image's SHA-384; nothing without one. -/
def measConfig (s : State) : State := match s.conf.active with
  | some c => s.extend 3 (beBytes 48 c.digest)
  | none => s

/-- MEAS_4: the line-rules digest in force; nothing without an image. -/
def measRules (s : State) : State := match s.conf.active with
  | some c => s.extend 4 (beBytes 48 c.lrDigest)
  | none => s

/-- MEAS_5: life-cycle state, fuse counter and token events. -/
def measCycle (s : State) : State := s.extend 5 (Config.measInput 5 [s.sec.lifecycle, s.sec.fuses, s.sec.tokens])

/-- MEAS_6: the key IDs. -/
def measKeys (s : State) : State :=
  s.extend 6 (Config.measInput 6 [s.sec.cfgKey.getD 0, s.sec.maintKey.getD 0, s.get Reg.SEC_FK_ACTIVE_ID, s.get Reg.SEC_FK_STAGED_ID])

/-! The certified configuration (R581, R582) -/

/-- The bank that runs. -/
def runBank (s : State) : Bank := s.boot.banks.getD (s.get Reg.BOOT_STAT_BANK) default

/-- A tenant beside 0 and 8 holds a right that Table 21-13 reserves to them. -/
def rightsLeak (s : State) : Bool :=
  (List.range 17).any fun t => !isPf t &&
    (s.on Reg.TN_RIGHTS_CONFIG [t] || s.on Reg.TN_RIGHTS_TALLY_CLEAR [t] || s.on Reg.TN_RIGHTS_INAUG [t] || s.on Reg.TN_RIGHTS_ROLE_SWAP [t])

/-- A sluice entry governs codes of class 0x5 (R537). -/
def sluiceHas5 (s : State) : Bool :=
  (List.range 256).any fun k => s.on Reg.SLUk_B_EN [k] &&
    (0x5000 &&& s.get Reg.SLUk_A_MASK [k] &&& 0xF000) == (s.get Reg.SLUk_A_CODE [k] &&& s.get Reg.SLUk_A_MASK [k] &&& 0xF000)

/-- SEC_CERT_MISS as Table 21-13 gives it. -/
def certMiss (s : State) : Nat :=
  b2n (s.get Reg.SEC_LC_STATE != 2) + 2 * b2n (s.on Reg.HOST_CAPS_BAR4_EN) + 4 * b2n (s.get Reg.SEC_TAMPER_CTL_RESP != 0xAAA) +
  8 * b2n (!s.on Reg.PWR_STAT_VBACK_OK || s.on Reg.PWR_STAT_AO_COLD) +
  16 * b2n (!(s.on Reg.SEC_STAT_CFG_KEY && s.on Reg.SEC_STAT_MAINT_KEY && s.on Reg.SEC_STAT_FK_ACTIVE && s.on Reg.SEC_STAT_STORE_OK)) +
  32 * b2n (!s.runBank.cert || s.on Reg.FW_BANK_STAT_TRIAL || s.runBank.svn != s.sec.fuses) +
  64 * b2n s.rightsLeak + 128 * b2n (!s.on Reg.WEIR_CTL_EN) + 256 * b2n s.sluiceHas5

/-- Evaluate the certified configuration, from the boot milestone at which firmware is up on. -/
def certify (s : State) : State :=
  let st := s.get Reg.BOOT_STAT_STAGE
  if st < 4 || st == 0xE then s
  else
    let m := s.certMiss
    let was := s.on Reg.SEC_STAT_CERTIFIED
    let s := (s.set Reg.SEC_CERT_MISS_MISS [] m).flag Reg.SEC_STAT_CERTIFIED [] (m == 0)
    if was && m != 0 then s.recordT 0x5030 4 12 m 0 else s

/-! The line without the conditions of R29 -/

/-- The conditions of R29. -/
def lineAllowed (s : State) : Bool := s.on Reg.GLOBAL_STAT_CONFIG_VALID && s.on Reg.SEC_STAT_FK_ACTIVE

/-- Line state OFF: reset, mill brake, or loss of the conditions of R29 (Table 9-2). -/
def lineOff (s : State) : State :=
  if s.lstate == 0 then s
  else
    let s := if s.standing then (s.toPhase 5).modInaug fun i => { i with newDir := none } else s
    let s := (s.stopWork.cancelRoll).toLine 0
    (List.range 4).foldl (fun s n => s.stopPort n) s

/-- OFF is left once TURN_CTL.EN is set, R29 holds and there is no pairing fault (Table 9-2); a tick that starts takes the turn length
of the line rules (R83), and the stopped layout is in force from here (R147). -/
def lineStart (s : State) : State :=
  if s.lstate == 0 && s.on Reg.TURN_CTL_EN && s.lineAllowed && !s.on Reg.LINE_DEPLOY_PAIR_FAULT then
    let s := if s.ticking then s else s.set Reg.TURN_LEN_LEN_ACT [] (s.get Reg.TURN_LEN_LEN)
    (s.toLine 1).stopLayout.delayLimits.showHops.settlePorts
  else s

/-- The line follows the conditions of R29: without a tick at once, else OFF is left at the next tick. -/
def settleLine (s : State) : State :=
  if !s.lineAllowed then s.lineOff else if s.ticking then s else s.lineStart

/-! Keys (R555, R556) -/

/-- Show which keys are present. -/
def showKeys (s : State) : State :=
  let s := (s.flag Reg.SEC_STAT_CFG_KEY [] s.sec.cfgKey.isSome).flag Reg.SEC_STAT_MAINT_KEY [] s.sec.maintKey.isSome
  (s.flag Reg.SEC_STAT_FK_ACTIVE [] s.keys.active.isSome).flag Reg.SEC_STAT_FK_STAGED [] s.keys.staged.isSome

/-- The node holds no fleet key any more (R556, R577). -/
def dropFleet (s : State) : State :=
  let s := s.modKeys fun k => { k with active := none, staged := none, retired := none }
  let s := (((s.set Reg.SEC_FK_ACTIVE_ID [] 0).set Reg.SEC_FK_STAGED_ID [] 0).cancelRoll).showKeys
  ((s.measKeys).certify).settleLine.relays

/-- The fleet key share in the power die's store is erased: both fleet keys of the secure store are lost with it, in slack too (R556). -/
def eraseShare (s : State) : State :=
  (s.modSec fun x => { x with stored := { x.stored with active := none, staged := none, activeId := 0, stagedId := 0 } }).dropFleet

/-- The security engine treats every key as absent, until power-on reset (R520). -/
def lockKeys (s : State) : State :=
  (s.modSec fun x => { x with locked := true, cfgKey := none, maintKey := none }).dropFleet

/-- The keys as the secure store gives them at boot (R556): bit k of `bad` says that entry k fails its check, of the configuration key, the
maintainer key, the active and the staged fleet key. -/
def loadKeys (s : State) (bad : Nat) : State :=
  if s.sec.locked then s.showKeys
  else
    let st := s.sec.stored
    let s := s.modSec fun x => { x with cfgKey := if bit bad 0 then none else st.cfg, maintKey := if bit bad 1 then none else st.maint }
    let s := s.modKeys fun k => { k with
      active := if bit bad 2 then none else st.active, staged := if bit bad 3 then none else st.staged }
    ((s.set Reg.SEC_FK_ACTIVE_ID [] (if bit bad 2 then 0 else st.activeId)).set Reg.SEC_FK_STAGED_ID []
      (if bit bad 3 then 0 else st.stagedId)).showKeys

/-! Wipes (R518 to R521) -/

/-- Start a wipe for a cause, or join the one under way (R520). -/
def startWipe (s : State) (cause : Nat) : State :=
  match s.sec.wipe with
  | some (c, b) => (s.modSec fun x => { x with wipe := some (c ||| 2 ^ cause, b) }).set Reg.MEM_SEC_STAT_CAUSE [] (c ||| 2 ^ cause)
  | none => ((s.modSec fun x => { x with wipe := some (2 ^ cause, false) }).set Reg.MEM_SEC_STAT_CAUSE [] (2 ^ cause)).set
      Reg.MEM_SEC_STAT_WIPING [] 1

/-- Records of the tamper responses whose wipe has ended (R577). -/
def wipeRecords (s : State) (us : Nat) : State :=
  s.sec.wipeFor.foldl (fun s x => s.recordT 0x5011 6 12 x us) (s.modSec fun x => { x with wipeFor := [] })

/-- The read-back of a wipe ends, after `us` µs, with `bad` failing words (R519 to R521). -/
def wipeEnd (s : State) (us bad : Nat) : State :=
  match s.sec.wipe with
  | none => s
  | some (c, again) =>
    if bad != 0 && !again then s.modSec fun x => { x with wipe := some (c, true) }
    else
      let us := min us 65535
      let todo := s.sec.wipeFor
      let s := ((s.modSec fun x => { x with wipe := none }).set Reg.MEM_SEC_STAT_WIPING [] 0).set Reg.MEM_SEC_STAT_WIPE_US [] us
      let s := if bad != 0 then ((s.set Reg.MEM_SEC_STAT_FAILED [] 1).recordS 0x3E05 5 13 c bad).lockKeys
        else if c / 2 != 0 then s.recordS 0x3E04 2 13 c us else s
      if todo.isEmpty then s else s.wipeRecords us

end State

end Sys2Proof.Machine
end

