-- ==== Sys2Proof/Machine/Memory.lean ====
section
/-!
DEFINITION. On-chip memory (19_on_chip_memory.md): errors of the SRAM words and who meets them, the secure bank set, and the commands
SCRUB_LINE, SECURE_ACCESS_REFUSED, SECURE_WIPE, WIPE_COMPLETE and MEM_COUNTER_CLEAR; and a cycle of the banks' arbiters.
-/

namespace Sys2Proof.Machine

/-- The master number of a reader (Table 19-3); a scrubber is none of them. -/
def EccReader.master : EccReader → Option Nat
  | .scrubber => none
  | .cpu i => some i.val
  | .lineFrame _ _ => some 2
  | .lineCell _ _ => some 2
  | .hostQueue t _ => some (3 + State.portOf t.val)
  | .hostImage t => some (3 + State.portOf t.val)
  | .consist _ => some 6
  | .can _ _ => some 7
  | .far => some 8
  | .tally => some 9
  | .security => some 10
  | .gateway _ => some 11

namespace State

/-- What an uncorrectable error does to the work of its reader (Table 19-4, R98); found by a scrubber in banks 0 to 59 it only marks the
word (R514). A far piece that meets one fails: FAR_REQUEST_SERVE names the pieces that fail (log 48). The record of a queue that an SRAM
error stops has no kind of Table 15-17: its parameter 2 is a free value. A TX_MATRIX buffer that meets one leaves the pending set. -/
def eccEffect (s : State) (a : Nat) (r : EccReader) : State :=
  if bankOf a ≥ 60 then s.startWipe 3
  else match r with
    | .scrubber => s.modMem fun x => { x with marked := a :: x.marked.filter fun b => b != a }
    | .cpu _ => if s.fwUp then s.fwRestart .fault none else s
    | .lineFrame p k =>
      if k < (s.port p.val).queue.length then
        (s.modPort p.val fun x => { x with queue := x.queue.eraseIdx k }).inc Reg.LPn_FWD_CNT_STOMPED [p.val] else s
    | .lineCell uid func => s.modMill fun m => { m with cells := m.cells.map fun c =>
        if c.uid == uid && c.func == func then { c with fill := none } else c }
    | .hostQueue t q => if s.running t.val q.val then
        let (k, s) := s.take 32
        s.queueError t.val q.val k
      else s
    | .hostImage t => s.modImage t.val fun x => { x with bad := true }
    | .consist p =>
      let mine (l : List EgFrame) : List EgFrame := match l.find? fun f => f.src == some p.val with
        | some f => l.erase f
        | none => l
      (s.modCon fun c => if c.egress.any fun f => f.src == some p.val then { c with egress := mine c.egress }
        else { c with fabric := mine c.fabric }).inc Reg.CPn_CNT_A_TAIL [p.val]
    | .can n b =>
      let s := (s.canUnpend n.val b.val).canUnpend (n.val + b2n (s.mirrored n.val)) b.val
      if (s.canBuf n.val b.val).type == 3 then s.canEnd n.val b.val 1 0 else s
    | .gateway i => s.modMap i fun e => { e with bad := true }
    | .far => s
    | .tally => (s.modTally fun t => { t with queue := t.queue.tail, due := t.due - 1 }).showTally
    | .security => s.startWipe 3

/-- An error is met at an SRAM offset (R513, R514): corrected, or uncorrectable. A scrubber's master number is not stated and is
a free value. -/
def eccError (s : State) (a : Nat) (ue : Bool) (r : EccReader) : State :=
  let scrub := r == .scrubber
  let (m, s) : Nat × State := match r.master with
    | some m => (m, s)
    | none => s.take 4
  let s := if ue then s.inc Reg.MEM_ECC_CNT_UE else s.inc Reg.MEM_ECC_CNT_CE
  let s := (s.set Reg.MEM_ECC_ADDR_OFFSET [] (a / 8)).flag Reg.MEM_ECC_INFO_SCRUB [] scrub
  let s := ((s.flag Reg.MEM_ECC_INFO_UE [] ue).set Reg.MEM_ECC_INFO_MASTER [] m).set Reg.MEM_ECC_INFO_BANK [] (bankOf a)
  let p2 := bankOf a + 2 ^ 8 * m + 2 ^ 16 * b2n scrub
  if ue then (s.recordS 0x3E02 4 13 a p2).eccEffect a r else s.recordS 0x3E01 1 13 a p2

/-- A line is read (R513, R514). A word that a scrubber marked is met by the next master that reads its line. -/
def lineRead (s : State) (x : LineRead) : State :=
  let scrub := x.reader == .scrubber
  let s := if x.last && scrub then s.inc Reg.MEM_SCRUB_PASSES else s
  let s := match x.err with
    | some (w, ue) => s.eccError (64 * x.line + 8 * w) ue x.reader
    | none => s
  if scrub then s
  else
    let hit := s.mem.marked.filter fun a => a / 64 == x.line
    let s := s.modMem fun y => { y with marked := y.marked.filter fun a => a / 64 != x.line }
    (hit.filter fun a => (x.err.map fun e => 64 * x.line + 8 * e.1) != some a).foldl (fun s a => s.eccError a true x.reader) s

/-- A cycle of one bank (R511): one of the requests that wait there is granted, the others wait on. -/
def bankCycle (s : State) (bank : Nat) : State :=
  let l := s.mem.waiting.filter fun q => q.bank == bank
  if s.bankLost bank then s.modMem fun x => { x with waiting := x.waiting.filter fun q => q.bank != bank }
  else if s.bankShut bank then l.foldl (fun s q => s.memLose false q) s
  else match s.arbitrate bank l with
    | none => s
    | some q =>
      let s := (s.modMem fun x => { x with waiting := x.waiting.erase q }).memGrant q
      let s := (l.erase q).foldl (fun s q => s.memLose true q) s
      match q.read with
      | some x => s.lineRead x
      | none => s

/-- A cycle of CK_FAB passes at the banks. -/
def memCycle (s : State) : State :=
  let banks := (s.mem.waiting.map fun q => q.bank).eraseDups
  banks.foldl (fun s b => s.bankCycle b) (s.modMem fun x => { x with granted := [] })

/-- A write of MEM_CNT_CTL (R512): RUN, and the masters whose counters are cleared. -/
def memCounters (s : State) (mask : Nat) (run : Bool) : State :=
  (List.range 12).foldl (fun s m => if bit mask m then (s.set Reg.MEM_CONFLICTm_COUNT [m] 0).set Reg.MEM_STALLm_COUNT [m] 0 else s)
    (s.flag Reg.MEM_CNT_CTL_RUN [] run)

end State

/-- SCRUB_LINE (R511, R513, R514, R516, R517): a scrubber reads the line at an SRAM offset, or a master reads it (`r`); `err`: the word of the
line that is in error, and whether it is uncorrectable. `last`: the read completes a pass of banks 0 to 59. A bank that is free grants the
read at once; otherwise it waits for the bank's arbiter, a scrub read for a cycle without a request or, after 1,024 cycles, as an aged one. -/
def execScrubLine (line : Fin 524288) (err : Option (Fin 8 × Bool)) (r : EccReader) (last : Bool) (s : State) : Result :=
  let x : LineRead := ⟨line.val, err.map fun e => (e.1.val, e.2), r, last⟩
  let q : MemReq := ⟨bankOf (64 * line.val), r.master, 0, false, some x⟩
  .next (if !s.alive then s
    else if r.master.any fun m => State.secForbids m (64 * line.val) then s.secRefuse (r.master.getD 0) (64 * line.val)
    else if s.bankFree q.bank then (s.memGrant q).lineRead x
    else s.memWait q)

/-- SECURE_ACCESS_REFUSED (R517): an access of another master to banks 60 to 63. -/
def execSecureAccessRefused (m : Fin 12) (off : Fin 2097152) (s : State) : Result :=
  .next (if s.alive && m.val != 10 then s.secRefuse m.val (0x1E00000 + off.val) else s)

/-- SECURE_WIPE (R518, R519). -/
def execSecureWipe (cause : Fin 4) (s : State) : Result := .next (if s.power.on then s.startWipe cause.val else s)

/-- WIPE_COMPLETE (R519, R520): the read-back after `us` µs found `bad` failing words. The wipe runs under the mill brake too. -/
def execWipeComplete (us bad : Nat) (s : State) : Result := .next (if s.power.on then s.wipeEnd us bad else s)

/-- MEM_COUNTER_CLEAR (R512): a write of MEM_CNT_CTL with CLR and RUN. -/
def execMemCounterClear (mask : Fin 4096) (run : Bool) (s : State) : Result :=
  .next (if s.alive && s.domainOn 9 then s.memCounters mask.val run else s)

end Sys2Proof.Machine
end

