-- ==== Sys2Proof/Machine/Secure.lean ====
section
/-!
DEFINITION. Security commands (21_security_and_attestation.md): ATTEST_REPORT, ATTEST_CHAIN, ATTEST_IMPORT, ATTEST_LIFECYCLE, remote
attestation, TAMPER_EVENT, VBACK_RANGE_CHANGE, FLEET_KEY_SWITCH and RETIRED_KEY_ERASE. Whether a signature verifies is an operand (log 2).
-/

namespace Sys2Proof.Machine

namespace State

/-! Reports and chains (R563, R564) -/

/-- FIRST_USE is not 0. -/
def firstUse (s : State) : Bool :=
  s.on Reg.FIRST_USE_NO_PREV_FW || s.on Reg.FIRST_USE_NO_PREV_CFG || s.on Reg.FIRST_USE_OPTIME_ZERO || s.on Reg.FIRST_USE_PAIR_EPOCH ||
  s.on Reg.FIRST_USE_RATE_HIST

/-- Bytes 0 to 463 of a report (Table 21-6). -/
def reportBody (s : State) (nonce : List Byte) (counter : Nat) : List Byte :=
  let flags := b2n (s.on Reg.SEC_STAT_CERTIFIED) + 2 * b2n s.sec.tamperBoot + 4 * b2n (s.sec.tokens != 0) + 8 * b2n (s.on Reg.TALLY_STAT_DEGRADED) +
    16 * b2n s.firstUse
  leBytes 2 1 ++ leBytes 2 560 ++ leBytes 4 flags ++ slice nonce 0 32 ++ leBytes 8 s.uid ++ leBytes 1 s.sec.lifecycle ++ leBytes 1 s.sec.fuses ++
  leBytes 2 0 ++ leBytes 4 s.runBank.version ++ leBytes 4 (s.get Reg.CFG_VER_ACTIVE_VER) ++ leBytes 4 counter ++ leBytes 4 s.icount ++
  leBytes 4 (s.get Reg.SEC_FK_ACTIVE_ID) ++ leBytes 5 s.clock.optime ++ leBytes 3 0 ++ (List.range 8).flatMap fun k => beBytes 48 (s.sec.meas.getD k 0)

/-- Sign a report for a requester's position, 0 local (R564). COUNTER is the count with this report (log 49). -/
def makeReport (s : State) (nonce : List Byte) (who : Nat) : List Byte × State :=
  let c := (s.get Reg.SEC_REPORT_CNT_COUNT + 1) % 2 ^ 32
  let s := s.set Reg.SEC_REPORT_CNT_COUNT [] c
  let b := s.reportBody nonce c
  (b ++ slice (Config.sign b) 0 96, s.recordS 0x5020 1 12 c who)

/-- The certificate chain (Table 21-7). -/
def chainBytes (s : State) : List Byte :=
  leBytes 4 3 ++ (List.range 3).flatMap fun k =>
    let c := Config.certificate k (s.sec.meas.take 3)
    leBytes 4 c.length ++ c

/-- The arguments of a REPORT or CHAIN are good. -/
def attestArgs (t f : Nat) (d : Desc) : Bool := d.arg0 / 16 % 4 != 3 && (if f == 0 then 560 else 4096) ≤ d.len && inWin t d.buf d.len

/-- Bytes to a descriptor's buffer, and its completion. -/
def attestDone (s : State) (t q i : Nat) (d : Desc) (f : Nat) (l : List Byte) : State :=
  (s.memWrite t d.buf (l.take d.len)).complete t q i 0 l.length (if f == 0 then leAt l 60 4 else 0)

/-! Remote attestation (R565, R566) -/

/-- Send waiting requests while fewer than 16 are outstanding. Which free ATAG one takes is a free value. -/
def attSend (s : State) : Nat → State
  | 0 => s
  | n + 1 =>
    let out := s.sec.requests.filterMap fun r => r.sent.map fun x => x.1
    match (s.sec.requests.find? fun r => r.sent.isNone), ((List.range 16).filter fun g => !out.contains g) with
    | some r, g :: l =>
      let (v, s) := s.take 4
      let tag := (g :: l).getD (v % (l.length + 1)) g
      let s := s.modSec fun x => { x with requests := x.requests.map fun y => if y == r then { y with sent := some (tag, s.clock.turn) } else y }
      let body := beBytes 1 r.func ++ beBytes 1 tag ++ beBytes 2 0 ++ beBytes 4 s.turn32 ++ slice r.nonce 0 32 ++ beBytes 8 r.targetUid
      attSend (s.lineOut 2 r.target 2 0x0020 0 body none).2 n
    | _, _ => s

/-- A request ends: it is forgotten, its descriptor completes, and another may be sent. -/
def attEnd (s : State) (r : AttReq) (f : State → State) : State :=
  (f (s.modSec fun x => { x with requests := x.requests.erase r })).attSend 16

/-- Start a remote request. -/
def attStart (s : State) (t q i : Nat) (d : Desc) (f : Nat) (nonce : List Byte) : State :=
  let mode := d.arg0 / 16 % 4
  if s.standing || s.inaug.dir.isNone then s.complete t q i 9 0 s.icount
  else match (if mode == 1 then s.nodeOfUid d.arg1 else s.nodeOfCar (d.arg1 % 256) (d.arg1 / 256 % 256)) with
    | none => s.complete t q i 2 0 (s.icount + 2 ^ 32)
    | some x =>
      let r : AttReq := ⟨(t, q, i), f, x.pos, if mode == 1 then d.arg1 else 0, nonce, none, []⟩
      ((s.startWork t q i).modSec fun y => { y with requests := y.requests ++ [r] }).attSend 16

/-- The target is this device: mode 0, its own UID, or its own car while it is the leader or single. -/
def attLocal (s : State) (d : Desc) : Bool :=
  let mode := d.arg0 / 16 % 4
  mode == 0 || (mode == 1 && d.arg1 == s.uid) || (mode == 2 && (!s.paired || s.isLeader) && (match s.nodeOfCar (d.arg1 % 256) (d.arg1 / 256 % 256) with
    | some x => x.pos == s.ownPos
    | none => false) && !s.standing)

/-- ATTEST, FUNCTION 0 and 1. -/
def attest (s : State) (t q i : Nat) (d : Desc) (f : Nat) (given : List Byte) : State :=
  if !attestArgs t f d then s.failCheck t q i 6
  else if f == 0 && bufWaits t d given then s.readStall
  else
    let (nonce, s) := if f == 0 then
        (s.memIn t d.buf 32 given, if t == 16 then s else s.emit (.hostRead t d.buf 32)) else ([], s)
    if s.attLocal d then
      if f == 0 then
        let (l, s) := s.makeReport nonce 0
        s.attestDone t q i d 0 l
      else s.attestDone t q i d 1 s.chainBytes
    else s.attStart t q i d f nonce

/-- A response in fragments of at most 1,504 B (Table 21-8). -/
def attAnswer (s : State) (dest f tag astat rturn : Nat) (data : List Byte) : State :=
  (List.range (max 1 ((data.length + 1503) / 1504))).foldl (fun s k =>
    let body := beBytes 1 f ++ beBytes 1 tag ++ beBytes 1 astat ++ beBytes 1 0 ++ beBytes 4 rturn ++ beBytes 2 (1504 * k) ++ beBytes 2 data.length ++
      beBytes 12 0 ++ (data.drop (1504 * k)).take 1504
    (s.lineOut 2 dest 2 0x0021 0 body none).2) s

/-- A request reaches this device, with `waiting` requests queued at it. -/
def attRequest (s : State) (sender waiting : Nat) (body : List Byte) : State :=
  let f := beAt body 0 1
  let tag := beAt body 1 1
  let rturn := beAt body 4 4
  let uid := beAt body 40 8
  let serves := !s.paired || s.isLeader
  if s.paired && uid != 0 && uid != s.uid && uid == s.partnerUid then s.emit (.xlink "attest" (beBytes 2 sender ++ body))
  else if uid != s.uid && !serves then s
  else if uid != 0 && uid != s.uid then s.attAnswer sender f tag 1 rturn []
  else if waiting ≥ 4 then s.attAnswer sender f tag 2 rturn []
  else if f == 0 then
    let (l, s) := s.makeReport (slice body 8 32) sender
    s.attAnswer sender 0 tag 0 rturn l
  else if f == 1 then s.attAnswer sender 1 tag 0 rturn s.chainBytes
  else s

/-- The data whose pieces have arrived, from an offset on. -/
def attJoin (parts : List (Nat × List Byte)) : Nat → Nat → List Byte
  | 0, _ => []
  | n + 1, off => match parts.find? fun p => p.1 == off with
    | some p => if p.2.isEmpty then [] else p.2 ++ attJoin parts n (off + p.2.length)
    | none => []

/-- The turn whose tick ends a request's time. -/
def attDeadline (s : State) (r : AttReq) (q : Nat) : Nat :=
  let d := max r.target s.ownPos - min r.target s.ownPos
  let tmo := if s.get Reg.SEC_CTL_ATT_TMO == 0 then 32 else s.get Reg.SEC_CTL_ATT_TMO
  q + 2 * d + tmo

/-- A response fragment arrives at the requester (R566). -/
def attResponse (s : State) (sender : Nat) (body : List Byte) : State :=
  let total := beAt body 10 2
  match (s.sec.requests.find? fun r => r.func == beAt body 0 1 && r.target == sender &&
      (match r.sent with
        | some (g, q) => g == beAt body 1 1 && q % 2 ^ 32 == beAt body 4 4 && s.clock.turn < s.attDeadline r q
        | none => false)) with
  | none => s
  | some r =>
    let (t, q, i) := r.desc
    if beAt body 2 1 != 0 then s.attEnd r fun s => s.complete t q i 3 0 (2 ^ 32 * beAt body 2 1)
    else
      let off := beAt body 8 2
      let y := { r with parts := r.parts ++ [(off, (body.drop 24).take (total - off))] }
      let all := attJoin y.parts 64 0
      if all.length < total then s.modSec fun x => { x with requests := x.requests.map fun z => if z == r then y else z }
      else match ((s.queue t q).works.find? fun (v : Work) => v.idx == i) with
        | some v => s.attEnd r fun s => s.attestDone t q i v.desc r.func all
        | none => s.attEnd r id

/-- The oldest request that waits here is served once CPU pair 1 runs (R566). -/
def attServe (s : State) : State :=
  match s.sec.asked with
  | (sender, body) :: l => if s.cpuUp 1 then (s.modSec fun x => { x with asked := l }).attRequest sender l.length body else s
  | [] => s

/-! Key packages and tokens (R552 to R558) -/

/-- A package or token is refused, with its cause (Table 21-14). -/
def refuse (s : State) (t cause : Nat) : State := (s.inc Reg.SEC_CNT_REFUSED).recordT 0x5003 4 12 t cause

/-- Why a key package is refused; one that its layout rules out counts as a bad signature (log 50). -/
def importFault (s : State) (len : Nat) (p : List Byte) (sig gcm : Bool) : Option Nat :=
  let kind := beAt p 0 1
  let plen := beAt p 2 2
  let id := beAt p 4 4
  let uid := beAt p 8 8
  let bare := s.sec.lifecycle == 1 && ((kind == 1 && s.sec.cfgKey.isNone) || (kind == 2 && s.sec.maintKey.isNone))
  let old := if kind == 1 then s.sec.cfgKey.getD 0 else if kind == 2 then s.sec.maintKey.getD 0
    else if s.keys.active.isNone then 0 else s.get Reg.SEC_FK_STAGED_ID
  if s.sec.lifecycle != 1 && s.sec.lifecycle != 2 then some 2
  else if !(uid == s.uid || (uid == 0 && kind != 3)) then some 1
  else if kind == 0 || kind > 3 || beAt p 1 1 != 0 || plen != (if kind == 3 then 161 else 113) then some 0
  else if !bare && !(sig && s.sec.maintKey.isSome && len == plen + 96) then some 0
  else if bare && len != plen && len != plen + 96 then some 0
  else if kind == 3 && !gcm then some 0
  else if id == 0 || (!bare && id ≤ old) then some 3 else none

/-- Take an accepted key. -/
def takeKey (s : State) (kind id : Nat) (key : BitVec 256) : State :=
  let s := if kind == 1 then s.modSec fun x => { x with cfgKey := some id }
    else if kind == 2 then s.modSec fun x => { x with maintKey := some id }
    else if s.keys.active.isNone then (s.modKeys fun k => { k with active := some key }).set Reg.SEC_FK_ACTIVE_ID [] id
    else (s.modKeys fun k => { k with staged := some key }).set Reg.SEC_FK_STAGED_ID [] id
  (((s.mramWrite .keys).showKeys.measKeys).certify).settleLine.relays

/-- ATTEST, FUNCTION 2. `key` is the fleet key that CT decrypts to, `gcm` that GTAG verifies. -/
def attestImport (s : State) (t q i : Nat) (d : Desc) (given : List Byte) (sig gcm : Bool) (key : BitVec 256) : State :=
  if !inWin t d.buf d.len then s.failCheck t q i 6
  else if bufWaits t d given then s.readStall
  else
    let (p, s) := s.takeBuf t d given
    match s.importFault d.len p sig gcm with
    | some c => (s.refuse t c).complete t q i 5 0 0
    | none => ((s.takeKey (beAt p 0 1) (beAt p 4 4) key).recordT 0x5002 2 12 (beAt p 0 1) (beAt p 4 4)).complete t q i 0 0 (beAt p 4 4)

/-- Why a transition token is refused (R552 to R554). -/
def tokenFault (s : State) (p : List Byte) (sig : Bool) : Option Nat :=
  let target := beAt p 0 1
  let signer := beAt p 20 1
  let old := s.sec.lifecycle
  if beAt p 8 8 != s.uid then some 1
  else if !((target == old + 1 && target ≤ 4) || (target == 4 && old < 4)) || leAt p 16 4 != s.get Reg.SEC_REPORT_CNT_COUNT then some 2
  else if beAt p 1 7 != 0 || beAt p 21 3 != 0 || !sig || signer > 1 || (target == 1 && signer != 1) ||
      ((target == 2 || target == 3) && signer != 0) || (signer == 0 && s.sec.maintKey.isNone) then some 0
  else if target == 2 && !(s.sec.cfgKey.isSome && s.sec.maintKey.isSome && s.keys.active.isSome) then some 2 else none

/-- A valid transition (R554). -/
def transition (s : State) (target : Nat) : State :=
  let old := s.sec.lifecycle
  let s := s.inc Reg.SEC_REPORT_CNT_COUNT
  let s := s.recordT 0x5001 5 12 (old + 256 * target) (s.get Reg.SEC_REPORT_CNT_COUNT)
  let s := (s.startWipe 2).modSec fun x => { x with lifecycle := target }
  let s := s.set Reg.SEC_LC_STATE [] target
  let s := if target ≥ 3 then s.eraseShare else s
  let s := if target == 4 then ((s.modSec fun x => { x with
    cfgKey := none, maintKey := none, stored := { x.stored with cfg := none, maint := none } }).showKeys).eraseRetired else s
  s.fullReset []

/-- ATTEST, FUNCTION 3: on success the full reset discards the descriptor. -/
def attestCycle (s : State) (t q i : Nat) (d : Desc) (given : List Byte) (sig : Bool) : State :=
  if d.len != 120 || !inWin t d.buf d.len then s.failCheck t q i 6
  else if bufWaits t d given then s.readStall
  else
    let (p, s) := s.takeBuf t d given
    match s.tokenFault p sig with
    | some c => (s.refuse t c).complete t q i 5 0 0
    | none => s.transition (beAt p 0 1)

/-! Tamper (R576 to R578) -/

/-- Response of a tamper source. -/
def tamperResp (s : State) (src : Nat) : Nat := s.get Reg.SEC_TAMPER_CTL_RESP / 4 ^ src % 4

/-- A tamper source raises an event while the node is powered; `now`: the sources in the event condition. While the mill brake is applied no record is written (log 51). -/
def tamper (s : State) (src now : Nat) : State :=
  let r := s.tamperResp src
  let s := ((s.setBits Reg.SEC_TAMPER_STAT_EVENT [] (2 ^ src)).set Reg.SEC_TAMPER_STAT_NOW [] now).set Reg.SEC_STAT_TAMPER [] 1
  let s := (s.inc Reg.SEC_CNT_TAMPER).modSec fun x => { x with tamperBoot := true }
  let s := if s.alive then s.recordT 0x5010 5 12 src r else s
  if r ≥ 2 then
    ((s.modSec fun x => { x with wipeFor := x.wipeFor ++ [src] }).startWipe 1).eraseShare
  else s

end State

/-- The descriptor of an ATTEST with a FUNCTION that may start now. -/
def readyAttest (s : State) (t q i f : Nat) : Option Desc :=
  (s.ready t q i 0x30).filter fun d => d.arg0 % 16 == f

/-- ATTEST_REPORT (R563, R564, R566), the nonce as the host returns it. -/
def execAttestReport (t : Fin 17) (q : Fin 16) (i : Nat) (nonce : List Byte) (s : State) : Result :=
  .next (if !s.alive then s else match readyAttest s t.val q.val i 0 with
    | some d => s.attest t.val q.val i d 0 nonce
    | none => s)

/-- ATTEST_CHAIN (R563). -/
def execAttestChain (t : Fin 17) (q : Fin 16) (i : Nat) (s : State) : Result :=
  .next (if !s.alive then s else match readyAttest s t.val q.val i 1 with
    | some d => s.attest t.val q.val i d 1 []
    | none => s)

/-- ATTEST_IMPORT (R557, R558). A FUNCTION that Table 21-5 does not name fails the argument check here. -/
def execAttestImport (t : Fin 17) (q : Fin 16) (i : Nat) (data : List Byte) (sig gcm : Bool) (key : BitVec 256) (s : State) : Result :=
  .next (if !s.alive then s else match s.ready t.val q.val i 0x30 with
    | some d => if d.arg0 % 16 == 2 then s.attestImport t.val q.val i d data sig gcm key
      else if d.arg0 % 16 > 3 then s.failCheck t.val q.val i 6 else s
    | none => s)

/-- ATTEST_LIFECYCLE (R552 to R554). -/
def execAttestLifecycle (t : Fin 17) (q : Fin 16) (i : Nat) (token : List Byte) (sig : Bool) (s : State) : Result :=
  .next (if !s.alive then s else match readyAttest s t.val q.val i 3 with
    | some d => s.attestCycle t.val q.val i d token sig
    | none => s)

/-- ATTEST_REQUEST_RECEIVE (R565, R566): the sender's position, how many requests wait at this target, the payload after the
address word. -/
def execAttestRequestReceive (sender : Nat) (waiting : Fin 5) (body : List Byte) (s : State) : Result :=
  let n := waiting.val + s.sec.asked.length
  .next (if !s.alive then s
    else if s.cpuUp 1 && s.sec.asked.isEmpty then s.attRequest sender waiting.val body
    else if n ≥ 4 then s.attAnswer sender (beAt body 0 1) (beAt body 1 1) 2 (beAt body 4 4) []
    else s.modSec fun x => { x with asked := x.asked ++ [(sender, body)] })

/-- ATTEST_RESPONSE_RECEIVE (R565, R566). -/
def execAttestResponseReceive (sender : Nat) (body : List Byte) (s : State) : Result :=
  .next (if s.alive then s.attResponse sender body else s)

/-- ATTEST_TIMEOUT (R566): the k-th request of this device. -/
def execAttestTimeout (k : Nat) (s : State) : Result :=
  .next (match s.sec.requests[k]? with
    | none => s
    | some r => match r.sent with
      | some (_, q) => if s.alive && s.attDeadline r q ≤ s.clock.turn then
          s.attEnd r fun s => s.complete r.desc.1 r.desc.2.1 r.desc.2.2 4 0 0 else s
      | none => s)

/-- TAMPER_EVENT (R576 to R578): a source raises an event; while VIN is absent it is latched on VBACK, where that source runs on it.
`now`: bit s says that source s is in the event condition. -/
def execTamperEvent (src : Fin 6) (now : Fin 64) (s : State) : Result :=
  .next (if s.power.on then s.tamper src.val now.val
    else if (src.val ≤ 1 || src.val == 5) && s.on Reg.PWR_STAT_VBACK_OK then
      (s.setBits Reg.SEC_TAMPER_STAT_EVENT [] (2 ^ src.val) |>.set Reg.SEC_TAMPER_STAT_UNPOWERED [] 1).modSec fun x =>
        { x with unpowered := if x.unpowered.contains src.val then x.unpowered else x.unpowered ++ [src.val] }
    else s)

/-- VBACK_RANGE_CHANGE (R61, R582). -/
def execVbackRangeChange (inRange : Bool) (s : State) : Result :=
  .next (let s := s.flag Reg.PWR_STAT_VBACK_OK [] inRange
    if s.alive then s.certify else s)

/-- FLEET_KEY_SWITCH (R574): at the tick of SEC_ROLL_TURN. -/
def execFleetKeySwitch (s : State) : Result :=
  .next (match s.keys.roll with
    | none => s
    | some r =>
      if !s.alive || s.clock.turn < r || s.keys.staged.isNone then s
      else
        let old := s.get Reg.SEC_FK_ACTIVE_ID
        let new := s.get Reg.SEC_FK_STAGED_ID
        let s := s.modKeys fun k => { k with
          active := k.staged, staged := none, roll := none, retired := k.active.map fun a => (a, r, r + 256) }
        let s := ((s.set Reg.SEC_FK_ACTIVE_ID [] new).set Reg.SEC_FK_STAGED_ID [] 0).set Reg.SEC_STAT_ROLL_PENDING [] 0
        ((s.mramWrite .keys).showKeys.recordT 0x5005 2 12 new old).measKeys.certify)

/-- RETIRED_KEY_ERASE (R574): 256 turns after the rollover. -/
def execRetiredKeyErase (s : State) : Result :=
  .next (match s.keys.retired with
    | some (_, _, e) => if s.alive && e ≤ s.clock.turn then s.modKeys fun k => { k with retired := none } else s
    | none => s)

end Sys2Proof.Machine
end

