-- ==== Sys2Proof/Machine/Images.lean ====
section
/-!
DEFINITION. Configuration images as bytes (R584, R585) and the checks of a staged image (R587), with the limits that other chapters
name for Casbery (R146, R270, R374, R418, R475, R509).
-/

namespace Sys2Proof.Machine

/-! Layout (Tables 22-1 and 22-2) -/

/-- The section directory: (type, offset, length). -/
def imageDir (b : List Byte) : List (Nat × Nat × Nat) :=
  (List.range (min 11 (beAt b 22 2))).map fun k => (beAt b (80 + 16 * k) 2, beAt b (84 + 16 * k) 4, beAt b (88 + 16 * k) 4)

/-- The bytes of a section, by its type. -/
def imageSection (b : List Byte) (t : Nat) : Option (List Byte) :=
  ((imageDir b).find? fun x => x.1 == t).map fun x => slice b x.2.1 x.2.2

/-- Register entries of 8 bytes, with their section type. -/
def regEntries (t : Nat) (l : List Byte) : List (Nat × Nat × Nat) :=
  (List.range (l.length / 8)).map fun k => (t, beAt l (8 * k) 4, beAt l (8 * k + 4) 4)

/-- A number of n bits as two's complement. -/
def twos (n v : Nat) : Int := if 2 * v < 2 ^ n then (v : Int) else (v : Int) - (2 ^ n : Nat)

/-- A gateway map entry from its 48 bytes (Table 17-4). -/
def parseMap (l : List Byte) : GwEntry :=
  { (default : GwEntry) with
    skind := beAt l 0 1, dkind := beAt l 1 1, srcA := beAt l 2 2, srcConsist := beAt l 4 1, srcCar := beAt l 5 1, srcBit := beAt l 6 2
    srcLen := beAt l 8 1 % 128, srcSigned := bit (beAt l 8 1) 7, srcBig := bit (beAt l 9 1) 0, dstBig := bit (beAt l 9 1) 1
    dstA := beAt l 10 2, dstBit := beAt l 12 2, dstLen := beAt l 14 1 % 128, dstSigned := bit (beAt l 14 1) 7, trig := beAt l 15 1
    period := beAt l 16 2, srcN := beAt l 18 1, useDefault := bit (beAt l 19 1) 0, mul := twos 32 (beAt l 20 4), shift := beAt l 24 1
    parN := beAt l 25 1, add := twos 64 (beAt l 32 8), dflt := beAt l 40 8, must := true }

/-- A telegram entry as taken up: its dataset is zero and no telegram has come (R468). -/
def freshTel (t : Tel) : Tel :=
  { t with seq := 0, data := List.replicate t.dlen 0, age := 65535, run := 0, touted := false, last := [], fresh := false }

/-- An image's content from its bytes. -/
def parseImage (b : List Byte) : CfgImage :=
  let sec (t : Nat) : List Byte := (imageSection b t).getD []
  let part (t : Nat) : List Byte := if t == 2 || t == 5 || t == 7 || t == 9 then Config.registerPart t (sec t) else sec t
  { version := beAt b 12 4, consist := beAt b 16 4, carIndex := beAt b 20 1, confirmReq := bit (beAt b 21 1) 0
    lrDigest := beAt b 32 48, digest := sha384 b
    regs := [1, 2, 4, 5, 7, 8, 9, 10, 11].flatMap fun t => regEntries t (part t)
    senders := Config.streamSenders (Config.restPart 2 (sec 2))
    table := parseTable (sec 3) (tableDigest (sec 3))
    canBufs := Config.canRecords (Config.restPart 5 (sec 5))
    maps := (imageSection b 6).map fun l => (List.range (l.length / 48)).map fun k => parseMap (slice l (48 * k) 48)
    tels := (imageSection b 7).map fun l => (Config.telegrams (Config.restPart 7 l)).map freshTel
    pubs := Config.publishSenders (Config.restPart 9 (sec 9)), defaults := Config.parcelDefaults (Config.restPart 9 (sec 9)) }

/-! Limits -/

/-- The section rules of R585. -/
def sectionsOk (b : List Byte) : Bool :=
  let d : List (Nat × Nat × Nat) := imageDir b
  let types : List Nat := d.map fun x => x.1
  1 ≤ beAt b 22 2 && beAt b 22 2 ≤ 11 && [1, 2, 3].all types.contains && decide (List.Nodup types) &&
  (d.all fun x => 1 ≤ x.1 && x.1 ≤ 11 && 256 ≤ x.2.1 && x.2.1 + x.2.2 + 96 ≤ beAt b 8 4 &&
    (!([1, 4, 8, 10, 11].contains x.1) || x.2.2 % 8 == 0) && (x.1 != 6 || x.2.2 % 48 == 0)) &&
  (parseImage b).regs.all fun x => x.1 == 11 || (sectionFields x.1).any fun f => (f.find x.2.1).isSome

/-- Line rules within R146, and LR_DIGEST their digest (Table 22-1). -/
def lineRulesOk (b : List Byte) (c : CfgImage) : Bool :=
  let slots := imageField c.regs Reg.LINE_RULES_SLOTS []
  let allow := imageField c.regs Reg.LINE_RULES_PROF_ALLOW []
  67 ≤ slots && slots ≤ 512 && allow != 0 && (!bit allow 0 || 347 ≤ imageField c.regs Reg.TURN_LEN_LEN []) &&
  250 ≤ imageField c.regs Reg.TURN_LEN_LEN [] && imageField c.regs Reg.TURN_LEN_LEN [] ≤ 8000 &&
  c.lrDigest == sha384 ((imageSection b 2).getD [])

/-- A function table within Tables 11-1 to 11-3 (R270), with the identity that its section 1 gives. -/
def tableOk (b : List Byte) (c : CfgImage) : Bool :=
  let l := (imageSection b 3).getD []
  let t := c.table
  t.bytes == l && t.length == l.length && l.length ≤ 2048 && 1 ≤ t.carCount && t.carCount ≤ 32 &&
  t.consist == imageField c.regs Reg.INAUG_CONSIST_ID [] && t.carCount == imageField c.regs Reg.INAUG_CAR_COUNT [] &&
  ((t.cars.zip t.cars.tail).all fun x => x.1.carIndex < x.2.carIndex) &&
  t.cars.all fun r => 1 ≤ r.carIndex && r.carIndex ≤ t.carCount && r.demands.length ≤ 32 && r.paired == (r.uidB != 0) &&
    decide (r.demands.map fun d => d.func).Nodup &&
    r.demands.all fun d => 1 ≤ d.func && d.func ≤ 0xFEFF && d.period ≤ 6 && 1 ≤ d.size && d.size ≤ 760

/-- The queues of all tenants (R374). -/
def rightsOk (c : CfgImage) : Bool :=
  (List.range 17).foldl (fun a t => a + imageField c.regs Reg.TN_RIGHTS_QMAX [t]) 0 ≤ 128

/-- The far windows (R417, R418). -/
def windowsOk (c : CfgImage) : Bool :=
  let v (f : Fld) (w : Nat) : Nat := imageField c.regs f [w]
  let on := (List.range 16).filter fun w => v Reg.FWw_CFG_EN w == 1
  decide (on.map fun w => v Reg.FWw_CFG_FUNC w).Nodup && on.all fun w =>
    let kind := v Reg.FWw_CFG_KIND w
    let size := v Reg.FWw_SIZE_SIZE w
    let stop := v Reg.FWw_BASE_BASE w + size
    size != 0 && size % 2 ^ v Reg.FWw_CFG_WIDTH w == 0 && kind ≤ 2 &&
    (kind != 0 || (v Reg.FWw_CFG_WIDTH w == 2 && v Reg.FWw_CFG_WRITE w == 0 && stop ≤ 0x120000)) && (kind != 2 || stop ≤ winSize) &&
    !(v Reg.FWw_CFG_PREFETCHABLE w == 1 && v Reg.FWw_CFG_SIDE_EFFECT w == 1)

/-- The demands of the image's own car record. -/
def CfgImage.demands (c : CfgImage) : List Demand :=
  ((c.table.cars.find? fun r => r.carIndex == c.carIndex).map fun r => r.demands).getD []

/-- Length of a destination's data area, where the destination exists and may be written by a map (R474, R475). -/
def mapDest (c : CfgImage) (e : GwEntry) : Option Nat :=
  if e.dkind == 1 then
    if c.pubs.any fun p => p.1 == e.dstA then none else (c.demands.find? fun d => d.func == e.dstA).map fun d => d.size
  else if e.dkind == 2 then
    (((c.tels.getD [])[e.dstA]?).filter fun t => t.dir == 1 && t.bind.isNone).map fun t => t.dlen
  else if e.dkind == 3 then
    if c.canBufs.any fun x => x.1 == e.dstA / 2 ^ 13 && x.2.1 == e.dstA % 128 && x.2.2.2.1 % 4 == 2 then some 64 else none
  else none

/-- A map entry on its own (R475). -/
def mapOk (c : CfgImage) (e : GwEntry) : Bool :=
  let inside (big : Bool) (start n len : Nat) : Bool := (fieldBits big start n).all fun x => x < 8 * len
  let src := if e.skind == 2 then (((c.tels.getD [])[e.srcA]?).filter fun t => t.bind.isNone).map fun t => t.dlen
    else if e.skind == 3 then some 64 else some 760
  e.skind == 0 || (e.skind ≤ 4 && 1 ≤ e.dstLen && e.dstLen ≤ 64 &&
    (e.skind == 4 || (1 ≤ e.srcLen && e.srcLen ≤ 64 && src.any fun n => inside e.srcBig e.srcBit e.srcLen n)) &&
    (mapDest c e).any fun n => inside e.dstBig e.dstBit e.dstLen n)

/-- The map table (R475): no two entries write overlapping bits. -/
def mapsOk (c : CfgImage) : Bool :=
  let l := ((c.maps.getD []).filter fun e => e.skind != 0)
  l.all (mapOk c) && l.length ≤ 4096 &&
  decide (l.flatMap fun e => (fieldBits e.dstBig e.dstBit e.dstLen).map fun x => (e.dkind, e.dstA, x)).Nodup

/-- The placement (R509): sizes in KiB by group; group 7 has its general part. -/
def placementOk (c : CfgImage) : Bool :=
  let size (k : Nat) : Nat := State.reset.get Reg.MEM_REGIONk_SIZE [k]
  let group (k : Nat) : Nat :=
    if c.regs.any fun x => x.2.1 == Reg.MEM_REGIONk_GROUP.off [k] then imageField c.regs Reg.MEM_REGIONk_GROUP [k]
    else State.reset.get Reg.MEM_REGIONk_GROUP [k]
  (List.range 8).all fun g =>
    ((List.range 11).filter fun k => group k == g).foldl (fun a k => a + size k) 0 ≤ (if g == 7 then 2048 else 4096)

namespace State

/-- The first failing check of a staged image (R587), with its number; `sig`: the signature verifies under the configuration key. -/
def imageFault (s : State) (b : List Byte) (sig : Bool) : Option Nat :=
  let c := parseImage b
  if beAt b 0 4 != 0x4C4A4346 || beAt b 4 2 != 1 || beAt b 6 2 != 256 || beAt b 8 4 != b.length then some 1
  else if s.sec.cfgKey != some (beAt b 24 4) || !sig then some 2
  else if c.table.consist != c.consist || !(c.table.cars.any fun r => r.carIndex == c.carIndex && (r.uidA == s.uid || r.uidB == s.uid)) then some 3
  else if c.version ≤ s.get Reg.CFG_VER_MAX_VER then some 4
  else if !(sectionsOk b && lineRulesOk b c && tableOk b c && rightsOk c && windowsOk c && mapsOk c && placementOk c) then some 5
  else none

end State

end Sys2Proof.Machine
end

