-- ==== Sys2Proof/Machine/ConfLoad.lean ====
section
/-!
DEFINITION. Loading a configuration image (Table 22-2, R590) and the power domains PD4 to PD9, whose settings firmware restores from
the ACTIVE image (R63, R64).
-/

namespace Sys2Proof.Machine

namespace State

/-! Sections -/

/-- The modes enabled on the line ports. -/
def portModes (s : State) : List Nat := (List.range 4).map fun n => s.get Reg.LPn_CTL_MODES [n]

/-- Port settings have changed from those with the given modes: a line port that then fails R128 enters HELD, a port whose MODES changed
returns to PROBE (Table 22-2), with the fastest rate enabled then as its ceiling (log 89). -/
def portsChanged (s : State) (modes : List Nat) : State :=
  let s := (List.range 4).foldl (fun s n =>
    if s.isXlink n then s
    else if s.get Reg.LPn_CTL_MODES [n] != modes.getD n 0 then (if s.pst n == 0 then s.freshCeil n else (s.freshCeil n).probe n 0)
    else if s.pst n == 4 then
      match (s.port n).nbr with
      | some h => if s.holdWhy n h != 0 then s.hold n (s.holdWhy n h) else s
      | none => s
    else s) s
  (List.range 12).foldl (fun s n => s.cpSettle n) s.settlePorts

/-- Section 4. -/
def loadPorts (s : State) (c : CfgImage) : State := (s.applyRegs 4 c.regs).portsChanged s.portModes

/-- The configured part of the message buffers (R485). -/
def loadBufs (s : State) (c : CfgImage) : State :=
  c.canBufs.foldl (fun s (g, b, w0, w50, w54, w58) =>
    s.modBuf g b fun y => { y with
      type := w50 % 4, irq := bit w50 2, hostRead := bit w50 3, filtId := w54 % 2 ^ 30, filtMask := w58 % 2 ^ 30
      frame := if w50 % 4 == 2 then { y.frame with id := w0 % 2 ^ 29, ide := bit w0 29, rtr := bit w0 30 } else y.frame }) s

/-- A controller's bit timing. -/
def bitTiming (s : State) (n : Nat) : List Nat :=
  [Reg.CANn_NBT_SJW, Reg.CANn_NBT_TSEG2, Reg.CANn_NBT_TSEG1, Reg.CANn_NBT_BRP, Reg.CANn_DBT_SJW, Reg.CANn_DBT_TSEG2, Reg.CANn_DBT_TSEG1,
    Reg.CANn_DBT_BRP, Reg.CANn_TDC_EN, Reg.CANn_TDC_OFFSET].map fun f => s.get f [n]

/-- Controllers' settings have changed from those with the given bit timings: a controller whose bit timing changed passes through
INIT (Table 22-2). -/
def cansChanged (s : State) (old : List (List Nat)) : State :=
  (List.range 8).foldl (fun s n =>
    let s := if s.cst n ≥ 2 && s.bitTiming n != old.getD n [] then
        s.canInit n
      else s
    s.canSettle n) s

/-- Section 5. -/
def loadCan (s : State) (c : CfgImage) : State :=
  let old := (List.range 8).map fun n => s.bitTiming n
  let s := s.applyRegs 5 c.regs
  (if s.domainOn 8 then s.loadBufs c else s).cansChanged old

/-- Sections 6 and 7: the gateway entries fire at their first evaluation (R473). -/
def loadMaps (s : State) (c : CfgImage) : State :=
  let s := match c.maps with
    | some l => (s.set Reg.GW_CTL_COUNT [] l.length).modCon fun x => { x with maps := l }
    | none => s
  let s := match c.tels with
    | some l => s.modCon fun x => { x with tels := l.zipIdx.map fun (y : Tel × Nat) =>
        let z := x.tels.getD y.2 default
        if z.dir == y.1.dir && z.comId == y.1.comId then { y.1 with seq := z.seq } else y.1 }
    | none => s
  let was := s.on Reg.TRDP_CTL_EN
  let s := (s.applyRegs 7 c.regs).gwRestart
  if was && s.on Reg.TRDP_CTL_EN then s else s.modCon fun x => { x with igmpAt := none }

/-- The settings of a sluice entry. -/
def sluiceWords (s : State) (k : Nat) : List Nat :=
  [Reg.SLUk_A_MASK, Reg.SLUk_A_CODE, Reg.SLUk_B_EN, Reg.SLUk_B_CAP, Reg.SLUk_B_REFILL].map fun f => s.get f [k]

/-- Sluice entries that have changed from those given start full (R538). -/
def sluiceChanged (s : State) (old : List (List Nat)) : State :=
  (List.range 256).foldl (fun s k =>
    if s.sluiceWords k == old.getD k [] then s
    else (s.set Reg.SLUk_CNT_TOKENS [k] (s.get Reg.SLUk_B_CAP [k])).modTally fun t => { t with
      buckets := t.buckets.map fun x => if x.1 == k then (k, { x.2 with acc := 0 }) else x }) s

/-- Section 8. -/
def loadSluice (s : State) (c : CfgImage) : State :=
  (s.applyRegs 8 c.regs).sluiceChanged ((List.range 256).map fun k => s.sluiceWords k)

/-- Section 9: a tenant that it does not name has no rights (R373); queues at or above a lowered QMAX are disabled. -/
def loadRights (s : State) (c : CfgImage) : State :=
  let s := (List.range 17).foldl (fun s t => s.setWord (sectionFields 9) (Reg.TN_RIGHTS_QMAX.off [t]) 0) s
  let s := s.applyRegs 9 c.regs
  (List.range 17).foldl (fun s t => (List.range 16).foldl (fun s q =>
    if q ≥ s.get Reg.TN_RIGHTS_QMAX [t] && s.on Reg.HQq_CTL_EN [t, q] then s.disableQueue t q else s) s) s

/-- Rights while no valid ACTIVE image is in force (R374). -/
def defaultRights (s : State) : State :=
  [0, 8, 16].foldl (fun s t => ((s.set Reg.TN_RIGHTS_QMAX [t] 2).set Reg.TN_RIGHTS_CONFIG [t] 1).set Reg.TN_RIGHTS_ATTEST [t] 1) s

/-- The sources of the node's own FUNCs (R351); a parcel that has been refreshed keeps its data (R358). -/
def loadPubs (s : State) (c : CfgImage) : State :=
  let maps := s.con.maps
  let mk (d : Demand) : Option OwnPub :=
    let entry := maps.findIdx? fun e => e.skind != 0 && e.dkind == 1 && e.dstA == d.func
    let source : Option PubSource := match c.pubs.find? fun p => p.1 == d.func with
      | some p => some (.tenant p.2)
      | none => entry.map .map
    source.map fun src =>
      let n := (entry.map fun k => (maps.getD k default).parN).getD 0
      let dflt := slice ((Sparse.find d.func c.defaults).getD []) 0 d.size
      let fresh : OwnPub := ⟨d.func, src, d.size, if n == 0 then 4 else n, dflt, dflt, 0, 0, false, none⟩
      match s.mill.pubs.find? fun p => p.func == d.func && p.size == d.size with
      | some p => { p with source := if p.source == .partner && (entry.isNone) then .partner else src, staleN := fresh.staleN, dflt := dflt }
      | none => fresh
  s.modMill fun m => { m with pubs := c.demands.filterMap mk }

/-- A placement that differs from the one in force waits for the next boot (R509). -/
def showPlacement (s : State) : State :=
  s.flag Reg.MEM_STAT_PLACE_PENDING [] (((List.range 11).map fun k => s.get Reg.MEM_REGIONk_GROUP [k]) != s.sec.groups)

/-- Section 11; HOST_CAPS and the placement come into force at a boot. -/
def loadPlatform (s : State) (c : CfgImage) (boot : Bool) : State :=
  let s := s.applyRegs 11 c.regs fun off => !boot && (Reg.HOST_CAPS_BAR4_EN.find off).isSome
  let s := if boot then s.modSec fun x => { x with groups := (List.range 11).map fun k => s.get Reg.MEM_REGIONk_GROUP [k] } else s
  s.showPlacement

/-- The line rules, section 2. -/
def loadRules (s : State) (c : CfgImage) : State := (s.applyRegs 2 c.regs).modConf fun x => { x with senders := c.senders }

/-- Load an image. `boot`: at a boot; `rules`: its line rules come into force with it. Sections 1 and 3 are taken at once at a boot or
where no image was in force, else at the next DISCOVER. -/
def loadImage (s : State) (c : CfgImage) (boot rules first : Bool) : State :=
  let s := s.modConf fun x => { x with ident := some (c.regs, c.table) }
  let s := if boot || first then s.takeIdentity else s
  let s := if rules then s.loadRules c else s
  let s := if rules && !s.ticking then s.set Reg.TURN_LEN_LEN_ACT [] (s.get Reg.TURN_LEN_LEN) else s
  let s := ((((s.loadPorts c).loadCan c).loadMaps c).loadSluice c).loadRights c
  ((s.loadPubs c).applyRegs 10 c.regs).loadPlatform c boot

/-! Domains (R63, R64, Table 3-2) -/

/-- PD8 comes on: every controller leaves OFF, and one whose wake waits is woken (R506). -/
def canStart (s : State) : State :=
  (List.range 8).foldl (fun s n =>
    if s.cst n != 0 then s
    else
      let s := ((s.set Reg.CANn_STAT_STATE [n] 1).modCtl n fun c => { c with armed := false }).canSettle n
      if (s.ctl n).wakeHeld then
        (s.modCtl n fun c => { c with wakeHeld := false }).canIrq n Reg.CANn_IRQ_WAKE Reg.CANn_IRQ_EN_WAKE
      else s) s

/-- A domain of PD4 to PD9 is powered; its settings come from the ACTIVE image. -/
def domainUp (s : State) (n : Nat) : State :=
  let s := (s.setBits Reg.PWR_STAT_PD_ON [] (2 ^ n)).modPower fun p => { p with rising := p.rising ^^^ (p.rising &&& 2 ^ n) }
  let mine (off : Nat) : Bool :=
    if n == 4 || n == 5 then (Reg.LPn_CTL_EN.find off).any fun ix => ix.headD 0 / 2 == n - 4
    else ([Reg.CPn_CTL_EN, Reg.CPn_PLCA_EN].any fun f => (f.find off).any fun ix => cpDomain (ix.headD 0) == n)
  let s := match s.conf.active with
    | none => s
    | some c =>
      if n == 8 then (s.applyRegs 5 c.regs).loadBufs c
      else if n ≤ 7 then s.applyRegs 4 c.regs fun off => !mine off
      else s
  if n == 4 || n == 5 then s.settlePorts
  else if n == 6 || n == 7 then (List.range 12).foldl (fun s k => if cpDomain k == n then s.cpSettle k else s) s
  else if n == 8 then s.canStart
  else s

/-- A domain of PD4 to PD9 goes off: its ports and controllers are dead and their work ends as Table 15-15 states. -/
def domainDown (s : State) (n : Nat) : State :=
  let s := if n == 8 then
      let cut := (s.can.ctls.flatMap fun c => (c.bufs.filterMap fun x => x.2.own) ++ c.waits.map fun w => (w.1, w.2.1, w.2.2.1))
      (cut.foldl (fun s d => s.complete d.1 d.2.1 d.2.2 1 0 0) s).canOff
    else if n == 9 then s.hostsOff else s
  let s := s.clrBits Reg.PWR_STAT_PD_ON [] (2 ^ n)
  if n == 4 || n == 5 then s.settlePorts
  else if n == 6 || n == 7 then (List.range 12).foldl (fun s k => if cpDomain k == n then s.cpSettle k else s) s
  else s

end State

end Sys2Proof.Machine
end

