-- ==== Sys2Proof/Machine/Conf.lean ====
section
/-!
DEFINITION. Staging, activation, trial and rollback of configuration and firmware images (22_configuration_images.md, R112 to R119,
R396, R397): the commands CONFIG_STAGE to CONFIG_ROLLBACK_TICK.
-/

namespace Sys2Proof.Machine

namespace State

/-- Record source of configuration work: CPU pair 1. -/
abbrev cfgSrc : Nat := 2

/-! The slots (R586) -/

/-- Show what the slots hold. -/
def showSlots (s : State) : State :=
  let ver (c : Option CfgImage) : Nat := (c.map fun x => x.version).getD 0
  let s := (s.flag Reg.CFG_STAT_ACTIVE_VALID [] s.conf.active.isSome).flag Reg.CFG_STAT_PREV_VALID [] s.conf.prev.isSome
  let s := (s.flag Reg.CFG_STAT_STAGED_VALID [] s.conf.staged.isSome).set Reg.CFG_VER_ACTIVE_VER [] (ver s.conf.active)
  let s := (s.set Reg.CFG_VER_PREV_VER [] (ver s.conf.prev)).set Reg.CFG_VER_STAGED_VER [] (ver s.conf.staged)
  let s := (s.flag Reg.FIRST_USE_NO_PREV_CFG [] s.conf.prev.isNone).flag Reg.GLOBAL_STAT_CONFIG_VALID [] s.conf.active.isSome
  s.modConf fun x => { x with lrActive := (x.active.map fun c => c.lrDigest / 2 ^ 256).getD 0 }

/-- Show what waits. -/
def showWait (s : State) : State :=
  let armed := s.conf.wait.any fun w => w.kind == .armed || w.kind == .rollbackArmed
  let s := s.flag Reg.CFG_STAT_ARMED [] armed
  let s := s.flag Reg.CFG_STAT_HELD [] (s.conf.wait.any fun w => w.kind == .rollbackArmed)
  s.modConf fun x => { x with lrStaged := if armed then (x.staged.map fun c => c.lrDigest / 2 ^ 256).getD 0 else 0 }

/-- What a waiting activation or rollback has become. -/
def setWait (s : State) (w : Option CfgWait) : State := (s.modConf fun x => { x with wait := w }).showWait

/-- Complete the descriptor of a waiting activation or rollback. -/
def endWait (s : State) (status rval : Nat) : State :=
  match s.conf.wait.bind fun w => w.desc with
  | some d => s.complete d.1 d.2.1 d.2.2 status 0 rval
  | none => s

/-- A configuration or firmware trial is running (Table 22-3). -/
def onTrial (s : State) : Bool := s.on Reg.CFG_STAT_TRIAL || s.on Reg.FW_BANK_STAT_TRIAL

/-! Activation and rollback (R590, R595) -/

/-- Firmware brings the node up from the first image as from boot milestone 0x4 (R590): PD4 to PD9 and TURN_CTL.EN. -/
def bringUp (s : State) : State :=
  let s := [4, 5, 6, 7, 8, 9].foldl (fun s n => if s.domainOn n then s else s.domainUp n) s
  if s.get Reg.BOOT_STAT_STAGE ≥ 5 && s.get Reg.BOOT_STAT_STAGE != 0xE then s.set Reg.TURN_CTL_EN [] 1 else s

/-- The steps that end an activation or rollback: the image in force is loaded and measured, and links HELD by a fallback are
released (R262). -/
def takeImage (s : State) (rules first : Bool) : State :=
  match s.conf.active with
  | none => s
  | some c =>
    let s := (s.showSlots.loadImage c false (rules || first) first).measConfig
    let s := if first then s.bringUp else s
    s.releaseFallback.certify.settleLine.relays

/-- An activation takes effect (R590); `rules`: at the adoption turn of its line rules (R591). -/
def activate (s : State) (rules : Bool) : State :=
  match s.conf.staged with
  | none => s
  | some c =>
    let first := s.conf.active.isNone
    let s := s.modConf fun x => { x with
      prev := x.active, active := some c, staged := none, trialEnd := s.clock.optime + 1000, confirmed := false
      failed := none, lostLine := false, trial := true }
    let s := ((s.writeSlots.set Reg.CFG_STAT_TRIAL [] 1).set Reg.CFG_STAT_CONFIRMED [] 0).set Reg.CFG_TRIAL_OVR [] 0
    let s := (s.set Reg.CFG_VER_MAX_VER [] c.version).takeImage rules first
    let s := ((s.endWait 0 c.version).setWait none).inc Reg.CFG_CNT_ACTIVATIONS
    s.record 0x6003 2 cfgSrc c.version (b2n rules)

/-- The records and counters of a performed rollback; `cause`: of an automatic one. -/
def rollbackDone (s : State) (tenant : Nat) (cause : Option Nat) : State :=
  let v := s.get Reg.CFG_VER_ACTIVE_VER
  match cause with
  | some k => ((s.inc Reg.CFG_CNT_AUTO_RB).set Reg.CFG_STAT_LAST_CAUSE [] k).record 0x6005 4 cfgSrc k v
  | none => (s.inc Reg.CFG_CNT_CMD_RB).record 0x6006 3 cfgSrc tenant v

/-- The trial ends without passing. -/
def dropTrial (s : State) : State :=
  (s.modConf fun x => { x with failed := none, lostLine := false, trial := false }).set Reg.CFG_STAT_TRIAL [] 0

/-- A rollback to an image takes place (R595). -/
def rollTo (s : State) (c : CfgImage) (rules : Bool) (tenant : Nat) (cause : Option Nat) : State :=
  let s := s.dropTrial.modConf fun x => { x with
    active := some c, prev := none, staged := if rules then none else x.staged }
  let s := s.writeSlots.takeImage rules false
  ((s.endWait 0 0).setWait none).rollbackDone tenant cause

/-- A rollback whose PREVIOUS has other line rules is held and armed (R596). -/
def holdRollback (s : State) (c : CfgImage) (w : CfgWait) : State :=
  let s := s.dropTrial.modConf fun x => { x with prev := none, staged := some c }
  (s.writeSlots.showSlots.setWait (some { w with kind := .rollbackArmed })).record 0x6007 4 cfgSrc c.version 0

/-- A rollback is due (R595, R596), automatic with a cause or as a wait commands. Without PREVIOUS an automatic one only ends the
trial (R593). -/
def rollback (s : State) (w : CfgWait) : State :=
  match s.conf.prev with
  | none => if w.cause.isSome then s.dropTrial.writeSlots.rollbackDone 0 w.cause else (s.endWait 7 0).setWait none
  | some c =>
    if (s.conf.active.map fun x => x.lrDigest) != some c.lrDigest then s.holdRollback c w
    else s.rollTo c false w.tenant w.cause

/-- The adoption of agreed line rules carries out what is armed (R591, R596). -/
def adoptRules (s : State) : State :=
  match s.conf.wait with
  | some w =>
    if w.kind == .armed then s.activate true
    else match s.conf.staged with
      | some c => s.rollTo c true w.tenant w.cause
      | none => s
  | none => s

/-! Staging (R396, R587, R114) -/

/-- The bank that staging writes (R114): the inactive one, that is the one which the bank control record does not name active. The spec
does not say which bank is inactive while the node runs the other one by FALLBACK: DESIGN CHOICE (log 87). -/
def spareBank (s : State) : Nat := 1 - s.boot.active

/-- Show what the banks hold. -/
def showBanks (s : State) : State :=
  let b (k : Nat) : Bank := s.boot.banks.getD k default
  let s := (s.flag Reg.FW_BANK_STAT_BANK0_VALID [] (b 0).good).flag Reg.FW_BANK_STAT_BANK1_VALID [] (b 1).good
  let ver (k : Nat) : Nat := if (b k).good then (b k).version else 0
  let s := (s.set Reg.FW_VER_0_VER [] (ver 0)).set Reg.FW_VER_1_VER [] (ver 1)
  let s := (s.set Reg.FW_SVN_BANK0 [] (b 0).svn).set Reg.FW_SVN_BANK1 [] (b 1).svn
  let s := (s.set Reg.FW_SVN_FUSE [] s.sec.fuses).set Reg.FW_BANK_STAT_ACTIVE [] s.boot.active
  s.flag Reg.FIRST_USE_NO_PREV_FW [] (!((b s.spareBank).good && s.sec.fuses ≤ (b s.spareBank).svn))

/-- The LAST piece is written: the image is checked and taken (R114, R587). -/
def endStaging (s : State) (t q i : Nat) (g : Staging) (sig : Bool) : State :=
  let s := s.modHost fun h => { h with staging := none }
  if g.kind == 0 then
    let c := parseImage g.data
    match s.imageFault g.data sig with
    | some k => (s.record 0x6002 3 cfgSrc k (if k == 1 then 0 else c.version)).complete t q i 5 0 0
    | none =>
      let s := (s.modConf fun x => { x with staged := some c }).writeSlots.showSlots
      (s.record 0x6001 1 cfgSrc c.version t).complete t q i 0 0 0
  else
    let (ver, svn, part, cert) := Config.firmware g.data
    let ok := sig && s.sec.fuses ≤ svn && svn ≤ 64 && part == 0x0880
    let bank : Bank := ⟨true, ver, svn, ok, cert, false, sha384 g.data⟩
    let s := (s.modBoot fun b => { b with banks := listSet b.banks s.spareBank bank }).showBanks
    s.complete t q i (if ok then 0 else 5) 0 0

/-- The last unit of a piece of an image is written to MRAM. -/
def pieceWritten (s : State) (t q i : Nat) : State :=
  match s.host.staging with
  | some g => (match g.last with
    | some (t', q', i', sig) => if t' == t && q' == q && i' == i then s.endStaging t q i g sig else s.complete t q i 0 0 0
    | none => s.complete t q i 0 0 0)
  | none => s.complete t q i 0 0 0

/-- The tenant's own staging is abandoned. -/
def abandon (s : State) (t : Nat) : State :=
  let piece (b : Bulk) : Bool := match b.data with
    | .piece u _ _ => u == t
    | .epoch _ _ => false
  (s.modHost fun h => { h with staging := h.staging.filter fun g => g.tenant != t }).modPower fun p => { p with
    bulk := p.bulk.filter fun b => !piece b }

/-- A new staging of a kind begins: what the place held is no valid image any more. -/
def beginStaging (s : State) (t kind total : Nat) : State :=
  let s := s.modHost fun h => { h with staging := some ⟨t, kind, [], total, none⟩ }
  if kind == 0 then (s.modConf fun x => { x with staged := none, slots := { x.slots with staged := none } }).showSlots
  else (s.modBoot fun b => { b with banks := listMod b.banks s.spareBank fun x => { x with good := false } }).showBanks

/-- CONFIG_STAGE (R396, R588): the piece becomes a bulk write, whose units the MRAM controller then writes (R68). -/
def configStage (s : State) (t q i : Nat) (d : Desc) (given : List Byte) (sig : Bool) : State :=
  let kind := d.arg0 % 16
  let last := bit d.arg0 8
  let off := bits d.arg0 63 32
  let total := d.arg1 % 2 ^ 32
  if d.len < 8 || d.len > 2 ^ 20 || (!last && d.len % 8 != 0) || kind > 1 || !inWin t d.buf d.len then s.failCheck t q i 6
  else if total > (if kind == 0 then 0x400000 else 0x800000) || off + d.len > total || last != (off + d.len == total) then
    (s.abandon t).failCheck t q i 6
  else
    let busy := s.conf.wait.isSome || s.boot.update.isSome || (s.boot.restart.any fun r => r.1 == .update) ||
      (kind == 1 && s.on Reg.FW_BANK_STAT_TRIAL)
    let other := s.host.staging.any fun g => g.tenant != t
    if off == 0 && (other || busy) then s.complete t q i 7 0 0
    else if off != 0 && !(s.host.staging.any fun g => g.tenant == t && g.kind == kind && g.total == total && g.data.length == off && g.last.isNone)
      then (s.abandon t).failCheck t q i 6
    else
      if bufWaits t d given then s.readStall else
      let (data, s) := s.takeBuf t d given
      let s := if off == 0 then s.beginStaging t kind total else s
      let s := (s.startWork t q i).modHost fun h => { h with staging := h.staging.map fun g => { g with
        data := g.data ++ data, last := if last then some (t, q, i, sig) else none } }
      s.bulkStart (.piece t q i) data.length

/-! CONFIG_ACTIVATE (R115, R117, R589 to R594) -/

/-- KIND 0 without flags (Table 22-3); `partner`: the version of the partner's ACTIVE image (log 54). -/
def activateConfig (s : State) (t q i partner : Nat) : State :=
  let wait (k : CfgKind) : State := (s.startWork t q i).setWait (some ⟨k, some (t, q, i), t, none, s.clock.turn⟩)
  match s.conf.staged with
  | none => s.complete t q i 7 0 0
  | some c =>
    if s.conf.wait.isSome || s.onTrial then s.complete t q i 7 0 0
    else if s.paired && s.isLeader && s.partnerIn && partner != c.version then s.complete t q i 5 0 0
    else match s.conf.active with
      | none => wait (if s.inSlack then .activateHeld else .activate)
      | some a =>
        if a.lrDigest != c.lrDigest then wait .armed
        else if s.standing || s.inSlack then wait .activateHeld
        else wait .activate

/-- KIND 1 without flags (R115, R117); `measured`: the security engine can measure the staged bank. -/
def activateFirmware (s : State) (t q i : Nat) (measured : Bool) : State :=
  let b := s.boot.banks.getD s.spareBank default
  if s.paired && s.isLeader && s.partnerIn then s.complete t q i 5 0 0
  else if s.boot.update.isSome || s.on Reg.FW_BANK_STAT_TRIAL then s.complete t q i 7 0 0
  else if !b.good || !measured then s.complete t q i 5 0 0
  else (s.startWork t q i).modBoot fun x => { x with
    update := some (some (t, q, i)), banks := listMod x.banks s.spareBank fun y => { y with wp := true } }

/-- CONFIRM (R594): the running trial of its kind. -/
def confirmTrial (s : State) (t q i kind : Nat) : State :=
  if !s.on (if kind == 0 then Reg.CFG_STAT_TRIAL else Reg.FW_BANK_STAT_TRIAL) then s.complete t q i 7 0 0
  else
    let s := if kind == 0 then s.modConf fun x => { x with confirmed := true } else s.modBoot fun b => { b with trialOk := true }
    (s.set Reg.CFG_STAT_CONFIRMED [] 1).complete t q i 0 0 0

/-- CANCEL (R591, R592). -/
def cancelArmed (s : State) (t q i : Nat) : State :=
  match s.conf.wait with
  | some w =>
    if w.kind == .rollbackArmed then s.complete t q i 5 0 0
    else if w.kind == .armed then ((s.endWait 1 0).setWait none).complete t q i 0 0 0
    else s.complete t q i 7 0 0
  | none => s.complete t q i 7 0 0

/-- CONFIG_ROLLBACK (R119, R397, R595). -/
def configRollback (s : State) (t q i kind : Nat) : State :=
  if kind != 0 then s.failCheck t q i 6
  else if s.conf.prev.isNone || s.conf.wait.isSome then s.complete t q i 7 0 0
  else (s.startWork t q i).setWait (some ⟨.rollback, some (t, q, i), t, none, s.clock.turn⟩)

/-! Ticks and trials -/

/-- The tick that follows a turn has come, or the node has no tick (R590, R593). -/
def tickAfter (s : State) (turn : Nat) : Bool := !s.ticking || turn != s.clock.turn

/-- The waiting node-local activation may act (R590): at the next tick, a held one in RUN, or without a directory, and out of slack. -/
def mayActivate (s : State) : Bool :=
  match s.conf.wait with
  | some w => s.tickAfter w.born && (w.kind == .activate || (w.kind == .activateHeld && !s.standing && !s.inSlack))
  | none => false

/-- An automatic rollback that is due (R593). A CONFIG_ROLLBACK that waits for the same tick completes with it (log 102). -/
def dueRollback (s : State) : Option CfgWait :=
  match s.conf.failed with
  | some (c, turn) =>
    if s.on Reg.CFG_STAT_TRIAL && s.tickAfter turn then some ⟨.rollback, s.conf.wait.bind fun w => w.desc, 0, some c, turn⟩ else none
  | none => match s.conf.wait with
    | some w => if w.kind == .rollback && s.tickAfter w.born then some w else none
    | none => none

/-- The criteria of Table 22-4 at the end of a NIT (R593). -/
def checkTrial (s : State) : State :=
  if !s.on Reg.CFG_STAT_TRIAL || s.conf.failed.isSome then s
  else
    let need := s.conf.active.any fun c => c.confirmReq
    let cause := if s.get Reg.CFG_TRIAL_OVR ≥ 3 then some 1 else if s.conf.lostLine then some 2
      else if need && !s.conf.confirmed && s.conf.trialEnd ≤ s.clock.optime then some 3 else none
    s.modConf fun x => { x with failed := cause.map fun c => (c, s.clock.turn) }

/-- The opcode's descriptor with its flags CONFIRM and CANCEL. -/
def readyActivate (s : State) (t q i : Nat) (confirm cancel : Bool) : Option Desc :=
  (s.ready t q i 0x32).filter fun d => bit d.arg0 8 == confirm && bit d.arg0 9 == cancel

end State

/-- CONFIG_STAGE (R396); `sig`: the image's signature verifies. -/
def execConfigStage (t : Fin 17) (q : Fin 16) (i : Nat) (data : List Byte) (sig : Bool) (s : State) : Result :=
  .next (if !s.alive then s else match s.ready t.val q.val i 0x31 with
    | some d => s.configStage t.val q.val i d data sig
    | none => s)

/-- CONFIG_ACTIVATE (R115, R117, R589). -/
def execConfigActivate (t : Fin 17) (q : Fin 16) (i : Nat) (partner : Nat) (measured : Bool) (s : State) : Result :=
  .next (if !s.alive then s else match s.readyActivate t.val q.val i false false with
    | some d =>
      if d.arg0 % 16 == 0 then s.activateConfig t.val q.val i partner
      else if d.arg0 % 16 == 1 then s.activateFirmware t.val q.val i measured
      else s.failCheck t.val q.val i 6
    | none => s)

/-- CONFIG_CONFIRM (R594). -/
def execConfigConfirm (t : Fin 17) (q : Fin 16) (i : Nat) (s : State) : Result :=
  .next (if !s.alive then s else match s.readyActivate t.val q.val i true false with
    | some d => if d.arg0 % 16 ≤ 1 then s.confirmTrial t.val q.val i (d.arg0 % 16) else s.failCheck t.val q.val i 6
    | none => s)

/-- CONFIG_CANCEL (R592): with CONFIRM or with a KIND other than 0 it fails the argument check. -/
def execConfigCancel (t : Fin 17) (q : Fin 16) (i : Nat) (s : State) : Result :=
  .next (if !s.alive then s else match (s.ready t.val q.val i 0x32).filter fun d => bit d.arg0 9 with
    | some d => if bit d.arg0 8 || d.arg0 % 16 != 0 then s.failCheck t.val q.val i 6 else s.cancelArmed t.val q.val i
    | none => s)

/-- CONFIG_ROLLBACK (R595). -/
def execConfigRollback (t : Fin 17) (q : Fin 16) (i : Nat) (s : State) : Result :=
  .next (if !s.alive then s else match s.ready t.val q.val i 0x33 with
    | some d => s.configRollback t.val q.val i (d.arg0 % 16)
    | none => s)

/-- CONFIG_ACTIVATION_TICK (R590): at a tick, or at once without a tick. -/
def execConfigActivationTick (s : State) : Result :=
  .next (if s.alive && s.cpuUp 1 && s.mayActivate then s.activate false else s)

/-- CONFIG_TRIAL_END (R593, R594): after 1,000 units the trial passes if no criterion was met. -/
def execConfigTrialEnd (s : State) : Result :=
  .next (if !s.alive || !s.cpuUp 1 || !s.on Reg.CFG_STAT_TRIAL || s.clock.optime < s.conf.trialEnd then s
    else
      let s := s.checkTrial
      if s.conf.failed.isSome then s
      else s.dropTrial.writeSlots.record 0x6004 1 State.cfgSrc (s.get Reg.CFG_VER_ACTIVE_VER) (b2n s.conf.confirmed))

/-- CONFIG_ROLLBACK_TICK (R593, R595, R596): an automatic rollback that is due, or a commanded one. -/
def execConfigRollbackTick (s : State) : Result :=
  .next (if !s.alive || !s.cpuUp 1 then s
    else match s.dueRollback with
      | some w => s.rollback w
      | none => s)

end Sys2Proof.Machine
end

