-- ==== Sys2Proof/Machine/Flags.lean ====
section
/-!
DEFINITION. The alarm (R600, R601): ALARM_SRC as its conditions give it, and the level of ALARM_N.
-/

namespace Sys2Proof.Machine

namespace State

/-- A tamper event is latched whose source has response ALARM or WIPE (R577). -/
def tamperAlarm (s : State) : Bool :=
  (List.range 6).any fun k => bit (s.get Reg.SEC_TAMPER_STAT_EVENT) k && s.tamperResp k ≥ 1

/-- ALARM_SRC (R600). -/
def alarmWord (s : State) : Nat :=
  b2n (s.on Reg.PWR_STAT_VOUT_OVL) + 2 * b2n (s.on Reg.CLK_STAT_XT32_LOST) +
  4 * b2n (s.on Reg.LSTART_STAT_SPLIT_E1 || s.on Reg.LSTART_STAT_SPLIT_E2) +
  8 * b2n (s.on Reg.INAUG_STAT_FALLBACK_CONSIST || s.on Reg.INAUG_STAT_FALLBACK_NODE) +
  16 * b2n (s.on Reg.WEIR_STAT_FENCED [0] || s.on Reg.WEIR_STAT_FENCED [1]) +
  32 * b2n (s.wst 0 == 5 || s.wst 1 == 5) + 64 * b2n (s.on Reg.TALLY_STAT_DEGRADED) +
  128 * b2n (s.on Reg.ALARM_SRC_SEC_VIOL) + 256 * b2n (s.on Reg.MEM_SEC_STAT_FAILED) + 512 * b2n s.tamperAlarm +
  1024 * b2n (s.on Reg.CFG_STAT_HELD) + 2048 * b2n (s.get Reg.BOOT_STAT_STAGE == 0xE)

/-- ALARM_N is asserted: while a bit of ALARM_SRC is 1; under the mill brake it holds its level (R600, R601). -/
def alarm (s : State) : Bool :=
  s.power.on && (match s.pins.alarmHeld with
    | some b => b
    | none => s.alarmWord != 0)

end State

end Sys2Proof.Machine
end

