-- ==== Sys2Proof/Machine/Balls.lean ====
section
/-!
DEFINITION. The signal balls that the node drives (02_package_and_signals.md, Tables 2-3 to 2-6): their states during reset, and their
levels as State gives them (R38, R41, R46, R47, R53).
-/

namespace Sys2Proof.Machine

/-- A signal ball, or pair of balls, that the node may drive (Tables 2-3 to 2-6). -/
inductive Ball where
  | ppsOut
  | turnOut
  | lineMdi (port : Fin 4)
  | bypass (end_ : Fin 2)
  | resetOut
  | alarm
  | tdo
  | qspiIo
  | qspiInt
  | tamperA (loop : Fin 2)
  | gpio (i : Fin 16)
  | i2cScl
  | i2cSda
  | consoleTxd
  | consistMdi (port : Fin 10)
  | serdesTx (port : Fin 2)
  | mdc
  | mdio
  | canTxd (ctl : Fin 8)
  | canStb (ctl : Fin 8)
  | pcieTx (port : Fin 2)
  | clkreq (port : Fin 2)
  | wake (port : Fin 2)
  deriving DecidableEq, Repr, Inhabited

/-- What a ball shows: high impedance, with a pull-up or a pull-down, driven low or high, or a signal in progress. -/
inductive Level where
  | z
  | pullUp
  | pullDown
  | low
  | high
  | signal
  deriving DecidableEq, Repr, Inhabited

/-- The state of a ball during power-on reset and full reset (Tables 2-3 to 2-6, column Reset). -/
def Ball.duringReset : Ball → Level
  | .ppsOut => .low
  | .turnOut => .low
  | .lineMdi _ => .z
  | .bypass _ => .z
  | .resetOut => .low
  | .alarm => .z
  | .tdo => .z
  | .qspiIo => .z
  | .qspiInt => .z
  | .tamperA _ => .signal
  | .gpio _ => .pullDown
  | .i2cScl => .z
  | .i2cSda => .z
  | .consoleTxd => .pullUp
  | .consistMdi _ => .z
  | .serdesTx _ => .z
  | .mdc => .low
  | .mdio => .z
  | .canTxd _ => .high
  | .canStb _ => .high
  | .pcieTx _ => .z
  | .clkreq _ => .z
  | .wake _ => .z

/-- Every ball, in the order of the tables. -/
def Ball.all : List Ball :=
  [.ppsOut, .turnOut] ++ (List.finRange 4).map .lineMdi ++ (List.finRange 2).map .bypass ++ [.resetOut, .alarm, .tdo, .qspiIo, .qspiInt] ++
  (List.finRange 2).map .tamperA ++ (List.finRange 16).map .gpio ++ [.i2cScl, .i2cSda, .consoleTxd] ++
  (List.finRange 10).map .consistMdi ++ (List.finRange 2).map .serdesTx ++ [.mdc, .mdio] ++ (List.finRange 8).map .canTxd ++
  (List.finRange 8).map .canStb ++ (List.finRange 2).map .pcieTx ++ (List.finRange 2).map .clkreq ++ (List.finRange 2).map .wake

namespace State

/-- A push-pull output. -/
def pushPull (b : Bool) : Level := if b then .high else .low

/-- An open-drain output. -/
def openDrain (low : Bool) : Level := if low then .low else .z

/-- A consist port's MDI is in use. -/
def cpDriven (s : State) (n : Nat) : Bool := s.get Reg.CPn_STAT_STATE [n] != 0

/-- The line transmitters may send: the line has left OFF and the brake is not applied (Table 2-8). -/
def mayTransmit (s : State) (n : Nat) : Bool := s.lstate != 0 && !s.on Reg.DIAG_STAT_FROZEN && s.pst n != 0

/-- A ball of a node whose reset has ended. Where the spec gives a ball a function but no level at rest (console, I2C, MDIO, QSPI data, the
MDI and lane pairs), it shows a signal while its block may drive it. Under the mill brake the clocks stand still and CANn_TXD is recessive. -/
def ballOn (s : State) : Ball → Level
  | .ppsOut => pushPull s.pins.ppsOut
  | .turnOut => pushPull (s.ticking && s.phaseNs < 1000 * s.pins.turnOut)
  | .lineMdi n => if s.mayTransmit n.val then .signal else .z
  | .bypass _ => openDrain s.pins.bypassLow
  | .resetOut => pushPull !s.pins.resetOutLow
  | .alarm => openDrain s.alarm
  | .tdo => .z
  | .qspiIo => .z
  | .qspiInt => openDrain s.qspiInt
  | .tamperA _ => .signal
  | .gpio i =>
    if bit (s.get Reg.GPIO_DIR_OUT) i.val then
      (if bit (s.get Reg.GPIO_DIR_OD) i.val then openDrain !(bit (s.get Reg.GPIO_OUT_VAL) i.val) else pushPull (bit (s.get Reg.GPIO_OUT_VAL) i.val))
    else .pullDown
  | .i2cScl => .z
  | .i2cSda => .z
  | .consoleTxd => .signal
  | .consistMdi n => if s.cpDriven n.val then .signal else .z
  | .serdesTx n => if s.cpDriven (n.val + 10) then .signal else .z
  | .mdc => if s.con.mdio.isSome then .signal else .low
  | .mdio => if s.con.mdio.isSome then .signal else .z
  | .canTxd n =>
    if (s.ctl n.val).onBus.isSome && s.canMode n.val == 0 && !s.on Reg.DIAG_STAT_FROZEN then .signal else .high
  | .canStb n => pushPull (s.pins.canStb.getD n.val true)
  | .pcieTx p => if s.pins.perst.getD p.val false then .signal else .z
  | .clkreq p => openDrain (s.pins.clkreqLow.getD p.val false)
  | .wake _ => .z

/-- What a ball shows (R38, R41). While VIN is absent the node drives none but the tamper loops, and those only from VBACK. -/
def ball (s : State) (b : Ball) : Level :=
  if s.power.on then s.ballOn b
  else match b with
    | .tamperA _ => if s.on Reg.PWR_STAT_VBACK_OK then .signal else .z
    | _ => .z

/-- A level as a boundary-scan cell captures it: high or not. A signal in progress is sampled at a moment the model does not know: a free
value. -/
def cellOf (l : Level) (s : State) : Nat × State :=
  match l with
  | .high => (1, s)
  | .pullUp => (1, s)
  | .signal => s.take 1
  | _ => (0, s)

end State

end Sys2Proof.Machine
end

