-- ==== Sys2Proof/Machine/Brake.lean ====
section
/-!
DEFINITION. The mill brake and the IEEE 1149.1 port but for its read-out (24_mill_brake_and_diagnostics.md, R606 to R612).
-/

namespace Sys2Proof.Machine

namespace State

/-- The mill brake is applied for a cause, 0 FREEZE_N and 1 FREEZE (R606, R610, R611); the line state is OFF (Table 9-2). `tear`: a write unit of tally records in
progress is cut off and tears the first of its places. -/
def freeze (s : State) (cause : Nat) (tear : Bool) : State :=
  if s.on Reg.DIAG_STAT_FROZEN then s
  else
    let level := s.alarm
    let s := s.cutFrames
    let s := if tear && s.tally.due > 0 && !s.tally.queue.isEmpty then s.storeRecs false [.torn] else s
    let s := (s.measCycle.set Reg.DIAG_STAT_FROZEN [] 1).set Reg.DIAG_STAT_LAST [] cause
    let s := s.modDebug fun d => { d with
      frozen := some (cause, s.clock.optime), header := (s.clock.turn, s.nowNs, s.clock.optime, cause) }
    let s := ((s.set Reg.LSTART_STAT_PREV [] s.lstate).set Reg.LSTART_STAT_STATE [] 0).set Reg.LSTART_STAT_TURNS [] 0
    (s.modPins fun p => { p with alarmHeld := some level }).relays

/-- A request or token is refused: 0 FREEZE_N, 1 FREEZE, 2 token (R608, R609). -/
def brakeRefused (s : State) (what : Nat) : State :=
  (s.inc Reg.DIAG_CNT_REFUSED).recordT 0x5040 4 12 what s.sec.lifecycle

/-- A request to apply the mill brake (R606, R608); nothing happens to a node that is frozen already. -/
def brakeRequest (s : State) (cause : Nat) (tear : Bool) : State :=
  if s.on Reg.DIAG_STAT_FROZEN then s
  else if s.on Reg.DIAG_STAT_FRZ_EN then s.freeze cause tear else s.brakeRefused cause

/-- FRZ_EN becomes 1: FREEZE_N already low applies the mill brake at once (R607). -/
def allowFreeze (s : State) (tear : Bool) : State :=
  let was := s.on Reg.DIAG_STAT_FRZ_EN
  let s := s.set Reg.DIAG_STAT_FRZ_EN [] 1
  if !was && s.pins.freezeLow then s.freeze 0 tear else s

/-- The signer whose debug tokens count in the present life-cycle state (Table 24-1): 0 maintainer, 1 Farokel. -/
def tokenSigner (s : State) : Option Nat :=
  if s.sec.lifecycle == 2 then (if s.sec.maintKey.isSome then some 0 else none)
  else if s.sec.lifecycle == 3 then some 1
  else none

/-- A debug token is accepted (R609); `sig`: its signature verifies under its signer's key. -/
def tokenGood (s : State) (tok : List Byte) (sig : Bool) : Bool :=
  tok.length == 144 && s.dbg.nonce == some (slice tok 0 32) && beAt tok 32 8 == s.uid &&
  s.tokenSigner == some (beAt tok 40 1) && beAt tok 41 3 == 0 && sig

/-- The check of a debug token at Update-DR (R609). Each nonce serves one check. -/
def checkToken (s : State) (tok : List Byte) (sig freezeLow tear : Bool) : State :=
  let good := s.tokenGood tok sig
  let s := s.modDebug fun d => { d with nonce := none }
  let s := s.modPins fun p => { p with freezeLow := freezeLow }
  if good then
    let v := beAt tok 44 4
    let s := s.modDebug fun d => { d with tokenEnd := if v == 0 then 0 else s.clock.optime + v }
    let s := (s.set Reg.DIAG_STAT_TOKEN [] 1).modSec fun x => { x with tokens := x.tokens + 1 }
    let s := s.measCycle.recordT 0x5041 3 12 (beAt tok 40 1) v
    s.allowFreeze tear
  else s.brakeRefused 2

/-- The value of DIAG_STAT. -/
def diagStat (s : State) : Nat :=
  b2n (s.on Reg.DIAG_STAT_FRZ_EN) + 2 * b2n (s.on Reg.DIAG_STAT_FROZEN) + 4 * b2n (s.on Reg.DIAG_STAT_TOKEN) +
  256 * s.get Reg.DIAG_STAT_LAST

/-- Load an instruction into the instruction register. -/
def loadIr (s : State) (code : Nat) : State := s.modDebug fun d => { d with ir := code }

/-- The debug port works while the node is powered, under the mill brake too (R612). -/
def debugOn (s : State) : Bool := s.power.on

/-- What the boundary-scan cells capture: the levels of the input balls that State holds, then those of every ball the node drives, in the
order of the tables; number, kinds and order of the cells the spec does not give (Config.boundary, log 55). -/
def pinBytes (s : State) : List Byte × State :=
  let p := s.pins
  let ins := [p.strapPair, p.strapChan, p.strapPref] ++ p.cpl ++ [p.cab, p.inhibit] ++ p.perst ++ [p.freezeLow] ++
    (List.range 16).map fun i => bit s.gpioLevel i
  Ball.all.foldl (fun x b =>
    let (v, s) := cellOf (x.2.ball b) x.2
    (x.1 ++ [BitVec.ofNat 8 v], s)) (ins.map fun b => BitVec.ofNat 8 (b2n b), s)

/-- The cells capture the balls, which come out at TDO, and then hold what was shifted in. -/
def captureBalls (s : State) (cells : List Byte) : State :=
  let (l, s) := s.pinBytes
  (s.emit (.tdo (Config.boundary l))).modDebug fun d => { d with bsr := cells }

end State

/-- FREEZE_N_LOW (R606, R608): low for 20 ns; `held`: it stays low. -/
def execFreezeNLow (held tear : Bool) (s : State) : Result :=
  let s := s.modPins fun p => { p with freezeLow := held }
  .next (if s.power.on then s.brakeRequest 0 tear else s)

/-- DEBUG_TOKEN_LAPSE (R609): the token's validity has ended. -/
def execDebugTokenLapse (s : State) : Result :=
  .next (if s.alive && s.on Reg.DIAG_STAT_TOKEN && s.dbg.tokenEnd != 0 && s.dbg.tokenEnd ≤ s.clock.optime then
    let s := (s.set Reg.DIAG_STAT_TOKEN [] 0).modDebug fun d => { d with tokenEnd := 0 }
    s.flag Reg.DIAG_STAT_FRZ_EN [] (s.sec.lifecycle ≤ 1)
  else s)

/-- BYPASS (R612): the 1-bit register captures 0 and passes TDI on. -/
def execBypass (tdi : List Byte) (s : State) : Result :=
  .next (if s.debugOn then (s.loadIr 0xFF).emit (.tdo tdi) else s)

/-- IDCODE (R612). -/
def execIdcode (s : State) : Result :=
  .next (if s.debugOn then (s.loadIr 0x01).emit (.tdo (leBytes 4 0x20880001)) else s)

/-- SAMPLE_PRELOAD (R612): the cells capture the balls, and then hold what was shifted in. -/
def execSamplePreload (cells : List Byte) (s : State) : Result :=
  .next (if s.debugOn then
    (s.loadIr 0x02).captureBalls cells else s)

/-- EXTEST (R612): while FROZEN the cells drive the balls and capture them; otherwise it acts as BYPASS. -/
def execExtest (cells : List Byte) (s : State) : Result :=
  .next (if !s.debugOn then s
    else if s.on Reg.DIAG_STAT_FROZEN then
      ((s.loadIr 0x00).emit (.balls s.dbg.bsr)).captureBalls cells
    else (s.loadIr 0x00).emit (.tdo cells))

/-- NONCE (R609, R612): 32 fresh random bytes. The security engine stands still under the mill brake and gives none then. -/
def execNonce (s : State) : Result :=
  .next (if !s.debugOn then s
    else if s.on Reg.DIAG_STAT_FROZEN then s.loadIr 0x20
    else
      let (b, s) := s.takeRandom 32
      ((s.loadIr 0x20).modDebug fun d => { d with nonce := some (slice b 0 32) }).emit (.tdo (slice b 0 32)))

/-- TOKEN (R607, R609): `sig`: the signature verifies; `freezeLow`: the level of FREEZE_N; `tear`: as in FREEZE. The security engine, which
checks the token, stands still under the mill brake and checks none then. -/
def execToken (tok : List Byte) (sig freezeLow tear : Bool) (s : State) : Result :=
  .next (if !s.debugOn then s
    else if s.alive then (s.loadIr 0x21).checkToken tok sig freezeLow tear else s.loadIr 0x21)

/-- DIAG_STATUS (R612). -/
def execDiagStatus (s : State) : Result :=
  .next (if s.debugOn then (s.loadIr 0x22).emit (.tdo (leBytes 4 s.diagStat)) else s)

/-- FREEZE (R606, R608). -/
def execFreeze (tear : Bool) (s : State) : Result :=
  .next (if s.debugOn then (s.loadIr 0x30).brakeRequest 1 tear else s)

/-- RO_ADDR (R612): the read-out address, 8-byte aligned. -/
def execRoAddr (addr : Word) (s : State) : Result :=
  .next (if s.debugOn then (s.loadIr 0x31).modDebug fun d => { d with roAddr := addr.toNat / 8 * 8 } else s)

end Sys2Proof.Machine
end

