-- ==== Sys2Proof/Machine/Power.lean ====
section
/-!
DEFINITION. Supply, slack and power domains (03_supply_domains_and_slack.md), the clocks' supervision (R77, R309), operating time (R81),
the MRAM write units (R528, R547), credit (R24) and the GPIO edges (R31).
-/

namespace Sys2Proof.Machine

namespace State

/-- Record source of the power die and the always-on logic (Table 20-2). -/
abbrev powerSrc : Nat := 14

/-- VIN_WARN in 10 mV (R66). -/
def vinWarn (s : State) : Nat := 10 * s.get Reg.PWR_WARN_LEVEL + 420

/-- VIN_RST in 10 mV (R57). -/
abbrev vinRst : Nat := 380

/-- VIN, in 10 mV, is at or above the trickle floor (VIN_WARN + VIN_RST) / 2 (R71). -/
def aboveFloor (s : State) (vin : Nat) : Bool := 2 * vin ≥ s.vinWarn + vinRst

/-- Units of the trickle are 1 ms apart (R71). -/
abbrev trickleNs : Nat := 1000000

/-- A measurement of VIN, in 10 mV, with the lowest value since the last one. -/
def measureVin (s : State) (vin low : Nat) : State :=
  (s.set Reg.PWR_VIN_VIN [] vin).set Reg.PWR_VIN_VIN_MIN [] (min (s.get Reg.PWR_VIN_VIN_MIN) (min low vin))

/-! Domains (Table 3-2, R64) -/

/-- The condition of Table 3-2 for switching a domain off. -/
def mayGoOff (s : State) (n : Nat) : Bool :=
  if n == 4 || n == 5 then
    let e := n - 4
    let linkUp (p : Nat) : Bool := !s.isXlink p && (s.pst p == 4 || s.pst p == 5)
    !linkUp (2 * e) && !linkUp (2 * e + 1) && !s.pins.cpl.getD e false &&
      (!s.paired || [2 * (1 - e), 2 * (1 - e) + 1].any fun p => s.isXlink p && s.pst p == 4)
  else if n == 9 then !s.pins.perst.getD 0 false && !s.pins.perst.getD 1 false
  else n == 6 || n == 7 || n == 8

/-- A domain is asked off: off where Table 3-2 allows it, else refused (R64, R70). Answers whether it went off. -/
def askOff (s : State) (n : Nat) : Bool × State :=
  if !s.domainOn n then (false, s)
  else if s.mayGoOff n then (true, s.domainDown n)
  else (false, s.setBits Reg.PWR_SW_ERR_REFUSED [] (2 ^ (n - 4)))

/-- A domain is asked on (R64). -/
def askOn (s : State) (n : Nat) : State :=
  if s.domainOn n then s else s.modPower fun p => { p with rising := p.rising ||| 2 ^ n }

/-- A write of PWR_SW.OFF (R64); a domain shed in slack stays off until slack is left. The spec does not say what an off-request for a
domain that is still powering up does: here it ends the rise (DESIGN CHOICE, log 87). -/
def writeSw (s : State) (v : Nat) : State :=
  let s := s.set Reg.PWR_SW_OFF [] v
  [4, 5, 6, 7, 8, 9].foldl (fun s n =>
    if bit v (n - 4) then ((s.modPower fun p => { p with rising := p.rising ^^^ (p.rising &&& 2 ^ n) }).askOff n).2
    else if bit s.power.shed n then s else s.askOn n) s

/-! Slack (R67 to R72) -/

/-- Slack is entered (R67): the write unit of tally records in progress may still complete. -/
def enterSlack (s : State) (vin : Nat) : State :=
  let s := (s.measureVin vin vin).set Reg.PWR_STAT_SLACK [] 1
  let s := s.modPower fun p => { p with persistAt := none, slackAt := s.clock.up, trickleAt := s.clock.up }
  let s := s.inc Reg.PWR_SLACK_CNT_ENTRIES
  s.modTally fun t => { t with due := if t.due == 0 then 0 else s.unitLen t.due }

/-- The domains selected in PWR_SHED are shed, one by one, where Table 3-2 allows it (R67, R70). -/
def shed (s : State) : State :=
  let s := [4, 5, 6, 7, 8, 9].foldl (fun s n =>
    if bit (s.get Reg.PWR_SHED_DOMAINS) (n - 4) then
      let (went, s) := s.askOff n
      if went then s.modPower fun p => { p with shed := p.shed ||| 2 ^ n } else s
    else s) s
  s.flag Reg.PWR_STAT_SHED [] (s.power.shed != 0)

/-- Slack is left (R72): `low` is the minimum VIN in 10 mV, `dur` the duration in 100 µs. A shed domain whose PWR_SW.OFF bit was set during
slack stays off: the spec does not say which of the two counts (DESIGN CHOICE, log 87). -/
def leaveSlack (s : State) (low dur : Nat) : State :=
  let off := s.power.shed
  let s := ((s.set Reg.PWR_STAT_SLACK [] 0).set Reg.PWR_STAT_TRICKLE [] 0).set Reg.PWR_STAT_SHED [] 0
  let s := s.modPower fun p => { p with shed := 0, persistAt := none }
  let s := [4, 5, 6, 7, 8, 9].foldl (fun s n => if bit off n && !bit (s.get Reg.PWR_SW_OFF) (n - 4) then s.askOn n else s) s
  let dur := min dur 65535
  let s := (s.inc Reg.PWR_SLACK_CNT_RECOVERED).set Reg.PWR_DIP_MIN [] low
  (s.set Reg.PWR_DIP_DURATION [] dur).recordT 0x4001 2 powerSrc low dur

/-- Carry out the write held back first (R67, R72). -/
def deferredHead (s : State) (fail : Option Nat) : State :=
  match s.power.deferred with
  | [] => s
  | w :: l => (s.modPower fun p => { p with deferred := l }).mramApply w fail

/-- A bulk write is complete: what it brings is in the MRAM. -/
def bulkDone (s : State) (d : BulkData) : State :=
  match d with
  | .piece t q i => s.pieceWritten t q i
  | .epoch n c => s.modRed fun r => { r with persisted := some (n, c) }

/-- One unit of the bulk write in progress is written (R68). -/
def bulkUnit (s : State) : State :=
  match s.power.bulk with
  | [] => s
  | b :: l =>
    if b.left ≤ 1 then (s.modPower fun p => { p with bulk := l }).bulkDone b.data
    else s.modPower fun p => { p with bulk := { b with left := b.left - 1 } :: l }

/-- One unit of the trickle (R71, R529): `vin` in 10 mV. The rule says when the trickle runs and not how far it drains the queue: it stops
as soon as fewer than 3,072 entries remain (DESIGN CHOICE, log 87). -/
def trickle (s : State) (vin : Nat) (fail : Option Nat) : State :=
  let s := s.measureVin vin vin
  let full := s.power.deferred.length ≥ 3072 || s.tally.queue.length ≥ 3072
  if !full || !s.aboveFloor vin then s.set Reg.PWR_STAT_TRICKLE [] 0
  else
    let s := (s.set Reg.PWR_STAT_TRICKLE [] 1).modPower fun p => { p with trickleAt := s.clock.up }
    if s.power.deferred.isEmpty then
      (if s.on Reg.TALLY_STAT_READY && !s.on Reg.TALLY_STAT_DEGRADED then s.writeUnit 16 fail else s)
    else s.deferredHead fail

/-- Job 6 has written what was due: its run ends, in time or late, with the load measured from the present tick (R91, R93). -/
def flushDone (s : State) : State :=
  if s.tally.due == 0 && (s.job 6).run.isSome then s.ran 6 (s.phaseNs * 1000 / max 1 s.turnNs) else s

/-- A write unit completes and is read back (R528, R547): in slack the one in progress alone; else one held back in slack first, then those
of job 6, continuously while it is degraded (Table 4-4), then those of a bulk write (R68). A deferred unit of tally records waits through
a firmware restart (Table 1-3). -/
def unitDone (s : State) (fail : Option Nat) : State :=
  if s.inSlack then
    (if s.tally.due > 0 && s.power.persistAt.isNone then (s.writeUnit s.tally.due fail).modTally fun t => { t with due := 0 } else s)
  else match s.power.deferred with
    | w :: _ => if w == .tallyUnit && !s.mayFlush then s else s.deferredHead fail
    | [] =>
      if s.mayFlush && s.tally.due > 0 then (s.writeUnit s.tally.due fail).flushDone
      else if s.mayFlush && s.degraded 6 && !s.tally.queue.isEmpty then s.writeUnit 16 fail
      else s.bulkUnit

/-- What the next power-up will report of a supply that is lost in slack (R72). Where the persist step was not reached the spec does not say
which operating time and count the record carries: those of the last persist before it, and the length of the queue at VIN_RST
(DESIGN CHOICE, log 87). -/
def lossReport (s : State) : Option (Nat × Bool × Nat) :=
  if !s.inSlack then none
  else match s.power.persistAt with
    | some (o, n, ok) => some (o, ok, n)
    | none => some ((s.tally.stored.map fun x => x.1).getD 0, false, s.power.deferred.length)

/-! Operating time (R81) and what the hardware measures -/

/-- Measurements (Sensed). VOUT_3V3 is off below 3.4 V (R59). -/
def sense (s : State) (m : Sensed) : State :=
  let s := (s.measureVin m.vin m.vinMin).flag Reg.PWR_STAT_VOUT_OK [] (m.voutOk && m.vin ≥ 340)
  let s := match m.gxPpm with
    | some d => s.setInt Reg.CLK_GX_PPM_DIFF [] d
    | none => s
  m.requests.foldl (fun s x => s.memAccess x.1.val x.2.val) s

/-- Cycles of CK_AO add 100 each to the accumulator up to 32,768 (R81): operating time increments. -/
def countTime (s : State) : State :=
  let n := (32768 - s.clock.optFrac + 99) / 100
  s.modClock fun c => { c with optFrac := c.optFrac + 100 * n - 32768, optime := (c.optime + 1) % 2 ^ 40 }

/-- Both weirs fail their self-check for a cause (R309). -/
def weirsFail (s : State) (why : Nat) : State := ((s.weirFail 0 why).weirFail 1 why).relays

/-! GPIO (R31) -/

/-- The level put on GPIOi from outside changes. -/
def gpioPut (s : State) (i : Nat) (rise : Bool) : State :=
  (s.modPins fun p => { p with gpioExt := if rise then p.gpioExt ||| 2 ^ i else p.gpioExt ^^^ (p.gpioExt &&& 2 ^ i) }).gpioSettle

/-! The turn's registers -/

/-- TURN_CTL.EN is set (R84, R214). -/
def turnOn (s : State) : State := (s.set Reg.TURN_CTL_EN [] 1).settleLine.relays

/-- PEAK of the selected job is cleared (R91). -/
def clearPeak (s : State) : State :=
  s.modClock fun c => { c with load := listMod c.load (s.get Reg.TURN_LOAD_SEL) fun x => (0, x.2) }

/-! Credit (R24) -/

/-- The producer of a credited queue resumes (R24). Where the model lets another row carry the resumed work (ring fetches, dynamic
frames) nothing is left to do here. -/
def creditBack (s : State) (c : CreditQueue) : State :=
  match c with
  | .pcie p => (portTenants p.val).foldl (fun s t => (List.range 16).foldl (fun s q => s.flushQueue t q) s) s
  | .can n => if s.mirrored n.val && n.val % 2 == 1 then s else s.canFeed n.val (s.ctl n.val).waits.length
  | .tally => s.overflowRecords
  | .farTags => (List.range s.far.transfers.length).foldl (fun s k => s.farStart k) s
  | .hostRing _ _ => s
  | .fabric => s.consistCredit
  | .hop _ => s
  | .consist _ => s.consistCredit

end State

/-- SLACK_ENTRY (R65, R67): VIN, in 10 mV, has stayed below VIN_WARN for 2 µs. Under the mill brake only the flag is set, and nothing is
persisted. -/
def execSlackEntry (vin : Nat) (s : State) : Result :=
  .next (if s.power.on && !s.inSlack && vin < s.vinWarn then
    (if s.alive then s.enterSlack vin else s.set Reg.PWR_STAT_SLACK [] 1) else s)

/-- SLACK_PERSIST (Table 3-3): operating time, then the area pointers; `fail`: the MRAM offset of a pointer write that failed. What job 6 has
not written becomes deferred writes (R529), and its run ends. -/
def execSlackPersist (fail : Option Nat) (s : State) : Result :=
  .next (if s.alive && s.inSlack && s.power.persistAt.isNone then
    let s := ((s.deferUnits s.tally.due).modTally fun t => { t with due := 0 }).flushDone
    (s.modPower fun p => { p with persistAt := some (s.clock.optime, p.deferred.length, fail.isNone) }).persistPtr fail
  else s)

/-- SLACK_SHED (R67, R70): PWR_SHED.DELAY ms after slack entry. -/
def execSlackShed (s : State) : Result :=
  .next (if s.alive && s.inSlack && s.since s.power.slackAt (1000000 * s.get Reg.PWR_SHED_DELAY) then s.shed else s)

/-- SLACK_EXIT (R72): VIN, in 10 mV, has stayed at or above VIN_WARN + 0.2 V for 1 ms. -/
def execSlackExit (vin low dur : Nat) (s : State) : Result :=
  .next (if s.power.on && s.inSlack && vin ≥ s.vinWarn + 20 then
    (if s.alive then s.leaveSlack low dur else s.set Reg.PWR_STAT_SLACK [] 0) else s)

/-- DEFERRED_TRICKLE_UNIT (R71): at least 1 ms after the last one. -/
def execDeferredTrickleUnit (vin : Nat) (fail : Option Nat) (s : State) : Result :=
  .next (if s.alive && s.inSlack && s.power.persistAt.isSome && s.since s.power.trickleAt State.trickleNs then s.trickle vin fail else s)

/-- WRITE_UNIT_DONE (R528, R547): `fail`: the MRAM offset at which the read-back differs. -/
def execWriteUnitDone (fail : Option Nat) (s : State) : Result := .next (if s.alive then s.unitDone fail else s)

/-- VOUT_OVERLOAD (R60): VIN in 10 mV. -/
def execVoutOverload (vin : Nat) (s : State) : Result :=
  .next (if s.alive then ((s.measureVin vin vin).set Reg.PWR_STAT_VOUT_OVL [] 1).recordT 0x4003 4 State.powerSrc vin 0 else s)

/-- PWR_SW_REQUEST (R64): a write of PWR_SW.OFF. -/
def execPwrSwRequest (off : Fin 64) (s : State) : Result := .next (if s.alive && s.domainOn 9 then s.writeSw off.val else s)

/-- DOMAIN_POWERED (R64, R97): a domain asked on is powered. -/
def execDomainPowered (n : Fin 12) (s : State) : Result :=
  .next (if s.alive && bit s.power.rising n.val then s.domainUp n.val else s)

/-- GX_CRYSTAL_LOST (R77, R309). -/
def execGxCrystalLost (s : State) : Result :=
  .next (if s.alive then ((s.set Reg.CLK_STAT_GX_OK [] 0).set Reg.CLK_STAT_LOCK_GUARD [] 0).weirsFail 1 else s)

/-- GX_PPM_FAULT (R309): the difference in 0.1 ppm has been beyond 300 ppm for 1 s. -/
def execGxPpmFault (diff : Int) (s : State) : Result :=
  .next (if s.alive && (diff > 3000 || diff < -3000) then
    ((s.setInt Reg.CLK_GX_PPM_DIFF [] diff).modClock fun c => { c with gxBad := true }).weirsFail 4 else s)

/-- XT32_LOST (R77): CK_AO runs on the divider. -/
def execXt32Lost (s : State) : Result :=
  .next (if s.alive then
    let s := (s.set Reg.CLK_STAT_XT32_LOST [] 1).set Reg.CLK_STAT_XT32_OK [] 0
    let stat := [Reg.CLK_STAT_XT32_LOST, Reg.CLK_STAT_LOCK_GUARD, Reg.CLK_STAT_LOCK_NVM, Reg.CLK_STAT_LOCK_CPU, Reg.CLK_STAT_LOCK_FAB,
      Reg.CLK_STAT_XT32_OK, Reg.CLK_STAT_GX_OK, Reg.CLK_STAT_REF_OK, Reg.CLK_STAT_REF_SRC].foldl (fun a f => a + 2 ^ f.lo * s.get f) 0
    s.recordT 0x4014 4 State.powerSrc stat 0
  else s)

/-- OPTIME_INCREMENT (R81, R538, R539): it counts under the mill brake too; the sluice and the measurements stand still then. -/
def execOptimeIncrement (m : Sensed) (s : State) : Result :=
  .next (if !s.power.on then s
    else if s.alive then (s.countTime.sense m).sluiceTick
    else s.countTime)

/-- CREDIT_RETURN (R24). -/
def execCreditReturn (c : CreditQueue) (s : State) : Result := .next (if s.alive then s.creditBack c else s)

/-- TURN_ENABLE (R84, R214, Table 5-3): firmware sets TURN_CTL.EN, no earlier than boot milestone 0x5. -/
def execTurnEnable (s : State) : Result :=
  .next (if s.alive && s.fwUp && (s.get Reg.BOOT_STAT_STAGE == 5 || s.get Reg.BOOT_STAT_STAGE == 6) then
    s.turnOn else s)

/-- TURN_LOAD_PEAK_CLEAR (R91): PEAK of the selected job. -/
def execTurnLoadPeakClear (s : State) : Result :=
  .next (if s.alive && s.domainOn 9 then s.clearPeak else s)

/-- GPIO_EDGE (R31): another level on a ball; what an output drives push-pull does not follow it. -/
def execGpioEdge (i : Fin 16) (rise : Bool) (s : State) : Result := .next (if s.alive then s.gpioPut i.val rise else s)

end Sys2Proof.Machine
end

