-- ==== Sys2Proof/Machine/Boot.lean ====
section
/-!
DEFINITION. Power-on reset, boot, firmware restarts' ends, firmware trials and ROM recovery (R57, R98 to R119, R518, R559 to R561,
R578, R605, R611, R617).
-/

namespace Sys2Proof.Machine

namespace State

/-- Record source of boot and firmware: CPU pair 0. -/
abbrev bootSrc : Nat := 1

/-- RST_CAUSE as one value. -/
def causeWord (s : State) : Nat :=
  [Reg.RST_CAUSE_ESCALATE, Reg.RST_CAUSE_LS1, Reg.RST_CAUSE_LS0, Reg.RST_CAUSE_FW_CMD, Reg.RST_CAUSE_FW_UPDATE, Reg.RST_CAUSE_FW_FAULT,
    Reg.RST_CAUSE_FW_WDOG, Reg.RST_CAUSE_FATAL, Reg.RST_CAUSE_REF_LOST, Reg.RST_CAUSE_VIN_RST, Reg.RST_CAUSE_RESET_N,
    Reg.RST_CAUSE_POR].foldl (fun a f => a + 2 ^ f.lo * s.get f) 0

/-- BOOT_STAT as one value. -/
def bootWord (s : State) : Nat :=
  [Reg.BOOT_STAT_TIME, Reg.BOOT_STAT_BL_COPY, Reg.BOOT_STAT_FALLBACK, Reg.BOOT_STAT_BANK, Reg.BOOT_STAT_STAGE].foldl
    (fun a f => a + 2 ^ f.lo * s.get f) 0

/-! Power-on reset (R27, R43, R57, R62, R100, R531, R578) -/

/-- The straps are latched (R27); in single deployment CHANNEL_SEL counts for nothing. -/
def latchStraps (s : State) (pair chanB pref : Bool) : State :=
  let s := s.modPins fun p => { p with strapPair := pair, strapChan := chanB, strapPref := pref }
  let s := (s.flag Reg.STRAP_STAT_PAIR_MODE [] pair).flag Reg.STRAP_STAT_CHANNEL_SEL [] chanB
  let s := (s.flag Reg.STRAP_STAT_LEADER_PREF [] pref).flag Reg.LINE_DEPLOY_PAIRED [] pair
  (s.flag Reg.LINE_DEPLOY_CHANNEL [] (pair && chanB)).set Reg.GLOBAL_STAT_ROLE [] (if pair then 3 else 0)

/-- What PD0 holds is lost with its supply (R62). -/
def loseAlwaysOn (s : State) : State :=
  let held := [Reg.RST_CAUSE_ESCALATE, Reg.RST_CAUSE_LS1, Reg.RST_CAUSE_LS0, Reg.RST_CAUSE_FW_CMD, Reg.RST_CAUSE_FW_UPDATE, Reg.RST_CAUSE_FW_FAULT,
    Reg.RST_CAUSE_FW_WDOG, Reg.RST_CAUSE_FATAL, Reg.RST_CAUSE_REF_LOST, Reg.RST_CAUSE_VIN_RST, Reg.RST_CAUSE_RESET_N,
    Reg.SEC_TAMPER_CTL_RESP, Reg.SEC_TAMPER_STAT_UNPOWERED, Reg.SEC_TAMPER_STAT_NOW, Reg.SEC_TAMPER_STAT_EVENT, Reg.SEC_STAT_TAMPER,
    Reg.DIAG_STAT_LAST, Reg.CAN_WAKE_STAT_DECERR, Reg.CAN_WAKE_STAT_CAUSE, Reg.CAN_WAKE_STAT_PEND]
  let wake := [Reg.CANn_WAKE_DLC, Reg.CANn_WAKE_WRATE, Reg.CANn_WAKE_WMODE, Reg.CANn_WAKE_ID_ID, Reg.CANn_WAKE_MASK_ID,
    Reg.CANn_WAKE_DATA_LO_BYTES, Reg.CANn_WAKE_DATA_HI_BYTES, Reg.CANn_WAKE_DMASK_LO_BYTES, Reg.CANn_WAKE_DMASK_HI_BYTES]
  let s := held.foldl (fun s f => s.set f [] f.rst) s
  let s := (List.range 8).foldl (fun s n => wake.foldl (fun s f => s.set f [n] f.rst) s) s
  (s.modSec fun x => { x with unpowered := [] }).modDebug fun d => { d with frozen := none }

/-- ROM carries out the responses to events latched on VBACK, and the node records them (R578). -/
def unpoweredEvents (s : State) : State :=
  let l := s.sec.unpowered
  let s := s.modSec fun x => { x with unpowered := [] }
  l.foldl (fun s src =>
    let r := s.tamperResp src
    let s := (s.set Reg.SEC_STAT_TAMPER [] 1).inc Reg.SEC_CNT_TAMPER
    let s := if r ≥ 2 then (s.startWipe 1).eraseShare else s
    s.recordT 0x5012 6 12 src r) s

/-- Operating time and the power-cycle count go on from the MRAM (R100, R531). -/
def continueTime (s : State) : State :=
  let f := s.tally.recover
  let kept := s.tally.stored
  let o := max ((kept.map fun x => x.1).getD 0) f.optime
  let n := (kept.map fun x => x.2).getD 0
  (s.modClock fun c => { c with optime := o, optFrac := 0, pcycle := min (n + 1) 0xFFFFFF }).flag Reg.FIRST_USE_OPTIME_ZERO []
    (kept.isNone && f.high.isNone)

/-- Power-on reset ends. -/
def powerOn (s : State) (pair chanB pref refclk aoLost vback : Bool) : State :=
  let s := s.modPower fun p => { p with on := true, aoLost := aoLost }
  let s := s.modPins fun p => { p with resetOutLow := true, clkreqLow := [true, true], canStb := List.replicate 8 true }
  let s := (if aoLost then s.loseAlwaysOn else s).latchStraps pair chanB pref
  let s := (s.flag Reg.CLK_STAT_REF_SRC [] refclk).set Reg.CLK_STAT_REF_OK [] 1
  let s := ((s.set Reg.CLK_STAT_XT32_OK [] 1).set Reg.CLK_STAT_GX_OK [] 1).set Reg.CLK_STAT_LOCK_GUARD [] 1
  let s := ((s.flag Reg.PWR_STAT_AO_COLD [] aoLost).flag Reg.PWR_STAT_VBACK_OK [] vback).set Reg.RST_CAUSE_POR [] 1
  let s := s.set Reg.PWR_STAT_VOUT_OK [] 1
  let s := (s.continueTime.modInaug fun i => { i with icountMax := 0 }).modClock fun c => { c with gxBad := false }
  let s := ((s.set Reg.MEM_SEC_STAT_FAILED [] 0).modSec fun x => { x with locked := false }).startWipe 0
  let s := if aoLost then s.recordT 0x4004 4 powerSrc 0 0 else s
  let s := match s.power.lostInSlack with
    | some (o, done, n) => (s.modPower fun p => { p with lostInSlack := none }).recordT 0x4002 4 powerSrc (o % 2 ^ 32)
        (o / 2 ^ 32 + 2 ^ 8 * b2n done + 2 ^ 16 * min n 65535)
    | none => s
  s.unpoweredEvents

/-! Boot (Table 5-3) -/

/-- ROM recovery (R111): the line's transmitters stay silent and the relay drivers released. -/
def romRecovery (s : State) : State :=
  ((s.lineOff.set Reg.BOOT_STAT_STAGE [] 0xE).modBoot fun b => { b with recovery := [] }).relays

/-- Milestone 0x1: the wipe has completed; the weirs' self-tests are done. -/
def bootRom (s : State) (b : BootSeen) : State :=
  let s := (s.extend 0 (beBytes 48 Config.romDigest.toNat)).set Reg.BOOT_STAT_STAGE [] 1
  let s := if s.on Reg.CLK_STAT_GX_OK then s else s.weirsFail 1
  let s := (List.range 2).foldl (fun s w => if bit b.weirBad.val w then s.weirFail w 2 else s) s
  let s := s.modPins fun p => { p with freezeLow := b.freezeLow }
  if s.sec.lifecycle ≤ 1 then s.allowFreeze false else s

/-- The secure store's entries are checked and give the keys; a key that fails is treated as absent (R556). -/
def checkStore (s : State) (bad : Nat) : State :=
  let st := s.sec.stored
  let had (k : Nat) : Bool := bit bad k &&
    (if k == 0 then st.cfg.isSome else if k == 1 then st.maint.isSome else if k == 2 then st.active.isSome else st.staged.isSome)
  let n := ((List.range 4).filter had).length
  let s := ((s.loadKeys bad).modSec fun x => { x with storeOk := n == 0 }).flag Reg.SEC_STAT_STORE_OK [] (n == 0)
  (List.range n).foldl (fun s _ => s.recordT 0x5003 4 12 0xFF 4) s

/-- Milestone 0x2: the boot loader is verified and measured (R111). -/
def bootLoader (s : State) (b : BootSeen) : State :=
  let take (s : State) (d : Nat) : State := ((s.set Reg.BOOT_STAT_STAGE [] 2).extend 1 (beBytes 48 d)).checkStore b.storeBad.val
  match s.boot.bl.getD 0 none, s.boot.bl.getD 1 none with
  | some d, _ => take s d
  | none, some d => take (s.set Reg.BOOT_STAT_BL_COPY [] 1) d
  | none, none => s.romRecovery

/-- A bank passes the boot loader's checks (R112, R113). -/
def bankGood (s : State) (k : Nat) : Bool :=
  let b := s.boot.banks.getD k default
  b.present && b.good && s.sec.fuses ≤ b.svn

/-- Measure the bank that runs (R559). -/
def measBank (s : State) (k : Nat) : State := s.extend 2 (beBytes 48 (s.boot.banks.getD k default).digest)

/-- Milestone 0x3: the firmware bank is chosen and measured (R112). -/
def bootBank (s : State) : State :=
  let a := s.boot.active
  if !s.bankGood a && !s.bankGood s.spareBank then s.romRecovery
  else
    let k := if s.bankGood a then a else s.spareBank
    let s := ((s.set Reg.BOOT_STAT_BANK [] k).flag Reg.BOOT_STAT_FALLBACK [] (k != a)).showBanks
    let s := (s.measBank k).set Reg.BOOT_STAT_STAGE [] 3
    if s.on Reg.BOOT_STAT_BL_COPY || s.on Reg.BOOT_STAT_FALLBACK then s.recordT 0x4013 4 bootSrc s.bootWord (s.bankVersion k) else s

/-- The tally engine's recovery is shown and recorded (R533, R534), and the recorder restored if it was degraded (R549). -/
def recoverTally (s : State) (ptrFail : Option Nat) : State :=
  let f := s.tally.recover
  let s := if f.torn.isEmpty then s else s.set Reg.TALLY_STAT_TORN_FOUND [] 1
  let s := f.torn.foldl (fun s x => s.recordT 0x2003 2 0 x.1 x.2) s
  let s := match f.rebuilt with
    | some n => (s.set Reg.TALLY_STAT_PTR_REBUILT [] 1).recordT 0x2005 3 0 (f.high.getD 0) n
    | none => s
  let s := s.set Reg.TALLY_STAT_READY [] 1
  match s.tally.ringAtReset with
  | none => s
  | some n =>
    let s := s.modTally fun t => { t with ringAtReset := none }
    match ptrFail with
    | none => s.writePtr.recordT 0x2002 2 0 n 0
    | some off => s.degrade 1 off

/-- A trial that a reset has cut off fails at boot (R593): PREVIOUS is used at once. -/
def trialAtBoot (s : State) : State :=
  if !s.conf.trial then s
  else match s.conf.prev with
    | some c =>
      let s := s.dropTrial.modConf fun x => { x with active := some c, prev := none }
      s.writeSlots.showSlots.rollbackDone 0 (some 4)
    | none => s.dropTrial.writeSlots.rollbackDone 0 (some 4)

/-- Firmware locks every block's RWL fields before it sets FW_READY. -/
def lockAll (s : State) : State :=
  [Reg.GPIO_LOCK_LOCK, Reg.PWR_LOCK_LOCK, Reg.LINE_LOCK_LOCK, Reg.WEIR_LOCK_LOCK, Reg.INAUG_LOCK_LOCK, Reg.RED_LOCK_LOCK,
    Reg.FAR_LOCK_LOCK, Reg.CON_LOCK_LOCK, Reg.CAN_LOCK_LOCK, Reg.MEM_LOCK_LOCK, Reg.TALLY_LOCK_LOCK,
    Reg.SEC_LOCK_LOCK].foldl (fun s f => s.set f [] 1) s

/-- The ACTIVE image is loaded, or without one the default rights are, and PD4 to PD9 come up; the line then stays silent as R29 states
(R63, R374). Firmware configures the clock power management of the PCIe ports with PD9 (R46, log 86). -/
def loadActive (s : State) : State :=
  let s := match s.conf.active with
    | some c => (s.showSlots.loadImage c true true true).gpioSettle
    | none => s.showSlots.defaultRights
  let s := (List.range 4).foldl (fun s n => s.freshCeil n) s
  ([4, 5, 6, 7, 8, 9].foldl (fun s n => s.domainUp n) s).modPins fun p => { p with clkreqLow := [false, false] }

/-- Milestone 0x4: firmware is up. -/
def bootFirmware (s : State) (b : BootSeen) : State :=
  let s := ((s.recoverTally b.ptrFail).trialAtBoot).loadActive
  let s := (s.lockAll.set Reg.GLOBAL_STAT_FW_READY [] 1).set Reg.BOOT_STAT_TIME [] (min b.ms 65535)
  let s := (s.set Reg.BOOT_STAT_STAGE [] 4).showBanks
  let s := s.measConfig.measRules.measCycle.measKeys.certify
  let s := s.recordT 0x4010 3 bootSrc s.causeWord s.bootWord
  match s.dbg.frozen with
  | some (c, o) => (s.modDebug fun d => { d with frozen := none }).recordT 0x4020 4 powerSrc c (o % 2 ^ 32)
  | none => s

/-- The next milestone of Table 5-3 is reached. -/
def bootStep (s : State) (b : BootSeen) : State :=
  match s.get Reg.BOOT_STAT_STAGE with
  | 0 => if s.sec.wipe.isNone then s.bootRom b else s
  | 1 => s.bootLoader b
  | 2 => s.bootBank
  | 3 => s.bootFirmware b
  | 4 =>
    let s := s.set Reg.BOOT_STAT_STAGE [] 5
    (if s.on Reg.GLOBAL_STAT_CONFIG_VALID then s.set Reg.TURN_CTL_EN [] 1 else s).settleLine.relays
  | 5 => ((s.set Reg.BOOT_STAT_STAGE [] 6).set Reg.TN_STAT_PRESENT [16] 1).set Reg.TN_STAT_BME [16] 1
  | _ => s

/-! Firmware restarts, updates and trials (R102, R115, R116, R561) -/

/-- The new bank of an update restart runs, with its measurements (R561); the bank it was staged into is on trial. -/
def switchBank (s : State) (k : Nat) : State :=
  let s := (s.set Reg.BOOT_STAT_BANK [] k).modBoot fun b => { b with banks := listMod b.banks k fun x => { x with wp := false } }
  let s := [2, 3, 4, 5, 6].foldl (fun s i => s.zeroMeas i) s
  let s := (s.measBank k).measConfig.measRules.measCycle.measKeys
  if k == s.boot.active then
    let c := s.boot.trialFail.getD 0
    ((s.set Reg.FW_BANK_STAT_TRIAL [] 0).modBoot fun b => { b with trialFail := none }).recordT 0x4015 4 bootSrc c (s.bankVersion k)
  else
    (s.set Reg.FW_BANK_STAT_TRIAL [] 1).modBoot fun b => { b with
      trialEnd := s.clock.optime + 1000, trialOvr := 0, trialOk := false, trialFail := none }

/-- The CONFIG_ACTIVATE of an update completes after the restart (R115). -/
def updateDone (s : State) : State :=
  match s.boot.update with
  | some d =>
    let s := s.modBoot fun b => { b with update := none }
    match d with
    | some (t, q, i) => s.complete t q i 0 0 (s.bankVersion (s.get Reg.BOOT_STAT_BANK))
    | none => s
  | none => s

/-- Firmware is up again. A restart without an update reloads the bank that runs: R102 names the active bank, and says nothing of a node that
runs the other one by FALLBACK or on trial (DESIGN CHOICE, log 87). -/
def restartDone (s : State) : State :=
  match s.boot.restart with
  | none => s
  | some (c, bank) =>
    let s := (s.modBoot fun b => { b with restart := none }).set Reg.GLOBAL_STAT_FW_RESTART [] 0
    if bank.any fun k => !s.bankGood k then s.romRecovery
    else
      let s := match bank with
        | some k => s.switchBank k
        | none => s
      let s := s.set Reg.GLOBAL_STAT_FW_READY [] 1
      let s := s.recordT 0x4011 3 bootSrc (s.causeWord / 32) (s.bankVersion (s.get Reg.BOOT_STAT_BANK))
      let s := if c == .update then s.updateDone else s
      s.applyVfs.certify

/-- Why the firmware trial fails now (R116), numbered as in Table 22-4. -/
def trialFault (s : State) : Option Nat :=
  match s.boot.trialFail with
  | some c => some c
  | none => if s.boot.trialOvr ≥ 3 then some 1
      else if s.boot.trialEnd ≤ s.clock.optime && !s.boot.trialOk then some 3 else none

/-- A firmware trial ends (R113, R116). The restart into the previous bank waits while the line stands still and in slack (R117), and
the bank control record is not rewritten while MRAM writes wait (R67). -/
def endTrial (s : State) : State :=
  match s.trialFault with
  | some c =>
    let s := s.modBoot fun b => { b with trialFail := some c }
    if s.standing || s.inSlack then s else s.fwRestart .update (some s.boot.active)
  | none =>
    if s.clock.optime < s.boot.trialEnd || s.mramWaits then s
    else
      let k := s.get Reg.BOOT_STAT_BANK
      let s := (s.set Reg.FW_BANK_STAT_TRIAL [] 0).modBoot fun b => { b with active := k }
      let s := (s.modSec fun x => { x with fuses := max x.fuses (min 64 (s.boot.banks.getD k default).svn) }).showBanks.certify
      s.record 0x6004 1 cfgSrc (s.bankVersion k) 1

/-! ROM recovery (R617) -/

/-- The data of a console frame that is good, none of a bad one: 0x7E, length, data, CRC-32C in network order (log 56). -/
def consoleData (l : List Byte) : Option (List Byte) :=
  let n := beAt l 1 2
  if beAt l 0 1 == 0x7E && 1 ≤ n && n ≤ 1024 && l.length == n + 7 && beAt l (n + 3) 4 == crc32c (slice l 1 (n + 2)) then some (slice l 3 n)
  else none

/-- The images are complete: a boot loader of `n` bytes, then firmware; `sb`, `sf`: their signatures verify. -/
def recoverImages (s : State) (n : Nat) (sb sf : Bool) : State :=
  let data := s.boot.recovery
  let (ver, svn, part, cert) := Config.firmware (data.drop n)
  let s := s.modBoot fun b => { b with recovery := [] }
  if sb && sf && s.sec.fuses ≤ svn && svn ≤ 64 && part == 0x0880 then
    let d := sha384 (data.take n)
    let bank : Bank := ⟨true, ver, svn, true, cert, false, sha384 (data.drop n)⟩
    ((s.modBoot fun b => { b with bl := [some d, some d], banks := listSet b.banks 0 bank }).showBanks).fullReset []
  else s

end State

/-- POWER_ON_RESET (R57): straps, whether REFCLK_IN toggles, whether the XT32 crystal runs, whether the always-on logic lost its state, and
whether VBACK is in range. A missing XT32 crystal holds the node in reset (R77). -/
def execPowerOnReset (pair chanB pref refclk xt32 aoLost vback : Bool) (s : State) : Result :=
  .next (if !s.power.on && xt32 then s.powerOn pair chanB pref refclk aoLost vback else s)

/-- VIN_RST_REACHED (R57, R59, R65, R72): VIN, in 10 mV, at or below VIN_RST; `torn`: the pointer copy that the persist step was writing,
1 or 2, where it was cut off. No ball is driven without VIN (R41). -/
def execVinRstReached (vin : Nat) (torn : Fin 3) (s : State) : Result :=
  .next (if s.power.on && vin ≤ State.vinRst then
    let lost := s.lossReport
    let s := if torn.val != 0 && s.inSlack && s.power.persistAt.isNone then
        s.modTally fun t => { t with ptr := listMod t.ptr (torn.val - 1) fun p => { p with valid := false } } else s
    let s := (s.fullReset [Reg.RST_CAUSE_VIN_RST]).modPower fun p => { p with on := false, lostInSlack := lost }
    (s.modPins fun p => { p with resetOutLow := false, clkreqLow := [false, false], canStb := List.replicate 8 false }).flag
      Reg.PWR_STAT_VOUT_OK [] (vin ≥ 340)
  else s)

/-- BOOT_STAGE_COMPLETE (R108). -/
def execBootStageComplete (b : BootSeen) (s : State) : Result := .next (if s.alive then s.bootStep b else s)

/-- FW_RESTART_COMPLETE (R102, R104, R105). -/
def execFwRestartComplete (s : State) : Result := .next (if s.alive then s.restartDone else s)

/-- UPDATE_RESTART (R115, R117): at a tick, in RUN and out of slack. -/
def execUpdateRestart (s : State) : Result :=
  .next (if s.alive && s.fwUp && s.boot.update.isSome && !s.standing && !s.inSlack then s.fwRestart .update (some s.spareBank) else s)

/-- FW_TRIAL_END (R116). -/
def execFwTrialEnd (s : State) : Result :=
  .next (if s.alive && s.cpuUp 1 && s.on Reg.FW_BANK_STAT_TRIAL then s.endTrial else s)

/-- RECOVERY_FRAME (R617): the bytes of a frame on CONSOLE_RXD; `whole`: with its data the images are complete. -/
def execRecoveryFrame (l : List Byte) (whole : Option (Nat × Bool × Bool)) (s : State) : Result :=
  .next (if s.alive && s.get Reg.BOOT_STAT_STAGE == 0xE then
    match State.consoleData l with
    | none => s.emit (.consoleByte 0x15)
    | some d =>
      let s := (s.emit (.consoleByte 0x06)).modBoot fun b => { b with recovery := b.recovery ++ d }
      match whole with
      | some (n, sb, sf) => s.recoverImages n sb sf
      | none => s
  else s)

end Sys2Proof.Machine
end

