-- ==== Sys2Proof/Machine/RegRead.lean ====
section
/-!
DEFINITION. What a register read returns, without the changes a read makes: fields that the register file holds, fields that show
other parts of the state, and the latched pairs (R10 to R12, R82, R621, R622), and the registers of job 7's snapshot (R615).
-/

namespace Sys2Proof.Machine

/-- The number of a requester: tenants 0 to 16, then the CPU pairs. -/
def Requester.code : Requester → Nat
  | .tenant t => t
  | .cpu i => 17 + i

namespace State

/-! CAN buffer windows (Table 18-4, R489) -/

/-- The buffer a requester has selected on controller n. -/
def canSel (s : State) (c n : Nat) : Nat := (Sparse.find (8 * c + n) s.can.sel).getD 0

/-- Word k of a buffer of controller n. -/
def bufWord (s : State) (n b k : Nat) : Nat :=
  let x := s.canBuf n b
  if k == 0 then x.frame.id % 2 ^ 29 + 2 ^ 29 * b2n x.frame.ide + 2 ^ 30 * b2n x.frame.rtr
  else if k == 1 then
    x.frame.dlc % 16 + 16 * b2n x.frame.fdf + 32 * b2n x.frame.brs + 64 * b2n x.frame.esi + 256 * b2n x.isNew +
    512 * b2n x.msgLost + 1024 * b2n (s.canPending n b) + 4096 * b2n x.bus
  else if k == 2 then x.tsNs
  else if k == 3 then x.tsTurn
  else if k < 20 then leNat (slice x.frame.data (4 * (k - 4)) 4)
  else if k == 20 then x.type % 4 + 4 * b2n x.irq + 8 * b2n x.hostRead
  else if k == 21 then x.filtId
  else if k == 22 then x.filtMask
  else 0

/-! Fields that show other parts of the state -/

/-- The weir counters of the selected weir and sender (Table 12-6). -/
def weirCounter (s : State) : Nat × Nat × Nat × Nat :=
  (Sparse.find (64 * s.get Reg.WEIR_CNT_SEL_WEIR + s.get Reg.WEIR_CNT_SEL_SENDER) s.weirs.counters).getD (0, 0, 0, 0)

/-- The CRC of the window table in force (R299, log 30): its reset value until a weir has taken its first table. -/
def tableCrcShown (s : State) (w : Nat) : Nat :=
  let t := (s.weir w).table
  if t.ports.isEmpty then s.get Reg.WEIR_TBL_CRC [w] else (Config.tableCrc t).toNat

/-- The selected prefetch entry (FAR_PF_SEL). -/
def pfShown (s : State) : Prefetch := s.far.prefetch.getD (s.get Reg.FAR_PF_SEL_ENTRY) default

/-- The oldest entry of an aperture's error FIFO. -/
def apOldest (s : State) (x : Nat) : Option ApErr := (s.far.apErr.getD x []).head?

/-- The selected gateway entry. -/
def gwShown (s : State) : GwEntry := s.con.maps.getD (s.get Reg.GW_SEL_ENTRY) default

/-- The latched pairs: low register, high register, and the value that a read of the low one latches (R621). -/
def latchedPairs : List (Fld × Fld × (State → List Nat → Nat)) :=
  [(Reg.NTIME_LO_NS, Reg.NTIME_HI_NS, fun s _ => s.nowNs / 2 ^ 32 % 2 ^ 32),
   (Reg.TURN_NUM_LO_NUM, Reg.TURN_NUM_HI_NUM, fun s _ => s.clock.turn / 2 ^ 32 % 2 ^ 32),
   (Reg.OPTIME_LO_OPTIME, Reg.OPTIME_HI_OPTIME, fun s _ => s.clock.optime / 2 ^ 32 % 2 ^ 8),
   (Reg.TI_GEN_LO_GEN, Reg.TI_GEN_HI_GEN, fun s ix => s.get Reg.TI_GEN_HI_GEN ix),
   (Reg.GW_ENT_VAL_LO_VAL, Reg.GW_ENT_VAL_HI_VAL, fun s _ => (s.gwShown.last.getD 0) / 2 ^ 32 % 2 ^ 32),
   (Reg.SEC_KICK_FLOOR_LO_TURN, Reg.SEC_KICK_FLOOR_HI_TURN, fun s _ => s.get Reg.SEC_KICK_FLOOR_HI_TURN)]

/-- The value that a requester latched last for a high register (R621): 0 if it has read no low one. -/
def latched (s : State) (c off : Nat) : Nat := ((s.clock.latches.find? fun x => x.1 == c && x.2.1 == off).map fun x => x.2.2).getD 0

/-- A field that shows another part of the state than the register file, with what a requester reads there. -/
abbrev Shown := Fld × (State → Nat → List Nat → Nat)

/-- Such a field. -/
def shows (f : Fld) (g : State → Nat → List Nat → Nat) : Shown := (f, g)

/-- The bits of ALARM_SRC that no field of its own holds (R600). -/
def shownAlarms : List Shown :=
  [Reg.ALARM_SRC_VOUT, Reg.ALARM_SRC_XT32, Reg.ALARM_SRC_SPLIT, Reg.ALARM_SRC_FALLBACK, Reg.ALARM_SRC_FENCED, Reg.ALARM_SRC_WEIR_FAIL,
    Reg.ALARM_SRC_RECORDER, Reg.ALARM_SRC_WIPE_FAIL, Reg.ALARM_SRC_TAMPER, Reg.ALARM_SRC_CFG_HELD, Reg.ALARM_SRC_ROM_RECOVERY].map
      fun f => shows f fun s _ _ => b2n (bit s.alarmWord f.lo)

/-- The number under which the far bridge reads: it is no requester, so its reads show the current value (R418, log 57). -/
abbrev farCode : Nat := 19

/-- The high registers of the latched pairs. -/
def shownHigh : List Shown := latchedPairs.map fun p =>
  shows p.2.1 fun s c ix => if c ≥ farCode then p.2.2 s ix else s.latched c (p.2.1.off ix)

/-- Shown fields, part 0. -/
def shown0 : List Shown :=
  [shows Reg.GLOBAL_STAT_ALARM (fun s _ _ => b2n s.alarm),
   shows Reg.NTIME_LO_NS (fun s _ _ => s.nowNs % 2 ^ 32),
   shows Reg.TURN_NUM_LO_NUM (fun s _ _ => s.turn32),
   shows Reg.OPTIME_LO_OPTIME (fun s _ _ => s.clock.optime % 2 ^ 32),
   shows Reg.GW_ENT_VAL_LO_VAL (fun s _ _ => (s.gwShown.last.getD 0) % 2 ^ 32),
   shows Reg.TURN_STAT_PHASE (fun s _ _ => min (s.phaseNs / 1000) 65535),
   shows Reg.TURN_LOAD_PEAK (fun s _ _ => (s.clock.load.getD (s.get Reg.TURN_LOAD_SEL) (0, 0)).1),
   shows Reg.TURN_LOAD_LAST (fun s _ _ => (s.clock.load.getD (s.get Reg.TURN_LOAD_SEL) (0, 0)).2),
   shows Reg.WEIR_TBL_CRC (fun s _ ix => s.tableCrcShown (ix.headD 0)),
   shows Reg.WEIR_STAT_XL_ONLY (fun s _ ix => b2n (s.isXlink (ix.headD 0) && s.isXlink (2 + ix.headD 0)))]

/-- Shown fields, part 1. -/
def shown1 : List Shown :=
  [shows Reg.WEIR_CNT_EARLY (fun s _ _ => s.weirCounter.1),
   shows Reg.WEIR_CNT_LATE (fun s _ _ => s.weirCounter.2.1),
   shows Reg.WEIR_CNT_WRONG (fun s _ _ => s.weirCounter.2.2.1),
   shows Reg.WEIR_CNT_OVERSIZE (fun s _ _ => s.weirCounter.2.2.2),
   shows Reg.RED_STAT_XL_E1 (fun s _ _ => b2n ((List.range 2).any fun n => s.isXlink n && s.pst n == 4)),
   shows Reg.RED_STAT_XL_E2 (fun s _ _ => b2n ((List.range 2).any fun n => s.isXlink (2 + n) && s.pst (2 + n) == 4)),
   shows Reg.TN_STAT_TENANT (fun _ _ ix => ix.headD 0),
   shows Reg.FAR_PF_INFO_FUNC (fun s _ _ => s.pfShown.func),
   shows Reg.FAR_PF_INFO_VALID (fun s _ _ => b2n s.pfShown.valid)]

/-- Shown fields, part 2. -/
def shown2 : List Shown :=
  [shows Reg.FAR_PF_INFO_POS (fun s _ _ => s.pfShown.pos),
   shows Reg.FAR_PF_CNT_HITS (fun s _ _ => min 65535 (s.far.pfHits.getD (s.get Reg.FAR_PF_SEL_ENTRY) 0)),
   shows Reg.FAR_PF_CNT_DISCARDS (fun s _ _ => min 65535 (s.far.pfDiscards.getD (s.get Reg.FAR_PF_SEL_ENTRY) 0)),
   shows Reg.FAR_AP_ERR_STAT_x_VALID (fun s _ ix => b2n (s.apOldest (ix.headD 0)).isSome),
   shows Reg.FAR_AP_ERR_STAT_x_OVF (fun s _ ix => b2n (s.far.apLost.getD (ix.headD 0) false)),
   shows Reg.FAR_AP_ERR_STAT_x_PIECES (fun s _ ix => ((s.apOldest (ix.headD 0)).map fun e => e.pieces).getD 0),
   shows Reg.FAR_AP_ERR_STAT_x_FSTAT (fun s _ ix => ((s.apOldest (ix.headD 0)).map fun e => e.fstat).getD 0),
   shows Reg.TRDP_TEL_STAT_AGE (fun s _ _ => match s.con.tels[s.get Reg.TRDP_TEL_SEL_TEL]? with
      | some t => t.age
      | none => 65535),
   shows Reg.TRDP_TEL_STAT_TOUT (fun s _ _ => b2n (s.tel (s.get Reg.TRDP_TEL_SEL_TEL)).touted)]

/-- Shown fields, part 3. -/
def shown3 : List Shown :=
  [shows Reg.TRDP_TEL_STAT_DIR (fun s _ _ => (s.tel (s.get Reg.TRDP_TEL_SEL_TEL)).dir),
   shows Reg.GW_ENT_STAT_DEFAULT (fun s _ _ => b2n s.gwShown.isDefault),
   shows Reg.GW_ENT_STAT_STALE_SRC (fun s _ _ => b2n s.gwShown.stale),
   shows Reg.GW_ENT_STAT_SAT (fun s _ _ => b2n s.gwShown.sat),
   shows Reg.GW_ENT_STAT_VALID (fun s _ _ => b2n s.gwShown.valid),
   shows Reg.CANn_BUFSEL_BUF (fun s c ix => s.canSel c (ix.headD 0)),
   shows Reg.CANn_BUFWIN_k_WORD (fun s c ix => s.bufWord (ix.headD 0) (s.canSel c (ix.headD 0)) (ix.getD 1 0)),
   shows Reg.MEASk_w_BYTES (fun s _ ix => leNat (slice (beBytes 48 (s.sec.meas.getD (ix.headD 0) 0)) (4 * ix.getD 1 0) 4)),
   shows Reg.CFG_TRIAL_LEFT (fun s _ _ => if s.on Reg.CFG_STAT_TRIAL then s.conf.trialEnd - s.clock.optime else 0)]

/-- Shown fields, part 4. -/
def shown4 : List Shown :=
  [shows Reg.DIAG_SNAP_DATA_VAL (fun s _ _ => (Sparse.find (4 * s.get Reg.DIAG_SNAP_IDX_OFFSET) s.clock.snap).getD 0),
   shows Reg.DIAG_SNAP_TURN_TURN (fun s _ _ => s.clock.snapTurn % 2 ^ 32),
   shows Reg.CANn_CTL_MODE (fun s _ ix => if s.drives then s.get Reg.CANn_CTL_MODE ix else 2)]

/-- All of them. -/
def shownFields : List Shown := shownAlarms ++ shownHigh ++ shown0 ++ shown1 ++ shown2 ++ shown3 ++ shown4

/-- What a requester reads in a field. -/
def shown (s : State) (c : Nat) (f : Fld) (ix : List Nat) : Nat :=
  match (shownFields.find? fun x => x.1 == f) with
  | some x => x.2 s c ix % 2 ^ f.width
  | none => s.get f ix

/-- The fields of the register at an offset, with their indices. -/
def fieldsAt (off : Nat) : List (Fld × List Nat) := regTable.filterMap fun f => (f.find off).map fun ix => (f, ix)

/-- A controller's registers whose PD8 is off, except those held in PD0, read 0 (chapter 18, R623). -/
def canDark (s : State) (off : Nat) : Bool :=
  0xC0000 ≤ off && off < 0xC8000 && !s.domainOn 8 && !(0x30 ≤ off % 0x1000 && off % 0x1000 ≤ 0x48)

/-- The word a requester reads at an offset; reserved bits and write-only fields read 0 (R11, R12). -/
def readWord (s : State) (c off : Nat) : Nat :=
  if s.canDark off then 0
  else (fieldsAt off).foldl (fun a x => if x.1.acc == .wo then a else a + s.shown c x.1 x.2 * 2 ^ x.1.lo) 0

/-! Job 7 (R615) -/

/-- All indices of an indexed register. -/
def allIndices : List Dim → List (List Nat)
  | [] => [[]]
  | d :: l => (List.range d.count).flatMap fun i => (allIndices l).map fun r => (d.first + i) :: r

/-- The offsets of the registers that hold an RC field, rising. -/
def rcOffsets : List Nat :=
  let l := (regTable.filter fun f => f.acc == .rc).flatMap fun f => (allIndices f.dims).map fun ix => f.off ix
  (sortBy (fun a b => decide (a ≤ b)) l).eraseDups

/-- A snapshot of every register that holds an RC field. -/
def counters (s : State) : List (Nat × Nat) := (rcOffsets.map fun o => (o, s.readWord 0 o)).filter fun x => x.2 != 0

end State

end Sys2Proof.Machine
end

