-- ==== Sys2Proof/Machine/Jobs.lean ====
section
/-!
DEFINITION. Per-turn jobs (R88 to R96, Tables 4-3 to 4-5): their start at a tick, overruns, degraded mode and late completion.
A unit is a job on one runner: jobs 0 to 7, of which 3 stands for job 3 of port P, then 8 and 9 for job 3 of port Q and of QSPI.
-/

namespace Sys2Proof.Machine

/-- The host port of a unit of job 3: 0 P, 1 Q, 2 QSPI; 0 for another job (Table 4-5). -/
def unitPort (u : Nat) : Nat := if u ≥ 8 then u - 7 else 0

open State (unitJob)

/-- Record source of a unit (Table 20-2). -/
def unitSrc (u : Nat) : Nat := [4, 3, 3, 5, 10, 9, 0, 3, 6, 7].getD u 0

/-- Good turns after which a degraded job is restored (Table 4-4). -/
def unitGood (u : Nat) : Nat := if u ≤ 1 then 8 else 64

/-- Every unit but job 2, which has no stall path (Table 4-4). -/
def stallUnits : List Nat := [0, 1, 3, 8, 9, 4, 5, 6, 7]

namespace State

/-- A unit's overrun counter. -/
def ovrCount (u : Nat) : Fld :=
  [Reg.TURN_OVR_CNT_A_JOB0, Reg.TURN_OVR_CNT_A_JOB1, Reg.TURN_OVR_CNT_A_JOB2, Reg.TURN_OVR_CNT_A_JOB3, Reg.TURN_OVR_CNT_B_JOB4,
    Reg.TURN_OVR_CNT_B_JOB5, Reg.TURN_OVR_CNT_B_JOB6, Reg.TURN_OVR_CNT_B_JOB7].getD (unitJob u) Reg.TURN_OVR_CNT_A_JOB0

/-- A unit has not completed by the tick (R92 to R95). `still`: the turn it ends was held because the line stood still; `stepped`:
it was the stepped turn of an integration (R86). -/
def overrun (s : State) (u : Nat) (still stepped : Bool) : State :=
  let s := (s.setBits Reg.TURN_OVR_OVR [] (2 ^ unitJob u)).inc (ovrCount u)
  let s := (s.showLoad (unitJob u) 1000).record (0x3010 + unitJob u) 2 (unitSrc u) 1000 (unitPort u)
  let s := s.when (!stepped && s.on Reg.CFG_STAT_TRIAL) fun s => s.inc Reg.CFG_TRIAL_OVR
  let s := s.when (!stepped && s.on Reg.FW_BANK_STAT_TRIAL) fun s => s.modBoot fun b => { b with trialOvr := b.trialOvr + 1 }
  s.modJob u fun j => { j with
    overs := if still then 0 else if stepped then j.overs else j.overs + 1, good := if still then j.good else 0 }

/-- A unit's run of the turn just ended was good towards leaving degraded mode (Table 4-4); of job 6 the tick found the queue empty. -/
def goodRun (s : State) (u : Nat) : Bool :=
  if u ≤ 1 then true else if u == 6 then s.tally.atTick == 0 else (s.job u).load ≤ 500

/-- A unit is judged at the tick that ends turn t (R92, R94, R95): whether it has overrun, and the state. A run that is not good ends the
count of consecutive turns of Table 4-4; that of job 3, which counts images with no overrun between them, it leaves as it is. A degraded job
6 flushes continuously and has no run that a tick could find incomplete, so it does not overrun: the spec says neither (DESIGN CHOICE,
log 87). -/
def judge (s : State) (u t : Nat) (still stepped : Bool) : Bool × State :=
  if (s.job u).run.isSome then (true, s.overrun u still stepped)
  else (false, s.modJob u fun j => { j with
    overs := 0, good := if j.lastRun != some t || still then j.good else if s.goodRun u then j.good + 1
      else if unitJob u == 3 then j.good else 0 })

/-- A host port's link is up: job 3 runs on it (R91). -/
def hostLink (s : State) (p : Nat) : Bool :=
  if p == 2 then s.get Reg.BOOT_STAT_STAGE == 6 && s.domainOn 9 else s.domainOn 9 && s.on Reg.HOST_PORT_LINK_UP [p]

/-- A planned swap takes jobs 4 and 5 of this turn (Table 13-12). -/
def swapTurn (s : State) : Bool := s.red.swap.any fun x => x.w == s.clock.turn && !x.aborted

/-- A unit runs in the present turn (R91, R106, Tables 1-3 and 4-4). -/
def jobRuns (s : State) (u : Nat) : Bool :=
  if u == 0 then !s.on Reg.GLOBAL_STAT_FW_RESTART
  else if unitJob u == 3 then
    s.hostLink (unitPort u) && (!s.degraded u || (match (s.job u).lastRun with
      | some t => decide (t + 2 ≤ s.clock.turn)
      | none => true))
  else if u == 4 then s.canRuns && !s.swapTurn
  else if u == 5 then s.cpuUp 1 && !s.swapTurn
  else if u == 6 then s.on Reg.TALLY_STAT_READY && !s.on Reg.TALLY_STAT_DEGRADED && (s.mayFlush || s.inSlack)
  else if u == 7 then !s.degraded 7 || s.clock.turn % 8 == 0
  else true

/-- Write the images of a host port's tenants (R361 to R366) from the cells and for the turn with which the job started. -/
def portImages (s : State) (p turn : Nat) (cells : List Cell) : State :=
  let z := (s.modMill fun m => { m with cells := cells }).modClock fun c => { c with turn := turn }
  let z := ((List.range 17).filter fun t => portOf t == p).foldl (fun z t => z.writeImage t) z
  (z.modMill fun m => { m with cells := s.mill.cells }).modClock fun c => { c with turn := s.clock.turn }

/-- The inputs a unit starts on (Table 4-3). -/
def jobInputs (s : State) (u : Nat) : Held :=
  let base : Held := { (default : Held) with turn := s.clock.turn }
  if u == 0 then
    let owners := s.ownersAt (s.clock.turn + 1)
    { base with tables := [s.buildTable 0 owners, s.buildTable 1 owners] }
  else if unitJob u == 3 then { base with cells := s.mill.cells }
  else if u == 5 then { base with srcs := s.gwSources, tels := s.con.tels }
  else if u == 7 then { base with snap := s.counters }
  else base

/-- A unit's work on given inputs (Table 4-3); `done`: its completion from the tick in µs. -/
def jobWork (s : State) (u : Nat) (h : Held) (done : Nat) : State :=
  if u == 0 then
    (s.modWeir 0 fun x => { x with next := h.tables.getD 0 x.next }).modWeir 1 fun x => { x with next := h.tables.getD 1 x.next }
  else if u == 1 then s.modClock fun c => { c with armed := none }
  else if unitJob u == 3 then s.portImages (unitPort u) h.turn h.cells
  else if u == 4 then
    let s := s.modCan fun c => { c with row := some (h.turn % 16) }
    if h.turn == s.clock.turn then s else s.canLate (h.turn % 16) done
  else if u == 5 then s.job5On h.srcs h.tels
  else if u == 7 then s.modClock fun c => { c with snap := h.snap, snapTurn := h.turn }
  else s

/-- A load in per mille as a time from the tick in µs (R91). -/
def loadUs (s : State) (l : Nat) : Nat := (l * s.get Reg.TURN_LEN_LEN_ACT + 999) / 1000

/-- Job 6 starts: its run lasts until the MRAM has what is due (R528); with nothing due, in slack and while it is degraded, where the flush
runs continuously, it completes with the load given. -/
def startFlush (s : State) (load : Nat) : State :=
  let s := if s.degraded 6 && !s.inSlack then s else s.job6
  if s.tally.due == 0 then s.ran 6 load else s.modJob 6 fun j => { j with run := some s.clock.turn }

/-- A unit starts at the tick; without a load it stalls and keeps its inputs (R93). -/
def startJob (s : State) (u : Nat) (load : Option Nat) : State :=
  if (s.job u).run.isSome || !s.jobRuns u then s
  else if u == 6 then s.startFlush ((load.filter fun l => l < 1000).getD 0)
  else match load.filter fun l => l < 1000 with
    | some l => (s.jobWork u (s.jobInputs u) (s.loadUs l)).ran u l
    | none =>
      { s.modJob u fun j => { j with run := some s.clock.turn } with held := Sparse.put u (s.jobInputs u) s.held }

/-- Job 0 loads both weirs (R299): a weir whose check fails has not completed, so the job has overrun for this turn. -/
def startReload (s : State) (load : Option Nat) (crcBad parityBad : Nat) : State :=
  if (s.job 0).run.isSome || !s.jobRuns 0 then s
  else match load.filter fun l => l < 1000 with
    | none => s.startJob 0 none
    | some l =>
      let h := s.jobInputs 0
      let (a, s) := s.reloadWeir 0 (h.tables.getD 0 default) (!bit crcBad 0) (!bit parityBad 0)
      let (b, s) := s.reloadWeir 1 (h.tables.getD 1 default) (!bit crcBad 1) (!bit parityBad 1)
      if a && b then s.ran 0 l else s.modJob 0 fun j => { j with run := some s.clock.turn }

/-- The MRAM writes what is left of job 6's run, at most 64 units. -/
def flushRest (s : State) : Nat → State
  | 0 => s
  | n + 1 => flushRest (if s.mayFlush && s.tally.due > 0 then s.writeUnit s.tally.due none else s) n

/-- A late unit completes with the inputs it started on; that is its run for the present turn (R93). -/
def finishJob (s : State) (u l : Nat) : State :=
  if u == 6 then
    let s := s.flushRest 64
    if s.tally.due == 0 then s.ran 6 l else s
  else match Sparse.find u s.held with
  | none => s
  | some h => ({ s.jobWork u h (s.loadUs l) with held := Sparse.del u s.held } : State).ran u l

/-- Degraded mode of a unit shown (R94). -/
def showDegraded (s : State) (u : Nat) (on : Bool) : State :=
  let f (s : State) (r : Fld) (m : Nat) : State := if on then s.setBits r [] m else s.clrBits r [] m
  if unitJob u == 3 then
    let s := f s Reg.TURN_OVR_DEG_PORT (2 ^ unitPort u)
    if s.get Reg.TURN_OVR_DEG_PORT == 0 then s.clrBits Reg.TURN_OVR_DEGRADED [] 8 else s.setBits Reg.TURN_OVR_DEGRADED [] 8
  else f s Reg.TURN_OVR_DEGRADED (2 ^ u)

end State

/-- JOB_DEGRADED (R94): a unit has overrun in three consecutive turns. -/
def execJobDegraded (u : Fin 10) (s : State) : Result :=
  let j := s.job u.val
  .next (if s.alive && u.val != 2 && j.overs ≥ 3 && !s.degraded u.val then
    let s := (s.showDegraded u.val true).modJob u.val fun j => { j with degSince := some s.clock.turn, good := 0 }
    s.record (0x3020 + unitJob u.val) 4 (unitSrc u.val) 3 (unitPort u.val)
  else s)

/-- JOB_RESTORED (R94, Table 4-4). -/
def execJobRestored (u : Fin 10) (s : State) : Result :=
  let j := s.job u.val
  .next (if s.alive && s.degraded u.val && j.good ≥ unitGood u.val then
    let n := s.clock.turn - j.degSince.getD s.clock.turn
    let s := (s.showDegraded u.val false).modJob u.val fun j => { j with degSince := none, good := 0, overs := 0 }
    s.record (0x3030 + unitJob u.val) 1 (unitSrc u.val) n (unitPort u.val)
  else s)

/-- JOB_LATE_COMPLETION (R93): with its load in the present turn. -/
def execJobLateCompletion (u : Fin 10) (load : Fin 1000) (s : State) : Result :=
  .next (if s.alive && ((s.job u.val).run.any fun t => t != s.clock.turn) then s.finishJob u.val load.val else s)

end Sys2Proof.Machine
end

