-- ==== Sys2Proof/Machine/FarServe.lean ====
section
/-!
DEFINITION. The target of the far-access bridge (R417 to R421, R426, R427, R434 to R438): the command FAR_REQUEST_SERVE.
-/

namespace Sys2Proof.Machine

namespace State

/-- The window in force with a function ID. -/
def farWindow (s : State) (func : Nat) : Option Nat :=
  (List.range 16).find? fun w => s.on Reg.FWw_CFG_EN [w] && s.get Reg.FWw_CFG_FUNC [w] == func

/-- The consist number of a position of the directory, 0 where there is none. -/
def consistOf (s : State) (pos : Nat) : Nat := ((s.nodeAt pos).map fun x => x.consistNo).getD 0

/-- The right and the scope allow a request (R421); a requester of the own logical node passes every scope (R423). -/
def farAllowed (s : State) (w : Nat) (r : FarReq) : Bool :=
  (if r.write then s.on Reg.FWw_CFG_WRITE [w] && s.get Reg.FWw_CFG_KIND [w] != 0 else s.on Reg.FWw_CFG_READ [w]) &&
  (r.pos == s.ownPos || r.localReq ||
    (match s.get Reg.FWw_MAP_SCOPE [w] with
      | 0 => true
      | 1 => s.consistOf r.pos == s.ownConsist
      | _ => false))

/-- What the window maps to can be reached (Table 16-4, NOT_READY). -/
def farReady (s : State) (w : Nat) : Bool :=
  match s.get Reg.FWw_CFG_KIND [w] with
  | 0 => true
  | 1 =>
    let t := s.get Reg.FWw_MAP_OWNER [w]
    s.on Reg.FXw_LO_EN [t, w] && s.on Reg.TN_STAT_PRESENT [t] && s.bme t
  | _ => s.on Reg.TN_STAT_PRESENT [16] && s.get Reg.BOOT_STAT_STAGE == 6

/-- The checks of a request before any piece, in the order of R426: the first failure's FSTAT, 0 without one. -/
def farCheck (s : State) (w : Nat) (r : FarReq) : Nat :=
  let n := 2 ^ s.get Reg.FWw_CFG_WIDTH [w]
  if !s.farAllowed w r then 2
  else if r.off % n != 0 || r.len % n != 0 || r.off + r.len > s.get Reg.FWw_SIZE_SIZE [w] then 3
  else if !s.farReady w then 5
  else 0

/-- The address in the owner's memory that a kind 1 window maps an offset to (Table 16-1). -/
def exportAddr (s : State) (w off : Nat) : Nat :=
  let t := s.get Reg.FWw_MAP_OWNER [w]
  2 ^ 12 * s.get Reg.FXw_LO_ADDR [t, w] + 2 ^ 32 * s.get Reg.FXw_HI_ADDR [t, w] + off

/-- Memory reads of a kind 1 read: each piece, or without side effects runs of at most 512 B (R435). -/
def farReads (s : State) (w off len : Nat) : State :=
  let t := s.get Reg.FWw_MAP_OWNER [w]
  let step := if s.on Reg.FWw_CFG_SIDE_EFFECT [w] then 2 ^ s.get Reg.FWw_CFG_WIDTH [w] else 512
  if t == 16 then s
  else (List.range ((len + step - 1) / step)).foldl (fun s i =>
    s.emit (.hostRead t (s.exportAddr w (off + i * step)) (min step (len - i * step)))) s

/-- Posted writes of a kind 1 write and the read of its last piece (R435). -/
def farWrites (s : State) (w off : Nat) (d : List Byte) : State :=
  let t := s.get Reg.FWw_MAP_OWNER [w]
  let n := 2 ^ s.get Reg.FWw_CFG_WIDTH [w]
  let step := if s.on Reg.FWw_CFG_SIDE_EFFECT [w] then n else max n d.length
  let s := (List.range ((d.length + step - 1) / step)).foldl (fun s i =>
    s.memWrite t (s.exportAddr w (off + i * step)) ((d.drop (i * step)).take step)) s
  if t == 16 || d.isEmpty then s else s.emit (.hostRead t (s.exportAddr w (off + d.length - n)) n)

/-- Between the bytes of a window and line order: a BIG resource stores the most significant byte first already (R427). -/
def farOrder (s : State) (w : Nat) (d : List Byte) : List Byte :=
  if s.on Reg.FWw_CFG_BIG [w] then d else turnPieces (2 ^ s.get Reg.FWw_CFG_WIDTH [w]) d.length d

/-- The bytes of a range of a window in line order (R418, R427, R435, R436); `given`: what host memory returns, in address order. -/
def farFetch (s : State) (w off len : Nat) (given : List Byte) : List Byte :=
  let base := s.get Reg.FWw_BASE_BASE [w]
  match s.get Reg.FWw_CFG_KIND [w] with
  | 0 => (List.range (len / 4)).flatMap fun i => beBytes 4 (s.readWord farCode (base + off + 4 * i))
  | 1 => s.farOrder w (s.memIn (s.get Reg.FWw_MAP_OWNER [w]) (s.exportAddr w off) len given)
  | _ => s.farOrder w (s.winRead (base + off) len)

/-- Prefetch bytes that a read returns (R438): from a PREFETCHABLE window, to its end and in whole pieces. -/
def farExtra (s : State) (w : Nat) (r : FarReq) : Nat :=
  let n := 2 ^ s.get Reg.FWw_CFG_WIDTH [w]
  if r.write || !s.on Reg.FWw_CFG_PREFETCHABLE [w] then 0
  else (min r.pf (s.get Reg.FWw_SIZE_SIZE [w] - (r.off + r.len))) / n * n

/-- Perform the pieces of a request (R426, R435, R436): the pieces performed, their data and the extra bytes in line order, and the
state. Of a window on host memory or node SRAM `ok` pieces succeed, prefetched ones after the rest. -/
def farPerform (s : State) (w : Nat) (r : FarReq) (ok : Nat) (given : List Byte) : Nat × List Byte × Nat × State :=
  let n := 2 ^ s.get Reg.FWw_CFG_WIDTH [w]
  let kind := s.get Reg.FWw_CFG_KIND [w]
  let want := r.len / n
  let done := if kind == 0 then want else min ok want
  if r.write then
    let d := s.farOrder w (slice r.data 0 r.len)
    if kind == 1 then (done, [], 0, s.farWrites w r.off d)
    else (done, [], 0, s.winWrite (s.get Reg.FWw_BASE_BASE [w] + r.off) (d.take (done * n)))
  else
    let extra := s.farExtra w r
    let extra := if kind == 0 then extra else min extra (n * (ok - want))
    let s' := if kind == 1 then (s.farReads w r.off r.len).farReads w (r.off + r.len) (s.farExtra w r) else s
    (done, s.farFetch w r.off (done * n + (if done == want then extra else 0)) given, if done == want then extra else 0, s')

/-- Answer a request (R425, R429): on the line, or to this device's own transfer. -/
def farReply (s : State) (r : FarReq) (fstat wnum pieces bytes extra : Nat) (data : List Byte) : State :=
  let fop := b2n r.write + 2
  if r.localReq then
    let m : FarMsg := ⟨fop, r.tag, r.func, r.off, bytes, extra, fstat, wnum, pieces, r.rturn, data⟩
    match s.farMatch m with
    | some x => s.farAnswer x m s.ownPos
    | none => s
  else s.farSend r.pos 0x0011 (farBytes fop r.tag r.func r.off bytes extra fstat wnum pieces r.rturn data)

/-- A request was refused or failed at its window (Table 16-7). -/
def farRefused (s : State) (r : FarReq) (w fstat off : Nat) : State :=
  let s := if w < 16 then s.inc Reg.FWw_CNT_REFUSED [w] else s
  s.recordS 0x3B02 3 11 (r.pos % 64 + 2 ^ 8 * (w % 16) + 2 ^ 16 * fstat) off

/-- A request is older than TGT_AGE turns (R434). -/
def farExpired (s : State) (r : FarReq) : Bool :=
  let age := (s.turn32 + 2 ^ 32 - r.rturn % 2 ^ 32) % 2 ^ 32
  s.get Reg.FAR_CTL_TGT_AGE != 0 && age < 2 ^ 31 && age > s.get Reg.FAR_CTL_TGT_AGE

/-- The next request reads host memory, and no read tag was free: the host returned no byte (R391, log 101). -/
def farWaits (s : State) (r : FarReq) (ok : Nat) (given : List Byte) : Bool :=
  !s.farExpired r && !r.write && r.len != 0 && ok != 0 && given.isEmpty && ((s.farWindow r.func).any fun w =>
    s.get Reg.FWw_CFG_KIND [w] == 1 && s.get Reg.FWw_MAP_OWNER [w] != 16 && s.farCheck w r == 0)

/-- This device answers far requests (R324, R333, R420). -/
def farServes (s : State) : Bool := !s.paired || (s.isLeader && s.red.driveFrom ≤ s.clock.turn)

/-- The oldest request of the target queue is served. -/
def farServe (s : State) (r : FarReq) (ok : Nat) (given : List Byte) : State :=
  if s.farExpired r then (s.inc Reg.FAR_TGT_CNT_EXPIRED).farReply r 7 0xFF 0 0 0 []
  else match s.farWindow r.func with
    | none => (s.farRefused r 16 1 r.off).farReply r 1 0xFF 0 0 0 []
    | some w =>
      match s.farCheck w r with
      | 0 =>
        let n := 2 ^ s.get Reg.FWw_CFG_WIDTH [w]
        let (p, d, extra, s) := s.farPerform w r ok given
        if p * n == r.len then ((s.inc Reg.FAR_TGT_CNT_SERVED).inc Reg.FWw_CNT_SERVED [w]).farReply r 0 w p r.len extra d
        else (s.farRefused r w 4 (r.off + p * n)).farReply r 4 w p (p * n) 0 d
      | fs => (s.farRefused r w fs r.off).farReply r fs w 0 0 0 []

end State

/-- FAR_REQUEST_SERVE (R426, R434 to R437): `ok`: how many pieces on host memory or node SRAM succeed; `given`: the bytes that host
memory returns. -/
def execFarRequestServe (ok : Nat) (given : List Byte) (s : State) : Result :=
  .next (match s.far.tqueue with
    | [] => s
    | r :: rest =>
      if !s.alive || !s.farUp || s.standing || !s.farServes then s
      else if s.farWaits r ok given then s.readStall
      else ((s.modFar fun f => { f with tqueue := rest }).showFar).farServe r ok given)

end Sys2Proof.Machine
end

