-- ==== Sys2Proof/Machine/ReadOut.lean ====
section
/-!
DEFINITION. The read-out of a frozen node (R613, R614): the command RO_DATA.
-/

namespace Sys2Proof.Machine

namespace State

/-- A 32-bit word of the CAN message RAM section: 16 KiB for each controller, 128 B for each buffer. -/
def canRamWord (s : State) (off : Nat) : Nat := s.bufWord (off / 0x4000) (off % 0x4000 / 0x80) (off % 0x80 / 4)

/-- A weir's window table in force as section 3 gives it (Table 24-3): what stands there is fixed but for two codes, and the place of
OWNER[s] is taken as byte 64 + s; without a pool term DYN_BOUND is all ones (log 59). -/
def weirImage (s : State) (w : Nat) : List Byte :=
  let t := (s.weir w).table
  let port (p : PortRole × Nat × Int) : List Byte :=
    [Config.roleCode p.1] ++ leBytes 1 p.2.1 ++ leBytes 2 0 ++ leBytes 4 (p.2.2 * 10 / 2 ^ 32 % 2 ^ 32).toNat
  let head := leBytes 4 (Config.layoutCode t.stopped t.prof t.sEff).toNat ++ leBytes 4 t.tNs ++ leBytes 4 t.eStat ++ leBytes 4 t.dynEnd ++
    leBytes 4 (t.bound.getD 0xFFFFFFFF) ++ leBytes 1 t.ownPos ++ leBytes 7 0 ++ leBytes 8 t.ownUid ++ t.ports.flatMap port
  slice head 0 52 ++ leBytes 4 (s.tableCrcShown w) ++ leBytes 8 0 ++
    (List.range t.sEff).map fun k => match t.owners.find? fun o => o.1 == k with
      | some o => BitVec.ofNat 8 (o.2.1 % 64 + 64 * o.2.2)
      | none => 0

/-- A byte of a structure given by its fields' place, width and value, least significant byte first (R9). -/
def fieldByte (l : List ((Nat × Nat) × Nat)) (a : Nat) : Byte :=
  match l.find? fun x => x.1.1 ≤ a && a < x.1.1 + x.1.2 with
  | some x => BitVec.ofNat 8 (x.2 / 256 ^ (a - x.1.1))
  | none => 0

/-- Eight bytes of it, as a word. -/
def fieldWord (l : List ((Nat × Nat) × Nat)) (a : Nat) : Nat := leAt ((List.range 8).map fun k => fieldByte l (a + k)) 0 8

/-- The sections: type, offset, length (Table 24-3). -/
def readOutSections : List (Nat × Nat × Nat) :=
  [(0, 0, 0x1000), (1, 0x10000, 0x10000), (2, 0x20000, 0x10000), (3, 0x30000, 0x10000), (4, 0x40000, 0x40000), (5, 0x80000, 0x20000),
   (6, 0x100000, 0x120000), (7, 0x1000000, 0x2000000)]

/-- The fields of the header (R614). -/
def headerFields (s : State) : List ((Nat × Nat) × Nat) :=
  let h := s.dbg.header
  let place (k : Nat) (v : Nat) : (Nat × Nat) × Nat := (Config.headerField k, v)
  [place 0 0x4C4A5246, place 1 1, place 2 s.uid, place 3 h.1, place 4 h.2.1, place 5 h.2.2.1, place 6 h.2.2.2] ++
  readOutSections.zipIdx.flatMap fun x =>
    let base := (Config.headerField 7).1 + 16 * x.2
    [(0, x.1.1), (1, x.1.2.1), (2, x.1.2.2)].map fun y => ((base + (Config.entryField y.1).1, (Config.entryField y.1).2), y.2)

/-- Credit granted, credit used and items held of a credited queue (Table 1-5), by kind, its row from 1, and instance: ring fetch-ahead by
tenant × 16 + queue; PCIe by port; fabric and consist egress by port × 8 + class; hop credits by port × 10 + credit class; CAN transmit by
controller; the tally-book queue; the far-access tags. The numbering of the instances is the model's (log 55). -/
def queueState (s : State) (kind inst : Nat) : Nat × Nat × Nat :=
  let c := Config.queueCredit kind inst
  if kind == 1 then
    let n := (s.queue (inst / 16) (inst % 16)).works.length
    (64, n, n)
  else if kind == 3 then (c.1, c.2, (s.con.fabric.filter fun f => f.port == inst / 8 && f.cls == inst % 8).length)
  else if kind == 4 then
    let p := s.port (inst / 10)
    (p.granted.getD (inst % 10) 0, p.used.getD (inst % 10) 0, p.queue.length)
  else if kind == 5 then (c.1, c.2, (s.con.egress.filter fun f => f.port == inst / 8 && f.cls == inst % 8).length)
  else if kind == 6 then
    let n := (s.ctl inst).pending.length
    (128 - ((s.ctl inst).bufs.filter fun b => b.2.type == 1).length, n, n)
  else if kind == 7 then (4096, s.tally.queue.length, s.tally.queue.length)
  else if kind == 8 then
    let n := (s.far.transfers.filter fun t => t.tag.isSome).length
    (128, n, n)
  else (c.1, c.2, 0)

/-- A record of section 4. -/
def queueRecord (s : State) (k : Nat) : List Byte :=
  match Config.queueSlot k with
  | some (kind, inst) =>
    let q := s.queueState kind inst
    leBytes 2 kind ++ leBytes 2 inst ++ leBytes 4 q.1 ++ leBytes 4 q.2.1 ++ leBytes 4 q.2.2
  | none => leBytes 16 0

/-- 64 bits of the ECC map: the lines of words that a scrubber has marked, and of others that hold an uncorrectable word. -/
def eccMapWord (s : State) (known : Nat) (off : Nat) : Nat :=
  (s.mem.marked.filter fun a => a / 64 / 64 == off / 8).foldl (fun v a => v ||| 2 ^ (a / 64 % 64)) known

/-- A 64-bit word of the read-out image (Table 24-3). CPU state, SRAM, and what else of the ECC map there is are not held as bits
(log 55); banks 60 to 63 of the SRAM and holes read as zero. -/
def readOutWord (s : State) (addr : Nat) : Nat :=
  let opaqueWord := (Config.frozenWord ((s.dbg.frozen.map fun x => x.2).getD 0) addr).toNat
  if addr < 0x1000 then fieldWord s.headerFields addr
  else if addr < 0x10000 then 0
  else if addr < 0x20000 then s.eccMapWord opaqueWord (addr - 0x10000)
  else if addr < 0x30000 then opaqueWord
  else if addr < 0x40000 then
    (let w := addr % 0x10000 / 0x8000
    if addr % 0x8000 < 0x400 then leAt (s.weirImage w) (addr % 0x8000) 8
    else if addr % 0x8000 < 0x410 then
      fieldWord [(Config.weirField 0, s.wst w), (Config.weirField 1, opaqueWord), (Config.weirField 2, s.get Reg.WEIR_STAT_OWN_BLOCKS [w])]
        (addr % 0x8000 - 0x400)
    else 0)
  else if addr < 0x80000 then leAt (s.queueRecord ((addr - 0x40000) / 16)) (addr % 16) 8
  else if addr < 0xA0000 then s.canRamWord (addr - 0x80000) + 2 ^ 32 * s.canRamWord (addr - 0x80000 + 4)
  else if addr < 0x100000 then 0
  else if addr < 0x220000 then s.readWord 0 (addr - 0x100000) + 2 ^ 32 * s.readWord 0 (addr - 0x100000 + 4)
  else if addr < 0x1000000 then 0
  else if addr < 0x2E00000 then opaqueWord
  else 0

/-- n words from RO_ADDR, which they advance by 8 each. -/
def readOut : Nat → State → List Byte × State
  | 0, s => ([], s)
  | n + 1, s =>
    let w := leBytes 8 (s.readOutWord s.dbg.roAddr)
    let (l, s) := readOut n (s.modDebug fun d => { d with roAddr := (d.roAddr + 8) % 2 ^ 32 })
    (w ++ l, s)

end State

/-- RO_DATA (R613): one Shift-DR state of n words. -/
def execRoData (n : Nat) (s : State) : Result :=
  .next (if !s.debugOn then s
    else if s.on Reg.DIAG_STAT_FROZEN then
      let (l, s) := State.readOut n (s.loadIr 0x32)
      s.emit (.tdo l)
    else (s.loadIr 0x32).emit (.tdo (List.replicate (8 * n) 0)))

end Sys2Proof.Machine
end

