-- ==== Sys2Proof/Machine/TimeCmds.lean ====
section
/-!
DEFINITION. The commands of node time and synchronisation that stand by themselves (08_line_synchronisation.md): the end of
SELF_SILENT and of widening, the persisted rate, PPS, and the alignment to TAI over PPS_IN, gPTP and time messages.
-/

namespace Sys2Proof.Machine

/-- A time source preferred over another (R208): ORIGIN 0b10 before 0b01, then the lower position. -/
def betterSource (o p o' p' : Nat) : Bool := o > o' || (o == o' && p < p')

namespace State

/-- The node has a time source of its own (R208). -/
def ownSource (s : State) : Bool := s.get Reg.TIME_STAT_ORIGIN == 1 || s.get Reg.TIME_STAT_ORIGIN == 2

/-- The line's time source as last heard, while its last message is within 256 turns (R208). -/
def lineSource (s : State) : Option (Nat × Nat) :=
  match s.sync.source with
  | some (p, o, t) => if s.clock.turn < t + 256 then some (p, o) else none
  | none => none

/-- A preferred sender's message was received within the last 256 turns (R208). -/
def outranked (s : State) : Bool :=
  match s.lineSource with
  | some (p, o) => betterSource o p (s.get Reg.TIME_STAT_ORIGIN) s.ownPos
  | none => false

/-- Arm the alignment to PPS_IN: two seconds from now (R206). -/
def armTai (s : State) : State := (s.set Reg.TAI_CTL_ARM [] 1).modSync fun y => { y with armed := some (s.inNs 2000000000) }

/-- A time message is heard (R208): its turn k, its node time and its ORIGIN. The device of a pair without a source hears its partner's. -/
def hearTime (s : State) (sender k t o : Nat) : State :=
  let keep : Bool := match s.lineSource with
    | some (p, q) => p == sender || betterSource o sender q p
    | none => true
  let own := s.ownSource && !betterSource o sender (s.get Reg.TIME_STAT_ORIGIN) s.ownPos
  if !(o == 1 || o == 2) || (sender == s.ownPos && (!s.paired || s.ownSource)) || !keep then s
  else s.modSync fun y => { y with
    source := some (sender, o, s.clock.turn), align := if own then y.align else some (k, t, 3) }

end State

/-- SELF_SILENT_EXIT (R203); a node that enters SYNCED with ICOUNT 0 has a trigger pending (R230). In a pair the deciding device leaves
(R229). -/
def execSelfSilentExit (s : State) : Result :=
  .next (if s.alive && s.lstate == 5 && s.sync.goodRun ≥ 8 && s.decides then
    let s := (s.toLine 4).record 0x3302 1 3 s.sync.silentTurns (s.get Reg.SYNC_OFFSET_OFFSET)
    if s.icount == 0 then s.set Reg.LSTART_STAT_PENDING [] 1 else s
  else s)

/-- WIDENING_END (R197). -/
def execWideningEnd (s : State) : Result :=
  .next (if s.alive && s.on Reg.SYNC_STAT_WIDE && s.sync.since ≥ 8 then s.set Reg.SYNC_STAT_WIDE [] 0 else s)

/-- RATE_PERSIST (R198, R67). -/
def execRatePersist (s : State) : Result :=
  .next (if s.alive && s.on Reg.SYNC_STAT_CONVERGED && s.sync.persistCount ≥ 65536 then
    (s.mramWrite (.rate (s.getInt Reg.NTIME_RATE_RATE))).modSync fun y => { y with persistCount := 0 } else s)

/-- PPS_OUT_PULSE (R205): node time has passed a whole second; the pulse counts from that second. -/
def execPpsOutPulse (s : State) : Result :=
  let sec := s.nowNs / 1000000000
  let w := max 1 (s.get Reg.SYNC_CTL_PPS_W) * 1000000
  .next (if s.alive && s.on Reg.SYNC_CTL_PPS_OUT_EN && sec != s.sync.ppsSec then
    ((s.modSync fun y => { y with
      ppsSec := sec, ppsEnd := s.inNs (w - s.nowNs % 1000000000) }).modPins fun p => { p with ppsOut := true }).ppsSettle
  else s)

/-- TAI_ARM (R206). -/
def execTaiArm (s : State) : Result := .next (if s.alive then s.armTai else s)

/-- The 2 s after arming are not over (R206). -/
def State.armedNow (s : State) : Bool := s.on Reg.TAI_CTL_ARM && (s.sync.armed.any fun t => s.clock.up < t)

/-- PPS_IN_EDGE (R206): an edge within 2 s of arming. -/
def execPpsInEdge (s : State) : Result :=
  .next (if s.alive && s.armedNow then
    let s := (s.set Reg.TAI_CTL_ARM [] 0).modSync fun y => { y with armed := none }
    s.alignTime (s.get Reg.TAI_SET_SEC_SEC * 1000000000) 1
  else s)

/-- TAI_ARM_MISSED (R206): the 2 s are over. -/
def execTaiArmMissed (s : State) : Result :=
  .next (if s.alive && s.on Reg.TAI_CTL_ARM && !s.armedNow then
    ((s.set Reg.TAI_CTL_ARM [] 0).set Reg.TAI_CTL_MISSED [] 1).modSync fun y => { y with armed := none }
  else s)

/-- GPTP_ALIGN (R207): the selected grandmaster's time in ns, once per second. -/
def execGptpAlign (ns : Nat) (s : State) : Result :=
  .next (if s.alive && s.fwUp && s.gmSelected && s.sync.gptpAt.all fun t => s.since t 1000000000 then
    (s.modSync fun y => { y with gptpAt := some s.clock.up }).alignTime ns 2 else s)

/-- TIME_MESSAGE_SEND (R208), once in its turn. The rule gives the message no SEL: it is a free value. -/
def execTimeMessageSend (s : State) : Result :=
  .next (if s.alive && s.cpuUp 0 && s.ownSource && s.clock.turn % 64 == 0 && !s.outranked && s.sync.timeSent != some s.clock.turn then
    let s := s.modSync fun y => { y with timeSent := some s.clock.turn }
    let (sel, s) := s.take 16
    let tick := (s.clock.ntime - s.clock.phase) / State.nsUnit + 4 * s.turnNs
    let body := beBytes 8 (s.clock.turn + 4) ++ beBytes 8 tick ++ beBytes 1 (s.get Reg.TIME_STAT_ORIGIN) ++ beBytes 7 0
    (s.lineOut 4 0xFFFF 2 sel 0 body none).2
  else s)

/-- TIME_MESSAGE_RECEIVE (R208): the sender's position and the payload after the address word. -/
def execTimeMessageReceive (sender : Nat) (body : List Byte) (s : State) : Result :=
  .next (if s.alive && s.cpuUp 0 then s.hearTime sender (beAt body 0 8) (beAt body 8 8) (beAt body 16 1) else s)

/-- TAI_ALIGN_AT_TICK (R208, R209): at the tick named. -/
def execTaiAlignAtTick (s : State) : Result :=
  .next (match s.sync.align with
    | none => s
    | some (k, t, o) =>
      if !s.alive || s.clock.turn < k then s
      else
        let s := s.modSync fun y => { y with align := none }
        if s.clock.turn == k then s.alignTime (t + s.phaseNs) o else s)

end Sys2Proof.Machine
end

