-- ==== Sys2Proof/Machine/RegAccess.lean ====
section
/-!
DEFINITION. Register accesses (R10 to R15, R82, R376, R377, R408, R441, R485 to R493, R620 to R622): who reaches which register, what
a read changes, and what a write changes; the commands REGISTER_WRITE, READ_CLEAR, LATCHED_LOW_READ, LOCK_SET, READ_REG and WRITE_REG.
-/

namespace Sys2Proof.Machine

namespace State

/-! Who reaches what (R376, R377, Table 15-5) -/

/-- A requester can make accesses: through BAR0 a PF or a CPU pair, through BAR2 a PCIe function. -/
def reaches (s : State) (r : Requester) (bar2 : Bool) : Bool :=
  match r with
  | .tenant t => t < 16 && s.domainOn 9 && s.on Reg.TN_STAT_PRESENT [t] && (bar2 || isPf t)
  | .cpu i => i < 2 && !bar2

/-- An access that is not one 32-bit, 32-bit-aligned access (R377). -/
def malformed (off size : Nat) : Bool := size != 4 || off % 4 != 0

/-- A malformed access of a tenant's function is flagged (R377, Table 15-17). -/
def accessError (s : State) (r : Requester) : State :=
  match r with
  | .tenant t =>
    let s := s.tnErr t Reg.TN_ERR_ACCESS
    s.recordS 0x3A05 2 (5 + portOf t) t (s.tnErrWord t)
  | .cpu _ => s

/-- The BAR0 offset of a tenant's page that its BAR2 or QSPI register offset reaches. -/
def pageOff (t off : Nat) : Option Nat := if 0x1000 ≤ off && off < 0x2000 then some (0x80000 + 0x1000 * t + (off - 0x1000)) else none

/-- A requester may write a register: a function writes its own page alone, and of the apertures a PF its own port's (R376, R441). -/
def mayWrite (r : Requester) (off : Nat) : Bool :=
  match r with
  | .cpu _ => true
  | .tenant t =>
    if 0x80000 ≤ off && off < 0x91000 then off / 0x1000 - 0x80 == t
    else if 0xA0400 ≤ off && off < 0xA0800 then apPf ((off - 0xA0400) / 0x200) == t
    else isPf t

/-! Reads (R12, R82, R444, R621) -/

/-- A read clears an RC field, or leaves the value that its Meaning names. -/
def readField (s : State) (x : Fld × List Nat) : State :=
  if x.1.acc != .rc then s
  else if x.1 == Reg.PWR_VIN_VIN_MIN then s.set x.1 x.2 (s.get Reg.PWR_VIN_VIN)
  else if x.1 == Reg.WEIR_CNT_EARLY then
    { s with weirs := { s.weirs with
      counters := Sparse.del (64 * s.get Reg.WEIR_CNT_SEL_WEIR + s.get Reg.WEIR_CNT_SEL_SENDER) s.weirs.counters } }
  else if x.1 == Reg.FAR_PF_CNT_HITS then s.modFar fun f => { f with pfHits := listSet f.pfHits (s.get Reg.FAR_PF_SEL_ENTRY) 0 }
  else if x.1 == Reg.FAR_PF_CNT_DISCARDS then
    s.modFar fun f => { f with pfDiscards := listSet f.pfDiscards (s.get Reg.FAR_PF_SEL_ENTRY) 0 }
  else if x.1 == Reg.FAR_AP_ERR_STAT_x_VALID then (s.apPop (x.2.headD 0)).2
  else s.set x.1 x.2 0

/-- A read of a low register latches the high one for its requester. -/
def latchHigh (s : State) (c off : Nat) : State :=
  match (latchedPairs.find? fun p => (p.1.find off).isSome) with
  | none => s
  | some p =>
    let ix := (p.1.find off).getD []
    let hi := p.2.1.off ix
    let v := p.2.2 s ix
    s.modClock fun k => { k with latches := (c, hi, v) :: k.latches.filter fun x => !(x.1 == c && x.2.1 == hi) }

/-- A register read by a requester: the word it returns, and what it changes. -/
def readReg (s : State) (r : Requester) (off : Nat) : Nat × State :=
  let v := s.readWord r.code off
  (v, if s.canDark off then s else ((fieldsAt off).foldl readField s).latchHigh r.code off)

/-- A word of a function's MSI-X table or pending bits (Table 15-5). -/
def msixWord (s : State) (t off : Nat) : Nat :=
  let k := (off - 0x8000) / 4
  if 0x8000 ≤ off && off < 0x8400 then
    (if k % 4 == 3 then b2n (s.vecMasked t (k / 4)) else (Sparse.find (t * 256 + k) s.host.vectors).getD 0)
  else if off == 0x9000 || off == 0x9004 then
    (List.range 32).foldl (fun a i => a + 2 ^ i * b2n (s.host.pba.contains (t * 64 + 8 * (off - 0x9000) + i))) 0
  else 0

/-- A read through BAR2 or, for tenant 16, of the QSPI register space. -/
def readOwn (s : State) (t off : Nat) : Nat × State :=
  match pageOff t off with
  | some o => s.readReg (.tenant t) o
  | none => (if t == 16 then 0 else s.msixWord t off, s)

/-- A read access: what it returns, and what it changes. -/
def readAccess (s : State) (r : Requester) (bar2 : Bool) (off size : Nat) : Nat × State :=
  if malformed off size then (0xFFFFFFFF, s.accessError r)
  else match bar2, r with
    | true, .tenant t => s.readOwn t off
    | _, _ => s.readReg r off

/-! Locks (R14, R15, Table 25-1) -/

/-- The LOCK fields of the blocks that have one, with the offsets of the block. -/
def locks : List (Fld × Nat × Nat) :=
  [(Reg.GPIO_LOCK_LOCK, 0, 0x10000), (Reg.PWR_LOCK_LOCK, 0x10000, 0x20000), (Reg.LINE_LOCK_LOCK, 0x40000, 0x50000),
   (Reg.WEIR_LOCK_LOCK, 0x50000, 0x60000), (Reg.INAUG_LOCK_LOCK, 0x60000, 0x70000), (Reg.RED_LOCK_LOCK, 0x70000, 0x80000),
   (Reg.FAR_LOCK_LOCK, 0xA0000, 0xB0000), (Reg.CON_LOCK_LOCK, 0xB0000, 0xC0000), (Reg.CAN_LOCK_LOCK, 0xC0000, 0xD0000),
   (Reg.MEM_LOCK_LOCK, 0xD0000, 0xE0000), (Reg.TALLY_LOCK_LOCK, 0xE0000, 0xF0000), (Reg.SEC_LOCK_LOCK, 0xF0000, 0x100000)]

/-- The RWL fields at an offset are locked. -/
def lockedAt (s : State) (off : Nat) : Bool := locks.any fun l => l.2.1 ≤ off && off < l.2.2 && s.on l.1

/-- Writing 1 to a LOCK bit sets it; writing 0 has no effect. -/
def setLock (s : State) (f : Fld) (v : Nat) : State := if v % 2 == 1 then s.set f [] 1 else s

/-! Writes of CAN buffers (R485, R487, R493, Table 18-4) -/

/-- The configured part of a buffer, open until CAN_LOCK.LOCK is set. -/
def bufConfig (s : State) (n b k v : Nat) : State :=
  let matrix := (s.canBuf n b).type == 2
  if k == 20 then s.modBuf n b fun x => { x with type := v % 4, irq := bit v 2, hostRead := bit v 3 }
  else if k == 21 then s.modBuf n b fun x => { x with filtId := v % 2 ^ 30 }
  else if k == 22 then s.modBuf n b fun x => { x with filtMask := v % 2 ^ 30 }
  else if k == 0 && matrix then
    s.modBuf n b fun x => { x with frame := { x.frame with id := v % 2 ^ 29, ide := bit v 29, rtr := bit v 30 } }
  else if k == 1 && matrix then
    s.modBuf n b fun x => { x with frame := { x.frame with dlc := v % 16, fdf := bit v 4, brs := bit v 5, esi := bit v 6 } }
  else s

/-- A write of word k of buffer b through the window. -/
def bufWrite (s : State) (n b k v : Nat) : State :=
  let s := if s.on Reg.CAN_LOCK_LOCK then s else s.bufConfig n b k v
  let x := s.canBuf n b
  if x.type == 1 && k == 1 then
    s.modBuf n b fun y => { y with isNew := y.isNew && !bit v 8, msgLost := y.msgLost && !bit v 9 }
  else if x.type == 2 && k == 1 then
    (if x.frame.fdf || bit v 8 then s.canUpdate n ⟨b, if x.frame.fdf then some (v % 16) else none, 0, [], bit v 8⟩ else s)
  else if x.type == 2 && 4 ≤ k && k < 20 then s.canUpdate n ⟨b, none, 4 * (k - 4), leBytes 4 v, false⟩
  else s

/-! Plain writes (R12) -/

/-- Fields whose write is an action of its own. -/
def actionFields : List Fld :=
  [Reg.TURN_CTL_EN, Reg.PWR_SW_OFF, Reg.TAI_CTL_ARM, Reg.TI_CTL_EN, Reg.HQq_CTL_EN, Reg.TALLY_UTC_VALID, Reg.TALLY_UTC_OFFSET,
    Reg.CANn_BUFSEL_BUF, Reg.MEM_CNT_CTL_RUN] ++ locks.map fun l => l.1

/-- A field may be written by this requester beside the rules of the whole register: GPIO_OUT, GPIO_EDGE and GPIO_IRQ not from a CPU
pair (R31), an export by its owner alone (R419). -/
def fieldOpen (s : State) (r : Requester) (f : Fld) (ix : List Nat) : Bool :=
  match r with
  | .cpu _ => !([Reg.GPIO_OUT_VAL, Reg.GPIO_EDGE_FALL, Reg.GPIO_EDGE_RISE, Reg.GPIO_IRQ_VEC, Reg.GPIO_IRQ_PF, Reg.GPIO_IRQ_EN].contains f) && f != Reg.FXw_LO_ADDR && f != Reg.FXw_LO_EN && f != Reg.FXw_HI_ADDR
  | .tenant t =>
    (f != Reg.FXw_LO_ADDR && f != Reg.FXw_LO_EN && f != Reg.FXw_HI_ADDR) || s.get Reg.FWw_MAP_OWNER [ix.getD 1 0] == t

/-- A write of a field by its access code. -/
def writeField (r : Requester) (off v : Nat) (s : State) (x : Fld × List Nat) : State :=
  let (f, ix) := x
  let b := bits v f.hi f.lo
  if actionFields.contains f || !s.fieldOpen r f ix then s
  else match f.acc with
    | .rw => s.set f ix (limitField f b)
    | .rwp => s.set f ix b
    | .rwl => if s.lockedAt off then s else s.set f ix (limitField f b)
    | .w1c => s.clrBits f ix b
    | .ro => s
    | .rc => s
    | .wo => s
    | .win => s

/-! Actions -/

/-- A write of TURN_CTL (R84): EN is open to CPU pairs alone. -/
def actTurnCtl (s : State) (r : Requester) (v : Nat) : State :=
  match r with
  | .tenant _ => s
  | .cpu _ =>
    if bit v 0 then (if s.on Reg.TURN_CTL_EN then s else s.turnOn)
    else if s.on Reg.TURN_CTL_EN then ((s.lineOff.set Reg.TURN_CTL_EN [] 0).set Reg.TURN_STAT_SRC [] 0).relays
    else s

/-- A write of RST_CMD (R98): with the key, from a PF. -/
def actRstCmd (s : State) (r : Requester) (v : Nat) : State :=
  match r with
  | .cpu _ => s
  | .tenant _ =>
    if v / 2 ^ 24 != 0xA5 then s
    else if v % 4 == 1 then (if s.fwUp then s.fwRestart .cmd none else s)
    else if v % 4 == 2 then s.fullReset [Reg.RST_CAUSE_FATAL]
    else s

/-- A write of TAI_CTL.ARM (R206). -/
def actTaiCtl (s : State) (v : Nat) : State :=
  if bit v 0 then s.armTai else (s.set Reg.TAI_CTL_ARM [] 0).modSync fun y => { y with armed := none }

/-- A write of TI_CTL.EN (R359); `list`: the subscription list as the host returns it. -/
def actTiCtl (s : State) (t v : Nat) (list : List Byte) : State :=
  if bit v 0 then s.enableImage t list
  else if s.on Reg.TI_CTL_EN [t] then
    (((s.modImage t fun x => { x with fetch := none }).set Reg.TI_CTL_EN [t] 0).set Reg.TI_STAT_ACTIVE [t] 0).showReads
  else s

/-- A write of HQq_CTL.EN (R379, R380). -/
def actQueueCtl (s : State) (t q v : Nat) : State :=
  if bit v 0 then s.enableQueue t q else if s.on Reg.HQq_CTL_EN [t, q] then s.disableQueue t q else s

/-- A write of CANn_CMD (R499, R503, R506): a controller whose domain is off takes WAKE alone. -/
def actCanCmd (s : State) (n v : Nat) : State :=
  let s := if bit v 0 then s.canRecover n else s
  let s := if bit v 1 then s.canSleepCmd n else s
  if bit v 2 then s.canWake n 4 else s

/-- The registers whose write does more than give fields a value, by one of their fields; the action takes the requester, the indices,
the word and what the host returns. -/
def actions : List (Fld × (State → Requester → List Nat → Nat → List Byte → State)) :=
  [(Reg.TURN_CTL_EN, fun s r _ v _ => s.actTurnCtl r v),
   (Reg.PWR_SW_OFF, fun s _ _ v _ => s.writeSw (bits v 9 4)),
   (Reg.TURN_LOAD_CLR, fun s _ _ v _ => if bit v 31 then s.clearPeak else s),
   (Reg.RST_CMD_KEY, fun s r _ v _ => s.actRstCmd r v),
   (Reg.LPn_CTL_RETRY, fun s _ ix v _ => if bit v 16 then s.lpRetry (ix.headD 0) else s),
   (Reg.TAI_CTL_ARM, fun s _ _ v _ => s.actTaiCtl v),
   (Reg.GPIO_OUT_VAL, fun s _ _ _ _ => s.gpioSettle),
   (Reg.TI_CTL_EN, fun s _ ix v g => s.actTiCtl (ix.headD 0) v g),
   (Reg.HQq_CTL_EN, fun s _ ix v _ => s.actQueueCtl (ix.headD 0) (ix.getD 1 0) v)] ++
  [(Reg.MDIO_CMD_GO, fun s _ _ v _ => if bit v 30 then s.mdioGo else s),
   (Reg.CANn_CMD_WAKE, fun s _ ix v _ => s.actCanCmd (ix.headD 0) v),
   (Reg.CANn_BUFSEL_BUF, fun s r ix v _ => s.modCan fun c => { c with sel := Sparse.put (8 * r.code + ix.headD 0) (v % 128) c.sel }),
   (Reg.CANn_BUFWIN_k_WORD, fun s r ix v _ => s.bufWrite (ix.headD 0) (s.canSel r.code (ix.headD 0)) (ix.getD 1 0) v),
   (Reg.MEM_CNT_CTL_CLR, fun s _ _ v _ => s.memCounters (v % 2 ^ 12) (bit v 31)),
   (Reg.TALLY_UTC_VALID, fun s _ _ v _ => s.writeUtc (bit v 31) (v % 2 ^ 16)),
   (Reg.TCL_CTL_NEW, fun s _ ix v _ => if bit v 0 then s.newNonce (ix.headD 0) else s),
   (Reg.SEC_TAMPER_STAT_EVENT, fun s _ _ _ _ => s.flag Reg.SEC_STAT_TAMPER [] (s.get Reg.SEC_TAMPER_STAT_EVENT != 0))] ++
  locks.map fun l => (l.1, fun s _ _ v _ => s.setLock l.1 v)

/-- SYNC_CTL.PPS_OUT_EN has changed (R205): a pulse ends with it, and the first one begins at the next whole second. -/
def ppsChanged (s old : State) : State :=
  (if !old.on Reg.SYNC_CTL_PPS_OUT_EN && s.on Reg.SYNC_CTL_PPS_OUT_EN then s.modSync fun y => { y with ppsSec := s.nowNs / 1000000000 }
  else s).ppsSettle

/-- What a change of settings through their registers brings about, as their load from an image does (Table 22-2): from the state
before the write. -/
def settle (s old : State) (off : Nat) : State :=
  let s :=
    if (0x40100 ≤ off && off < 0x40180) || (0xB0100 ≤ off && off < 0xB0280) then s.portsChanged old.portModes
    else if 0xC0000 ≤ off && off < 0xC8000 then s.cansChanged ((List.range 8).map fun n => old.bitTiming n)
    else if 0xE0100 ≤ off && off < 0xE0900 then s.sluiceChanged ((List.range 256).map fun k => old.sluiceWords k)
    else if 0xD0040 ≤ off && off < 0xD0080 then s.showPlacement
    else if off < 0x100 then s.gpioSettle
    else if 0x40800 ≤ off && off < 0x40804 then s.ppsChanged old
    else s
  s.certify

/-- A register write by a requester; `given`: what the host returns where the write makes the node read its memory. -/
def writeReg (s : State) (r : Requester) (off v : Nat) (given : List Byte) : State :=
  if !mayWrite r off || (s.canDark off && (Reg.CANn_CMD_WAKE.find off).isNone) then s
  else
    let fs := fieldsAt off
    let t := fs.foldl (writeField r off v) s
    let t := if (fs.any fun x => x.1.acc == .rwl) && !s.lockedAt off then t.settle s off else t
    match (actions.find? fun a => (a.1.find off).isSome) with
    | some a => a.2 t r ((a.1.find off).getD []) v given
    | none => t

/-- A write of a function's MSI-X table: a vector that is unmasked while its pending bit is set is signalled (R392). -/
def msixWrite (s : State) (t off v : Nat) : State :=
  let k := (off - 0x8000) / 4
  if !(0x8000 ≤ off && off < 0x8400) then s
  else if k % 4 != 3 then s.modHost fun h => { h with vectors := Sparse.write 0 (t * 256 + k) v h.vectors }
  else
    let n := t * 64 + k / 4
    let s := s.modHost fun h => { h with masked := Sparse.put n (bit v 0) h.masked }
    if !bit v 0 && s.host.pba.contains n then (s.modHost fun h => { h with pba := h.pba.filter fun x => x != n }).msix t (k / 4) else s

/-- A write through BAR2 or, for tenant 16, of the QSPI register space (Table 15-5, R387). -/
def writeOwn (s : State) (t off v : Nat) (given : List Byte) : State :=
  match pageOff t off with
  | some o => s.writeReg (.tenant t) o v given
  | none => if off == 0 then s.doorbell t v else if t == 16 then s else s.msixWrite t off v

/-- A write access. -/
def writeAccess (s : State) (r : Requester) (bar2 : Bool) (off size v : Nat) (given : List Byte) : State :=
  if malformed off size then s.accessError r
  else match bar2, r with
    | true, .tenant t => s.writeOwn t off v given
    | _, _ => s.writeReg r off v given

/-! The QSPI register commands (R408, log 58) -/

/-- Registers read from an offset on. -/
def qspiRead (off : Nat) : Nat → State → List Byte × State
  | 0, s => ([], s)
  | n + 1, s =>
    let (v, s) := s.readOwn 16 off
    let (l, s) := qspiRead (off + 4) n s
    (leBytes 4 v ++ l, s)

/-- Registers written from an offset on, as many as there are whole words. -/
def qspiWrite (data : List Byte) (off : Nat) : Nat → State → State
  | 0, s => s
  | n + 1, s => qspiWrite (data.drop 4) (off + 4) n (s.writeOwn 16 off (leAt data 0 4) [])

end State

/-- REGISTER_WRITE (R12, R376, R377, R620): a write of `size` bytes through BAR0 or BAR2. -/
def execRegisterWrite (r : Requester) (bar2 : Bool) (off size : Nat) (v : Word) (given : List Byte) (s : State) : Result :=
  let open_ := match r with
    | .tenant t => s.postsOpen t
    | .cpu _ => true
  .next (if s.alive && s.reaches r bar2 && open_ then s.writeAccess r bar2 off size v.toNat given else s)

/-- READ_CLEAR (R12, R377, R620): a read of `size` bytes; RC fields of the register are cleared. -/
def execReadClear (r : Requester) (bar2 : Bool) (off size : Nat) (s : State) : Result :=
  .next (if s.alive && s.reaches r bar2 then
    let (v, s) := s.readAccess r bar2 off size
    s.emit (.read r off (BitVec.ofNat 32 v))
  else s)

/-- LATCHED_LOW_READ (R82, R621): a read of the low register of a latched pair. -/
def execLatchedLowRead (r : Requester) (bar2 : Bool) (off : Nat) (s : State) : Result :=
  .next (if s.alive && s.reaches r bar2 then
    let (v, s) := s.readAccess r bar2 off 4
    s.emit (.read r off (BitVec.ofNat 32 v))
  else s)

/-- LOCK_SET (R14): 1 is written to the LOCK bit of the k-th block of Table 25-1 that has one. -/
def execLockSet (r : Requester) (k : Fin 12) (s : State) : Result :=
  .next (match State.locks[k.val]? with
    | some l => if s.alive && s.reaches r false then s.setLock l.1 1 else s
    | none => s)

/-- READ_REG (R408): n registers from an offset; all ones until READY. -/
def execReadReg (off n : Nat) (s : State) : Result :=
  .next (if !s.qspiOn then s
    else if !s.hostsServed then s.emit (.qspi (List.replicate (4 * n) 0xFF))
    else if off % 4 != 0 then (s.accessError (.tenant 16)).emit (.qspi (List.replicate (4 * n) 0xFF))
    else
      let (l, s) := State.qspiRead off n s
      s.emit (.qspi l))

/-- WRITE_REG (R408): without effect until READY; a partial word is ignored. -/
def execWriteReg (off : Nat) (data : List Byte) (s : State) : Result :=
  .next (if !s.qspiOn || !s.hostsServed then s
    else if off % 4 != 0 then s.accessError (.tenant 16)
    else State.qspiWrite data off (data.length / 4) s)

end Sys2Proof.Machine
end

