-- ==== Sys2Proof/Machine/Tick.lean ====
section
/-!
DEFINITION. The tick (R84 to R96) with what every block does at it, the work of the NIT (R194, R332), and the adoption of a new
inauguration (R263): the commands TICK, NIT_CORRECTION and ADOPTION. What else happens at a tick has a command of its own, which
follows the tick.
-/

namespace Sys2Proof.Machine

namespace State

/-! Time and turn -/

/-- The turn number of the next turn (R84); in COLDSTART below the KICKOFF floor, the least one at or above it with the same place in
the cycle of 64 (R572). -/
def nextTurn (s : State) : Nat :=
  let n := s.clock.turn + 1
  let floor := s.get Reg.SEC_KICK_FLOOR_LO_TURN + 2 ^ 32 * s.get Reg.SEC_KICK_FLOOR_HI_TURN
  if s.lstate == 2 && s.start.floorWait && n < floor then floor + (n + 64 - floor % 64) % 64 else n

/-- Node time runs to the next tick; the turn number counts on and TURN_OUT rises (R79, R84, R86, R87). -/
def turnOver (s : State) : State :=
  let t := s.nextTurn
  let s := (s.pass (s.clock.pre + s.periodOf (s.turnNs * nsUnit - s.clock.phase))).modClock fun c => { c with
    phase := 0, pre := 0, turn := t, stepped := false, once := c.once.filter fun x => t ≤ x.1 }
  let s := s.modSync fun y => { y with nit := 0, nitLeft := 0, nitDone := false }
  s.modPins fun p => { p with turnOut := max 1 (s.get Reg.TURN_CTL_TOUT_W) }

/-- Synchronisation at a tick: the new r (R196) and the turn counts. -/
def tickSync (s : State) : State :=
  let s := match s.sync.nextRate with
    | some r => s.setInt Reg.NTIME_RATE_RATE [] r
    | none => s
  s.modSync fun y => { y with
    nextRate := none, since := y.since + 1
    silentTurns := if s.lstate == 5 then y.silentTurns + 1 else y.silentTurns
    persistCount := if s.on Reg.SYNC_STAT_CONVERGED then y.persistCount + 1 else y.persistCount }

/-! Line -/

/-- What a node's start-up counts at a tick (R221, R222, R230, R245). -/
def tickStart (s : State) : State :=
  let s := s.inc Reg.LSTART_STAT_TURNS
  s.modStart fun x => { x with
    unanswered := if s.lstate == 2 then (if x.answered || s.partnerUp.any fun y => 3 ≤ y.2.ls % 16 && y.2.ls % 16 ≤ 5 then 0 else x.unanswered + 1) else x.unanswered
    answered := false, zeroRun := if x.zeroNow then x.zeroRun + 1 else 0, zeroNow := false, hold := x.hold - 1
    kicking := x.kicking && !s.on Reg.SYNC_STAT_CONVERGED, synced := if s.lstate == 4 then x.synced + 1 else 0 }

/-- A converged node enters SYNCED (Table 9-2); with ICOUNT 0 a trigger is pending even without a cause (R230). -/
def enterSynced (s : State) : State :=
  if s.lstate == 3 && s.on Reg.SYNC_STAT_CONVERGED && s.lineUpFw then
    let s := s.toLine 4
    if s.icount == 0 then s.set Reg.LSTART_STAT_PENDING [] 1 else s
  else s

/-- Every direction with a neighbour has a frame in a list of ends. -/
def allEnds (s : State) (ends : List Nat) : Bool := [0, 1].all fun e => !s.endNbr e || ends.contains e

/-- The CONFIRM frames of a turn of RUN ask for the staged line rules (R264); a node in SOLITARY needs no other (R639). -/
def rulesAsked (s : State) : Bool :=
  let l := s.inaug.seen.confirms
  s.phase == 0 && s.conf.lrStaged != 0 && s.conf.lrStaged != s.conf.lrActive && !s.inaug.stopReqNext && !s.inaug.stopReq &&
  (if s.lstate == 6 then !s.start.solo
    else s.following && !l.isEmpty && s.allEnds (l.map fun x => x.1) &&
      l.all fun x => !x.2.stagedMixed && x.2.staged == s.conf.lrStaged)

/-- Inauguration at a tick: what the turn just ended showed becomes the last turn's (R237, R245, R248, R258, R260, R264). -/
def tickInaug (s : State) : State :=
  let l := s.inaug.seen
  let asked := s.rulesAsked
  let ready := s.readyTurn l
  let agree := s.agrees l
  let s := s.inc Reg.INAUG_STAT_TURNS
  let p := s.phase
  let late := p == 4 && s.following && s.synth.newSched.isNone && s.get Reg.INAUG_ADOPT_TURN == s.turn32 + 1
  let lacking := match s.inaug.newDir with
    | some d => if late then s.tablesLacking d else []
    | none => []
  let s := lacking.foldl (fun s c => s.record 0x3604 4 1 c (s.get Reg.INAUG_STAT_ATTEMPT)) s
  let s := s.modInaug fun i => { i with
    readyRun := if p == 1 && ready then i.readyRun + 1 else 0
    agreeRun := if p == 3 && agree then i.agreeRun + 1 else 0
    ownMismatch := (p == 3 && !agree) || late
    last := { l with
      notReady := l.notReady || (s.standing && !s.readyNow)
      mismatch := l.mismatch || i.ownMismatch, ownOnly := i.ownMismatch && !l.mismatch
      stopReq := l.stopReq || (i.stopReq && !s.pins.inhibit), yielded := l.yielded || i.yielding }
    seen := default, prevH := i.h
    stopReq := i.stopReqNext && !s.pins.inhibit, stopReqNext := i.stopReqNext && s.pins.inhibit
    asking := if i.stopReqNext || !s.decides then i.asking else none
    yielding := i.yieldNext && !s.pins.inhibit, yieldNext := i.yieldNext && s.pins.inhibit }
  if asked then s.raise 5 0xFF else s

/-- Fallback flags clear once no line link is HELD with reason 8 (R261). -/
def tickFallback (s : State) : State :=
  if (List.range 4).any fun n => !s.isXlink n && s.pst n == 5 && s.get Reg.LPn_STAT_HELD_WHY [n] == 8 then s
  else (s.set Reg.INAUG_STAT_FALLBACK_CONSIST [] 0).set Reg.INAUG_STAT_FALLBACK_NODE [] 0

/-- Links of an end whose coupler input fell enter HELD (R235). -/
def tickCouplers (s : State) : State :=
  let ends := (List.range 2).filter fun e => s.start.cplHold.getD e false
  let s := s.modStart fun x => { x with cplHold := [false, false] }
  ends.foldl (fun s e => [2 * e, 2 * e + 1].foldl (fun s n => if s.lineUp n then s.hold n 9 else s) s) s

/-- What each port counts at a tick (R153, R168, R173, R174, R250). -/
def tickPorts (s : State) : State :=
  { s with ports := s.ports.map fun (p : Port) =>
      { p with
        relay := [], poolAt := none, extra := 0, ownSent := [], midRun := p.midNow, midNow := [], nbrSynced := if p.nbrLs % 16 == 4 then p.nbrSynced + 1 else 0 } }

/-- The rollover of the staged fleet key is agreed by the slot 3 frames of the turn t just ended (R573). -/
def rollAgreed (s : State) : Bool :=
  let l := s.keys.slot3
  let own := s.get Reg.SEC_FK_STAGED_ID
  s.phase == 0 && s.following && s.keys.roll.isNone && !l.isEmpty && s.allEnds (l.map fun x => x.1 / 2) &&
  l.all fun x => x.2.flags % 2 == 0 && x.2.stagedId != 0 && x.2.stagedId == own && x.2.stagedId != x.2.activeId

/-- Line keys at a tick: the salt of the stopped layout (R571) and a rollover that turn t has agreed (R573). -/
def tickKeys (s : State) (t : Nat) : State :=
  let agreed := s.rollAgreed
  let salts := s.keys.slot3.map fun x => x.2.salt
  let salt : Option Nat := if s.stopped then salts.foldl (fun (a : Option Nat) v => some (match a with
    | some b => min b v
    | none => v)) s.keys.salt else s.keys.salt
  let s := s.modKeys fun k => { k with salt := salt, saltUnsettled := salt != k.salt, slot3 := [] }
  if agreed then
    let s := s.modKeys fun k => { k with roll := some (t + 64) }
    let s := (s.set Reg.SEC_ROLL_TURN_TURN [] ((t + 64) % 2 ^ 32)).set Reg.SEC_STAT_ROLL_PENDING [] 1
    s.recordT 0x5004 2 12 (s.get Reg.SEC_FK_STAGED_ID) ((t + 64) % 2 ^ 32)
  else s

/-- Claims of the turn t just ended become the previous turn's; a pool reset stored then is due (R287, R289). -/
def tickSynth (s : State) (t : Nat) : State :=
  s.modSynth fun y => { y with
    prevClaims := y.claims, claims := [], prevReset := y.gotReset || y.resetNow, gotReset := false
    resetAt := if y.gotReset || y.resetNow then y.resetAt ++ [(t + 2, y.resetNow)] else y.resetAt
    resetNow := y.resetNext, resetNext := false }

/-- Snapshot turns (R327, Table 13-12). -/
def snapshotTurn (s : State) : Bool :=
  let p := s.get Reg.RED_CTL_EPOCH_P
  s.clock.turn % (if p == 0 then 8 else p) == 0 || s.swapTurn

/-- Redundancy at a tick: what the turn t just ended showed (R316, R323, R337), and the leader's snapshot (R327). -/
def tickRed (s : State) (t : Nat) : State :=
  let s := (s.flag Reg.RED_STAT_DUAL [] s.red.dualNow).flag Reg.RED_STAT_OWN_VIEW [] (s.red.ownView != 0)
  let s := if s.red.dualNow then s.inc Reg.RED_TAKE_CNT_DUAL_TURNS else s
  let s := if s.red.ownView != 0 && !s.red.prevOwnView then
      s.sluiced 0x3808 3 3 (t % 2 ^ 32) s.red.ownView (b2n s.xlinks.isEmpty) else s
  let one := (s.mill.stored.filter fun x => x.sender == s.get Reg.RED_CMP_SEL_SENDER && x.copies == 1).length
  let s := if s.on Reg.RED_CTL_COMPARE then s.inc Reg.RED_CMP_CNT_ONE_CH [] one else s
  let s := s.modRed fun r => { r with
    psNow := false, witnesses := [], handed := [], seen1 := [], homes := [], dualNow := false
    prevOwnView := r.ownView != 0, ownView := 0, snap := none }
  if !s.paired || !s.snapshotTurn then s
  else if s.isLeader then (if s.cpuUp 0 then s.modRed fun r => { r with snap := some s.epochImage } else s)
  else s.dropShadow

/-- The line's part of a tick; t is the turn just ended. -/
def tickLine (s : State) (t : Nat) : State :=
  (((((((s.tickInaug.tickStart.enterSynced).tickKeys t).tickSynth t).tickPorts).tickCouplers).tickFallback).tickRed t)

/-! Jobs at the tick -/

/-- Turn t has ended without an image on a tenant whose port did not run job 3 in it (R365). -/
def countSkipped (s : State) (t : Nat) : State :=
  [3, 8, 9].foldl (fun s u =>
    if (s.job u).lastRun == some t then s
    else (List.range 17).foldl (fun s k =>
      if portOf k == unitPort u && s.on Reg.TI_CTL_EN [k] then s.inc Reg.TI_CNT_SKIPPED [k] else s) s) s

/-- Every unit is judged for the turn t just ended (R92); answers whether jobs 0 and 4 have overrun. -/
def judgeAll (s : State) (t : Nat) (still stepped : Bool) : Bool × Bool × State :=
  stallUnits.foldl (fun x u =>
    let (late, s) := x.2.2.judge u t still stepped
    (x.1 || (late && u == 0), x.2.1 || (late && u == 4), s)) (false, false, s)

/-- The jobs of the new turn (Table 4-3). `loads`: the completion of each unit in per mille, none for a unit that stalls; `armed`: the
first slot that a stalled job 1 does not arm in time; the weirs whose reload fails its CRC or parity check. -/
def tickJobs (s : State) (t : Nat) (still stepped : Bool) (loads : List (Option Nat)) (armed : Nat) (crcBad parityBad : Fin 4) : State :=
  let load (u : Nat) : Option Nat := loads.getD u (some 0)
  let (late0, late4, s) := s.judgeAll t still stepped
  let s := s.countSkipped t
  let s := s.when late4 fun s => s.canLate (t % 16) 65536
  let s := (s.takeTable 0 late0).takeTable 1 late0
  let s := s.when ((s.job 0).run.isSome && (Sparse.find 0 s.held).isNone) fun s => s.modJob 0 fun j => { j with run := none }
  let s := (s.weirsFollow.weirTick 0).weirTick 1
  let s := s.startJob 7 (load 7)
  let s := s.swapCells.ran 2 (((load 2).getD 0) % 1000)
  let s := (s.canTick).modCan fun c => { c with row := none }
  let s := [3, 8, 9, 4, 5, 6].foldl (fun s u => s.startJob u (load u)) s
  let s := s.startReload (load 0) crcBad.val parityBad.val
  let s := s.modClock fun c => { c with
    armed := if (s.job 1).run.isSome then some 4 else if ((load 1).filter fun l => l < 1000).isNone then some (max 4 armed) else none }
  s.startJob 1 (load 1)

/-- The millpond's turn: what the turn just ended built and stored is done with; ages count (R347, R357). -/
def tickMill (s : State) : State :=
  s.modMill fun m => { m with built := [], stored := [], pubs := m.pubs.map fun p => { p with age := min 255 (p.age + 1) } }

/-! The NIT -/

/-- The channel of the partner: true is B. -/
def partnerB (s : State) : Bool := !s.pins.strapChan

/-- What a follower counts at the end of a NIT (Table 13-9). -/
def nitCounts (s : State) : State :=
  let knows (w : Witness) : Bool := if s.partnerB then w.knownB else w.knownA
  let sees (w : Witness) : Bool := if s.partnerB then w.seenB else w.seenA
  let known := s.red.witnesses.any knows
  let seen := s.red.witnesses.any fun w => knows w && sees w
  let fault : Bool := match s.red.partner with
    | some p => p.fault
    | none => false
  s.modRed fun r => { r with
    psMiss := if r.psNow then 0 else r.psMiss + 1
    faultRun := if r.psNow && fault then r.faultRun + 1 else 0
    unseenRun := if known && !seen then r.unseenRun + 1 else 0
    blindRun := if r.psNow || known then 0 else r.blindRun + 1 }

/-- The trigger of Table 13-9 that is met. -/
def trigger (s : State) : Option Nat :=
  let r := s.red
  if r.psMiss ≥ 2 && r.unseenRun ≥ 2 then some 1
  else if r.faultRun ≥ 2 then some 2
  else if r.blindRun ≥ 64 then some 4
  else none

/-- A follower's takeover condition is recorded, and its shadow discarded (R332, R333, R336). -/
def nitRed (s : State) : State :=
  if !s.paired then s
  else
    let s := s.nitCounts
    if !s.isFollower then s.modRed fun r => { r with takeover := none }
    else match s.trigger with
      | none => s
      | some c => (s.modRed fun r => { r with takeover := some (s.clock.turn, c) }).dropShadow

/-- The start of the NIT, its 16 µs before the tick (R145). -/
def nitStart (s : State) : Nat := s.turnNs - 16000

/-- The line's corrections in the NIT (R194). -/
def nitLine (s : State) : State := if s.following then s.nitSync else s

end State

/-- TICK (R84): `loads`, `armed`, `crcBad` and `parityBad` as tickJobs says. -/
def execTick (loads : List (Option Nat)) (armed : Nat) (crcBad parityBad : Fin 4) (s : State) : Result :=
  .next (if s.alive && s.ticking then
    let t := s.clock.turn
    let still := s.standing
    let stepped := s.clock.stepped
    let s := s.modTally fun y => { y with atTick := y.queue.length }
    let s := s.turnOver.tickSync.pdTick
    let s := (s.tickLine t).tickMill
    s.tickJobs t still stepped loads armed crcBad parityBad
  else s)

/-- NIT_CORRECTION (R194 to R203, R332, R593): once in a turn, when time has come to the start of its NIT (log 84). -/
def execNitCorrection (s : State) : Result :=
  .next (if s.alive && s.ticking && !s.sync.nitDone then
    ((s.passTo s.nitStart).modSync fun y => { y with nitDone := true }).nitLine.nitRed.checkTrial else s)

/-- ADOPTION (R263, R462, R591): at the adoption turn's tick, unless the turn before it leads elsewhere (R237, Table 10-2). -/
def execAdoption (s : State) : Result :=
  .next (match s.inaug.newDir with
    | none => s
    | some d =>
      if s.alive && s.phase == 4 && s.synth.newSched.isSome && d.adopt ≤ s.clock.turn &&
          (s.lstate == 6 || !(s.inaug.last.mismatch || s.inaug.last.notReady || s.inaug.last.stopReq)) then
        let rules := s.rulesAgreed (d.nodes.map fun x => x.entry)
        let s := if rules then s.adoptRules else s
        let s := s.adoptLine.flushLine.releaseHeld.gwRestart
        if rules then s.measRules else s
      else s)

end Sys2Proof.Machine
end

