-- ==== Sys2Proof/Machine/Dispatch.lean ====
section
/-!
DEFINITION. Which meaning each command has: one arm per constructor of Instr.
-/

namespace Sys2Proof.Machine

open Sys2Proof

def exec (i : Instr) (s : State) : Host.Outcome State Fault Refusal :=
  match i with
  | .powerOnReset pair chanB pref refclk xt32 aoLost vback => Sys2Proof.Machine.execPowerOnReset pair chanB pref refclk xt32 aoLost vback s
  | .resetNLow => Sys2Proof.Machine.execResetNLow s
  | .vinRstReached vin torn => Sys2Proof.Machine.execVinRstReached vin torn s
  | .nodeRefLost => Sys2Proof.Machine.execNodeRefLost s
  | .fatalFault => Sys2Proof.Machine.execFatalFault s
  | .resetEscalation => Sys2Proof.Machine.execResetEscalation s
  | .rstCmdFullReset port => Sys2Proof.Machine.execRstCmdFullReset port s
  | .rstCmdFwRestart port => Sys2Proof.Machine.execRstCmdFwRestart port s
  | .bootStageComplete b => Sys2Proof.Machine.execBootStageComplete b s
  | .fwWatchdogExpiry => Sys2Proof.Machine.execFwWatchdogExpiry s
  | .fwException => Sys2Proof.Machine.execFwException s
  | .fwRestartComplete => Sys2Proof.Machine.execFwRestartComplete s
  | .lockstepMismatch p => Sys2Proof.Machine.execLockstepMismatch p s
  | .lockstepRestartDone p => Sys2Proof.Machine.execLockstepRestartDone p s
  | .updateRestart => Sys2Proof.Machine.execUpdateRestart s
  | .fwTrialEnd => Sys2Proof.Machine.execFwTrialEnd s
  | .slackEntry vin => Sys2Proof.Machine.execSlackEntry vin s
  | .slackPersist fail => Sys2Proof.Machine.execSlackPersist fail s
  | .slackShed => Sys2Proof.Machine.execSlackShed s
  | .slackExit vin low dur => Sys2Proof.Machine.execSlackExit vin low dur s
  | .deferredTrickleUnit vin fail => Sys2Proof.Machine.execDeferredTrickleUnit vin fail s
  | .voutOverload vin => Sys2Proof.Machine.execVoutOverload vin s
  | .pwrSwRequest off => Sys2Proof.Machine.execPwrSwRequest off s
  | .domainPowered n => Sys2Proof.Machine.execDomainPowered n s
  | .gxCrystalLost => Sys2Proof.Machine.execGxCrystalLost s
  | .gxPpmFault diff => Sys2Proof.Machine.execGxPpmFault diff s
  | .xt32Lost => Sys2Proof.Machine.execXt32Lost s
  | .optimeIncrement m => Sys2Proof.Machine.execOptimeIncrement m s
  | .pointerPersist fail => Sys2Proof.Machine.execPointerPersist fail s
  | .anchorPeriodic => Sys2Proof.Machine.execAnchorPeriodic s
  | .registerWrite r bar2 off size v given => Sys2Proof.Machine.execRegisterWrite r bar2 off size v given s
  | .readClear r bar2 off size => Sys2Proof.Machine.execReadClear r bar2 off size s
  | .latchedLowRead r bar2 off => Sys2Proof.Machine.execLatchedLowRead r bar2 off s
  | .lockSet r k => Sys2Proof.Machine.execLockSet r k s
  | .turnLoadPeakClear => Sys2Proof.Machine.execTurnLoadPeakClear s
  | .turnEnable => Sys2Proof.Machine.execTurnEnable s
  | .gpioEdge k rise => Sys2Proof.Machine.execGpioEdge k rise s
  | .tick loads armed crcBad parityBad => Sys2Proof.Machine.execTick loads armed crcBad parityBad s
  | .jobDegraded u => Sys2Proof.Machine.execJobDegraded u s
  | .jobRestored u => Sys2Proof.Machine.execJobRestored u s
  | .jobLateCompletion u load => Sys2Proof.Machine.execJobLateCompletion u load s
  | .creditReturn c => Sys2Proof.Machine.execCreditReturn c s
  | .nitCorrection => Sys2Proof.Machine.execNitCorrection s
  | .selfSilentExit => Sys2Proof.Machine.execSelfSilentExit s
  | .wideningEnd => Sys2Proof.Machine.execWideningEnd s
  | .ratePersist => Sys2Proof.Machine.execRatePersist s
  | .ppsOutPulse => Sys2Proof.Machine.execPpsOutPulse s
  | .taiArm => Sys2Proof.Machine.execTaiArm s
  | .ppsInEdge => Sys2Proof.Machine.execPpsInEdge s
  | .taiArmMissed => Sys2Proof.Machine.execTaiArmMissed s
  | .gptpAlign ns => Sys2Proof.Machine.execGptpAlign ns s
  | .timeMessageSend => Sys2Proof.Machine.execTimeMessageSend s
  | .timeMessageReceive sender body => Sys2Proof.Machine.execTimeMessageReceive sender body s
  | .taiAlignAtTick => Sys2Proof.Machine.execTaiAlignAtTick s
  | .probeListenEnd n => Sys2Proof.Machine.execProbeListenEnd n s
  | .probeMasterEnd n => Sys2Proof.Machine.execProbeMasterEnd n s
  | .trainingSignalDetect n rate => Sys2Proof.Machine.execTrainingSignalDetect n rate s
  | .slaveResponse n => Sys2Proof.Machine.execSlaveResponse n s
  | .trainingFail n => Sys2Proof.Machine.execTrainingFail n s
  | .phyLinkUp n sqi => Sys2Proof.Machine.execPhyLinkUp n sqi s
  | .identifyTimeout n => Sys2Proof.Machine.execIdentifyTimeout n s
  | .probeCeilingReset n => Sys2Proof.Machine.execProbeCeilingReset n s
  | .lpRetry n => Sys2Proof.Machine.execLpRetry n s
  | .linkLoss n => Sys2Proof.Machine.execLinkLoss n s
  | .kickoffSend => Sys2Proof.Machine.execKickoffSend s
  | .relayOriginate slot corr => Sys2Proof.Machine.execRelayOriginate slot corr s
  | .relayMidOriginate n slot corr => Sys2Proof.Machine.execRelayMidOriginate n slot corr s
  | .staticSlotTransmit slot corr => Sys2Proof.Machine.execStaticSlotTransmit slot corr s
  | .frameBuild slot => Sys2Proof.Machine.execFrameBuild slot s
  | .publishFetch t flip => Sys2Proof.Machine.execPublishFetch t flip s
  | .publishFetchDone t data => Sys2Proof.Machine.execPublishFetchDone t data s
  | .dynamicSegment => Sys2Proof.Machine.execDynamicSegment s
  | .hopExtraSend n => Sys2Proof.Machine.execHopExtraSend n s
  | .hopPeriodicSend n => Sys2Proof.Machine.execHopPeriodicSend n s
  | .staticFrameReceive n f c => Sys2Proof.Machine.execStaticFrameReceive n f c s
  | .staticHandoffReceive n f c => Sys2Proof.Machine.execStaticHandoffReceive n f c s
  | .dynamicFrameReceive n f c => Sys2Proof.Machine.execDynamicFrameReceive n f c s
  | .recoveryStateTimeout => Sys2Proof.Machine.execRecoveryStateTimeout s
  | .dynamicLifetimeExpiry n => Sys2Proof.Machine.execDynamicLifetimeExpiry n s
  | .hopFrameReceive n f c => Sys2Proof.Machine.execHopFrameReceive n f c s
  | .kickoffReceive n f c => Sys2Proof.Machine.execKickoffReceive n f c s
  | .confirmFrameReceive n f c => Sys2Proof.Machine.execConfirmFrameReceive n f c s
  | .claimFrameReceive n f c => Sys2Proof.Machine.execClaimFrameReceive n f c s
  | .serviceFrameReceive n f c => Sys2Proof.Machine.execServiceFrameReceive n f c s
  | .directoryFrameReceive n f c => Sys2Proof.Machine.execDirectoryFrameReceive n f c s
  | .listenTimeout => Sys2Proof.Machine.execListenTimeout s
  | .kickoffFloorPersist => Sys2Proof.Machine.execKickoffFloorPersist s
  | .integration => Sys2Proof.Machine.execIntegration s
  | .coldstartIntegrate => Sys2Proof.Machine.execColdstartIntegrate s
  | .solitaryEntry => Sys2Proof.Machine.execSolitaryEntry s
  | .solitaryReinaugurate => Sys2Proof.Machine.execSolitaryReinaugurate s
  | .lineLost => Sys2Proof.Machine.execLineLost s
  | .yieldHoldEnd => Sys2Proof.Machine.execYieldHoldEnd s
  | .pendingTriggerAct => Sys2Proof.Machine.execPendingTriggerAct s
  | .couplerInputChange e level => Sys2Proof.Machine.execCouplerInputChange e level s
  | .couplerNoLink e => Sys2Proof.Machine.execCouplerNoLink e s
  | .cabActiveChange level => Sys2Proof.Machine.execCabActiveChange level s
  | .inaugInhibitRise => Sys2Proof.Machine.execInaugInhibitRise s
  | .inaugInhibitFall => Sys2Proof.Machine.execInaugInhibitFall s
  | .stopEntry => Sys2Proof.Machine.execStopEntry s
  | .inaugPhaseChange => Sys2Proof.Machine.execInaugPhaseChange s
  | .stopHoldOut => Sys2Proof.Machine.execStopHoldOut s
  | .holdOutEnd n => Sys2Proof.Machine.execHoldOutEnd n s
  | .yield => Sys2Proof.Machine.execYield s
  | .adoption => Sys2Proof.Machine.execAdoption s
  | .tableFragmentReceive body => Sys2Proof.Machine.execTableFragmentReceive body s
  | .synthesisStart => Sys2Proof.Machine.execSynthesisStart s
  | .synthesisComplete us => Sys2Proof.Machine.execSynthesisComplete us s
  | .spareClaim => Sys2Proof.Machine.execSpareClaim s
  | .claimResolve => Sys2Proof.Machine.execClaimResolve s
  | .spareGrantEffect => Sys2Proof.Machine.execSpareGrantEffect s
  | .poolReset => Sys2Proof.Machine.execPoolReset s
  | .weirNitAdjust w => Sys2Proof.Machine.execWeirNitAdjust w s
  | .weirStateTimeout w => Sys2Proof.Machine.execWeirStateTimeout w s
  | .nodeFenced => Sys2Proof.Machine.execNodeFenced s
  | .pairStateSend => Sys2Proof.Machine.execPairStateSend s
  | .pairStateReceive p pubs cans done => Sys2Proof.Machine.execPairStateReceive p pubs cans done s
  | .roleTimeout => Sys2Proof.Machine.execRoleTimeout s
  | .epochSnapshot => Sys2Proof.Machine.execEpochSnapshot s
  | .epochChunkReceive num index count ccrc data => Sys2Proof.Machine.execEpochChunkReceive num index count ccrc data s
  | .epochEndMarkerReceive num count dlen ecrc swap => Sys2Proof.Machine.execEpochEndMarkerReceive num count dlen ecrc swap s
  | .witnessReceive sender body => Sys2Proof.Machine.execWitnessReceive sender body s
  | .takeover => Sys2Proof.Machine.execTakeover s
  | .leaderYield => Sys2Proof.Machine.execLeaderYield s
  | .swapMessageReceive w => Sys2Proof.Machine.execSwapMessageReceive w s
  | .swapEpochSnapshot => Sys2Proof.Machine.execSwapEpochSnapshot s
  | .swapCommitDeadline committed => Sys2Proof.Machine.execSwapCommitDeadline committed s
  | .swapRoleExchange => Sys2Proof.Machine.execSwapRoleExchange s
  | .tiEnable t list => Sys2Proof.Machine.execTiEnable t list s
  | .subscriptionResolve t => Sys2Proof.Machine.execSubscriptionResolve t s
  | .queueEnable t q => Sys2Proof.Machine.execQueueEnable t q s
  | .queueDisable t q => Sys2Proof.Machine.execQueueDisable t q s
  | .queueStopped t q => Sys2Proof.Machine.execQueueStopped t q s
  | .doorbell t w => Sys2Proof.Machine.execDoorbell t w s
  | .descriptorFetch t q tag given => Sys2Proof.Machine.execDescriptorFetch t q tag given s
  | .moderationTimer t q => Sys2Proof.Machine.execModerationTimer t q s
  | .nop t q k => Sys2Proof.Machine.execNop t q k s
  | .lineSend t q k data => Sys2Proof.Machine.execLineSend t q k data s
  | .lineRecvPost t q k => Sys2Proof.Machine.execLineRecvPost t q k s
  | .consistSend t q k data => Sys2Proof.Machine.execConsistSend t q k data s
  | .consistRecvPost t q k => Sys2Proof.Machine.execConsistRecvPost t q k s
  | .canSend t q k data => Sys2Proof.Machine.execCanSend t q k data s
  | .farRead t q k => Sys2Proof.Machine.execFarRead t q k s
  | .farWrite t q k data => Sys2Proof.Machine.execFarWrite t q k data s
  | .tallyRead t q k bad => Sys2Proof.Machine.execTallyRead t q k bad s
  | .tallyMark t q k => Sys2Proof.Machine.execTallyMark t q k s
  | .tallyClear t q k data sig => Sys2Proof.Machine.execTallyClear t q k data sig s
  | .attestReport t q k nonce => Sys2Proof.Machine.execAttestReport t q k nonce s
  | .attestChain t q k => Sys2Proof.Machine.execAttestChain t q k s
  | .attestImport t q k data sig gcm key => Sys2Proof.Machine.execAttestImport t q k data sig gcm key s
  | .attestLifecycle t q k token sig => Sys2Proof.Machine.execAttestLifecycle t q k token sig s
  | .attestRequestReceive sender waiting body => Sys2Proof.Machine.execAttestRequestReceive sender waiting body s
  | .attestResponseReceive sender body => Sys2Proof.Machine.execAttestResponseReceive sender body s
  | .attestTimeout k => Sys2Proof.Machine.execAttestTimeout k s
  | .configStage t q k data sig => Sys2Proof.Machine.execConfigStage t q k data sig s
  | .configActivate t q k partner measured => Sys2Proof.Machine.execConfigActivate t q k partner measured s
  | .configConfirm t q k => Sys2Proof.Machine.execConfigConfirm t q k s
  | .configCancel t q k => Sys2Proof.Machine.execConfigCancel t q k s
  | .configRollback t q k => Sys2Proof.Machine.execConfigRollback t q k s
  | .directoryRead t q k => Sys2Proof.Machine.execDirectoryRead t q k s
  | .unsatisfiedRead t q k => Sys2Proof.Machine.execUnsatisfiedRead t q k s
  | .inaugRequest t q k => Sys2Proof.Machine.execInaugRequest t q k s
  | .roleSwap t q k => Sys2Proof.Machine.execRoleSwap t q k s
  | .pcieConfigRequest port vfs => Sys2Proof.Machine.execPcieConfigRequest port vfs s
  | .perstAssert port => Sys2Proof.Machine.execPerstAssert port s
  | .perstRelease port => Sys2Proof.Machine.execPerstRelease port s
  | .pcieLinkUp port speed width => Sys2Proof.Machine.execPcieLinkUp port speed width s
  | .pcieLinkDown port hot => Sys2Proof.Machine.execPcieLinkDown port hot s
  | .pcieError t q kind => Sys2Proof.Machine.execPcieError t q kind s
  | .functionLevelReset t vfDisable => Sys2Proof.Machine.execFunctionLevelReset t vfDisable s
  | .busMasterEnableChange t b => Sys2Proof.Machine.execBusMasterEnableChange t b s
  | .readStatus => Sys2Proof.Machine.execReadStatus s
  | .readWin addr n => Sys2Proof.Machine.execReadWin addr n s
  | .writeWin addr data => Sys2Proof.Machine.execWriteWin addr data s
  | .readReg off n => Sys2Proof.Machine.execReadReg off n s
  | .writeReg off data => Sys2Proof.Machine.execWriteReg off data s
  | .tenantReset key => Sys2Proof.Machine.execTenantReset key s
  | .qspiInvalidCommand => Sys2Proof.Machine.execQspiInvalidCommand s
  | .farTransferStart k => Sys2Proof.Machine.execFarTransferStart k s
  | .farRequestReceive sender body => Sys2Proof.Machine.execFarRequestReceive sender body s
  | .farRequestServe ok given => Sys2Proof.Machine.execFarRequestServe ok given s
  | .farResponseReceive sender body => Sys2Proof.Machine.execFarResponseReceive sender body s
  | .farTransferTimeout k => Sys2Proof.Machine.execFarTransferTimeout k s
  | .prefetchExpiry k => Sys2Proof.Machine.execPrefetchExpiry k s
  | .exportRegion t w v => Sys2Proof.Machine.execExportRegion t w v s
  | .apertureWrite port off data whole => Sys2Proof.Machine.execApertureWrite port off data whole s
  | .apertureRead port off len => Sys2Proof.Machine.execApertureRead port off len s
  | .apertureReadTimeout k => Sys2Proof.Machine.execApertureReadTimeout k s
  | .apertureErrorPop port => Sys2Proof.Machine.execApertureErrorPop port s
  | .consistFrameIngress n f time => Sys2Proof.Machine.execConsistFrameIngress n f time s
  | .consistPortUp n rate plca => Sys2Proof.Machine.execConsistPortUp n rate plca s
  | .consistPortDown n => Sys2Proof.Machine.execConsistPortDown n s
  | .fdbAgeing mac vid => Sys2Proof.Machine.execFdbAgeing mac vid s
  | .foreignBeacon n => Sys2Proof.Machine.execForeignBeacon n s
  | .mdioFrame c45 op phy reg => Sys2Proof.Machine.execMdioFrame c45 op phy reg s
  | .mdioFrameDone data => Sys2Proof.Machine.execMdioFrameDone data s
  | .trdpPublish k => Sys2Proof.Machine.execTrdpPublish k s
  | .trdpTelegramReceive src dst port vid d => Sys2Proof.Machine.execTrdpTelegramReceive src dst port vid d s
  | .trdpSubscriberTimeout k => Sys2Proof.Machine.execTrdpSubscriberTimeout k s
  | .arpRequest mac ip target => Sys2Proof.Machine.execArpRequest mac ip target s
  | .igmpReport => Sys2Proof.Machine.execIgmpReport s
  | .canFrameReceive n f ns turn => Sys2Proof.Machine.execCanFrameReceive n f ns turn s
  | .canTxStart n => Sys2Proof.Machine.execCanTxStart n s
  | .canTxSuccess n ns turn => Sys2Proof.Machine.execCanTxSuccess n ns turn s
  | .canWindowOpen n c => Sys2Proof.Machine.execCanWindowOpen n c s
  | .canWindowMiss n c => Sys2Proof.Machine.execCanWindowMiss n c s
  | .canBusError n tx lec dataPhase step res => Sys2Proof.Machine.execCanBusError n tx lec dataPhase step res s
  | .canRecoveryDone n => Sys2Proof.Machine.execCanRecoveryDone n s
  | .canRecoverCmd n => Sys2Proof.Machine.execCanRecoverCmd n s
  | .canAlone n => Sys2Proof.Machine.execCanAlone n s
  | .canBusIntegrated n => Sys2Proof.Machine.execCanBusIntegrated n s
  | .canSleepCmd n => Sys2Proof.Machine.execCanSleepCmd n s
  | .canWakeCmd n => Sys2Proof.Machine.execCanWakeCmd n s
  | .canWakeDetect n w => Sys2Proof.Machine.execCanWakeDetect n w s
  | .mirrorTwinExpiry n k => Sys2Proof.Machine.execMirrorTwinExpiry n k s
  | .canBufferNewWrite n b => Sys2Proof.Machine.execCanBufferNewWrite n b s
  | .scrubLine line err r last => Sys2Proof.Machine.execScrubLine line err r last s
  | .secureAccessRefused m off => Sys2Proof.Machine.execSecureAccessRefused m off s
  | .secureWipe cause => Sys2Proof.Machine.execSecureWipe cause s
  | .wipeComplete us bad => Sys2Proof.Machine.execWipeComplete us bad s
  | .memCounterClear mask run => Sys2Proof.Machine.execMemCounterClear mask run s
  | .overflowRecord => Sys2Proof.Machine.execOverflowRecord s
  | .writeUnitDone fail => Sys2Proof.Machine.execWriteUnitDone fail s
  | .utcWrite port valid offset => Sys2Proof.Machine.execUtcWrite port valid offset s
  | .clearNonceNew t => Sys2Proof.Machine.execClearNonceNew t s
  | .clearNonceExpiry t => Sys2Proof.Machine.execClearNonceExpiry t s
  | .tamperEvent src now => Sys2Proof.Machine.execTamperEvent src now s
  | .fleetKeySwitch => Sys2Proof.Machine.execFleetKeySwitch s
  | .retiredKeyErase => Sys2Proof.Machine.execRetiredKeyErase s
  | .configActivationTick => Sys2Proof.Machine.execConfigActivationTick s
  | .configTrialEnd => Sys2Proof.Machine.execConfigTrialEnd s
  | .configRollbackTick => Sys2Proof.Machine.execConfigRollbackTick s
  | .freezeNLow held tear => Sys2Proof.Machine.execFreezeNLow held tear s
  | .debugTokenLapse => Sys2Proof.Machine.execDebugTokenLapse s
  | .bypass tdi => Sys2Proof.Machine.execBypass tdi s
  | .idcode => Sys2Proof.Machine.execIdcode s
  | .samplePreload cells => Sys2Proof.Machine.execSamplePreload cells s
  | .extest cells => Sys2Proof.Machine.execExtest cells s
  | .nonce => Sys2Proof.Machine.execNonce s
  | .token tok sig freezeLow tear => Sys2Proof.Machine.execToken tok sig freezeLow tear s
  | .diagStatus => Sys2Proof.Machine.execDiagStatus s
  | .freeze tear => Sys2Proof.Machine.execFreeze tear s
  | .roAddr addr => Sys2Proof.Machine.execRoAddr addr s
  | .roData n => Sys2Proof.Machine.execRoData n s
  | .recoveryFrame l whole => Sys2Proof.Machine.execRecoveryFrame l whole s
  | .vbackRangeChange inRange => Sys2Proof.Machine.execVbackRangeChange inRange s
  | .lineKeepaliveLoss => Sys2Proof.Machine.execLineKeepaliveLoss s
  | .resetOutRelease => Sys2Proof.Machine.execResetOutRelease s

end Sys2Proof.Machine
end

