-- ==== Sys2Proof/Machine/Idle.lean ====
section
/-!
DEFINITION. What the node does while no command waits: one CK_FAB cycle of node time (R78, R79, log 1), in which what it drives of
itself goes on.
-/

namespace Sys2Proof.Machine

namespace State

/-- One CK_FAB cycle of time passes: node time advances, and with a tick the turn phase with it, no further than the next tick, which is
a command. -/
def idleTime (s : State) : State :=
  if s.ticking then s.pass (min s.fabCycle (s.clock.pre + s.periodOf (s.turnNs * nsUnit - s.clock.phase)))
  else (s.pass s.fabCycle).modClock fun c => { c with phase := s.clock.phase, pre := s.clock.pre }

/-- One CK_FAB cycle passes: time, the SRAM banks' arbiters (R511), the consist ports (R453), the requests of the
time-aware relay (R207) and a waiting attestation request (R566).
Under the mill brake and without power nothing is clocked. -/
def idle (s : State) : State := if !s.alive then s else s.idleTime.memCycle.consistStep.gptpTick.attServe

end State

end Sys2Proof.Machine
end

