-- ==== Sys2Proof/Safety.lean ====
section
/-!
DEFINITION. What counts as safe: the forms that every state of the node keeps.
-/

namespace Sys2Proof.Machine

/-- The register file lists one entry for each field, in rising order of its place. -/
def State.regsOk (s : State) : Bool := Sparse.sorted s.regs

/-- The canonical form of the QSPI window's contents (R408): offsets strictly rising and below 256 KiB, and no byte that is 0 listed. -/
def Memory.wf (m : List Host.Cell) : Bool := Sparse.sorted m && m.all fun x => decide (x.1 < winSize) && x.2 != 0

/-- The tally book's rings are within their capacities: the queue of 4,096 records (R526), the emergency general ring of 1,008 and the
clear ring of 16 (Table 20-4). -/
def Tally.bounded (t : Tally) : Prop := t.queue.length ≤ 4096 ∧ t.emer.length ≤ 1008 ∧ t.clears.length ≤ 16

/-- The forms of a state that nothing may leave: the register file in order, the window of tenant 16 in canonical form, and the tally book's
rings within their capacities. -/
structure State.Canon (s : State) : Prop where
  regs : Sparse.sorted s.regs = true
  window : Memory.wf s.host.window = true
  tally : s.tally.bounded

/-- What every operation on the node's state keeps, from a state `b` on: the waiting commands stay as they are, nothing that was put out is
taken back, the canonical forms stay, and neither the security version fuses (R113) nor the life-cycle state (R552) goes back. -/
structure State.Keeps (b s : State) : Prop where
  pending : s.pending = b.pending
  out : ∃ l, s.out = l ++ b.out
  regs : Sparse.sorted b.regs = true → Sparse.sorted s.regs = true
  window : Memory.wf b.host.window = true → Memory.wf s.host.window = true
  tally : b.tally.bounded → s.tally.bounded
  fuses : b.sec.fuses ≤ s.sec.fuses
  lifecycle : b.sec.lifecycle ≤ s.sec.lifecycle

/-- A step that answers a next state. -/
def completes (c : Instr) (s : State) (t : State) : Prop := exec c s = Host.Outcome.next t

end Sys2Proof.Machine
end

