-- ==== Sys2Proof/Certificates/Slice0/Obligations.lean ====
section
/-!
DEFINITION. The statements about this model, for the provers. A statement that rests on a choice of the model says so and names its log entry.
-/

open Sys2Proof Sys2Proof.Machine

/-! The machine as a whole -/

/-- A step with a command at the front of the queue is exec of that command on the state with the rest of the queue. -/
def Obligations.StepRunsFrontCommand : Prop :=
  ∀ (c : Instr) (rest : List Instr) (s : State), step { s with pending := c :: rest } = exec c { s with pending := rest }

/-- Without a waiting command a step is one CK_FAB cycle (the model's choice, log 1), and answers a next state with no command waiting.
Nothing happens while the node is not clocked. While nothing waits at the SRAM banks, in the consist switch or with the security engine,
only the clock, what time drives and the banks' grants change, the turn number stays, and with no offset correction in progress the turn
phase never passes the tick; with no slew either, node time advances by at most one cycle, and by exactly one without a tick. -/
def Obligations.IdleStepKeepsToTheTurn : Prop :=
  ∀ s : State, s.pending = [] → ∃ t, step s = .next t ∧ t.pending = [] ∧ (s.alive = false → t = s) ∧
    (s.alive = true → s.mem.waiting = [] → s.sec.asked = [] → s.con.fabric = [] → s.con.egress = [] → s.con.ingress = [] →
      { t with clock := s.clock, sync := s.sync, weirs := s.weirs, pins := s.pins, mem := s.mem } = s ∧ t.clock.turn = s.clock.turn ∧
      (s.sync.nit = 0 → s.clock.phase ≤ s.turnNs * State.nsUnit → t.clock.phase ≤ s.turnNs * State.nsUnit) ∧
      (s.sync.nit = 0 → s.sync.slew = 0 → ∃ d : Nat, d ≤ s.fabCycle ∧ (s.ticking = false → d = s.fabCycle) ∧
        t.clock.ntime = (s.clock.ntime + d) % 2 ^ 96))

/-- The state right after reset, as the spec and, where it gives no value, logs 44 and 45 have it: no boot stage has completed, firmware is
not up, there is no tick, the line is OFF, the line ports, CAN controllers and weirs are in their states 0, RST_CAUSE.POR shows,
SEC_LC.STATE is 1 (the model's choice), nothing waits, is queued or has been put out, and the node is clocked. -/
def Obligations.ResetState : Prop :=
  let s := State.reset
  s.pending = [] ∧ s.out = [] ∧ s.tally.queue = [] ∧ s.host.queues = [] ∧ s.host.window = [] ∧ s.far.transfers = [] ∧
  s.get Reg.BOOT_STAT_STAGE = 0 ∧ s.get Reg.GLOBAL_STAT_FW_READY = 0 ∧ s.ticking = false ∧ s.lstate = 0 ∧
  (∀ n : Fin 4, s.pst n.val = 0) ∧ (∀ n : Fin 8, s.cst n.val = 0) ∧ (∀ w : Fin 2, s.wst w.val = 0) ∧
  s.get Reg.RST_CAUSE_POR = 1 ∧ s.get Reg.SEC_LC_STATE = 1 ∧ s.alive = true

/-- The forms of Canon hold in the state right after reset. -/
def Obligations.ResetCanon : Prop := State.reset.Canon

/-- Every step keeps the register file in order, the window of tenant 16 in canonical form and the tally book's rings within their
capacities (R526, Table 20-4, R408), from every state that has these forms. -/
def Obligations.StepKeepsCanon : Prop := ∀ s t : State, s.Canon → step s = .next t → t.Canon

/-- No command touches the commands that wait, and none takes back what the node has put out. -/
def Obligations.CommandsLeaveQueueAndOutputs : Prop :=
  ∀ (c : Instr) (s t : State), exec c s = .next t → t.pending = s.pending ∧ ∃ l, t.out = l ++ s.out

/-- Nothing leads back: no command whatever takes the device to an earlier life-cycle state (R552), and the anti-rollback fuse counter
only counts up (R113). -/
def Obligations.NothingLeadsBack : Prop :=
  ∀ (c : Instr) (s t : State), exec c s = .next t → s.sec.lifecycle ≤ t.sec.lifecycle ∧ s.sec.fuses ≤ t.sec.fuses

/-- No command is ever refused or ends in a fault. -/
def Obligations.EveryCommandAnswersANextState : Prop := ∀ (c : Instr) (s : State), ∃ t, exec c s = .next t

/-! The register file, records and the tally book -/

/-- A register field that is given a value reads it back, cut to its width, and every other field reads as before (R12). -/
def Obligations.FieldReadsWhatWasSet : Prop :=
  ∀ (s : State) (f : Fld) (ix : List Nat) (v : Nat), s.Canon →
    (s.set f ix v).get f ix = v % 2 ^ f.width ∧
    (∀ (g : Fld) (jx : List Nat), g.key jx ≠ f.key ix → (s.set f ix v).get g jx = s.get g jx) ∧
    { s.set f ix v with regs := s.regs } = s

/-- R526: a record for which the queue has a place enters it last, stamped with operating time, power-cycle count and the next sequence
number, which then is one higher modulo 2^32; the stored areas and the counts of lost records stay, and of the rest of the node only
registers, clock and outputs change. -/
def Obligations.RecordEntersQueue : Prop :=
  ∀ (s : State) (code sev src flags p0 p1 p2 : Nat), s.Canon → s.on Reg.TALLY_STAT_DEGRADED = false → s.hasPlace code flags = true →
    let t := s.enqueue code sev src flags p0 p1 p2
    (∃ r : Rec, t.tally.queue = s.tally.queue ++ [r] ∧ r.code = code ∧ r.sev = sev ∧ r.src = src ∧
      r.optime = s.clock.optime ∧ r.pcycle = s.clock.pcycle ∧ r.seq = s.get Reg.TALLY_SEQ_NEXT ∧
      r.p0 = p0 % 2 ^ 32 ∧ r.p1 = p1 % 2 ^ 32 ∧ r.p2 = p2 % 2 ^ 32) ∧
    t.get Reg.TALLY_SEQ_NEXT = (s.get Reg.TALLY_SEQ_NEXT + 1) % 2 ^ 32 ∧
    t.get Reg.TALLY_STAT_QUEUED = (s.tally.queue.length + 1) % 2 ^ Reg.TALLY_STAT_QUEUED.width ∧
    t.tally.perm = s.tally.perm ∧ t.tally.circ = s.tally.circ ∧ t.tally.overflow = s.tally.overflow ∧
    { t with regs := s.regs, tally := s.tally, clock := s.clock, out := s.out } = s

/-- R527: the queue takes an ordinary record while it holds fewer than 4,064 records, and its last 32 places serve records of classes 0x1
and 0x2 and summaries; a record without a place is not queued, and is counted for its source and in TALLY_CNT.OVERFLOW; once places are free
again, one record 0x2004 for each counted source carries its count; a TALLY_MARK without a place completes with NO_RESOURCE. While the
recorder is degraded its ring takes every record (R548). So it states where this command completes: overflowRecord. -/
def Obligations.PlacesOfTheTallyQueue : Prop :=
  ∀ s : State, s.Canon →
    (∀ code flags, s.on Reg.TALLY_STAT_DEGRADED = false → (s.hasPlace code flags = true ↔ s.tally.queue.length < 4064 ∨
      (s.tally.queue.length < 4096 ∧ (code / 4096 = 1 ∨ code / 4096 = 2 ∨ flags % 2 = 1)))) ∧
    (∀ code sev src flags p0 p1 p2, s.hasPlace code flags = false →
      let t := s.enqueue code sev src flags p0 p1 p2
      t.tally.queue = s.tally.queue ∧ t.get Reg.TALLY_SEQ_NEXT = s.get Reg.TALLY_SEQ_NEXT ∧
      t.get Reg.TALLY_CNT_OVERFLOW = min (s.get Reg.TALLY_CNT_OVERFLOW + 1) (2 ^ Reg.TALLY_CNT_OVERFLOW.width - 1) ∧
      Sparse.find src t.tally.overflow = some ((Sparse.find src s.tally.overflow).getD 0 + 1) ∧
      (∀ k, k ≠ src → Sparse.find k t.tally.overflow = Sparse.find k s.tally.overflow) ∧
      { t with regs := s.regs, tally := s.tally } = s) ∧
    (s.alive = true → s.on Reg.TALLY_STAT_DEGRADED = false → s.tally.queue.length < 4064 →
      s.tally.queue.length + s.tally.overflow.length ≤ 4096 →
      ∃ t l, exec .overflowRecord s = .next t ∧ t.tally.overflow = [] ∧ t.tally.queue = s.tally.queue ++ l ∧
        (l.map fun r => (r.code, r.p1, r.p2)) = s.tally.overflow.map fun x => (0x2004, x.1 % 2 ^ 32, x.2 % 2 ^ 32)) ∧
    (∀ (n : Fin 17) (q : Fin 16) i d, s.alive = true → s.ready n.val q.val i 0x21 = some d → d.arg0 / 2 ^ 16 % 8 ≤ 3 →
      s.sluiceEntry (0x8000 + d.arg0 % 4096) = none → s.hasPlace (0x8000 + d.arg0 % 4096) 0 = false →
      exec (.tallyMark n q i) s = .next ((s.enqueue (0x8000 + d.arg0 % 4096) (d.arg0 / 2 ^ 16 % 8) (15 + n.val) 0 (d.arg1 % 2 ^ 32)
        (d.arg1 / 2 ^ 32) (d.arg0 / 2 ^ 32)).complete n.val q.val i 7 0 0))

/-- R537, R538: records of classes 0x1 and 0x2 enter the queue whatever the sluice's entries say; a record whose sluice entry has no token
left is not queued: it is counted as pending there and in TALLY_CNT.SLUICED, and no other entry's bucket moves. -/
def Obligations.SluiceRule : Prop :=
  ∀ (s : State) (code sev src p0 p1 p2 : Nat), s.Canon →
    (code / 4096 = 1 ∨ code / 4096 = 2 → s.sluiced code sev src p0 p1 p2 = s.enqueue code sev src 0 p0 p1 p2) ∧
    (∀ k, s.sluiceEntry code = some k → s.get Reg.SLUk_CNT_TOKENS [k] = 0 →
      let t := s.sluiced code sev src p0 p1 p2
      t.tally.queue = s.tally.queue ∧ t.get Reg.TALLY_SEQ_NEXT = s.get Reg.TALLY_SEQ_NEXT ∧
      t.get Reg.SLUk_CNT_PENDING [k] = min (s.get Reg.SLUk_CNT_PENDING [k] + 1) (2 ^ Reg.SLUk_CNT_PENDING.width - 1) ∧
      t.get Reg.TALLY_CNT_SLUICED = min (s.get Reg.TALLY_CNT_SLUICED + 1) (2 ^ Reg.TALLY_CNT_SLUICED.width - 1) ∧
      (∀ j, j ≠ k → Sparse.find j t.tally.buckets = Sparse.find j s.tally.buckets))

/-! Reset, boot and firmware (05) -/

/-- While the node is powered, RESET_N, and while it is clocked, a lost node reference, a fatal fault, an escalation during a firmware
restart that has taken 500 ms and RST_CMD with PD9 on each cause a full reset with their bit of RST_CAUSE (Table 5-1, R45, R77, R98, R103);
VIN at VIN_RST does so as well, whatever copy of the pointers it tears, leaves the node off with its tally queue lost and drives no ball
(R41, R57). So it states where each of these commands completes: resetNLow, vinRstReached, nodeRefLost, fatalFault, resetEscalation,
rstCmdFullReset. -/
def Obligations.FullResetCommands : Prop :=
  ∀ s : State,
    (s.power.on = true → exec .resetNLow s = .next (s.fullReset [Reg.RST_CAUSE_RESET_N])) ∧
    (∀ vin torn, s.power.on = true → vin ≤ State.vinRst →
      ∃ t, exec (.vinRstReached vin torn) s = .next t ∧ t.power.on = false ∧ t.tally.queue = [] ∧ t.pins.canStb = List.replicate 8 false ∧
        t.pins.clkreqLow = [false, false] ∧
        (torn = 0 → let r := s.fullReset [Reg.RST_CAUSE_VIN_RST]
          { t with power := r.power, pins := r.pins, regs := r.regs } = r ∧
          ∀ f ix, f.key ix ≠ Reg.PWR_STAT_VOUT_OK.key [] → t.get f ix = r.get f ix)) ∧
    (s.alive = true → exec .nodeRefLost s = .next (s.fullReset [Reg.RST_CAUSE_REF_LOST])) ∧
    (s.alive = true → exec .fatalFault s = .next (s.fullReset [Reg.RST_CAUSE_FATAL])) ∧
    (s.alive = true → s.boot.restart.isSome = true → s.since s.boot.restartAt 500000000 = true → exec .resetEscalation s = .next (s.fullReset [Reg.RST_CAUSE_ESCALATE])) ∧
    (∀ port, s.alive = true → s.domainOn 9 = true → exec (.rstCmdFullReset port) s = .next (s.fullReset [Reg.RST_CAUSE_FATAL]))

/-- What a full reset keeps and what it clears (R98, R99, R101, Table 5-2): its cause shows; operating time, the power-cycle count, the areas of the
tally book, the images in the roles that the slot control record names, the firmware banks, the secure store, the life cycle and the fuses
stay; the turn, the tally queue, host work, the keys in force until a boot takes them from the store, and the window of tenant 16 are lost;
every other register field that PD0, MRAM or fuses hold reads as before, cut to its width. -/
def Obligations.FullResetKeepsAndClears : Prop :=
  ∀ (s : State) (f : Fld),
    f ∈ [Reg.RST_CAUSE_RESET_N, Reg.RST_CAUSE_VIN_RST, Reg.RST_CAUSE_REF_LOST, Reg.RST_CAUSE_FATAL, Reg.RST_CAUSE_ESCALATE] →
    let t := s.fullReset [f]
    t.get f = 1 ∧ (∀ x ∈ heldFields, x.1 ≠ f → t.get x.1 x.2 = s.get x.1 x.2 % 2 ^ x.1.width) ∧
    t.pending = s.pending ∧ (∃ l, t.out = l ++ s.out) ∧ t.power.on = s.power.on ∧
    t.clock.optime = s.clock.optime ∧ t.clock.pcycle = s.clock.pcycle ∧ t.clock.turn = 0 ∧
    t.tally.perm = s.tally.perm ∧ t.tally.circ = s.tally.circ ∧ t.tally.emer = s.tally.emer ∧ t.tally.clears = s.tally.clears ∧
    t.tally.ptr = s.tally.ptr ∧ t.tally.header = s.tally.header ∧ t.tally.queue = [] ∧
    t.conf.active = s.conf.slots.active ∧ t.conf.prev = s.conf.slots.prev ∧ t.conf.staged = s.conf.slots.staged ∧ t.conf.slots = s.conf.slots ∧
    t.boot.banks = s.boot.banks ∧ t.boot.active = s.boot.active ∧ t.boot.bl = s.boot.bl ∧ t.boot.restart = none ∧
    t.keys = default ∧ t.sec.stored = s.sec.stored ∧ t.sec.lifecycle = s.sec.lifecycle ∧ t.sec.fuses = s.sec.fuses ∧
    t.host.queues = [] ∧ t.host.window = [] ∧ t.mill = default ∧ t.far.transfers = [] ∧ t.pins.resetOutLow = true ∧
    t.pins.strapPair = s.pins.strapPair ∧ t.pins.strapChan = s.pins.strapChan ∧ t.pins.strapPref = s.pins.strapPref

/-- While firmware is up, a restart by RST_CMD with PD9 on, by watchdog or by a fault, of which fewer than two were within 10 min of
operating time (R98, R102 to R104): firmware is down, its cause shows and is counted, and nothing changes but the register file, the boot
state, the tally book beside its queue, the run of job 6, and the trials' verdicts. The third by watchdog or fault within 10 min is a full
reset with ESCALATE (R103). So it states where each of these commands completes: fwWatchdogExpiry, fwException, rstCmdFwRestart. -/
def Obligations.FirmwareRestarts : Prop :=
  ∀ s : State, s.Canon → s.alive = true → s.fwUp = true →
    (∀ (c : Instr) (cause : FwCause),
      (c = .fwWatchdogExpiry ∧ cause = .wdog) ∨ (c = .fwException ∧ cause = .fault) ∨
        (∃ port, c = .rstCmdFwRestart port ∧ cause = .cmd ∧ s.domainOn 9 = true) →
      (s.boot.faultRestarts.filter fun t => s.clock.optime < t + 60000).length < 2 →
      ∃ t, exec c s = .next t ∧ t.get Reg.GLOBAL_STAT_FW_READY = 0 ∧ t.get Reg.GLOBAL_STAT_FW_RESTART = 1 ∧
        t.get (State.causeBit cause) = 1 ∧ t.boot.restart = some (cause, none) ∧
        t.get Reg.RST_CNT_FW = min (s.get Reg.RST_CNT_FW + 1) (2 ^ Reg.RST_CNT_FW.width - 1) ∧ t.tally.queue = s.tally.queue ∧
        { t with regs := s.regs, boot := s.boot, tally := s.tally, clock := s.clock, conf := s.conf } = s) ∧
    (2 ≤ (s.boot.faultRestarts.filter fun t => s.clock.optime < t + 60000).length →
      exec .fwWatchdogExpiry s = .next ((s.set Reg.RST_CAUSE_FW_WDOG [] 1).fullReset [Reg.RST_CAUSE_ESCALATE]) ∧
      exec .fwException s = .next ((s.set Reg.RST_CAUSE_FW_FAULT [] 1).fullReset [Reg.RST_CAUSE_ESCALATE]))

/-- Restarts and trials (R102, R106, R115, R116): at the end of a firmware restart that was no update and with no VF change waiting,
firmware is up and the restart is over; a stopped lockstep pair runs again and nothing else changes; a pair that mismatches for the first
time stops at that operating time; an update restart names the spare bank; a firmware trial that reaches its end without a fault makes its
bank the active one, and the fuses rise to its security version. So it states where each of these commands completes: fwRestartComplete,
lockstepRestartDone, lockstepMismatch, updateRestart, fwTrialEnd. -/
def Obligations.RestartsAndTrialsEnd : Prop :=
  ∀ s : State, s.Canon → s.alive = true →
    (∀ c, s.boot.restart = some (c, none) → c ≠ .update → s.host.vfWait = [] →
      ∃ t, exec .fwRestartComplete s = .next t ∧ t.boot.restart = none ∧ t.get Reg.GLOBAL_STAT_FW_RESTART = 0 ∧
        t.get Reg.GLOBAL_STAT_FW_READY = 1) ∧
    (∀ i : Fin 2, s.fwUp = true → s.boot.lsStopped.getD i.val false = true → i.val < s.boot.lsStopped.length →
      ∃ t, exec (.lockstepRestartDone i) s = .next t ∧ t.cpuUp i.val = true ∧ { t with boot := s.boot } = s) ∧
    (∀ i : Fin 2, s.fwUp = true → s.boot.lsStopped.getD i.val false = false → s.boot.lsLast = [none, none] → s.boot.lsTurn = [none, none] →
      s.boot.lsStopped.length = 2 →
      ∃ t, exec (.lockstepMismatch i) s = .next t ∧ t.boot.lsStopped.getD i.val false = true ∧
        t.boot.lsLast.getD i.val none = some s.clock.optime) ∧
    (s.fwUp = true → s.boot.update.isSome = true → s.standing = false → s.inSlack = false →
      ∃ t, exec .updateRestart s = .next t ∧ t.boot.restart = some (.update, some s.spareBank) ∧ t.get Reg.GLOBAL_STAT_FW_READY = 0) ∧
    (s.cpuUp 1 = true → s.on Reg.FW_BANK_STAT_TRIAL = true → s.trialFault = none → s.boot.trialEnd ≤ s.clock.optime → s.mramWaits = false →
      ∃ t, exec .fwTrialEnd s = .next t ∧ t.boot.active = s.get Reg.BOOT_STAT_BANK ∧
        t.sec.fuses = max s.sec.fuses (min 64 (s.boot.banks.getD (s.get Reg.BOOT_STAT_BANK) default).svn))

/-- BOOT_STAGE_COMPLETE (R108, Table 5-3): stage 0 ends in 1 once no wipe is under way and stays while one is; 1 ends in 2 with a boot
loader copy 0 that verifies and in ROM recovery with none; 2 ends in 3 with a good active bank, without fallback; 5 ends in 6, where tenant
16 is present and nothing but registers has changed. So it states where this command completes: bootStageComplete. -/
def Obligations.BootReachesItsMilestones : Prop :=
  ∀ (s : State) (b : BootSeen), s.Canon → s.alive = true →
    (s.get Reg.BOOT_STAT_STAGE = 0 → s.sec.wipe = none → b.freezeLow = false →
      ∃ t, exec (.bootStageComplete b) s = .next t ∧ t.get Reg.BOOT_STAT_STAGE = 1) ∧
    (∀ w, s.get Reg.BOOT_STAT_STAGE = 0 → s.sec.wipe = some w → exec (.bootStageComplete b) s = .next s) ∧
    (∀ d, s.get Reg.BOOT_STAT_STAGE = 1 → s.boot.bl.getD 0 none = some d →
      ∃ t, exec (.bootStageComplete b) s = .next t ∧ t.get Reg.BOOT_STAT_STAGE = 2) ∧
    (s.get Reg.BOOT_STAT_STAGE = 1 → s.boot.bl.getD 0 none = none → s.boot.bl.getD 1 none = none →
      ∃ t, exec (.bootStageComplete b) s = .next t ∧ t.get Reg.BOOT_STAT_STAGE = 0xE) ∧
    (s.get Reg.BOOT_STAT_STAGE = 2 → s.bankGood s.boot.active = true →
      ∃ t, exec (.bootStageComplete b) s = .next t ∧ t.get Reg.BOOT_STAT_STAGE = 3 ∧ t.get Reg.BOOT_STAT_FALLBACK = 0) ∧
    (s.get Reg.BOOT_STAT_STAGE = 5 →
      ∃ t, exec (.bootStageComplete b) s = .next t ∧ t.get Reg.BOOT_STAT_STAGE = 6 ∧ t.get Reg.TN_STAT_PRESENT [16] = 1 ∧
        { t with regs := s.regs } = s)

/-- Power-on reset with the crystal running ends with the node on, the straps latched and the power-cycle count one above the stored one,
and without it changes nothing (R57, R62, R77, R100). RESET_OUT_N goes high (R45), and a lost keep-alive of the line engine releases the
relay drivers and changes nothing but pins (R51). So it states where each of these commands completes: powerOnReset, resetOutRelease,
lineKeepaliveLoss. -/
def Obligations.PowerOnAndResetPins : Prop :=
  ∀ s : State,
    (∀ pair chanB pref refclk aoLost vback, s.power.on = false → s.sec.unpowered = [] →
      (∃ t, exec (.powerOnReset pair chanB pref refclk true aoLost vback) s = .next t ∧ t.power.on = true ∧
        t.pins.strapPair = pair ∧ t.pins.strapChan = chanB ∧ t.pins.strapPref = pref ∧
        t.clock.pcycle = min ((s.tally.stored.map fun x => x.2).getD 0 + 1) 0xFFFFFF) ∧
      exec (.powerOnReset pair chanB pref refclk false aoLost vback) s = .next s) ∧
    (s.power.on = true → s.pins.resetOutLow = true → s.since 0 10000000 = true →
      exec .resetOutRelease s = .next { s with pins := { s.pins with resetOutLow := false } }) ∧
    (s.alive = true → ∃ t, exec .lineKeepaliveLoss s = .next t ∧ t.pins.keepalive = false ∧ t.pins.bypassLow = false ∧
      { t with pins := s.pins } = s)

/-- R617: in ROM recovery a good console frame is acknowledged with 0x06 and its data are appended to what has been received; a bad one is
refused with 0x15 and leaves the rest as it is. So it states where this command completes: recoveryFrame. -/
def Obligations.RecoveryFrames : Prop :=
  ∀ (s : State) (l d : List Byte) (w : Option (Nat × Bool × Bool)), s.alive = true → s.get Reg.BOOT_STAT_STAGE = 0xE →
    (State.consoleData l = some d →
      ∃ t, exec (.recoveryFrame l none) s = .next t ∧ t.boot.recovery = s.boot.recovery ++ d ∧ t.out = .consoleByte 0x06 :: s.out ∧
        { t with boot := s.boot, out := s.out } = s) ∧
    (State.consoleData l = none → exec (.recoveryFrame l w) s = .next { s with out := .consoleByte 0x15 :: s.out })

/-! Supply, clocks and operating time (03, 04) -/

/-- Slack (R65, R67, R70 to R72, Table 3-3): VIN below VIN_WARN enters it: SLACK is set and counted, the mark of an earlier persist step is
cleared, and nothing changes but registers, the supply's state and the tally book's; the persist step notes operating time, how many writes
wait and whether it failed; shedding follows PWR_SHED.DELAY after the entry; VIN 0.2 V above VIN_WARN ends it: SLACK, the mark and the shed
domains are cleared, the dip's minimum shows and no write is dropped; 1 ms after the last trickle unit another one below the trickle floor
only shows TRICKLE 0, and above it one with 3,072 writes waiting, the first of them not the tally book's, takes the first. So it states
where each of these commands completes: slackEntry, slackPersist, slackShed, slackExit, deferredTrickleUnit. -/
def Obligations.SlackCommands : Prop :=
  ∀ s : State, s.Canon → s.alive = true →
    (∀ vin, s.inSlack = false → vin < s.vinWarn →
      ∃ t, exec (.slackEntry vin) s = .next t ∧ t.inSlack = true ∧ t.power.persistAt = none ∧
        t.get Reg.PWR_SLACK_CNT_ENTRIES = min (s.get Reg.PWR_SLACK_CNT_ENTRIES + 1) (2 ^ Reg.PWR_SLACK_CNT_ENTRIES.width - 1) ∧
        t.tally.queue = s.tally.queue ∧ { t with regs := s.regs, power := s.power, tally := s.tally } = s) ∧
    (∀ fail, s.inSlack = true → s.power.persistAt = none → s.tally.due = 0 → (s.job 6).run = none →
      ∃ t, exec (.slackPersist fail) s = .next t ∧
        t.power.persistAt = some (s.clock.optime, s.power.deferred.length, fail.isNone) ∧
        t.power.deferred = s.power.deferred ∧ t.inSlack = true) ∧
    (s.inSlack = true → s.since s.power.slackAt (1000000 * s.get Reg.PWR_SHED_DELAY) = true → exec .slackShed s = .next s.shed) ∧
    (∀ vin low dur, s.inSlack = true → s.vinWarn + 20 ≤ vin →
      ∃ t, exec (.slackExit vin low dur) s = .next t ∧ t.inSlack = false ∧ t.power.persistAt = none ∧ t.power.shed = 0 ∧
        t.get Reg.PWR_DIP_MIN = low % 2 ^ Reg.PWR_DIP_MIN.width ∧ t.power.deferred = s.power.deferred) ∧
    (∀ vin fail, s.inSlack = true → s.power.persistAt.isSome = true → s.since s.power.trickleAt State.trickleNs = true →
      s.aboveFloor vin = false →
      ∃ t, exec (.deferredTrickleUnit vin fail) s = .next t ∧ t.get Reg.PWR_STAT_TRICKLE = 0 ∧ { t with regs := s.regs } = s) ∧
    (∀ vin fail l, s.inSlack = true → s.power.persistAt.isSome = true → s.since s.power.trickleAt State.trickleNs = true →
      s.aboveFloor vin = true → s.power.deferred = .tables :: l → 3072 ≤ s.power.deferred.length →
      ∃ t, exec (.deferredTrickleUnit vin fail) s = .next t ∧ t.get Reg.PWR_STAT_TRICKLE = 1 ∧ t.power.deferred = l ∧
        t.synth.stored = s.synth.cache)

/-- R60: VOUT_3V3 in current limit for more than 1 ms sets PWR_STAT.VOUT_OVL, asserts ALARM_N and writes record 0x4003, which enters the
tally queue where that has a place (R527); the node keeps running, and nothing but those registers, the record and the console changes. So
it states where this command completes: voutOverload. -/
def Obligations.VoutOverload : Prop :=
  ∀ (s : State) (vin : Nat), s.Canon → s.alive = true →
    ∃ t, exec (.voutOverload vin) s = .next t ∧ t.get Reg.PWR_STAT_VOUT_OVL = 1 ∧ (s.pins.alarmHeld = none → t.alarm = true) ∧
      (s.on Reg.TALLY_STAT_DEGRADED = false → s.hasPlace 0x4003 0 = true → ∃ r, t.tally.queue = s.tally.queue ++ [r] ∧ r.code = 0x4003) ∧
      t.alive = true ∧ { t with regs := s.regs, tally := s.tally, clock := s.clock, out := s.out } = s

/-- Power domains (R64): while PD9 is on PWR_SW is written; a domain that has risen comes up; PD9 then is on, no longer rises, and nothing
but registers and the supply's state has changed. So it states where each of these commands completes: pwrSwRequest, domainPowered. -/
def Obligations.PowerDomains : Prop :=
  ∀ s : State, s.Canon → s.alive = true →
    (∀ off, s.domainOn 9 = true → exec (.pwrSwRequest off) s = .next (s.writeSw off.val)) ∧
    (∀ n : Fin 12, n.val = 9 → bit s.power.rising n.val = true →
      ∃ t, exec (.domainPowered n) s = .next t ∧ t.domainOn n.val = true ∧ bit t.power.rising n.val = false ∧
        { t with regs := s.regs, power := s.power } = s) ∧
    (∀ n : Fin 12, bit s.power.rising n.val = true → exec (.domainPowered n) s = .next (s.domainUp n.val))

/-- The clocks' supervision (R77, R309) and operating time (R81): a lost GX crystal or a GX deviation above 300 ppm fails both weirs, a lost
XT32 sets its flags, and each increment adds one unit of 10 ms to operating time. So it states where each of these commands completes:
gxCrystalLost, gxPpmFault, xt32Lost, optimeIncrement. -/
def Obligations.ClockSupervision : Prop :=
  ∀ s : State, s.Canon → s.alive = true →
    (∃ t, exec .gxCrystalLost s = .next t ∧ t.wst 0 = 5 ∧ t.wst 1 = 5 ∧ t.get Reg.CLK_STAT_GX_OK = 0) ∧
    (∀ d, d > 3000 ∨ d < -3000 → ∃ t, exec (.gxPpmFault d) s = .next t ∧ t.wst 0 = 5 ∧ t.wst 1 = 5 ∧ t.clock.gxBad = true) ∧
    (∃ t, exec .xt32Lost s = .next t ∧ t.get Reg.CLK_STAT_XT32_LOST = 1 ∧ t.get Reg.CLK_STAT_XT32_OK = 0 ∧
      { t with regs := s.regs, tally := s.tally, clock := s.clock, out := s.out } = s) ∧
    (∀ m, ∃ t, exec (.optimeIncrement m) s = .next t ∧ t.clock.optime = (s.clock.optime + 1) % 2 ^ 40)

/-- Upkeep of the tally book (R528, R531, R535, R543): 6,000 units after the last time the header and both pointer copies take operating
time, power-cycle count and the next sequence number, and nothing else changes; the first increment with UTC set queues an anchor; a write
unit takes 1 to 16 records from the front of the queue, where no unit waits to be written in slack; TALLY_UTC takes what is written; a new
nonce shows in TCL_CTL.VALID with the operating time of its birth, and 60,000 units later is gone without anything but registers and nonces
having changed. So it states where each of these commands completes: pointerPersist, anchorPeriodic, writeUnitDone, utcWrite, clearNonceNew,
clearNonceExpiry. -/
def Obligations.TallyUpkeep : Prop :=
  ∀ s : State, s.Canon → s.alive = true →
    (∀ o p, s.on Reg.TALLY_STAT_READY = true → s.mramWaits = false → s.tally.header = some (o, p) → o + 6000 ≤ s.clock.optime →
      ∃ t b, exec (.pointerPersist none) s = .next t ∧ t.tally.header = some (s.clock.optime, s.clock.pcycle) ∧
        t.tally.ptr = [b, b] ∧ b.valid = true ∧ b.optime = s.clock.optime ∧ b.pcycle = s.clock.pcycle ∧
        b.next = s.get Reg.TALLY_SEQ_NEXT ∧ { t with tally := { t.tally with header := s.tally.header, ptr := s.tally.ptr } } = s) ∧
    (s.utcOn = true → s.tally.utcSet = false → exec .anchorPeriodic s = .next (s.anchor 0)) ∧
    (∀ r l, s.tally.queue = r :: l → s.tally.clearReqs = [] → s.power.deferred = [] → 0 < s.tally.due → s.mayFlush = true →
      s.get Reg.TALLY_CIRC_HEAD_HEAD < circCap →
      ∃ t n, exec (.writeUnitDone none) s = .next t ∧ 0 < n ∧ n ≤ 16 ∧ t.tally.queue = s.tally.queue.drop n ∧ t.tally.due = s.tally.due - n) ∧
    (∀ port valid off, s.domainOn 9 = true → ∃ t, exec (.utcWrite port valid off) s = .next t ∧
      t.get Reg.TALLY_UTC_VALID = b2n valid ∧ t.get Reg.TALLY_UTC_OFFSET = off.val) ∧
    (∀ n : Fin 17, s.domainOn 9 = true → ∃ t b, exec (.clearNonceNew n) s = .next t ∧ t.get Reg.TCL_CTL_VALID [n.val] = 1 ∧
      Sparse.find n.val t.tally.nonces = some ⟨b, s.clock.optime⟩ ∧ t.tally.queue = s.tally.queue) ∧
    (∀ (n : Fin 17) x, Sparse.find n.val s.tally.nonces = some x → x.born + 60000 ≤ s.clock.optime →
      ∃ t, exec (.clearNonceExpiry n) s = .next t ∧ t.get Reg.TCL_CTL_VALID [n.val] = 0 ∧
        { t with regs := s.regs, tally := { t.tally with nonces := s.tally.nonces } } = s)

/-- The tally book's descriptors (R540 to R545): a read of an area that holds a record writes at most its buffer and completes OK with the
count of its records, and one of another area fails its check; a mark that no sluice entry governs, with a place, queues its record and
answers its sequence number; a clear whose token has been read and is good takes the nonce and waits for its record to be written; one whose
token is bad completes DENIED, is counted and asks for nothing. So it states where each of these commands completes: tallyRead, tallyMark,
tallyClear. -/
def Obligations.TallyDescriptors : Prop :=
  ∀ (s : State) (t : Fin 17) (q : Fin 16) (i : Nat) (d : Desc), s.Canon → s.alive = true →
    (s.ready t.val q.val i 0x20 = some d → d.arg0 % 16 ≤ 4 → d.len % 32 = 0 → 64 ≤ d.len → d.len ≤ 2 ^ 20 →
      State.inWin t.val d.buf d.len = true → (∃ x ∈ s.areaOf (d.arg0 % 16), x.2.seq.isSome = true) →
      ∃ bytes n, exec (.tallyRead t q i []) s =
        .next ((s.memWrite t.val d.buf bytes).complete t.val q.val i 0 (32 + 32 * n) n) ∧ 32 + 32 * n ≤ d.len) ∧
    (s.ready t.val q.val i 0x20 = some d → 4 < d.arg0 % 16 → exec (.tallyRead t q i []) s = .next (s.failCheck t.val q.val i 6)) ∧
    (s.ready t.val q.val i 0x21 = some d → d.arg0 / 2 ^ 16 % 8 ≤ 3 → s.sluiceEntry (0x8000 + d.arg0 % 4096) = none →
      s.hasPlace (0x8000 + d.arg0 % 4096) 0 = true →
      exec (.tallyMark t q i) s = .next ((s.enqueue (0x8000 + d.arg0 % 4096) (d.arg0 / 2 ^ 16 % 8) (15 + t.val) 0 (d.arg1 % 2 ^ 32)
        (d.arg1 / 2 ^ 32) (d.arg0 / 2 ^ 32)).complete t.val q.val i 0 0 (s.get Reg.TALLY_SEQ_NEXT))) ∧
    (∀ data, s.ready t.val q.val i 0x22 = some d → State.inWin t.val d.buf d.len = true → State.bufWaits t.val d data = false →
      s.clearFault t.val d (s.takeBuf t.val d data).1 true = none → s.on Reg.TALLY_STAT_DEGRADED = false → s.hasPlace 0x2010 0 = true →
      ∃ u : State, exec (.tallyClear t q i data true) s = .next u ∧ u.get Reg.TCL_CTL_VALID [t.val] = 0 ∧
        u.tally.clearReqs = s.tally.clearReqs ++ [⟨t.val, q.val, i, s.get Reg.TALLY_SEQ_NEXT, false⟩]) ∧
    (∀ data sig why, s.ready t.val q.val i 0x22 = some d → State.inWin t.val d.buf d.len = true → State.bufWaits t.val d data = false →
      s.clearFault t.val d (s.takeBuf t.val d data).1 sig = some why →
      ∃ u : State, exec (.tallyClear t q i data sig) s = .next (u.complete t.val q.val i 5 0 0) ∧ u.tally.clearReqs = s.tally.clearReqs ∧
        u.get Reg.TALLY_CLR_REFUSED = min (s.get Reg.TALLY_CLR_REFUSED + 1) (2 ^ Reg.TALLY_CLR_REFUSED.width - 1))

/-! Register accesses (01, 25) -/

/-- Register commands by a CPU pair, and others (R12, R14, R31, R82, R91, R206, Table 15-14): a write of TAI_SET_SEC takes the value and
changes nothing else; one of GPIO_IRQ, which is not a CPU pair's, changes nothing; a read of IDENT answers 0x4C4A0880; a read of NTIME_LO
answers the low half of node time and latches the high half for its requester; LOCK_SET sets the block's LOCK and changes nothing but
registers; TURN_LOAD.CLR zeroes the peak of the selected job; an edge drives its ball's level and settles the block, which for a rising edge
of an input shows in GPIO_IN and GPIO_EDGE; READ_REG shifts out what QSPI reads give, and WRITE_REG of offset 0 is tenant 16's doorbell. So
it states where each of these commands completes: registerWrite, readClear, latchedLowRead, lockSet, turnLoadPeakClear, gpioEdge, readReg,
writeReg. -/
def Obligations.RegisterCommands : Prop :=
  ∀ s : State, s.Canon → s.alive = true →
    (∀ (i : Fin 2) (v : Word), exec (.registerWrite (.cpu i.val) false 0x40840 4 v []) s = .next (s.set Reg.TAI_SET_SEC_SEC [] v.toNat)) ∧
    (∀ (i : Fin 2) (v : Word), exec (.registerWrite (.cpu i.val) false 0x34 4 v []) s = .next s) ∧
    (∀ i : Fin 2, exec (.readClear (.cpu i.val) false 0 4) s = .next { s with out := .read (.cpu i.val) 0 0x4C4A0880 :: s.out }) ∧
    (∀ i : Fin 2, ∃ t v, exec (.latchedLowRead (.cpu i.val) false Reg.NTIME_LO_NS.base) s = .next t ∧
      t.out = .read (.cpu i.val) Reg.NTIME_LO_NS.base (BitVec.ofNat 32 v) :: s.out ∧ v % 2 ^ 32 = s.nowNs % 2 ^ 32 ∧
      t.latched (17 + i.val) Reg.NTIME_HI_NS.base = s.nowNs / 2 ^ 32 % 2 ^ 32 ∧ t.regs = s.regs) ∧
    (∀ (i : Fin 2) (k : Fin 12) l, State.locks[k.val]? = some l → ∃ t, exec (.lockSet (.cpu i.val) k) s = .next t ∧ t.get l.1 = 1 ∧
      { t with regs := s.regs } = s) ∧
    (s.domainOn 9 = true → exec .turnLoadPeakClear s = .next { s with clock := { s.clock with
      load := listMod s.clock.load (s.get Reg.TURN_LOAD_SEL) fun x => (0, x.2) } }) ∧
    (∀ i : Fin 16, s.get Reg.GPIO_IN_LEVEL = s.gpioLevel → bit (s.get Reg.GPIO_DIR_OUT) i.val = false →
      bit s.pins.gpioExt i.val = false → bit (s.get Reg.GPIO_IRQ_EN) i.val = false → ∃ t, exec (.gpioEdge i true) s = .next t ∧
      bit t.pins.gpioExt i.val = true ∧ bit (t.get Reg.GPIO_IN_LEVEL) i.val = true ∧ bit (t.get Reg.GPIO_EDGE_RISE) i.val = true ∧
      t.get Reg.GPIO_EDGE_FALL = s.get Reg.GPIO_EDGE_FALL ∧
      { t with regs := s.regs, pins := { t.pins with gpioExt := s.pins.gpioExt } } = s) ∧
    (∀ off n, s.qspiOn = true → s.hostsServed = true → off % 4 = 0 → exec (.readReg off n) s =
      .next ((State.qspiRead off n s).2.emit (.qspi (State.qspiRead off n s).1))) ∧
    (∀ data : List Byte, data.length = 4 → s.qspiOn = true → s.hostsServed = true →
      exec (.writeReg 0 data) s = .next (s.doorbell 16 (leAt data 0 4)))

/-- R12, R14: a register all of whose fields are read-only, cleared by reads, or locked by their block's LOCK takes nothing from a write,
whoever makes it: the state stays as it is. -/
def Obligations.LockedAndReadOnlyFieldsKeepTheirValue : Prop :=
  ∀ (s : State) (r : Requester) (off v : Nat) (given : List Byte),
    (∀ x ∈ State.fieldsAt off, x.1.acc = .ro ∨ x.1.acc = .rc ∨ (x.1.acc = .rwl ∧ s.lockedAt off = true)) →
    (State.actions.find? fun a => (a.1.find off).isSome) = none → s.writeReg r off v given = s

/-- R12: outside dark CAN registers, a read of a register answers its word and clears every field that clears on reads, whatever the
requester, and no other field changes; registers whose Meaning names another value or another place are apart. -/
def Obligations.ReadsClearCounters : Prop :=
  ∀ (s : State) (r : Requester) (off : Nat), s.Canon → s.canDark off = false →
    (∀ x ∈ State.fieldsAt off, x.1 ∉ [Reg.PWR_VIN_VIN_MIN, Reg.WEIR_CNT_EARLY, Reg.FAR_PF_CNT_HITS, Reg.FAR_PF_CNT_DISCARDS,
      Reg.FAR_AP_ERR_STAT_x_VALID]) →
    (s.readReg r off).1 = s.readWord r.code off ∧
    (∀ x ∈ State.fieldsAt off, x.1.acc = .rc → (s.readReg r off).2.get x.1 x.2 = 0) ∧
    (∀ (f : Fld) (ix : List Nat), (∀ x ∈ State.fieldsAt off, x.1.acc = .rc → f.key ix ≠ x.1.key x.2) →
      (s.readReg r off).2.get f ix = s.get f ix)

/-! Turns, jobs and time (04, 07) -/

/-- A tick (R79, R84): with a tick and a clocked node it is the turn's change, the synchronisation, the process data, the line, the millpond
and the jobs in this order, and without it is no event; the turn's change puts the phase at 0, the turn number at the next and TURN_OUT
high, and leaves registers and the tally book alone. TURN_ENABLE at stage 5 sets TURN_CTL.EN and settles the line, and the NIT, once in a
turn, comes to its time, corrects the line, works the pair's part and checks a trial. So it states where each of these commands completes:
tick, turnEnable, nitCorrection. -/
def Obligations.TickCommands : Prop :=
  ∀ s : State, s.Canon →
    (∀ loads armed crc par, s.alive = true → s.ticking = true →
      exec (.tick loads armed crc par) s = .next (((((s.modTally fun y => { y with atTick := y.queue.length }).turnOver.tickSync.pdTick).tickLine
        s.clock.turn).tickMill).tickJobs s.clock.turn s.standing s.clock.stepped loads armed crc par)) ∧
    (∀ loads armed crc par, s.alive = false ∨ s.ticking = false → exec (.tick loads armed crc par) s = .next s) ∧
    (s.turnOver.clock.phase = 0 ∧ s.turnOver.clock.turn = s.nextTurn ∧ s.turnOver.clock.stepped = false ∧
      0 < s.turnOver.pins.turnOut ∧ s.turnOver.regs = s.regs ∧ s.turnOver.tally = s.tally) ∧
    (s.alive = true → s.fwUp = true → s.get Reg.BOOT_STAT_STAGE = 5 →
      exec .turnEnable s = .next (s.set Reg.TURN_CTL_EN [] 1).settleLine.relays) ∧
    (s.alive = true → s.ticking = true → s.sync.nitDone = false → exec .nitCorrection s =
      .next ((s.passTo s.nitStart).modSync fun y => { y with nitDone := true }).nitLine.nitRed.checkTrial)

/-- Jobs (R91 to R94) and credits (R24): a unit other than job 2 with three overruns degrades at this turn, and a degraded one with its good
turns is restored, each changing nothing but registers, the clock, the tally book and the console; a late unit other than job 6 completes
with the inputs it started on, which then are held no more; a credit of the tally queue queues the records of overflown sources, and one of
a controller feeds its waiting frames. So it states where each of these commands completes: jobDegraded, jobRestored, jobLateCompletion,
creditReturn. -/
def Obligations.JobCommands : Prop :=
  ∀ s : State, s.Canon → s.alive = true →
    (∀ u : Fin 10, u.val ≠ 2 → 3 ≤ (s.job u.val).overs → u.val < s.clock.jobs.length → s.degraded u.val = false →
      ∃ t, exec (.jobDegraded u) s = .next t ∧ t.degraded u.val = true ∧ (t.job u.val).degSince = some s.clock.turn ∧
        (t.job u.val).good = 0 ∧ { t with regs := s.regs, clock := s.clock, tally := s.tally, out := s.out } = s) ∧
    (∀ u : Fin 10, s.degraded u.val = true → unitGood u.val ≤ (s.job u.val).good → u.val < s.clock.jobs.length →
      ∃ t, exec (.jobRestored u) s = .next t ∧ t.degraded u.val = false ∧ (t.job u.val).degSince = none ∧ (t.job u.val).overs = 0 ∧
        { t with regs := s.regs, clock := s.clock, tally := s.tally, out := s.out } = s) ∧
    (∀ (u : Fin 10) (l : Fin 1000) (h : Held) k, u.val ≠ 6 → (s.job u.val).run = some k → k ≠ s.clock.turn → Sparse.find u.val s.held = some h →
      exec (.jobLateCompletion u l) s =
        .next (({ s.jobWork u.val h (s.loadUs l.val) with held := Sparse.del u.val s.held } : State).ran u.val l.val)) ∧
    (exec (.creditReturn .tally) s = .next s.overflowRecords) ∧
    (∀ n : Fin 8, s.mirrored n.val = false → exec (.creditReturn (.can n)) s = .next (s.canFeed n.val (s.ctl n.val).waits.length))

/-- Time of day and synchronisation (R197, R198, R203, R205 to R209): SELF_SILENT of a deciding device with an ICOUNT ends in SYNCED with
its record; the widening ends; the rate is written to MRAM; PPS_OUT rises for its width; arming waits 2 s for an edge, which aligns to
TAI_SET_SEC with origin 1, or is missed; gPTP aligns with origin 2; a time message of turn t names turn t + 4, its selector being the
model's free value (log 5); a received one is heard with its turn, time and origin; and at the named tick node time is aligned. So it states
where each of these commands completes: selfSilentExit, wideningEnd, ratePersist, ppsOutPulse, taiArm, ppsInEdge, taiArmMissed, gptpAlign,
timeMessageSend, timeMessageReceive, taiAlignAtTick. -/
def Obligations.TimeCommands : Prop :=
  ∀ s : State, s.Canon → s.alive = true →
    (s.lstate = 5 → 8 ≤ s.sync.goodRun → s.decides = true → s.icount ≠ 0 → exec .selfSilentExit s =
      .next ((s.toLine 4).record 0x3302 1 3 s.sync.silentTurns (s.get Reg.SYNC_OFFSET_OFFSET))) ∧
    (s.on Reg.SYNC_STAT_WIDE = true → 8 ≤ s.sync.since →
      ∃ t, exec .wideningEnd s = .next t ∧ t.get Reg.SYNC_STAT_WIDE = 0 ∧ { t with regs := s.regs } = s) ∧
    (s.on Reg.SYNC_STAT_CONVERGED = true → 65536 ≤ s.sync.persistCount → ∃ t, exec .ratePersist s = .next t ∧
      t = (s.mramWrite (.rate (s.getInt Reg.NTIME_RATE_RATE))).modSync fun y => { y with persistCount := 0 }) ∧
    (s.on Reg.SYNC_CTL_PPS_OUT_EN = true → s.nowNs / 1000000000 ≠ s.sync.ppsSec →
      s.nowNs % 1000000000 < max 1 (s.get Reg.SYNC_CTL_PPS_W) * 1000000 →
      ∃ t, exec .ppsOutPulse s = .next t ∧ t.pins.ppsOut = true ∧ t.sync.ppsSec = s.nowNs / 1000000000 ∧
        t.sync.ppsEnd = s.inNs (max 1 (s.get Reg.SYNC_CTL_PPS_W) * 1000000 - s.nowNs % 1000000000) ∧
        { t with sync := s.sync, pins := s.pins } = s) ∧
    (∃ t, exec .taiArm s = .next t ∧ t.get Reg.TAI_CTL_ARM = 1 ∧ t.sync.armed = some (s.inNs 2000000000)) ∧
    (s.armedNow = true → exec .ppsInEdge s = .next (((s.set Reg.TAI_CTL_ARM [] 0).modSync fun y => { y with armed := none }).alignTime
      (s.get Reg.TAI_SET_SEC_SEC * 1000000000) 1)) ∧
    (s.on Reg.TAI_CTL_ARM = true → s.armedNow = false → ∃ t, exec .taiArmMissed s = .next t ∧ t.get Reg.TAI_CTL_ARM = 0 ∧ t.get Reg.TAI_CTL_MISSED = 1 ∧
      t.sync.armed = none) ∧
    (∀ ns, s.fwUp = true → s.gmSelected = true → (∀ t, s.sync.gptpAt = some t → s.since t 1000000000 = true) →
      exec (.gptpAlign ns) s = .next ((s.modSync fun y => { y with gptpAt := some s.clock.up }).alignTime ns 2)) ∧
    (s.cpuUp 0 = true → s.ownSource = true → s.clock.turn % 64 = 0 → s.outranked = false → s.sync.timeSent ≠ some s.clock.turn →
      ∃ sel body, exec .timeMessageSend s =
        .next (({ (s.modSync fun y => { y with timeSent := some s.clock.turn }) with free := s.free + 1 }).lineOut 4 0xFFFF 2 sel 0 body none).2 ∧
        beAt body 0 8 = (s.clock.turn + 4) % 2 ^ 64 ∧ sel < 2 ^ 16) ∧
    (∀ sender body, s.cpuUp 0 = true → exec (.timeMessageReceive sender body) s =
      .next (s.hearTime sender (beAt body 0 8) (beAt body 8 8) (beAt body 16 1))) ∧
    (∀ t o, s.sync.align = some (s.clock.turn, t, o) → exec .taiAlignAtTick s =
      .next ((s.modSync fun y => { y with align := none }).alignTime (t + s.phaseNs) o))

/-- R80, R209: aligning node time within 1 µs slews it and leaves it where it is, beyond that it steps; the origin is taken in both cases. -/
def Obligations.AlignmentSlewsOrSteps : Prop :=
  ∀ (s : State) (ns origin : Nat), s.Canon →
    let diff : Int := (ns : Int) * (State.nsUnit : Nat) - (s.clock.ntime : Int)
    let t := s.alignTime ns origin
    t.get Reg.TIME_STAT_ORIGIN = origin % 2 ^ Reg.TIME_STAT_ORIGIN.width ∧
    (-(1000 * State.nsUnit : Nat) ≤ diff ∧ diff ≤ (1000 * State.nsUnit : Nat) → t.sync.slew = diff ∧ t.clock.ntime = s.clock.ntime) ∧
    (diff < -(1000 * State.nsUnit : Nat) ∨ (1000 * State.nsUnit : Nat) < diff → t.sync.slew = 0 ∧
      t.clock.ntime = ns % 2 ^ 64 * State.nsUnit)

/-! Line ports (06) -/

/-- The line ports' states (R123 to R127, Table 6-3): the listening phase of PROBE ends after L_k in its master phase, and that after 100 ms
in PROBE with k + 1; a signal at an enabled rate up to the ceiling trains the port as slave, and a response trains a master at the ceiling;
training fails after 200 ms, or ends in IDENTIFY at its rate and signal quality; IDENTIFY without an identity for 10 ms, and the loss of an
UP or HELD link, end in PROBE with k = 0; the ceiling returns to the fastest rate after 1 s in PROBE without a signal, and with a commanded
retry, which leads to PROBE from every state but DISABLED. So it states where each of these commands completes: probeListenEnd,
probeMasterEnd, trainingSignalDetect, slaveResponse, trainingFail, phyLinkUp, identifyTimeout, probeCeilingReset, lpRetry, linkLoss. -/
def Obligations.LinePortCommands : Prop :=
  ∀ (s : State) (n : Fin 4), s.Canon → s.alive = true →
    (s.pst n.val = 1 → (s.port n.val).master = false → n.val < s.ports.length → s.since (s.port n.val).since (s.listenNs n.val) = true →
      ∃ t, exec (.probeListenEnd n) s = .next t ∧ (t.port n.val).master = true ∧ (t.port n.val).since = s.clock.up ∧
        { t with ports := s.ports } = s) ∧
    (s.pst n.val = 1 → (s.port n.val).master = true → s.since (s.port n.val).since 100000000 = true →
      exec (.probeMasterEnd n) s = .next (s.probe n.val ((s.port n.val).k + 1))) ∧
    (∀ r : Fin 5, s.pst n.val = 1 → (s.port n.val).master = false → s.modeOn n.val r.val = true → r.val ≤ s.get Reg.LPn_STAT_CEIL [n.val] →
      exec (.trainingSignalDetect n r) s = .next ((s.heardSignal n.val).train n.val r.val 2)) ∧
    (s.pst n.val = 1 → (s.port n.val).master = true →
      exec (.slaveResponse n) s = .next ((s.heardSignal n.val).train n.val (s.get Reg.LPn_STAT_CEIL [n.val]) 1)) ∧
    (s.pst n.val = 2 → s.since (s.port n.val).since 200000000 = true → exec (.trainingFail n) s = .next (s.trainFail n.val)) ∧
    (∀ sqi, s.pst n.val = 2 → exec (.phyLinkUp n sqi) s =
      .next (((s.set Reg.LPn_STAT_RATE [n.val] (s.port n.val).tryRate).set Reg.LPn_STAT_SQI [n.val] sqi.val).portTo n.val 3)) ∧
    (s.pst n.val = 3 → s.isXlink n.val = false → s.since (s.port n.val).since 10000000 = true →
      exec (.identifyTimeout n) s = .next (s.probe n.val 0)) ∧
    (s.pst n.val = 1 → s.isXlink n.val = false → s.since (s.port n.val).quiet 1000000000 = true →
      ∃ t, exec (.probeCeilingReset n) s = .next t ∧
      t.get Reg.LPn_STAT_CEIL [n.val] = s.fastest n.val % 2 ^ Reg.LPn_STAT_CEIL.width ∧ { t with regs := s.regs } = s) ∧
    (s.pst n.val ≠ 0 → s.isXlink n.val = false →
      exec (.lpRetry n) s = .next ((s.set Reg.LPn_STAT_CEIL [n.val] (s.fastest n.val)).probe n.val 0)) ∧
    (s.pst n.val = 0 → s.isXlink n.val = false → exec (.lpRetry n) s = .next (s.set Reg.LPn_STAT_CEIL [n.val] (s.fastest n.val))) ∧
    (s.pst n.val = 4 ∨ s.pst n.val = 5 → s.isXlink n.val = false → exec (.linkLoss n) s = .next (s.probe n.val 0))

/-! Line frames (07, 08) -/

/-- Received line frames, each given to its reception by port and payload (R150, R155, R171, R174) with its time stamp of 0.25 ns: KICKOFF,
DYNAMIC and STATIC frames on a line port, HOP frames on any port, DYNAMIC frames on an UP crosslink; a partner's STATIC frame that is sound
is stored as a copy at the armed slot of a node that follows the line; a CONFIRM, CLAIM or service frame that passes the relay checks of an
UP line port is stored, handed to the partner, and relayed with what this node merges into it; a sound DIRECTORY frame from the partner
joins the wave of DISCOVER once. So it states where each of these commands completes: kickoffReceive, hopFrameReceive, dynamicFrameReceive,
staticFrameReceive, confirmFrameReceive, claimFrameReceive, serviceFrameReceive, directoryFrameReceive. -/
def Obligations.FramesReceived : Prop :=
  ∀ (s : State) (n : Fin 4) (f : Frame) (c : RxCheck), s.alive = true →
    (∀ k, s.isXlink n.val = false → f.payload = .kickoff k → exec (.kickoffReceive n f c) s = .next (s.rxKickoff n.val f k c.stamp)) ∧
    (∀ q h, f.payload = .hop q h → exec (.hopFrameReceive n f c) s = .next (s.rxHop n.val f h c.stamp)) ∧
    (∀ d, s.isXlink n.val = false → f.payload = .dyn d → exec (.dynamicFrameReceive n f c) s = .next (s.rxDynamic n.val f d c.stamp)) ∧
    (∀ d, s.isXlink n.val = true → s.pst n.val = 4 → f.payload = .dyn d →
      exec (.dynamicFrameReceive n f c) s = .next (s.rxDynamicX n.val f d c.stamp)) ∧
    (f.kind = .static → s.isXlink n.val = false → exec (.staticFrameReceive n f c) s = .next (s.rxStatic n.val f c.stamp)) ∧
    (∀ ps, f.kind = .static → s.isXlink n.val = true → s.pst n.val = 4 → f.payload = .parcels ps → s.rxSound f c.stamp true = true →
      s.following = true → f.hdr.sender ≠ s.ownPos → s.slotArmed f.hdr.slot = true →
      exec (.staticFrameReceive n f c) s = .next ((s.storeCopy f.hdr.slot f (readParcels ps)).witnessHome (!s.pins.strapChan) f)) ∧
    (∀ w b u, s.pst n.val = 4 → s.isXlink n.val = false → f.payload = .confirm w b →
      s.rxSound f c.stamp (s.tagOk n.val f) = true →
      (s.readConfirm n.val f b).rxRelay n.val f w c.stamp = (.good, u) →
      ∃ b' : Confirm, exec (.confirmFrameReceive n f c) s = .next ((((u.storeConfirm (n.val / 2) f b).witness1 (n.val % 2 == 1) f).toPartner f).relayOn
        n.val f w c.stamp false (b' != b) fun w => .confirm w b') ∧ b' = (s.readConfirm n.val f b).mergeConfirm b) ∧
    (∀ w b u, s.pst n.val = 4 → s.isXlink n.val = false → f.payload = .claim w b → s.rxRelay n.val f w c.stamp = (.good, u) →
      exec (.claimFrameReceive n f c) s = .next ((((u.storeClaim b).noteOwnClaim).toPartner f).relayOn n.val f w c.stamp false
        (s.mergeClaim b != b) fun w => .claim w (s.mergeClaim b))) ∧
    (∀ w b u, s.pst n.val = 4 → s.isXlink n.val = false → f.payload = .service w b →
      s.rxRelay n.val f w c.stamp = (.good, u) →
      exec (.serviceFrameReceive n f c) s = .next (((u.storeService n.val b).toPartner f).relayOn n.val f w c.stamp false
        (s.mergeService b != b) fun w => .service w (s.mergeService b))) ∧
    (∀ w e, s.pst n.val = 4 → s.isXlink n.val = true → s.phase = 2 → s.following = true → f.payload = .directory w e →
      s.rxSound f c.stamp true = true → (s.inaug.wave.any fun x => x.1 == b2n c.end2 && x.2.1 == f.hdr.slot) = false →
      exec (.directoryFrameReceive n f c) s =
        .next { s with inaug := { s.inaug with wave := s.inaug.wave ++ [(b2n c.end2, f.hdr.slot, e)] } })

/-- Frames sent (R153, R155, R166, R172, R174, R318): a node in COLDSTART with its floor written counts its KICKOFFs, once in a turn, and
changes nothing but registers, start-up, weirs, tally book, clock and outputs; at the end of the line a relay frame goes out on the one UP
line port of this node, and none without such a port; behind a silent neighbour a relay frame with MID goes on across; HOP frames leave in a
gap of the dynamic segment when a quarter of the share is freed, at most 7 in a turn, and every 1 ms in IDENTIFY; the dynamic segment is
worked once in a turn, port after port; lifetimes and recovery states expire. So it states where each of these commands completes:
kickoffSend, relayOriginate, relayMidOriginate, hopExtraSend, hopPeriodicSend, dynamicSegment, dynamicLifetimeExpiry, recoveryStateTimeout.
-/
def Obligations.FramesSent : Prop :=
  ∀ s : State, s.alive = true →
    (s.lstate = 2 → s.start.floorWait = false → s.todo .kickoff = true →
      ∃ t, exec .kickoffSend s = .next t ∧ t.start.kcount = min 65535 (s.start.kcount + 1) ∧
        { t with regs := s.regs, start := s.start, weirs := s.weirs, tally := s.tally, clock := s.clock, out := s.out } = s) ∧
    (∀ (slot : Fin 67) corr, s.mayOriginate = true → slot.val ≠ 0 → s.todo (.relay slot.val) = true → (∀ n : Fin 4, s.lineUp n.val = false) →
      exec (.relayOriginate slot corr) s = .next (s.did s.clock.turn (.relay slot.val))) ∧
    (∀ (slot : Fin 67) corr, s.mayOriginate = true → slot.val ≠ 0 → s.todo (.relay slot.val) = true → s.lineUp 3 = true →
      (∀ m : Fin 3, s.lineUp m.val = false) →
      (s.port 3).newlink = false → (slot.val ≤ 3 ∨ (s.port 3).foreign = false) → s.endNbr 0 = false →
      exec (.relayOriginate slot corr) s =
        .next (((s.did s.clock.turn (.relay slot.val)).learnH 0 0).sendRelay 3 slot.val false corr)) ∧
    (∀ (n : Fin 4) (slot : Fin 4) corr, s.mayOriginate = true → slot.val ≠ 0 → s.nbrPort n.val = true → s.lineUp (State.across n.val) = true →
      (s.port (State.across n.val)).newlink = false → ((s.port n.val).relay.any fun r => r.1 == slot.val) = false →
      (s.port (State.across n.val)).midRun.contains slot.val = true → (s.port (State.across n.val)).midNow.contains slot.val = false →
      exec (.relayMidOriginate n slot corr) s =
        .next ((s.modPort (State.across n.val) fun p => { p with midNow := slot.val :: p.midNow }).sendRelay (State.across n.val) slot.val true corr)) ∧
    (∀ n : Fin 4, s.ticking = true → s.pst n.val = 4 → (List.range 10).foldl (fun a c => a + Config.hopShare c) 0 ≤ 4 * (s.port n.val).freed →
      (s.port n.val).extra < 7 → s.inGap n.val = true →
      exec (.hopExtraSend n) s = .next ((s.modPort n.val fun p => { p with
        extra := p.extra + 1, poolAt := some (s.nowTenths + wireTime (s.rate n.val) 64) }).sendHop n.val s.clock.phase)) ∧
    (∀ n : Fin 4, s.pst n.val = 3 → (∀ t, (s.port n.val).hopAt = some t → s.since t 1000000 = true) →
      exec (.hopPeriodicSend n) s = .next ((s.modPort n.val fun p => { p with hopAt := some s.clock.up }).sendHop n.val s.clock.phase)) ∧
    (s.ticking = true → s.todo .dynamic = true → exec .dynamicSegment s = .next ((List.range 4).foldl (fun s n =>
      if s.pst n == 4 || s.pst n == 5 then s.dynSegment n else s) (s.did s.clock.turn .dynamic).sendWitness)) ∧
    (∀ n : Fin 4, exec (.dynamicLifetimeExpiry n) s = .next (s.expireQueue n.val).expireHolds.expireHeld) ∧
    exec .recoveryStateTimeout s = .next { s with red := { s.red with
      recovery := s.red.recovery.filter fun x => s.clock.turn ≤ x.last + 16 } }

/-! Line start and inauguration (09, 10) -/

/-- The line's start, while this device decides and CPU pair 0 runs (R214 to R226, R572, R639): LISTEN at the end of its time, unless held
and without a full valid turn, gives way to COLDSTART; a full valid turn integrates; the KICKOFF floor moves 2^20 turns ahead while no MRAM
write waits; a second turn of answers with 0 integrates from COLDSTART with its record; 16 unanswered turns end in SOLITARY, with record
0x3404 and a train of one, which can inaugurate again; 16 turns without a midpoint lose the line, as do 64 turns of INTEGRATE without
convergence and 128 of COLDSTART; and the hold of a yield ends, after which the node listens afresh. So it states where each of these
commands completes: listenTimeout, integration, kickoffFloorPersist, coldstartIntegrate, solitaryEntry, solitaryReinaugurate, lineLost,
yieldHoldEnd. -/
def Obligations.LineStartCommands : Prop :=
  ∀ s : State, s.Canon → s.alive = true → s.lineUpFw = true →
    (s.lstate = 1 → s.on Reg.LSTART_STAT_HOLD = false → s.start.listenEnd ≤ s.clock.up → s.fullValid = none →
      exec .listenTimeout s = .next (s.toLine 2).lineLayout) ∧
    (∀ o n, s.lstate = 1 → s.fullValid = some (o, n) → exec .integration s = .next (s.integrate o n)) ∧
    (s.start.floorWait = true → s.get Reg.SEC_KICK_FLOOR_LO_TURN + 2 ^ 32 * s.get Reg.SEC_KICK_FLOOR_HI_TURN ≤ s.clock.turn →
      s.mramWaits = false → s.clock.turn + 2 ^ 20 < 2 ^ 64 →
      ∃ t, exec .kickoffFloorPersist s = .next t ∧
        t.get Reg.SEC_KICK_FLOOR_LO_TURN + 2 ^ 32 * t.get Reg.SEC_KICK_FLOOR_HI_TURN = s.clock.turn + 2 ^ 20 ∧
        t.start.floorWait = false ∧ { t with regs := s.regs, start := s.start } = s) ∧
    (s.lstate = 2 → 2 ≤ s.start.zeroRun → ∃ t : State, exec .coldstartIntegrate s = .next (t.record 0x3403 1 1 (s.clock.turn - s.start.listenAt) 0) ∧
      t.start.kicking = true ∧ t.get Reg.LSTART_STAT_SRC_KIND = 0 ∧ t.start.kickLuid = none) ∧
    (s.lstate = 2 → s.start.zeroRun < 2 → 16 ≤ s.start.unanswered → exec .solitaryEntry s =
      .next (((s.toLine 6).inc Reg.LSTART_CNT_SOLO).record 0x3404 4 1 (s.portBits fun n => s.pst n == 4) 0).soloStart) ∧
    (s.lstate = 6 → s.start.solo = true → s.phase ≠ 4 → exec .solitaryReinaugurate s =
      .next ((s.set Reg.LSTART_STAT_PENDING [] 0).modInaug fun i => { i with
        pending := if s.on Reg.INAUG_STAT_PENDING then i.pending else [] }).soloStart) ∧
    (s.lstate = 4 ∨ s.lstate = 5 → 16 ≤ s.sync.noMid → 1 ≤ s.get Reg.LSTART_STAT_TURNS → exec .lineLost s = .next (s.loseLine 0)) ∧
    (s.lstate = 3 → s.on Reg.SYNC_STAT_CONVERGED = false → 64 ≤ s.get Reg.LSTART_STAT_TURNS → exec .lineLost s = .next (s.loseLine 1)) ∧
    (s.lstate = 2 → s.start.zeroRun < 2 → s.start.unanswered < 16 → 128 ≤ s.get Reg.LSTART_STAT_TURNS →
      exec .lineLost s = .next (s.loseLine 2)) ∧
    (s.on Reg.LSTART_STAT_HOLD = true → s.start.hold = 0 → ∃ t, exec .yieldHoldEnd s = .next t ∧ t.get Reg.LSTART_STAT_HOLD = 0 ∧
      t.start.listenEnd = s.inNs (s.tListen * 1000) ∧ { t with regs := s.regs, start := s.start } = s)

/-- Inputs, triggers and phases of inauguration (R44, R230, R235 to R240, R245, R247, R250, R263): a rise of a coupler input without a link
shows and waits 5 s, and with none after its time is recorded; cab and inhibit inputs show, and a rise of the inhibit input holds back a
YIELD; without a pending trigger a fall of the inhibit input touches neither inauguration nor the tally book; a pending trigger acts after
64 synchronised turns; STOP_REQ leads to STOP; the phase of a following node steps; 64 turns into STOP a port whose neighbour is not SYNCED
is held out, and comes back once it is; a noted yield is carried out; adoption without agreed line rules adopts the line, flushes what was
learned from it and releases what waited. So it states where each of these commands completes: couplerInputChange, couplerNoLink,
cabActiveChange, inaugInhibitRise, inaugInhibitFall, pendingTriggerAct, stopEntry, inaugPhaseChange, stopHoldOut, holdOutEnd, yield,
adoption. -/
def Obligations.InaugurationCommands : Prop :=
  ∀ s : State, s.Canon → s.alive = true →
    (∀ (e : Fin 2), s.pins.cpl.getD e.val false = false → s.pins.cpl.length = 2 → (∀ n : Fin 4, s.pst n.val = 0) → s.partnerUp = [] →
      s.start.cplWait.length = 2 →
      ∃ t, exec (.couplerInputChange e true) s = .next t ∧ t.pins.cpl.getD e.val false = true ∧
        t.start.cplWait.getD e.val none = some (s.inNs 5000000000) ∧
        t.get (if e.val = 0 then Reg.INAUG_STAT_CPL_E1 else Reg.INAUG_STAT_CPL_E2) = 1 ∧ t.tally = s.tally) ∧
    (∀ (e : Fin 2) x, s.start.cplWait.getD e.val none = some x → x ≤ s.clock.up →
      exec (.couplerNoLink e) s = .next ((s.modStart fun x => { x with cplWait := listSet x.cplWait e.val none }).record 0x3509 3 1 (e.val + 1) 0)) ∧
    (∀ level, ∃ t, exec (.cabActiveChange level) s = .next t ∧ t.pins.cab = level ∧ t.get Reg.INAUG_STAT_CAB = b2n level ∧
      { t with regs := s.regs, pins := s.pins } = s) ∧
    (s.pins.inhibit = false → s.inaug.asking = none → ∃ t, exec .inaugInhibitRise s = .next t ∧ t.pins.inhibit = true ∧
      t.get Reg.INAUG_STAT_INHIBIT = 1 ∧ t.inaug.yielding = false ∧ t.inaug.yieldNext = (s.inaug.yieldNext || s.inaug.yielding) ∧
      { t with regs := s.regs, pins := s.pins, inaug := s.inaug } = s) ∧
    (s.pins.inhibit = true → s.on Reg.INAUG_STAT_PENDING = false → ∃ t, exec .inaugInhibitFall s = .next t ∧ t.pins.inhibit = false ∧
      t.inaug = s.inaug ∧ t.tally = s.tally) ∧
    (s.lstate = 4 → s.on Reg.LSTART_STAT_PENDING = true → s.cpuUp 0 = true → s.pins.inhibit = false → s.phase ≠ 1 → s.phase ≠ 4 →
      64 ≤ s.start.synced → exec .pendingTriggerAct s = .next ((s.set Reg.LSTART_STAT_PENDING [] 0).record 0x3501 1 1 8 0xFF).actPending) ∧
    (s.following = true → s.cpuUp 0 = true → s.phase ≠ 1 → s.inaug.last.stopReq = true → exec .stopEntry s = .next (s.enterStop 0)) ∧
    (s.following = true → s.cpuUp 0 = true → exec .inaugPhaseChange s = .next s.phaseStep) ∧
    (s.phase = 1 → 64 ≤ s.get Reg.INAUG_STAT_TURNS → (∀ n : Fin 3, s.nbrPort n.val = false) → s.nbrPort 3 = true →
      (s.port 3).nbrLs % 16 ≠ 4 → exec .stopHoldOut s = .next ((s.hold 3 10).record 0x3508 4 1 3 (s.get Reg.LPn_NBR_LO_UID [3]))) ∧
    (∀ n : Fin 4, s.pst n.val = 5 → s.get Reg.LPn_STAT_HELD_WHY [n.val] = 10 → 8 ≤ (s.port n.val).nbrSynced →
      exec (.holdOutEnd n) s = .next (s.upFrom n.val 7)) ∧
    (s.inaug.last.yielded = true → s.following = true → s.cpuUp 0 = true → exec .yield s = .next s.doYield) ∧
    (∀ d, s.inaug.newDir = some d → s.phase = 4 → s.synth.newSched.isSome = true → d.adopt ≤ s.clock.turn →
      (s.lstate = 6 ∨ (s.inaug.last.mismatch = false ∧ s.inaug.last.notReady = false ∧ s.inaug.last.stopReq = false)) →
      s.rulesAgreed (d.nodes.map fun x => x.entry) = false →
      exec .adoption s = .next s.adoptLine.flushLine.releaseHeld.gwRestart)

/-- R245: a node that yields leaves the line: it listens, has no phase, no position, no directory and no schedule, and holds its cold start
for 64 turns; the line salt is gone. So it states where this command completes: yield. -/
def Obligations.YieldLeavesTheLine : Prop :=
  ∀ s : State, s.Canon → s.alive = true → s.inaug.last.yielded = true → s.following = true → s.cpuUp 0 = true →
    ∃ t, exec .yield s = .next t ∧ t.lstate = 1 ∧ t.phase = 5 ∧ t.start.hold = 64 ∧ t.on Reg.LSTART_STAT_HOLD = true ∧
      t.get Reg.INAUG_POS_POSITION = 0 ∧ t.inaug.dir = none ∧ t.synth.sched = none ∧ t.keys.salt = none

/-! Synthesis and the spare pool (11) -/

/-- Schedule synthesis and the spare pool (R280, R281, R285 to R289): a table's first fragment is kept, and one that is the whole table with
its digest is stored; synthesis starts with a new directory and every table, and stores a schedule and its duration; the own claim is on the
line and shows; a lone claim of another node within the pool is granted its lowest slots from the turn after next; grants show when they
come into force; and a reset of the pool empties it, leaves the claims of the turn, and is counted. So it states where each of these
commands completes: tableFragmentReceive, synthesisStart, synthesisComplete, spareClaim, claimResolve, spareGrantEffect, poolReset. -/
def Obligations.SynthesisCommands : Prop :=
  ∀ s : State, s.Canon → s.alive = true →
    (∀ body data : List Byte, beAt body 16 2 = 0 → beAt body 18 2 ≤ 2048 → data = (body.drop 24).take (beAt body 18 2) →
      (s.tableOf (beAt body 0 16)).isSome = false → (s.synth.parts.find? fun x => x.1 == beAt body 0 16) = none →
      (data.length < beAt body 18 2 → exec (.tableFragmentReceive body) s = .next (s.modSynth fun y => { y with
        parts := (beAt body 0 16, beAt body 18 2, [(0, data)]) :: s.synth.parts.filter fun x => x.1 != beAt body 0 16 })) ∧
      (data.length = beAt body 18 2 → tableDigest data = beAt body 0 16 → exec (.tableFragmentReceive body) s =
        .next ((s.modSynth fun y => { y with parts := s.synth.parts.filter fun x => x.1 != beAt body 0 16 }).keepTable
          (parseTable data (beAt body 0 16))).showTables)) ∧
    (∀ d, s.phase = 4 → s.synth.running = false → s.synth.newSched = none → s.cpuUp 0 = true → s.inaug.newDir = some d →
      s.tablesLacking d = [] → exec .synthesisStart s = .next { s with synth := { s.synth with running := true } }) ∧
    (∀ d us, s.synth.running = true → s.cpuUp 0 = true → s.inaug.newDir = some d → s.lstate ≠ 6 →
      ∃ t, exec (.synthesisComplete us) s = .next t ∧ t.synth.running = false ∧ t.synth.newSched.isSome = true ∧
        t.get Reg.SYN_TIME_US = min us (2 ^ 32 - 1)) ∧
    (∀ r, s.ownClaim = some r → ∃ t, exec .spareClaim s = .next t ∧ r ∈ t.synth.claims ∧ t.get Reg.SYN_CLAIM_PENDING = 1 ∧
      t.get Reg.SYN_CLAIM_REQUEST = r.count % 2 ^ Reg.SYN_CLAIM_REQUEST.width ∧ { t with regs := s.regs, synth := s.synth } = s) ∧
    (∀ c r, s.synth.sched = some c → s.synth.prevClaims = [r] → s.synth.prevReset = false → s.synth.resetAt = [] →
      s.synth.grants = [] → r.uid ≠ s.lineUid →
      r.count ≤ c.sSyn - c.poolFirst →
      ∃ t g, exec .claimResolve s = .next t ∧ t.synth.prevClaims = [] ∧ t.synth.grants = [g] ∧ g.uid = r.uid ∧ g.effect = s.clock.turn + 2 ∧
        g.first = (List.range r.count).map fun i => c.poolFirst + i) ∧
    (∀ g, g ∈ s.synth.grants → g.effect = s.clock.turn → exec .spareGrantEffect s = .next s.showSched) ∧
    (∀ k own, s.synth.resetAt = [(k, own)] → k ≤ s.clock.turn → ∃ t, exec .poolReset s = .next t ∧ t.synth.grants = [] ∧
      t.synth.claims = s.synth.claims ∧ t.synth.prevClaims = s.synth.prevClaims ∧ t.synth.resetAt = [] ∧
      t.get Reg.SYN_POOL_CNT_RESETS = min (s.get Reg.SYN_POOL_CNT_RESETS + 1) (2 ^ Reg.SYN_POOL_CNT_RESETS.width - 1))

/-! Weirs (12) -/

/-- The weirs (R294, R307, Table 12-2): in its NIT, once in a turn, a weir corrects its own turn, and outside it does nothing; ACQUIRE
begins anew after 16 turns, and TRACK has no limit; a node with 8 own blocks of weir 0 is fenced at this turn in both weirs, and with fewer
of both is not; a fenced node's own frame other than HOP is dropped at a line port and counted. So it states where each of these commands
completes: weirNitAdjust, weirStateTimeout, nodeFenced. -/
def Obligations.WeirCommands : Prop :=
  ∀ s : State, s.Canon → s.alive = true →
    (∀ w : Fin 2, s.weirInNit w.val = true →
      exec (.weirNitAdjust w) s = .next ((s.modWeir w.val fun x => { x with nitDone := true }).weirNit w.val)) ∧
    (∀ w : Fin 2, s.weirInNit w.val = false → exec (.weirNitAdjust w) s = .next s) ∧
    (∀ w : Fin 2, s.wst w.val = 2 → 16 ≤ (s.weir w.val).turns → exec (.weirStateTimeout w) s = .next ((s.setWst w.val 2).seedWeir w.val)) ∧
    (∀ w : Fin 2, s.wst w.val = 3 → exec (.weirStateTimeout w) s = .next s) ∧
    (8 ≤ s.ownBlocks 0 → s.isFenced = false → ∃ t, exec .nodeFenced s = .next t ∧ t.isFenced = true ∧
      t.get Reg.WEIR_STAT_FENCED [0] = 1 ∧ t.get Reg.WEIR_STAT_FENCED [1] = 1 ∧ t.weirs.fencedAt = s.clock.turn) ∧
    (s.ownBlocks 0 < 8 → s.ownBlocks 1 < 8 → exec .nodeFenced s = .next s) ∧
    (∀ port phase f, s.isXlink port = false → s.isFenced = true → s.ownFrame (port % 2) false f = true → f.kind ≠ .hop →
      s.transmit port phase false false f =
        (s.inc Reg.WEIR_FENCE_CNT_DROPS).modWeirs fun y => { y with fenceDrops := y.fenceDrops + 1 })

/-! Millpond (14) and redundancy (13) -/

/-- The millpond (R322, R349 to R360): a single node builds its slot's frame from 1 µs before its first transmit time on, once; at its slot,
once in a turn, a built frame is kept, and goes out on the one neighbour port of a node that may send; the leader's frame of an own slot
that arrives by its deadline becomes the follower's; a publish fetch that is due for a turn reads FLIP and the buffer it names, and a done
one of an empty buffer writes ACK and leaves the millpond; an image is enabled where its tenant has the right and not without it, and at the
tick after its list was read that is resolved against the schedule. So it states where each of these commands completes: frameBuild,
staticSlotTransmit, staticHandoffReceive, publishFetch, publishFetchDone, tiEnable, subscriptionResolve. -/
def Obligations.MillpondCommands : Prop :=
  ∀ s : State, s.Canon → s.alive = true →
    (∀ slot, s.ticking = true → 4 ≤ slot → (s.ownSlots s.clock.turn).contains slot = true → s.buildsOwn = true → s.slotArmed slot = true →
      s.firstTx slot ≤ s.nowTenths + 10000 → (s.mill.built.any fun b => b.slot == slot) = false →
      s.paired = false → exec (.frameBuild slot) s = .next (((s.lateFetches slot).buildSlot slot false).handOff slot)) ∧
    (∀ slot corr b, (s.mill.built.find? fun b => b.slot == slot) = some b → s.slotArmed slot = true → s.todo (.slot slot) = true →
      s.stopped = true → exec (.staticSlotTransmit slot corr) s = .next ((s.did s.clock.turn (.slot slot)).storeOwn b)) ∧
    (∀ slot corr b u, (s.mill.built.find? fun b => b.slot == slot) = some b → s.slotArmed slot = true → s.todo (.slot slot) = true →
      s.stopped = false → s.inaug.joined = false → s.mayOriginate = true → s.degraded 1 = false →
      (∀ n : Fin 3, s.nbrPort n.val = false) → s.nbrPort 3 = true → (s.did s.clock.turn (.slot slot)).storeOwn b = u →
      exec (.staticSlotTransmit slot corr) s = .next (u.transmit 3
        ((tenths (u.schedT slot (u.txH 3)) : Int) + corr * 2 ^ 16).toNat false false (u.tagged 3 (u.builtFrame b corr)))) ∧
    (∀ (n : Fin 4) f ps c, f.payload = .parcels ps → s.isXlink n.val = true → s.pst n.val = 4 → s.isFollower = true →
      s.rxSound f c.stamp true = true → c.phase ≤ tenths (s.handoffBy f.hdr.slot) →
      f.hdr.sender = s.ownPos → (s.mill.built.any fun b => b.slot == f.hdr.slot) = false →
      exec (.staticHandoffReceive n f c) s = .next { s with
        mill := { s.mill with built := s.asFollower f ps :: s.mill.built }, red := { s.red with handed := f.hdr.slot :: s.red.handed } }) ∧
    (∀ (n : Fin 16) flip turn, s.fetchDue n.val = some turn → s.hostUp = true → s.on Reg.TI_CTL_PUB_EN [n.val] = true →
      s.on Reg.TN_RIGHTS_IMAGE [n.val] = true → s.bme n.val = true → (s.image n.val).fetch = none →
      ∃ t, exec (.publishFetch ⟨n.val, by omega⟩ flip) s = .next t ∧
        ((t.image n.val).fetch = some (flip % 2 ^ 32, turn)) ∧
        t.out = .hostRead n.val ((s.image n.val).pubBase + 64 + flip % 2 ^ 32 % 2 * (64 * (s.image n.val).pubSize)) (64 * (s.image n.val).pubSize) ::
          .hostRead n.val (s.image n.val).pubBase 4 :: s.out) ∧
    (∀ (n : Fin 17) data fl turn, (s.image n.val).fetch = some (fl, turn) → (s.image n.val).pubSize = 0 →
      ∃ t : State, exec (.publishFetchDone n data) s = .next (t.memWrite n.val ((s.image n.val).pubBase + 4) (leBytes 4 fl)) ∧
        (t.image n.val).fetch = none ∧ t.mill = s.mill) ∧
    (∀ (n : Fin 17) list, s.postsOpen n.val = true → s.on Reg.TI_CTL_EN [n.val] = false → s.on Reg.TN_RIGHTS_IMAGE [n.val] = true →
      ∃ t, exec (.tiEnable n list) s = .next t ∧ t.get Reg.TI_CTL_EN [n.val] = 1 ∧ t.get Reg.TI_STAT_ACTIVE [n.val] = 1 ∧
        (t.image n.val).resolve = some (s.clock.turn + 1)) ∧
    (∀ n : Fin 17, s.on Reg.TN_RIGHTS_IMAGE [n.val] = false → ∀ list, exec (.tiEnable n list) s = .next s) ∧
    (∀ (n : Fin 17) c k, s.synth.sched = some c → s.on Reg.TI_CTL_EN [n.val] = true → (s.image n.val).resolve = some k → k ≤ s.clock.turn →
      ∃ t, exec (.subscriptionResolve n) s = .next t ∧ (t.image n.val).resolve = none ∧ (t.image n.val).icount = s.icount)

/-- The pair (R321, R325 to R337), while CPU pair 0 runs: the pair-state message goes out when it is due; a follower takes the partner's
state and identity; a device in role NONE for 2 s leads with the next epoch from the car's defaults; the leader sends its snapshot; a
follower keeps an epoch's first chunk that verifies and counts one that does not, and commits a complete epoch of its own version that
verifies; a witness message about this node is kept; a noted takeover is carried out by a follower; and a leader that a later claim beat
becomes follower with that epoch, its far queue emptied. So it states where each of these commands completes: pairStateSend,
pairStateReceive, roleTimeout, epochSnapshot, epochChunkReceive, epochEndMarkerReceive, witnessReceive, takeover, leaderYield. -/
def Obligations.PairCommands : Prop :=
  ∀ s : State, s.Canon → s.alive = true → s.paired = true →
    (s.xlinks ≠ [] → s.pairStateDue = true → ∃ t, exec .pairStateSend s = .next t ∧ t.out = .pairState s.pairState :: s.out ∧
      t.red.psSent = some (s.clock.turn, s.clock.up) ∧ { t with out := s.out, red := s.red, inaug := s.inaug } = s) ∧
    (∀ p, s.xlinks ≠ [] → s.isFollower = true → ∃ u : State, exec (.pairStateReceive p [] [] []) s =
        .next (((u.partnerSays p (s.delay (s.xlinks.headD 0))).followPartner p (s.delay (s.xlinks.headD 0))).splitsFrom s).showEnds ∧
      u.red.partner = some p ∧ u.red.psNow = true ∧ u.get Reg.RED_PARTNER_LO_UID = p.uid % 2 ^ 32 ∧
      u.get Reg.RED_PARTNER_HI_UID = p.uid / 2 ^ 32 % 2 ^ 32) ∧
    (∀ k, s.red.noneSince = some k → s.get Reg.GLOBAL_STAT_ROLE = 3 → s.lstate ≠ 0 → s.cpuUp 0 = true →
      s.since k 2000000000 = true → exec .roleTimeout s = .next (s.carDefaults.lead (s.epoch + 1) s.clock.turn).settled) ∧
    (∀ e, s.red.snap = some e → s.isLeader = true → s.cpuUp 0 = true → s.red.swap = none →
      exec .epochSnapshot s = .next ((s.sendEpoch s.turn32 false e).modRed fun r => { r with snap := none })) ∧
    (∀ num index count data, s.isFollower = true → s.cpuUp 0 = true → s.red.shadow = none → index < count → count ≤ 160 →
      exec (.epochChunkReceive num index count (crc32c (beBytes 4 num ++ beBytes 2 index ++ beBytes 2 count ++ slice data 0 1024)) data) s =
        .next (s.modRed fun r => { r with shadow := some ⟨num, count, [(index, slice data 0 1024)]⟩ })) ∧
    (∀ num index count ccrc data, s.isFollower = true → s.cpuUp 0 = true →
      crc32c (beBytes 4 num ++ beBytes 2 index ++ beBytes 2 count ++ slice data 0 1024) ≠ ccrc →
      exec (.epochChunkReceive num index count ccrc data) s = .next (s.inc Reg.RED_EPOCH_CNT_CHUNK_ERR)) ∧
    (∀ h all dlen, s.isFollower = true → s.cpuUp 0 = true → s.red.shadow = some h → State.shadowData h = some all → s.red.committed = none →
      (Config.epochParse (all.take dlen)).version % 2 ^ 32 = s.get Reg.CFG_VER_ACTIVE_VER → s.red.swap = none →
      exec (.epochEndMarkerReceive h.enum h.count dlen (crc64 (all.take dlen)) false) s = .next (s.commitEpoch h.enum (all.take dlen))) ∧
    (∀ sender body, s.ownPos = beAt body 0 1 → bit (beAt body 2 1) 0 = false → bit (beAt body 2 1) 1 = false →
      ∃ t w, exec (.witnessReceive sender body) s = .next t ∧ t.red.witnesses = w :: s.red.witnesses ∧ w.subject = beAt body 0 1 ∧
        w.sender = sender ∧ { t with red := s.red } = s) ∧
    (∀ k code, s.red.takeover = some (k, code) → k < s.clock.turn → s.isFollower = true → s.cpuUp 0 = true → exec .takeover s = .next (s.takeOver code)) ∧
    (∀ k e, s.red.claim = some (k, e) → s.isLeader = true → s.cpuUp 0 = true → k < s.clock.turn →
      ∃ u : State, exec .leaderYield s = .next (((u.roleWork true).inc Reg.RED_TAKE_CNT_YIELDS).recordS 0x3805 4 1 s.epoch e) ∧
        u.get Reg.GLOBAL_STAT_ROLE = 2 ∧ u.get Reg.RED_STAT_EPOCH = e % 65536 ∧ u.far.tqueue = [])

/-- A commanded role swap (R340, R341, Tables 13-11 and 13-12), while CPU pair 0 runs: a follower joins a swap for a coming turn; at that
turn the leader's snapshot is done and its CAN buffers are aborted; without a commit 200 µs later the follower's swap ends with NO_RESOURCE
and record 0x3807; a done swap exchanges the roles with the next epoch, counted and recorded. So it states where each of these commands
completes: swapMessageReceive, swapEpochSnapshot, swapCommitDeadline, swapRoleExchange. -/
def Obligations.SwapCommands : Prop :=
  ∀ s : State, s.Canon → s.alive = true → s.cpuUp 0 = true →
    (∀ w, s.paired = true → s.isFollower = true → s.red.swap = none → s.clock.turn < w →
      ∃ t, exec (.swapMessageReceive w) s = .next t ∧ t.get Reg.RED_STAT_SWAP_PENDING = 1 ∧
        t.red.swap = some ⟨w, s.isLeader, none, false, false⟩ ∧ { t with regs := s.regs, red := s.red } = s) ∧
    (∀ x, s.red.swap = some x → x.leader = true → x.w = s.clock.turn → x.aborted = false → x.done = false →
      ∃ u, exec .swapEpochSnapshot s = .next ((List.range 8).foldl (fun s n => s.canPark n) u) ∧
        u.red.swap = some { x with done := true } ∧ u.red.snap = none) ∧
    (∀ x, s.red.swap = some x → x.w = s.clock.turn → 200000 ≤ s.phaseNs → x.aborted = false → x.leader = false → x.done = false →
      exec (.swapCommitDeadline false) s = .next (((s.endSwap x 7 0).recordS 0x3807 3 1 (x.w % 2 ^ 32)
        ((s.red.shadow.map fun h => h.chunks.length).getD 0)).swapJobs)) ∧
    (∀ x, s.red.swap = some x → x.w < s.clock.turn → x.done = true →
      ∃ u : State, exec .swapRoleExchange s = .next ((((u.roleWork x.leader).inc Reg.RED_TAKE_CNT_SWAPS).recordS 0x3806 1 1 (x.w % 2 ^ 32)
          ((s.epoch + 1) % 65536)).endSwap x 0 x.w) ∧
        u.get Reg.GLOBAL_STAT_ROLE = (if x.leader then 2 else 1) ∧ u.get Reg.RED_STAT_EPOCH = (s.epoch + 1) % 65536)

/-! Host queues (15) -/

/-- Rings (R379, R380, R387, R388, R390 to R392): a queue of 64 to 4,096 entries that its tenant may have is enabled empty with phase 1, and
one it may not have is an error of its setup; a queue is disabled with its work discarded, and stops; a doorbell within the ring moves the
tail, and one of a disabled queue is an error that leaves it, where posted writes are taken; a pending descriptor is fetched when it is its
queue's turn and a place and a read tag are free, and counts a stall of the pool or of read requests while one is not; and moderation
signals when its time is up. So it states where each of these commands completes: queueEnable, queueDisable, queueStopped, doorbell,
descriptorFetch, moderationTimer. -/
def Obligations.QueueCommands : Prop :=
  ∀ (s : State) (n : Fin 17) (q : Fin 16), s.Canon → s.alive = true →
    (s.postsOpen n.val = true → s.on Reg.HQq_CTL_EN [n.val, q.val] = false → q.val < s.get Reg.TN_RIGHTS_QMAX [n.val] →
      6 ≤ s.get Reg.HQq_CTL_SIZE [n.val, q.val] → s.get Reg.HQq_CTL_SIZE [n.val, q.val] ≤ 12 → n.val ≠ 16 →
      ∃ t, exec (.queueEnable n q) s = .next t ∧ t.get Reg.HQq_CTL_EN [n.val, q.val] = 1 ∧ t.get Reg.HQq_STAT_RUN [n.val, q.val] = 1 ∧
        t.get Reg.HQq_STAT_HEAD [n.val, q.val] = 0 ∧ t.get Reg.HQq_TAIL_TAIL [n.val, q.val] = 0 ∧
        t.get Reg.HQq_STAT_PHASE [n.val, q.val] = 1 ∧ (t.queue n.val q.val).works = [] ∧ (t.queue n.val q.val).next = 0) ∧
    (s.postsOpen n.val = true → s.on Reg.HQq_CTL_EN [n.val, q.val] = false → s.get Reg.TN_RIGHTS_QMAX [n.val] ≤ q.val →
      exec (.queueEnable n q) s = .next (s.tnErr n.val Reg.TN_ERR_QSETUP)) ∧
    (s.postsOpen n.val = true → s.on Reg.HQq_CTL_EN [n.val, q.val] = true → exec (.queueDisable n q) s =
      .next ((((s.set Reg.HQq_STAT_ERR [n.val, q.val] 0).set Reg.HQq_CTL_EN [n.val, q.val] 0).discardQueue n.val q.val).showQen n.val)) ∧
    (s.on Reg.HQq_CTL_EN [n.val, q.val] = false → exec (.queueStopped n q) s = .next (s.set Reg.HQq_STAT_RUN [n.val, q.val] 0)) ∧
    (∀ w : Word, s.postsOpen n.val = true → w.toNat / 2 ^ 24 = 0 → w.toNat / 2 ^ 16 % 256 = q.val → s.on Reg.HQq_CTL_EN [n.val, q.val] = true →
      w.toNat % 65536 < 2 ^ (s.queue n.val q.val).size →
      exec (.doorbell n w) s = .next (s.set Reg.HQq_TAIL_TAIL [n.val, q.val] (w.toNat % 65536))) ∧
    (∀ w : Word, s.postsOpen n.val = true → w.toNat / 2 ^ 24 = 0 → w.toNat / 2 ^ 16 % 256 = q.val → s.on Reg.HQq_CTL_EN [n.val, q.val] = false →
      ∃ t, exec (.doorbell n w) s = .next t ∧ t.get Reg.TN_ERR_DB_OFF [n.val] ≠ 0 ∧
        t.get Reg.HQq_TAIL_TAIL [n.val, q.val] = s.get Reg.HQq_TAIL_TAIL [n.val, q.val]) ∧
    (∀ given, s.wantsFetch n.val q.val = true → s.hasFlight n.val q.val = true → s.fetchNext = some (n.val, q.val) →
      exec (.descriptorFetch n q true given) s = .next (s.fetchDesc n.val q.val given)) ∧
    (∀ given, s.wantsFetch n.val q.val = true → s.hasFlight n.val q.val = true → s.fetchNext = some (n.val, q.val) → n.val ≠ 16 →
      exec (.descriptorFetch n q false given) s = .next ((s.passTurn n.val q.val).inc Reg.HOST_STALL_RDREQ)) ∧
    (∀ tag given, s.wantsFetch n.val q.val = true → s.hasFlight n.val q.val = false →
      exec (.descriptorFetch n q tag given) s = .next (s.inc Reg.HOST_STALL_POOL)) ∧
    ((s.queue n.val q.val).count ≠ 0 → (s.queue n.val q.val).irq = true → s.get Reg.HQq_MOD_TIME [n.val, q.val] ≠ 0 →
      s.since (s.queue n.val q.val).since (s.get Reg.HQq_MOD_TIME [n.val, q.val] * 1000) = true →
      exec (.moderationTimer n q) s = .next ((s.modQueue n.val q.val fun y => { y with count := 0 }).signal n.val q.val
        (s.queue n.val q.val).vec))

/-- R382: completions are written in ring order. While the oldest descriptor of a queue is open, a NOP behind it that may start is decided
with its argument, and nothing is written to host memory or the window. -/
def Obligations.CompletionsInRingOrder : Prop :=
  ∀ (s : State) (n : Fin 17) (q : Fin 16) (i : Nat) (d : Desc) (v : Work) (l : List Work), s.alive = true →
    (s.queue n.val q.val).works = v :: l → v.result = none → v.idx ≠ i → s.ready n.val q.val i 0x00 = some d →
    ∃ t, exec (.nop n q i) s = .next t ∧ t.out = s.out ∧ t.host.window = s.host.window ∧
      (t.queue n.val q.val).works = v :: l.map fun w => if w.idx = i ∧ w.result = none then
        { w with started := true, result := some (0, 0, 0, d.arg0) } else w

/-- R395: a NOP that may start completes with OK, RLEN 0 and RVAL equal to ARG0. A NOP with FENCE set completes only after everything posted
before it on the queue: while an earlier descriptor is on the queue it changes nothing. So it states where this command completes: nop. -/
def Obligations.NopCompletes : Prop :=
  ∀ (s : State) (n : Fin 17) (q : Fin 16) (i : Nat), s.alive = true →
    (∀ d, s.ready n.val q.val i 0x00 = some d → exec (.nop n q i) s = .next (s.complete n.val q.val i 0 0 d.arg0)) ∧
    (∀ w v l, ((s.queue n.val q.val).works.find? fun x => x.idx == i) = some w → bit w.desc.flags 0 = true →
      (s.queue n.val q.val).works = v :: l → v.idx ≠ i → exec (.nop n q i) s = .next s)

/-- Descriptors that may start (R394, R398 to R406, R266, R283, R267, R340): LINE_SEND while the line stands, and with another ICOUNT than
asked for, is answered so, and otherwise its frame is numbered and queued towards a node of the line, or completes where no port is due;
LINE_RECV_POST and CONSIST_RECV_POST take their buffers; CONSIST_SEND, its buffer read, fails its check with a bad port, is DENIED without
CT_CTL.EN, and else is bridged, or sent on its port and answered DISCARDED where that is down (the arrival time the bridge gives a host's
frame is the model's free value, log 5); CAN_SEND queues a classical frame or finds the controller closed; DIRECTORY_READ answers the
directory or the unsatisfied list; INAUG_REQUEST raises a trigger and waits; ROLE_SWAP is DENIED, or begins a swap two turns on. So it
states where each of these commands completes: lineSend, lineRecvPost, consistSend, consistRecvPost, canSend, directoryRead,
unsatisfiedRead, inaugRequest, roleSwap. -/
def Obligations.LineDescriptors : Prop :=
  ∀ (s : State) (n : Fin 17) (q : Fin 16) (i : Nat) (d : Desc), s.alive = true →
    (∀ data, s.ready n.val q.val i 0x01 = some d → s.lineArgs n.val d = none → s.standing = true →
      exec (.lineSend n q i data) s = .next (s.complete n.val q.val i 9 0 s.icount)) ∧
    (∀ data, s.ready n.val q.val i 0x01 = some d → s.lineArgs n.val d = none → s.standing = false → s.ownPos ≠ 0 →
      d.arg1 % 2 ^ 32 ≠ 0 → d.arg1 % 2 ^ 32 ≠ s.icount → exec (.lineSend n q i data) s = .next (s.complete n.val q.val i 2 0 s.icount)) ∧
    (∀ data x f u, s.ready n.val q.val i 0x01 = some d → s.lineArgs n.val d = none → s.standing = false → s.ownPos ≠ 0 →
      d.arg1 % 2 ^ 32 = 0 → d.arg0 % 256 ≠ 255 → s.nodeOfCar (d.arg0 % 256) (d.arg0 / 256 % 256) = some x → d.arg0 / 2 ^ 32 % 4 = 1 →
      s.paired = false → x.pos ≠ s.ownPos → x.pos ≠ 0xFFFF → State.bufWaits n.val d data = false →
      ((s.takeBuf n.val d data).2.startWork n.val q.val i).makeDyn (d.arg0 / 2 ^ 48 % 512) x.pos 1 (d.arg0 / 2 ^ 16 % 65536)
        (d.arg0 / 2 ^ 36 % 8) (s.takeBuf n.val d data).1 (s.lifeOf (d.arg0 / 2 ^ 48 % 512)) = (f, u) →
      exec (.lineSend n q i data) s = .next (if (u.duePorts x.pos).isEmpty then u.complete n.val q.val i 0 d.len f.hdr.seqGen
        else u.queueOwn f x.pos (some (n.val, q.val, i)))) ∧
    (s.ready n.val q.val i 0x02 = some d → State.inWin n.val d.buf d.len = true →
      exec (.lineRecvPost n q i) s = .next ((s.startWork n.val q.val i).fillBuffers n.val q.val 64)) ∧
    (∀ data, s.ready n.val q.val i 0x03 = some d → 12 ≤ d.arg0 % 16 → d.arg0 % 16 ≤ 14 → State.bufWaits n.val d data = false →
      exec (.consistSend n q i data) s = .next (s.failCheck n.val q.val i 6)) ∧
    (∀ data, s.ready n.val q.val i 0x03 = some d → d.arg0 % 16 < 12 → d.len = 100 → State.inWin n.val d.buf d.len = true →
      State.bufWaits n.val d data = false → s.on Reg.CT_CTL_EN [n.val] = false →
      exec (.consistSend n q i data) s = .next ((s.takeBuf n.val d data).2.complete n.val q.val i 5 0 0)) ∧
    (∀ data f v, s.ready n.val q.val i 0x03 = some d → d.arg0 % 16 = 15 → d.len = 100 → State.inWin n.val d.buf d.len = true →
      State.bufWaits n.val d data = false → s.on Reg.CT_CTL_EN [n.val] = true → ethTagged (s.takeBuf n.val d data).1 = f → f.tagged = false →
      s.vlanOf (s.get Reg.CT_CTL_VID [n.val]) = some v →
      ∃ (time : Nat) (u : State), exec (.consistSend n q i data) s = .next ((u.bridge (.host n.val) 15 v (s.get Reg.CT_CTL_VID [n.val])
          (d.arg0 / 16 % 8) time f).complete n.val q.val i 0 0 0) ∧
        u = { ((s.takeBuf n.val d data).2.startWork n.val q.val i) with free := s.free + 1 }) ∧
    (∀ data f v, s.ready n.val q.val i 0x03 = some d → d.arg0 % 16 < 12 → d.len = 100 → State.inWin n.val d.buf d.len = true →
      State.bufWaits n.val d data = false → s.on Reg.CT_CTL_EN [n.val] = true → ethTagged (s.takeBuf n.val d data).1 = f → f.tagged = false →
      s.vlanOf (s.get Reg.CT_CTL_VID [n.val]) = some v → s.member v (d.arg0 % 16) = true →
      s.cpUp (d.arg0 % 16) = true →
      exec (.consistSend n q i data) s = .next (((s.takeBuf n.val d data).2.startWork n.val q.val i).cpSend none (some (n.val, q.val, i))
        (d.arg0 % 16) v (s.get Reg.CT_CTL_VID [n.val]) (d.arg0 / 16 % 8) f)) ∧
    (∀ data f v, s.ready n.val q.val i 0x03 = some d → d.arg0 % 16 < 12 → d.len = 100 → State.inWin n.val d.buf d.len = true →
      State.bufWaits n.val d data = false → s.on Reg.CT_CTL_EN [n.val] = true → ethTagged (s.takeBuf n.val d data).1 = f → f.tagged = false →
      s.vlanOf (s.get Reg.CT_CTL_VID [n.val]) = some v → s.member v (d.arg0 % 16) = true → s.cpUp (d.arg0 % 16) = false →
      exec (.consistSend n q i data) s = .next ((((s.takeBuf n.val d data).2.startWork n.val q.val i).cpSend none (some (n.val, q.val, i))
        (d.arg0 % 16) v (s.get Reg.CT_CTL_VID [n.val]) (d.arg0 / 16 % 8) f).complete n.val q.val i 1 0 0)) ∧
    (s.ready n.val q.val i 0x04 = some d → 64 ≤ d.len → State.inWin n.val d.buf d.len = true →
      exec (.consistRecvPost n q i) s = .next ((s.startWork n.val q.val i).fillConsist n.val q.val 64)) ∧
    (∀ data f, s.ready n.val q.val i 0x05 = some d → State.inWin n.val d.buf d.len = true → State.bufWaits n.val d data = false →
      parseCan (s.memIn n.val d.buf d.len data) d.len = some f → f.fdf = false → s.govern (d.arg0 % 8) = d.arg0 % 8 → s.paired = false →
      ∃ u : State, exec (.canSend n q i data) s = .next (if u.canClosed (d.arg0 % 8) then u.complete n.val q.val i 1 0 0
        else u.canQueue (d.arg0 % 8) n.val q.val i f) ∧ u.regs = s.regs ∧ u.can = s.can) ∧
    (s.ready n.val q.val i 0x40 = some d → d.arg0 = 0 → d.arg1 = 0 → State.inWin n.val d.buf d.len = true →
      exec (.directoryRead n q i) s = .next (s.answer n.val q.val i d s.directoryBytes)) ∧
    (s.ready n.val q.val i 0x40 = some d → d.arg0 = 1 → d.arg1 = 0 → State.inWin n.val d.buf d.len = true →
      exec (.unsatisfiedRead n q i) s = .next (s.answer n.val q.val i d s.unsatBytes)) ∧
    (s.ready n.val q.val i 0x41 = some d → ∃ u : State, exec (.inaugRequest n q i) s = .next (u.releaseFallback.raise 4 0xFF) ∧
      u.inaug.requests = s.inaug.requests ++ [(n.val, q.val, i)] ∧ u.regs = s.regs) ∧
    (s.ready n.val q.val i 0x50 = some d → s.swapDenied = true →
      exec (.roleSwap n q i) s = .next (s.complete n.val q.val i 5 0 0)) ∧
    (s.ready n.val q.val i 0x50 = some d → s.swapDenied = false →
      exec (.roleSwap n q i) s = .next (((s.startWork n.val q.val i).beginSwap (s.clock.turn + 2) (some (n.val, q.val, i))).sendSwap
        (s.clock.turn + 2)))

/-! PCIe and QSPI (15) -/

/-- PCIe (R46, R105, R107, R109, R371; Table 15-15): configuration requests are answered with retry status until hosts are served and with
success then; PERST_N low shows and takes the port down, and high shows; a link comes up with its rate and width and its PF present; a link
that goes down takes its port down, and a hot reset resets its PF; an error on a running ring stops it; a function is reset; and bus
mastering off shows and changes nothing but registers. So it states where each of these commands completes: pcieConfigRequest, perstAssert,
perstRelease, pcieLinkUp, pcieLinkDown, pcieError, functionLevelReset, busMasterEnableChange. -/
def Obligations.PcieCommands : Prop :=
  ∀ s : State, s.Canon → s.alive = true →
    (∀ (p : Fin 2) v, s.domainOn 9 = true → s.on Reg.HOST_PORT_LINK_UP [p.val] = true → s.hostsServed = false →
      exec (.pcieConfigRequest p v) s = .next { s with out := .cfgReply p.val none :: s.out }) ∧
    (∀ (p : Fin 2), s.domainOn 9 = true → s.on Reg.HOST_PORT_LINK_UP [p.val] = true → s.hostsServed = true →
      exec (.pcieConfigRequest p none) s = .next { s with out := .cfgReply p.val (some (s.vfsShown p.val)) :: s.out }) ∧
    (∀ (p : Fin 2), s.pins.perst.length = 2 → s.pins.perst.getD p.val false = true →
      ∃ u : State, exec (.perstAssert p) s = .next (u.portDown p.val 1) ∧ u.pins.perst.getD p.val true = false ∧
        u.get Reg.HOST_PORT_PERST [p.val] = 0 ∧ { u with regs := s.regs, pins := s.pins } = s) ∧
    (∀ (p : Fin 2), s.pins.perst.length = 2 → ∃ t, exec (.perstRelease p) s = .next t ∧ t.pins.perst.getD p.val false = true ∧
      t.get Reg.HOST_PORT_PERST [p.val] = 1 ∧ { t with regs := s.regs, pins := s.pins } = s) ∧
    (∀ (p : Fin 2) (r : Fin 5) (w : Fin 3), s.domainOn 9 = true → s.pins.perst.getD p.val false = true →
      s.on Reg.HOST_PORT_LINK_UP [p.val] = false → s.get Reg.BOOT_STAT_STAGE ≠ 0xE → r.val ≠ 0 → w.val ≠ 0 →
      ∃ t, exec (.pcieLinkUp p r w) s = .next t ∧ t.get Reg.HOST_PORT_LINK_UP [p.val] = 1 ∧ t.get Reg.HOST_PORT_SPEED [p.val] = r.val ∧
        t.get Reg.HOST_PORT_WIDTH [p.val] = w.val ∧ t.get Reg.TN_STAT_PRESENT [8 * p.val] = 1 ∧
        { t with regs := s.regs, tally := s.tally, clock := s.clock, out := s.out } = s) ∧
    (∀ p : Fin 2, s.on Reg.HOST_PORT_LINK_UP [p.val] = true → exec (.pcieLinkDown p false) s = .next (s.portDown p.val 2)) ∧
    (∀ p : Fin 2, s.on Reg.HOST_PORT_LINK_UP [p.val] = true →
      exec (.pcieLinkDown p true) s = .next ((s.setVfs p.val 0 2).tenantReset (8 * p.val) 2)) ∧
    (∀ (n : Fin 16) (q : Fin 16) k, s.running n.val q.val = true →
      exec (.pcieError ⟨n.val, by omega⟩ (some q) k) s = .next (s.queueError n.val q.val k.val)) ∧
    (∀ (n : Fin 16), s.on Reg.TN_STAT_PRESENT [n.val] = true →
      exec (.functionLevelReset ⟨n.val, by omega⟩ false) s = .next (s.flr n.val 0)) ∧
    (∀ (n : Fin 16), s.on Reg.TN_STAT_PRESENT [n.val] = true →
      ∃ t, exec (.busMasterEnableChange ⟨n.val, by omega⟩ false) s = .next t ∧ t.get Reg.TN_STAT_BME [n.val] = 0 ∧
        { t with regs := s.regs } = s)

/-- The QSPI commands (R408, R411, Table 15-14): the status byte of a node that does not serve hosts yet; READ_WIN shifts out the window;
WRITE_WIN writes it once hosts are served and has no effect before; TENANT_RESET with the key empties the window, and with another is an
error; an unknown command sets TN_ERR.QSPI. So it states where each of these commands completes: readStatus, readWin, writeWin, tenantReset,
qspiInvalidCommand. -/
def Obligations.QspiCommands : Prop :=
  ∀ s : State, s.Canon → s.alive = true → s.domainOn 9 = true →
    (s.hostsServed = false → s.qspiInt = false → s.tnErrWord 16 = 0 →
      exec .readStatus s = .next { s with out := .qspi [0] :: s.out }) ∧
    (∀ addr n, exec (.readWin addr n) s = .next { s with out := .qspi (s.winRead addr.val n) :: s.out }) ∧
    (∀ addr data, s.hostsServed = true → exec (.writeWin addr data) s =
      .next { s with host := { s.host with window := State.winPut s.host.window addr.val data } }) ∧
    (∀ addr data, s.hostsServed = false → exec (.writeWin addr data) s = .next s) ∧
    (∃ t, exec (.tenantReset 0xA5) s = .next t ∧ t.host.window = []) ∧
    (∀ k : Byte, k ≠ 0xA5 → exec (.tenantReset k) s = .next (s.tnErr 16 Reg.TN_ERR_QSPI)) ∧
    (∃ t, exec .qspiInvalidCommand s = .next t ∧ t.get Reg.TN_ERR_QSPI [16] ≠ 0)

/-- R408: what WRITE_WIN writes, READ_WIN reads: from the offset written, wrapping at the window's end, and every byte outside what was
written reads as before. -/
def Obligations.WindowReadsWhatWasWritten : Prop :=
  ∀ (s : State) (addr : Nat) (data : List Byte), s.Canon → addr < winSize → data.length ≤ winSize →
    (s.winWrite addr data).winRead addr data.length = data ∧
    (∀ a, a < winSize → (∀ k, k < data.length → a ≠ (addr + k) % winSize) → (s.winWrite addr data).winRead a 1 = s.winRead a 1) ∧
    Memory.wf (s.winWrite addr data).host.window = true ∧ { s.winWrite addr data with host := s.host } = s

/-! Far access (16) -/

/-- Far access (R419, R422 to R446): bad arguments fail their check and a standing line is answered LINE_STOPPED; FAR_READ and FAR_WRITE
without prefetched data, a write's data read, become their transfers; transfers start, and end with TIMEOUT and record 0x3B01 at their
deadline; a request of another node joins a queue with a place, and is served from its front; a response is taken; data prefetched two turns
ago are discarded; an export is written by its window's owner alone, where posted writes are taken; an aperture read without a target
answers all ones and an error entry, an aperture write goes on to its target, an aperture read times out after 8 ms; and the error FIFO
gives its oldest entry and loses it. So it states where each of these commands completes: farRead, farWrite, farTransferStart,
farRequestReceive, farResponseReceive, farTransferTimeout, farRequestServe, prefetchExpiry, exportRegion, apertureRead, apertureWrite,
apertureReadTimeout, apertureErrorPop. -/
def Obligations.FarCommands : Prop :=
  ∀ s : State, s.Canon → s.alive = true → s.farUp = true →
    (∀ (n : Fin 17) (q : Fin 16) i d, s.ready n.val q.val i 0x10 = some d → State.farArgs n.val d = false →
      exec (.farRead n q i) s = .next (s.failCheck n.val q.val i 6)) ∧
    (∀ (n : Fin 17) (q : Fin 16) i d, s.ready n.val q.val i 0x10 = some d → State.farArgs n.val d = true → s.standing = true →
      exec (.farRead n q i) s = .next (s.complete n.val q.val i 9 0 s.icount)) ∧
    (∀ (n : Fin 17) (q : Fin 16) i d x, s.ready n.val q.val i 0x10 = some d → State.farArgs n.val d = true → s.standing = false →
      s.inaug.dir.isSome = true → s.farTarget (bit d.arg1 63) d.arg0 = some x → s.pfFind x.entry.luid (d.arg1 / 2 ^ 32 % 65536) = none →
      ∃ t l, exec (.farRead n q i) s = .next t ∧ t.far.transfers = s.far.transfers ++ l ∧
        l = State.splitFar ⟨.desc n.val q.val i, 0, false, none, x.pos, x.entry.luid, d.arg1 / 2 ^ 32 % 65536, d.arg1 % 2 ^ 32, 0, 0, 0, [],
          false, false, none, none⟩ d.len 0 (if s.farSequential x.entry.luid (d.arg1 / 2 ^ 32 % 65536) (d.arg1 % 2 ^ 32) then
            s.get Reg.FAR_CTL_PF_MAX else 0)) ∧
    (∀ (n : Fin 17) (q : Fin 16) i data d x, s.ready n.val q.val i 0x11 = some d → State.farArgs n.val d = true → s.standing = false →
      s.inaug.dir.isSome = true → s.farTarget (bit d.arg1 63) d.arg0 = some x → (∀ e ∈ s.far.prefetch, e.valid = false) →
      State.bufWaits n.val d data = false →
      ∃ t l, exec (.farWrite n q i data) s = .next t ∧ t.far.transfers = s.far.transfers ++ l ∧
        l = State.splitFar ⟨.desc n.val q.val i, 0, true, none, x.pos, x.entry.luid, d.arg1 / 2 ^ 32 % 65536, d.arg1 % 2 ^ 32, 0, 0, 0,
          (s.takeBuf n.val d data).1, false, false, none, none⟩ d.len 0 0) ∧
    (∀ k, s.standing = false → s.ownPos ≠ 0 → exec (.farTransferStart k) s = .next (s.farStart k)) ∧
    (∀ sender body, s.paired = false → s.standing = false → s.far.tqueue.length < 256 →
      ∃ (t : State) (r : FarReq), exec (.farRequestReceive sender body) s = .next t ∧ t.far.tqueue = s.far.tqueue ++ [r] ∧ r.pos = sender ∧ r.localReq = false) ∧
    (∀ sender body, exec (.farResponseReceive sender body) s = .next (s.farResponse sender (parseFar body))) ∧
    (∀ k x q, s.far.transfers[k]? = some x → x.sent = some q → x.done = none → s.farDeadline x q ≤ s.clock.turn →
      ∃ u : State, exec (.farTransferTimeout k) s = .next (u.farEnd x 0x10 0 0 0xFF []) ∧
        u = (s.inc Reg.FAR_CNT_B_TIMEOUTS).recordS 0x3B01 2 11 (x.target % 64 + 2 ^ 16 * x.func) x.off) ∧
    (∀ r rest ok given, s.far.tqueue = r :: rest → s.standing = false → s.paired = false → s.farWaits r ok given = false →
      ∃ u : State, exec (.farRequestServe ok given) s = .next (u.farServe r ok given) ∧ u.far.tqueue = rest ∧
        u.get Reg.FAR_STAT_TQUEUE = rest.length % 2 ^ Reg.FAR_STAT_TQUEUE.width) ∧
    (∀ (i : Fin 16) e, s.far.prefetch[i.val]? = some e → e.valid = true → e.turn + 2 ≤ s.clock.turn →
      exec (.prefetchExpiry i) s = .next (s.pfDiscard i.val)) ∧
    (∀ (n : Fin 17) (w : Fin 16) v, s.postsOpen n.val = true → s.get Reg.FWw_MAP_OWNER [w.val] = n.val →
      exec (.exportRegion n w v) s = .next ((s.set Reg.FXw_LO_ADDR [n.val, w.val] (v.toNat / 2 ^ 12)).set Reg.FXw_LO_EN [n.val, w.val] (v.toNat % 2))) ∧
    (∀ (n : Fin 17) (w : Fin 16) v, s.get Reg.FWw_MAP_OWNER [w.val] ≠ n.val → exec (.exportRegion n w v) s = .next s) ∧
    (∀ (p : Fin 2) off (len : Fin 513) fs, s.apOn p.val = true → len.val ≠ 0 → s.apTarget p.val (off % 2 ^ 26) = (fs, none) →
      exec (.apertureRead p off len) s = .next ((s.emit (.barRead p.val (List.replicate len.val 0xFF))).apError p.val (off % 2 ^ 26) 0 fs 0)) ∧
    (∀ (p : Fin 2) off data whole, s.apOn p.val = true →
      exec (.apertureWrite p off data whole) s = .next (s.apWriteTlp p.val (off % 2 ^ 26) data whole)) ∧
    (∀ k x p off born, s.far.transfers[k]? = some x → x.owner = .apRead p off born → s.since born 8000000 = true →
      exec (.apertureReadTimeout k) s = .next (s.farEnd x 0x10 0 0 0xFF [])) ∧
    (∀ (p : Fin 2) e l, p.val < s.far.apErr.length → s.far.apErr.getD p.val [] = e :: l →
      ∃ t v, exec (.apertureErrorPop p) s = .next t ∧ t.far.apErr.getD p.val [] = l ∧ v / 2 ^ 31 = 1 ∧ v % 256 = e.fstat % 256 ∧
        v / 2 ^ 8 % 65536 = e.pieces % 65536 ∧
        t.out = .read (.tenant (State.apPf p.val)) (Reg.FAR_AP_ERR_STAT_x_VALID.off [p.val]) (BitVec.ofNat 32 v) :: s.out) ∧
    (∀ p : Fin 2, s.far.apErr.getD p.val [] = [] → s.far.apLost.getD p.val false = false →
      ∃ t, exec (.apertureErrorPop p) s = .next t ∧
        t.out = .read (.tenant (State.apPf p.val)) (Reg.FAR_AP_ERR_STAT_x_VALID.off [p.val]) 0 :: s.out ∧ t.regs = s.regs)

/-! Consist network and telegrams (17, 24) -/

/-- The consist network and process data (R450 to R468): a frame with a bad FCS is counted, and a tagged frame of its port's VLAN is bridged
where nothing of its port waits and it is not the gPTP relay's, which takes its own; a port comes UP with its rate, and goes down counting
what waited for it or from it; an address not seen for its age is forgotten; a foreign beacon is recorded; an MDIO frame is issued, and a
read gives its data; a due telegram is published; a telegram that no subscriber takes is counted, and the only subscriber takes its own; a
subscriber times out once; an ARP request for the engine's address is answered (its priority is the model's free value, log 5); and after 60
s a report goes out for the one subscribed group, and none without. So it states where each of these commands completes:
consistFrameIngress, consistPortUp, consistPortDown, fdbAgeing, foreignBeacon, mdioFrame, mdioFrameDone, trdpPublish, trdpTelegramReceive,
trdpSubscriberTimeout, arpRequest, igmpReport. -/
def Obligations.ConsistCommands : Prop :=
  ∀ s : State, s.Canon → s.alive = true →
    (∀ n f time, s.cpUp n.val = true → f.fcsOk = false →
      exec (.consistFrameIngress n f time) s = .next (s.inc Reg.CPn_CNT_B_FCS [n.val])) ∧
    (∀ (n : Fin 12) f time v, s.cpUp n.val = true → f.fcsOk = true → f.tagged = true → f.vid ≠ 0 → s.vlanOf f.vid = some v →
      s.member v n.val = true → 64 ≤ f.len → f.len ≤ 1522 → (s.gptpOn n.val && f.etype == 0x88F7) = false → s.ingressBytes n.val = 0 →
      s.ingressBlocked n.val = false → exec (.consistFrameIngress n f time) s = .next (s.bridge (.con n.val) n.val v f.vid f.pcp time f)) ∧
    (∀ (n : Fin 12) f time, s.cpUp n.val = true → f.fcsOk = true → s.gptpOn n.val = true → f.etype = 0x88F7 →
      exec (.consistFrameIngress n f time) s = .next (s.gptpFrame n.val time f)) ∧
    (∀ (n : Fin 12) (r : Fin 5) plca, s.cpMay n.val = true → s.cpUp n.val = false → (s.cpRates n.val).contains r.val = true →
      ∃ t, exec (.consistPortUp n r plca) s = .next t ∧ t.cpUp n.val = true ∧ t.get Reg.CPn_STAT_RATE [n.val] = r.val ∧
        { t with regs := s.regs, tally := s.tally, clock := s.clock, out := s.out } = s) ∧
    (∀ (n : Fin 12), s.cpUp n.val = true → ∃ t, exec (.consistPortDown n) s = .next t ∧ t.cpUp n.val = false ∧
      t.get Reg.CPn_CNT_A_DOWN [n.val] = min (s.get Reg.CPn_CNT_A_DOWN [n.val] + ((s.con.egress ++ s.con.fabric).filter fun f => f.port == n.val).length +
        (s.con.ingress.filter fun x => x.1 == n.val).length) (2 ^ Reg.CPn_CNT_A_DOWN.width - 1)) ∧
    (∀ mac vid, s.get Reg.CON_CTL_AGE ≠ 0 → exec (.fdbAgeing mac vid) s = .next { s with con := { s.con with
      fdb := s.con.fdb.filter fun e => !(e.mac == mac && e.vid == vid && s.since e.seen (s.get Reg.CON_CTL_AGE * 1000000000)) } }) ∧
    (∀ n : Fin 12, n.val = 8 → s.cpUp n.val = true → s.on Reg.CPn_PLCA_EN [n.val] = true → s.get Reg.CPn_PLCA_NODE_ID [n.val] = 0 →
      exec (.foreignBeacon n) s = .next (s.recordS 0x3C05 3 8 n.val 0)) ∧
    (∀ c45 op phy reg, s.on Reg.MDIO_CMD_BUSY = false →
      ∃ t, exec (.mdioFrame c45 op phy reg) s = .next t ∧ t.get Reg.MDIO_CMD_BUSY = 1 ∧ t.con.mdio = some (c45, op.val, phy.val, reg.val) ∧
        t.out = .mdio c45 op.val phy.val reg.val (s.get Reg.MDIO_DATA_DATA) :: s.out ∧
        { t with regs := s.regs, con := s.con, out := s.out } = s) ∧
    (∀ data p r, s.con.mdio = some (true, 3, p, r) → ∃ t, exec (.mdioFrameDone data) s = .next t ∧ t.get Reg.MDIO_CMD_BUSY = 0 ∧
      t.con.mdio = none ∧ t.get Reg.MDIO_DATA_DATA = data.val) ∧
    (∀ i : Fin 1024, s.pdUp = true → s.drives = true → s.mapsDone = true → (s.tel i.val).age ≠ 0 →
      State.pdDue (s.tel i.val) s.clock.turn = true →
      exec (.trdpPublish i) s = .next (s.pdPublish i.val)) ∧
    (∀ src dst port vid d, s.pdUp = true → (∀ i, i < s.con.tels.length → s.pdAccepts (s.tel i) src dst port vid d = false) →
      exec (.trdpTelegramReceive src dst port vid d) s = .next (s.inc Reg.TRDP_CNT_REFUSED)) ∧
    (∀ src dst port vid d t, s.pdUp = true → s.con.tels = [t] → s.pdAccepts t src dst port vid d = true →
      exec (.trdpTelegramReceive src dst port vid d) s = .next { s with con := { s.con with tels := [{ t with
        data := d.drop 40, age := 0, run := 0, touted := false, fresh := true, last := Sparse.put src (beAt d 0 4) t.last }] } }) ∧
    (∀ i : Fin 1024, s.pdUp = true → (s.tel i.val).dir = 2 → (s.tel i.val).touted = false → (s.tel i.val).timeout ≤ (s.tel i.val).run →
      exec (.trdpSubscriberTimeout i) s = .next ((s.modTel i.val fun t => { t with
        touted := true, data := if t.zeroOnTout then List.replicate t.dlen 0 else t.data }).recordS 0x3C03 3 8 i.val (s.tel i.val).comId)) ∧
    (∀ mac ip, s.pdUp = true → s.drives = true → ∃ prio body, exec (.arpRequest mac ip (s.get Reg.TRDP_IP_ADDR)) s =
      .next (({ s with free := s.free + 1 }).pdSend (s.get Reg.TRDP_CTL_VID) prio mac 0x0806 body) ∧ prio < 8 ∧ body.length = 28 ∧
        beAt body 6 2 = 2 ∧ body.drop 8 = beBytes 6 s.pdMac ++ beBytes 4 (s.get Reg.TRDP_IP_ADDR) ++ beBytes 6 mac ++ beBytes 4 ip) ∧
    (s.pdUp = true → (s.con.igmpAt.all fun t => s.since t 60000000000) = true → s.con.tels = [] →
      exec .igmpReport s = .next (s.modCon fun c => { c with igmpAt := some s.clock.up })) ∧
    (∀ t, s.pdUp = true → (s.con.igmpAt.all fun t => s.since t 60000000000) = true → s.con.tels = [t] → t.dir = 2 → isGroupIp t.destIp = true →
      ∃ prio pkt, exec .igmpReport s = .next (({ (s.modCon fun c => { c with igmpAt := some s.clock.up }) with free := s.free + 3 } : State).pdSend
        (s.get Reg.TRDP_CTL_VID) prio (groupMac t.destIp) 0x0800 pkt))

/-! CAN (18) -/

/-- The CAN controllers (R478 to R506): an ACTIVE controller receives a frame; the winner of its pending buffers goes out at an idle bus,
and succeeds; windows open, and end with a miss; an error seen as receiver moves its counters; recovery ends in ACTIVE with counters 0, and
begins by command where it is not automatic; 32 acknowledge errors show ALONE; integration ends in ACTIVE; sleep and wake are commanded, and
a dominant level of 5 µs wakes an armed controller while one of 3 µs does not; a mirror expectation ends with its window; and NEW of a
TX_MATRIX buffer is written. So it states where each of these commands completes: canFrameReceive, canTxStart, canTxSuccess, canWindowOpen,
canWindowMiss, canBusError, canRecoveryDone, canRecoverCmd, canAlone, canBusIntegrated, canSleepCmd, canWakeCmd, canWakeDetect,
mirrorTwinExpiry, canBufferNewWrite. -/
def Obligations.CanCommands : Prop :=
  ∀ (s : State) (n : Fin 8), s.Canon → s.alive = true →
    (∀ f ns turn, s.cst n.val = 3 → f.fdf = false →
      exec (.canFrameReceive n f ns turn) s = .next
        ((((((s.canYield n.val).canAck n.val).canHeard n.val).canRecDown n.val).canReceive n.val f ns turn).canIdle n.val)) ∧
    (∀ b, s.canMayStart n.val = true → s.canMode n.val = 0 → s.canWinner n.val = some b →
      (s.canBuf (s.govern n.val) b).frame.fdf = false →
      ∃ t, exec (.canTxStart n) s = .next t ∧ t.out = .can n.val (s.canBuf (s.govern n.val) b).frame.sent :: s.out ∧
        (n.val < s.can.ctls.length → (t.ctl n.val).onBus = some b) ∧ t.regs = s.regs) ∧
    (∀ b ns turn, s.cst n.val = 3 → (s.ctl n.val).onBus = some b → exec (.canTxSuccess n ns turn) s = .next (s.canSuccess n.val b ns turn)) ∧
    (∀ c, s.govern n.val = n.val → exec (.canWindowOpen n c) s = .next (s.canOpen n.val c.val)) ∧
    (∀ (c : Fin 32) w, ((s.ctl n.val).wins.find? fun w => w.col == c.val) = some w → (∃ e, w.ends = some e ∧ e * 1000 ≤ s.phaseNs) →
      exec (.canWindowMiss n c) s = .next (s.canMiss n.val w)) ∧
    (∀ lec dp st, s.cst n.val = 3 → (s.ctl n.val).onBus = none → s.get Reg.CANn_ERR_TEC [n.val] ≤ 255 →
      exec (.canBusError n false lec dp st false) s = .next ((((s.canFlag n.val).set Reg.CANn_ERR_LEC [n.val] lec.val).flag Reg.CANn_ERR_DATA_PHASE [n.val] dp).canCounters
        n.val (s.get Reg.CANn_ERR_TEC [n.val]) (s.get Reg.CANn_ERR_REC [n.val] + st.val))) ∧
    (s.cst n.val = 4 → (s.ctl n.val).recovering = true → n.val < s.can.ctls.length →
      ∃ t, exec (.canRecoveryDone n) s = .next t ∧ t.cst n.val = 3 ∧ t.get Reg.CANn_ERR_TEC [n.val] = 0 ∧ t.get Reg.CANn_ERR_REC [n.val] = 0 ∧
        (t.ctl n.val).recovering = false) ∧
    (s.cst n.val = 4 → s.on Reg.CANn_CTL_AUTO_REC [s.govern n.val] = false → n.val < s.can.ctls.length →
      ∃ t, exec (.canRecoverCmd n) s = .next t ∧ (t.ctl n.val).recovering = true ∧ { t with can := s.can } = s) ∧
    (32 ≤ (s.ctl n.val).ackErrs → s.on Reg.CANn_STAT_ALONE [n.val] = false →
      ∃ t, exec (.canAlone n) s = .next t ∧ t.get Reg.CANn_STAT_ALONE [n.val] = 1 ∧
        t.on Reg.CANn_STAT_ALONE_HELD [n.val] = s.on Reg.CANn_CTL_ALONE_HOLD [s.govern n.val]) ∧
    (s.cst n.val = 2 → exec (.canBusIntegrated n) s = .next (s.set Reg.CANn_STAT_STATE [n.val] 3)) ∧
    (s.cst n.val = 3 → (s.ctl n.val).onBus = none → exec (.canSleepCmd n) s = .next (s.canSleep n.val)) ∧
    (exec (.canWakeCmd n) s = .next (s.canWake n.val 4)) ∧
    (∀ d, (s.ctl n.val).armed = true → s.on Reg.CANn_WAKE_WMODE [n.val] = false → 50 ≤ d →
      exec (.canWakeDetect n (.dominant d)) s = .next (s.canWake n.val 1)) ∧
    (∀ d, s.on Reg.CANn_WAKE_WMODE [n.val] = false → d ≤ 30 → exec (.canWakeDetect n (.dominant d)) s = .next s) ∧
    (∀ k x, (s.ctl (s.govern n.val)).twins[k]? = some x → s.since x.2.2 (s.twinWindow (s.govern n.val)) = true →
      exec (.mirrorTwinExpiry n k) s = .next (s.modCtl (s.govern n.val) fun c => { c with twins := c.twins.eraseIdx k })) ∧
    (∀ b : Fin 128, s.domainOn 8 = true → (s.canBuf n.val b.val).type = 2 →
      exec (.canBufferNewWrite n b) s = .next (s.canUpdate n.val ⟨b.val, none, 0, [], true⟩))

/-- R491: among the pending buffers of a controller the one with the dominant identifier wins, and of equal identifiers the lowest buffer; none
wins where none is pending. -/
def Obligations.LowestIdentifierWins : Prop :=
  ∀ (s : State) (n b : Nat), (∀ x ∈ s.pendOf n, x < 128) →
    (s.canWinner n = some b → b ∈ s.pendOf n ∧ ∀ x ∈ s.pendOf n,
      (s.canBuf (s.govern n) b).frame.arb < (s.canBuf (s.govern n) x).frame.arb ∨
      ((s.canBuf (s.govern n) b).frame.arb = (s.canBuf (s.govern n) x).frame.arb ∧ b ≤ x)) ∧
    (s.canWinner n = none ↔ s.pendOf n = [])

/-! Memory (19) and security (21) -/

/-- The SRAM (R511, R513, R514, R516 to R520): at a free bank a scrub pass is counted and an error of a scrub read is handled at its word,
and at one that has granted a read waits; a refused access to the secure region raises the alarm, is counted, and changes nothing but
registers, tally book, clock and console; a wipe starts for its cause, ends with its time when the read-back is good, and begins again once
when it is not; and the masters' counters are cleared while PD9 is on. So it states where each of these commands completes: scrubLine,
secureAccessRefused, secureWipe, wipeComplete, memCounterClear. -/
def Obligations.MemoryCommands : Prop :=
  ∀ s : State, s.Canon → s.alive = true →
    (∀ line, s.bankFree (bankOf (64 * line.val)) = true → ∃ q : MemReq, q.bank = bankOf (64 * line.val) ∧ q.master = none ∧
      exec (.scrubLine line none .scrubber true) s = .next ((s.memGrant q).inc Reg.MEM_SCRUB_PASSES)) ∧
    (∀ line (w : Fin 8) ue, s.bankFree (bankOf (64 * line.val)) = true → ∃ q : MemReq, q.bank = bankOf (64 * line.val) ∧ q.master = none ∧
      exec (.scrubLine line (some (w, ue)) .scrubber false) s = .next ((s.memGrant q).eccError (64 * line.val + 8 * w.val) ue .scrubber)) ∧
    (∀ line err r l, s.bankShut (bankOf (64 * line.val)) = false → s.bankLost (bankOf (64 * line.val)) = false →
      (r.master.any fun m => State.secForbids m (64 * line.val)) = false →
      s.mem.granted.contains (bankOf (64 * line.val)) = true → (s.mem.waiting.any fun q => q.bank == bankOf (64 * line.val)) = false →
      ∃ q : MemReq, exec (.scrubLine line err r l) s = .next { s with mem := { s.mem with waiting := s.mem.waiting ++ [q] } } ∧
        q.bank = bankOf (64 * line.val) ∧ q.master = r.master ∧ q.age = 0) ∧
    (∀ (m : Fin 12) (off : Fin 2097152), m.val ≠ 10 → ∃ t, exec (.secureAccessRefused m off) s = .next t ∧
      t.get Reg.ALARM_SRC_SEC_VIOL = 1 ∧ t.get Reg.MEM_SEC_STAT_VIOL =
        min (s.get Reg.MEM_SEC_STAT_VIOL + 1) (2 ^ Reg.MEM_SEC_STAT_VIOL.width - 1) ∧
      { t with regs := s.regs, tally := s.tally, clock := s.clock, out := s.out } = s) ∧
    (∀ c : Fin 4, s.sec.wipe = none → ∃ t, exec (.secureWipe c) s = .next t ∧ t.sec.wipe = some (2 ^ c.val, false) ∧
      t.get Reg.MEM_SEC_STAT_WIPING = 1 ∧ t.get Reg.MEM_SEC_STAT_CAUSE = 2 ^ c.val ∧ { t with regs := s.regs, sec := s.sec } = s) ∧
    (∀ us c again, s.sec.wipe = some (c, again) → s.sec.wipeFor = [] → ∃ t, exec (.wipeComplete us 0) s = .next t ∧ t.sec.wipe = none ∧
      t.get Reg.MEM_SEC_STAT_WIPING = 0 ∧ t.get Reg.MEM_SEC_STAT_WIPE_US = min us 65535) ∧
    (∀ us bad c, bad ≠ 0 → s.sec.wipe = some (c, false) → exec (.wipeComplete us bad) s =
      .next { s with sec := { s.sec with wipe := some (c, true) } }) ∧
    (∀ mask run, s.domainOn 9 = true → exec (.memCounterClear mask run) s = .next (s.memCounters mask.val run))

/-- The security engine (R557, R558, R563 to R566, R574, R577, R582): ATTEST's report fails its check, or is made and answered; the chain is
answered; a good key package that has been read is taken with its record; a good life-cycle token is carried out; requests and responses of
attestation are taken, and a request times out; a tamper event whose response is not a wipe shows and leaves the line keys; VBACK's range
shows; the staged fleet key becomes the active one at its turn, the old one being kept for 256 turns; and the retired one is erased. So it
states where each of these commands completes: attestReport, attestChain, attestImport, attestLifecycle, attestRequestReceive,
attestResponseReceive, attestTimeout, tamperEvent, vbackRangeChange, fleetKeySwitch, retiredKeyErase. -/
def Obligations.SecurityCommands : Prop :=
  ∀ s : State, s.Canon → s.alive = true →
    (∀ (n : Fin 17) (q : Fin 16) i nonce d, readyAttest s n.val q.val i 0 = some d → State.attestArgs n.val 0 d = false →
      exec (.attestReport n q i nonce) s = .next (s.failCheck n.val q.val i 6)) ∧
    (∀ (n : Fin 17) (q : Fin 16) i nonce d, readyAttest s n.val q.val i 0 = some d → State.attestArgs n.val 0 d = true →
      State.bufWaits n.val d nonce = false → s.attLocal d = true → ∃ l u, exec (.attestReport n q i nonce) s = .next (State.attestDone u n.val q.val i d 0 l) ∧
        (l, u) = (if n.val = 16 then s else s.emit (.hostRead n.val d.buf 32)).makeReport (s.memIn n.val d.buf 32 nonce) 0) ∧
    (∀ (n : Fin 17) (q : Fin 16) i d, readyAttest s n.val q.val i 1 = some d → State.attestArgs n.val 1 d = true → s.attLocal d = true →
      exec (.attestChain n q i) s = .next (s.attestDone n.val q.val i d 1 s.chainBytes)) ∧
    (∀ (n : Fin 17) (q : Fin 16) i data sig gcm key d, s.ready n.val q.val i 0x30 = some d → d.arg0 % 16 = 2 →
      State.inWin n.val d.buf d.len = true → State.bufWaits n.val d data = false →
      (s.takeBuf n.val d data).2.importFault d.len (s.takeBuf n.val d data).1 sig gcm = none →
      ∃ u : State, exec (.attestImport n q i data sig gcm key) s =
        .next (u.complete n.val q.val i 0 0 (beAt (s.takeBuf n.val d data).1 4 4)) ∧
        u = ((s.takeBuf n.val d data).2.takeKey (beAt (s.takeBuf n.val d data).1 0 1) (beAt (s.takeBuf n.val d data).1 4 4) key).recordT
          0x5002 2 12 (beAt (s.takeBuf n.val d data).1 0 1) (beAt (s.takeBuf n.val d data).1 4 4)) ∧
    (∀ (n : Fin 17) (q : Fin 16) i token sig d, readyAttest s n.val q.val i 3 = some d → d.len = 120 → State.inWin n.val d.buf d.len = true →
      State.bufWaits n.val d token = false → (s.takeBuf n.val d token).2.tokenFault (s.takeBuf n.val d token).1 sig = none →
      exec (.attestLifecycle n q i token sig) s = .next ((s.takeBuf n.val d token).2.transition (beAt (s.takeBuf n.val d token).1 0 1))) ∧
    (∀ sender waiting body, s.cpuUp 1 = true → s.sec.asked = [] → exec (.attestRequestReceive sender waiting body) s =
      .next (s.attRequest sender waiting.val body)) ∧
    (∀ sender body, exec (.attestResponseReceive sender body) s = .next (s.attResponse sender body)) ∧
    (∀ k r g q, s.sec.requests[k]? = some r → r.sent = some (g, q) → s.attDeadline r q ≤ s.clock.turn →
      exec (.attestTimeout k) s = .next (s.attEnd r fun s => s.complete r.desc.1 r.desc.2.1 r.desc.2.2 4 0 0)) ∧
    (∀ (src : Fin 6) now, s.tamperResp src.val < 2 → ∃ t, exec (.tamperEvent src now) s = .next t ∧ t.get Reg.SEC_STAT_TAMPER = 1 ∧
      t.get Reg.SEC_TAMPER_STAT_NOW = now.val ∧ t.sec.tamperBoot = true ∧ t.keys = s.keys) ∧
    (∀ b, exec (.vbackRangeChange b) s = .next (s.flag Reg.PWR_STAT_VBACK_OK [] b).certify) ∧
    (∀ r k, s.keys.roll = some r → r ≤ s.clock.turn → s.keys.staged = some k →
      ∃ u : State, exec .fleetKeySwitch s = .next u.measKeys.certify ∧ u.keys.active = some k ∧ u.keys.staged = none ∧ u.keys.roll = none ∧
        u.keys.retired = s.keys.active.map fun a => (a, r, r + 256)) ∧
    (∀ k a e, s.keys.retired = some (k, a, e) → e ≤ s.clock.turn →
      exec .retiredKeyErase s = .next { s with keys := { s.keys with retired := none } })

/-! Configuration (22) -/

/-- Configuration (R396, R588 to R595): a piece shorter than 8 bytes fails its check, and others are staged; activation completes
NO_RESOURCE without a STAGED image, and with one on a single node without ACTIVE image waits for its tick; a running trial is confirmed; an
armed activation is cancelled; rollback completes NO_RESOURCE without a previous image and else waits; an activation that may take effect
does; a trial without a criterion met ends with record 0x6004 and the active image kept; and at the tick after it one with a criterion met
is rolled back, and a commanded rollback takes place. So it states where each of these commands completes: configStage, configActivate,
configConfirm, configCancel, configRollback, configActivationTick, configTrialEnd, configRollbackTick. -/
def Obligations.ConfigurationCommands : Prop :=
  ∀ s : State, s.Canon → s.alive = true →
    (∀ (n : Fin 17) (q : Fin 16) i data sig d, s.ready n.val q.val i 0x31 = some d → d.len < 8 →
      exec (.configStage n q i data sig) s = .next (s.failCheck n.val q.val i 6)) ∧
    (∀ (n : Fin 17) (q : Fin 16) i data sig d, s.ready n.val q.val i 0x31 = some d → exec (.configStage n q i data sig) s =
      .next (s.configStage n.val q.val i d data sig)) ∧
    (∀ (n : Fin 17) (q : Fin 16) i partner m d, s.readyActivate n.val q.val i false false = some d → d.arg0 % 16 = 0 → s.conf.staged = none →
      exec (.configActivate n q i partner m) s = .next (s.complete n.val q.val i 7 0 0)) ∧
    (∀ (n : Fin 17) (q : Fin 16) i partner m d c, s.readyActivate n.val q.val i false false = some d → d.arg0 % 16 = 0 → s.conf.staged = some c →
      s.conf.wait = none → s.onTrial = false → s.paired = false → s.conf.active = none → s.inSlack = false →
      exec (.configActivate n q i partner m) s =
        .next ((s.startWork n.val q.val i).setWait (some ⟨.activate, some (n.val, q.val, i), n.val, none, s.clock.turn⟩))) ∧
    (∀ (n : Fin 17) (q : Fin 16) i d, s.readyActivate n.val q.val i true false = some d → d.arg0 % 16 = 0 → s.on Reg.CFG_STAT_TRIAL = true →
      exec (.configConfirm n q i) s = .next (((s.modConf fun x => { x with confirmed := true }).set Reg.CFG_STAT_CONFIRMED [] 1).complete
        n.val q.val i 0 0 0)) ∧
    (∀ (n : Fin 17) (q : Fin 16) i d, s.ready n.val q.val i 0x32 = some d → bit d.arg0 9 = true → bit d.arg0 8 = false → d.arg0 % 16 = 0 →
      exec (.configCancel n q i) s = .next (s.cancelArmed n.val q.val i)) ∧
    (∀ (n : Fin 17) (q : Fin 16) i d, s.ready n.val q.val i 0x33 = some d → d.arg0 % 16 = 0 → s.conf.prev = none →
      exec (.configRollback n q i) s = .next (s.complete n.val q.val i 7 0 0)) ∧
    (∀ (n : Fin 17) (q : Fin 16) i d c, s.ready n.val q.val i 0x33 = some d → d.arg0 % 16 = 0 → s.conf.prev = some c → s.conf.wait = none →
      exec (.configRollback n q i) s =
        .next ((s.startWork n.val q.val i).setWait (some ⟨.rollback, some (n.val, q.val, i), n.val, none, s.clock.turn⟩))) ∧
    (s.cpuUp 1 = true → s.mayActivate = true → exec .configActivationTick s = .next (s.activate false)) ∧
    (s.cpuUp 1 = true → s.on Reg.CFG_STAT_TRIAL = true → s.conf.trialEnd ≤ s.clock.optime → s.checkTrial.conf.failed = none →
      ∃ u : State, exec .configTrialEnd s = .next (u.record 0x6004 1 State.cfgSrc (s.get Reg.CFG_VER_ACTIVE_VER) (b2n s.conf.confirmed)) ∧
        u.get Reg.CFG_STAT_TRIAL = 0 ∧ u.conf.active = s.conf.active) ∧
    (∀ c turn, s.cpuUp 1 = true → s.on Reg.CFG_STAT_TRIAL = true → s.conf.failed = some (c, turn) → s.tickAfter turn = true →
      exec .configRollbackTick s = .next (s.rollback ⟨.rollback, s.conf.wait.bind fun w => w.desc, 0, some c, turn⟩)) ∧
    (∀ w, s.cpuUp 1 = true → s.conf.failed = none → s.conf.wait = some w → w.kind = .rollback → s.tickAfter w.born = true →
      exec .configRollbackTick s = .next (s.rollback w))

/-! Debug (24) -/

/-- The debug port of a clocked node (R606, R609, R612, R613): each instruction loads its code; BYPASS and EXTEST pass on what is shifted
in, IDCODE gives 0x20880001, SAMPLE_PRELOAD the balls, DIAG_STATUS its word, RO_DATA zeros; a nonce is issued and kept; a token is checked;
FREEZE and FREEZE_N apply the mill brake where FRZ_EN is set; the read-out address is 8-byte aligned; and a token that has lapsed in the
life-cycle state of service ends FRZ_EN. So it states where each of these commands completes: bypass, idcode, samplePreload, extest, nonce,
token, diagStatus, freeze, freezeNLow, roAddr, roData, debugTokenLapse. -/
def Obligations.DebugCommands : Prop :=
  ∀ s : State, s.Canon → s.alive = true →
    (∀ tdi, exec (.bypass tdi) s = .next { s with dbg := { s.dbg with ir := 0xFF }, out := .tdo tdi :: s.out }) ∧
    (exec .idcode s = .next { s with dbg := { s.dbg with ir := 1 }, out := .tdo (leBytes 4 0x20880001) :: s.out }) ∧
    (∀ cells l u, (s.loadIr 2).pinBytes = (l, u) → exec (.samplePreload cells) s = .next { u with
      dbg := { u.dbg with bsr := cells }, out := .tdo (Config.boundary l) :: u.out }) ∧
    (∀ cells, exec (.extest cells) s = .next { s with dbg := { s.dbg with ir := 0 }, out := .tdo cells :: s.out }) ∧
    (∃ t b, exec .nonce s = .next t ∧ t.dbg.nonce = some b ∧ t.out = .tdo b :: s.out ∧ t.dbg.ir = 0x20) ∧
    (∀ tok sig f tear, exec (.token tok sig f tear) s = .next ((s.loadIr 0x21).checkToken tok sig f tear)) ∧
    (exec .diagStatus s = .next { s with dbg := { s.dbg with ir := 0x22 }, out := .tdo (leBytes 4 s.diagStat) :: s.out }) ∧
    (∀ tear, s.on Reg.DIAG_STAT_FRZ_EN = true → exec (.freeze tear) s = .next ((s.loadIr 0x30).freeze 1 tear)) ∧
    (∀ held tear, s.on Reg.DIAG_STAT_FRZ_EN = true → ∃ u : State, exec (.freezeNLow held tear) s = .next (u.freeze 0 tear) ∧
      u.pins.freezeLow = held ∧ { u with pins := s.pins } = s) ∧
    (∀ a : Word, exec (.roAddr a) s = .next { s with dbg := { s.dbg with ir := 0x31, roAddr := a.toNat / 8 * 8 } }) ∧
    (∀ n, exec (.roData n) s = .next { s with dbg := { s.dbg with ir := 0x32 }, out := .tdo (List.replicate (8 * n) 0) :: s.out }) ∧
    (s.on Reg.DIAG_STAT_TOKEN = true → s.dbg.tokenEnd ≠ 0 → s.dbg.tokenEnd ≤ s.clock.optime → s.sec.lifecycle = 2 →
      ∃ t, exec .debugTokenLapse s = .next t ∧ t.get Reg.DIAG_STAT_TOKEN = 0 ∧ t.get Reg.DIAG_STAT_FRZ_EN = 0 ∧ t.dbg.tokenEnd = 0 ∧
        { t with regs := s.regs, dbg := s.dbg } = s)

/-- R608: a request made while FRZ_EN is 0 is ignored; each falling edge of FREEZE_N and each FREEZE instruction increments DIAG_CNT.REFUSED and
writes record 0x5040, which enters the tally queue where that has a place (R527). -/
def Obligations.RefusedBrakeRequest : Prop :=
  ∀ (s : State) (c : Instr) (kind : Nat), s.Canon → s.alive = true → s.on Reg.DIAG_STAT_FRZ_EN = false →
    ((∃ held tear, c = .freezeNLow held tear) ∧ kind = 0) ∨ ((∃ tear, c = .freeze tear) ∧ kind = 1) →
    ∃ t, exec c s = .next t ∧ t.alive = true ∧
      t.get Reg.DIAG_CNT_REFUSED = min (s.get Reg.DIAG_CNT_REFUSED + 1) (2 ^ Reg.DIAG_CNT_REFUSED.width - 1) ∧
      (s.on Reg.TALLY_STAT_DEGRADED = false → s.hasPlace 0x5040 0 = true →
        ∃ r, t.tally.queue = s.tally.queue ++ [r] ∧ r.code = 0x5040 ∧ r.p1 = kind) ∧
      { t with regs := s.regs, tally := s.tally, clock := s.clock, out := s.out, pins := { t.pins with freezeLow := s.pins.freezeLow },
               dbg := { t.dbg with ir := s.dbg.ir } } = s

/-- R610: under the mill brake these commands change nothing, and an idle step lets no time pass: the tick and what happens at it, the
line's events, frames received from the line, the consist network and CAN, register accesses, doorbells, resets by lost reference or fatal
fault, and the tally book's unit; a frame at the front of the queue is taken without effect. -/
def Obligations.FrozenNodeStandsStill : Prop :=
  ∀ (s : State) (rest : List Instr), s.on Reg.DIAG_STAT_FROZEN = true →
    (∀ c ∈ ([.tick [] 0 0 0, .dynamicSegment, .kickoffSend, .nitCorrection, .turnEnable, .listenTimeout, .integration, .inaugPhaseChange,
      .stopEntry, .yield, .pairStateSend, .anchorPeriodic, .overflowRecord, .igmpReport, .recoveryStateTimeout, .nodeRefLost, .fatalFault,
      .ppsOutPulse, .writeUnitDone none, .readStatus] : List Instr), exec c s = .next s) ∧
    (∀ n f k, exec (.staticFrameReceive n f k) s = .next s) ∧ (∀ n f t, exec (.consistFrameIngress n f t) s = .next s) ∧
    (∀ n f a b, exec (.canFrameReceive n f a b) s = .next s) ∧ (∀ t w, exec (.doorbell t w) s = .next s) ∧
    (∀ r b o z v g, exec (.registerWrite r b o z v g) s = .next s) ∧ (∀ r b o z, exec (.readClear r b o z) s = .next s) ∧
    step { s with pending := [] } = .next { s with pending := [] } ∧
    (∀ n f t, step { s with pending := .consistFrameIngress n f t :: rest } = .next { s with pending := rest })
end

