-- ==== Sys2Proof/Laws/Sparse.lean ====
section
/-!
SUPPORT. Laws of sparse tables: reading after writing, and that every operation keeps the keys rising.
-/

namespace Sys2Proof.Machine

variable {α : Type}

@[simp] theorem Sparse.find_nil (k : Nat) : Sparse.find k ([] : List (Nat × α)) = none := rfl

/-- A value put under a key is found there. -/
@[simp] theorem Sparse.find_put_same (k : Nat) (v : α) (l : List (Nat × α)) : Sparse.find k (Sparse.put k v l) = some v := by
  induction l with
  | nil => simp [Sparse.put, Sparse.find]
  | cons e l ih =>
    simp only [Sparse.put]
    split
    · simp [Sparse.find]
    · split
      · simp [Sparse.find]
      · simp [Sparse.find, *]

/-- A value put under a key leaves every other key. -/
theorem Sparse.find_put_other {j k : Nat} (h : j ≠ k) (v : α) (l : List (Nat × α)) :
    Sparse.find j (Sparse.put k v l) = Sparse.find j l := by
  induction l with
  | nil => simp [Sparse.put, Sparse.find, Ne.symm h]
  | cons e l ih =>
    simp only [Sparse.put]
    split
    · simp [Sparse.find, Ne.symm h]
    · split
      · next he => subst he; simp [Sparse.find, Ne.symm h]
      · simp [Sparse.find, ih]

/-- Deleting a key leaves every other key. -/
theorem Sparse.find_del_other {j k : Nat} (h : j ≠ k) (l : List (Nat × α)) : Sparse.find j (Sparse.del k l) = Sparse.find j l := by
  induction l with
  | nil => rfl
  | cons e l ih =>
    simp only [Sparse.del]
    split
    · next he => subst he; simp [Sparse.find, Ne.symm h]
    · simp [Sparse.find, ih]

/-- A list that rises above a bound rises above every lower bound. -/
theorem Sparse.sortedFrom_mono {a b : Nat} (h : a ≤ b) {l : List (Nat × α)} (hl : Sparse.sortedFrom (some b) l = true) :
    Sparse.sortedFrom (some a) l = true := by
  cases l with
  | nil => rfl
  | cons e l =>
    simp only [Sparse.sortedFrom, Bool.and_eq_true, decide_eq_true_eq] at *
    exact ⟨by omega, hl.2⟩

/-- A rising list rises without a bound too. -/
theorem Sparse.sorted_of_from {b : Nat} {l : List (Nat × α)} (hl : Sparse.sortedFrom (some b) l = true) : Sparse.sorted l = true := by
  cases l with
  | nil => rfl
  | cons e l =>
    simp only [Sparse.sorted, Sparse.sortedFrom, Bool.and_eq_true] at *
    exact hl.2

/-- No key at or below the bound of a rising list is found in it. -/
theorem Sparse.find_none_of_from {b k : Nat} (h : k ≤ b) {l : List (Nat × α)} (hl : Sparse.sortedFrom (some b) l = true) :
    Sparse.find k l = none := by
  induction l generalizing b with
  | nil => rfl
  | cons e l ih =>
    simp only [Sparse.sortedFrom, Bool.and_eq_true, decide_eq_true_eq] at hl
    have hne : e.1 ≠ k := by omega
    simpa [Sparse.find, hne] using ih (by omega) hl.2

theorem Sparse.sortedFrom_put {b k : Nat} (h : b < k) (v : α) {l : List (Nat × α)} (hl : Sparse.sortedFrom (some b) l = true) :
    Sparse.sortedFrom (some b) (Sparse.put k v l) = true := by
  induction l generalizing b with
  | nil => simp [Sparse.put, Sparse.sortedFrom, h]
  | cons e l ih =>
    simp only [Sparse.sortedFrom, Bool.and_eq_true, decide_eq_true_eq] at hl
    simp only [Sparse.put]
    split
    · next hk => simp [Sparse.sortedFrom, h, hk, hl.2]
    · split
      · next _ he => subst he; simp [Sparse.sortedFrom, h, hl.2]
      · simp only [Sparse.sortedFrom, Bool.and_eq_true, decide_eq_true_eq]
        exact ⟨hl.1, ih (by omega) hl.2⟩

theorem Sparse.sortedFrom_del {b : Nat} (k : Nat) {l : List (Nat × α)} (hl : Sparse.sortedFrom (some b) l = true) :
    Sparse.sortedFrom (some b) (Sparse.del k l) = true := by
  induction l generalizing b with
  | nil => rfl
  | cons e l ih =>
    simp only [Sparse.sortedFrom, Bool.and_eq_true, decide_eq_true_eq] at hl
    simp only [Sparse.del]
    split
    · exact Sparse.sortedFrom_mono (by omega) hl.2
    · simp only [Sparse.sortedFrom, Bool.and_eq_true, decide_eq_true_eq]
      exact ⟨hl.1, ih hl.2⟩

/-- Putting a value keeps the keys rising. -/
theorem Sparse.sorted_put (k : Nat) (v : α) {l : List (Nat × α)} (hl : Sparse.sorted l = true) : Sparse.sorted (Sparse.put k v l) = true := by
  cases l with
  | nil => rfl
  | cons e l =>
    simp only [Sparse.sorted, Sparse.sortedFrom] at hl
    simp only [Sparse.put]
    split
    · next hk => simp [Sparse.sorted, Sparse.sortedFrom, hk, hl]
    · split
      · next _ he => subst he; simpa [Sparse.sorted, Sparse.sortedFrom] using hl
      · simp only [Sparse.sorted, Sparse.sortedFrom]
        exact Sparse.sortedFrom_put (by omega) v hl

/-- Deleting a key keeps the keys rising. -/
theorem Sparse.sorted_del (k : Nat) {l : List (Nat × α)} (hl : Sparse.sorted l = true) : Sparse.sorted (Sparse.del k l) = true := by
  cases l with
  | nil => rfl
  | cons e l =>
    simp only [Sparse.sorted, Sparse.sortedFrom] at hl
    simp only [Sparse.del]
    split
    · exact Sparse.sorted_of_from hl
    · simpa only [Sparse.sorted, Sparse.sortedFrom] using Sparse.sortedFrom_del k hl

/-- Writing keeps the keys rising. -/
theorem Sparse.sorted_write [DecidableEq α] (d : α) (k : Nat) (v : α) {l : List (Nat × α)} (hl : Sparse.sorted l = true) :
    Sparse.sorted (Sparse.write d k v l) = true := by
  unfold Sparse.write
  split
  · exact Sparse.sorted_del k hl
  · exact Sparse.sorted_put k v hl

theorem Sparse.sortedFrom_filter {b : Nat} (p : Nat × α → Bool) {l : List (Nat × α)} (hl : Sparse.sortedFrom (some b) l = true) :
    Sparse.sortedFrom (some b) (l.filter p) = true := by
  induction l generalizing b with
  | nil => rfl
  | cons e l ih =>
    simp only [Sparse.sortedFrom, Bool.and_eq_true, decide_eq_true_eq] at hl
    simp only [List.filter]
    split
    · simp only [Sparse.sortedFrom, Bool.and_eq_true, decide_eq_true_eq]
      exact ⟨hl.1, ih hl.2⟩
    · exact Sparse.sortedFrom_mono (by omega) (ih hl.2)

/-- Taking entries out keeps the keys rising. -/
theorem Sparse.sorted_filter (p : Nat × α → Bool) {l : List (Nat × α)} (hl : Sparse.sorted l = true) : Sparse.sorted (l.filter p) = true := by
  induction l with
  | nil => rfl
  | cons e l ih =>
    simp only [Sparse.sorted, Sparse.sortedFrom] at hl
    simp only [List.filter]
    split
    · simpa only [Sparse.sorted, Sparse.sortedFrom] using Sparse.sortedFrom_filter p hl
    · exact ih (Sparse.sorted_of_from hl)

/-- A deleted key of a rising list is not found. -/
theorem Sparse.find_del_same (k : Nat) {l : List (Nat × α)} (hl : Sparse.sorted l = true) : Sparse.find k (Sparse.del k l) = none := by
  induction l with
  | nil => rfl
  | cons e l ih =>
    simp only [Sparse.sorted, Sparse.sortedFrom] at hl
    simp only [Sparse.del]
    split
    · next he => subst he; exact Sparse.find_none_of_from (Nat.le_refl _) hl
    · next he => simpa [Sparse.find, he] using ih (Sparse.sorted_of_from hl)

/-- What a table reads after a write: the value at its key, and everywhere else what it read before. -/
theorem Sparse.read_write [DecidableEq α] (d : α) (j k : Nat) (v : α) {l : List (Nat × α)} (hl : Sparse.sorted l = true) :
    (Sparse.find j (Sparse.write d k v l)).getD d = if j = k then v else (Sparse.find j l).getD d := by
  unfold Sparse.write
  by_cases hj : j = k
  · subst hj
    split
    · next hv => simp [Sparse.find_del_same j hl, hv]
    · simp
  · split
    · simp [Sparse.find_del_other hj]
    · simp [Sparse.find_put_other hj]

/-- Whatever the table, a write leaves what is read under every other key. -/
theorem Sparse.find_write_other [DecidableEq α] {j k : Nat} (h : j ≠ k) (d v : α) (l : List (Nat × α)) :
    Sparse.find j (Sparse.write d k v l) = Sparse.find j l := by
  unfold Sparse.write
  split
  · exact Sparse.find_del_other h l
  · exact Sparse.find_put_other h v l

end Sys2Proof.Machine
end

