-- ==== Sys2Proof/Laws/State.lean ====
section
/-!
SUPPORT. One lemma for each field of State and each update of it, and what the register file reads after a write.
-/

namespace Sys2Proof.Machine

namespace State

section modClock
variable (s : State) (g : Clock → Clock)

@[simp] theorem modClock_pending : (s.modClock g).pending = s.pending := rfl
@[simp] theorem modClock_regs : (s.modClock g).regs = s.regs := rfl
@[simp] theorem modClock_pins : (s.modClock g).pins = s.pins := rfl
@[simp] theorem modClock_power : (s.modClock g).power = s.power := rfl
@[simp] theorem modClock_clock : (s.modClock g).clock = g s.clock := rfl
@[simp] theorem modClock_boot : (s.modClock g).boot = s.boot := rfl
@[simp] theorem modClock_tally : (s.modClock g).tally = s.tally := rfl
@[simp] theorem modClock_ports : (s.modClock g).ports = s.ports := rfl
@[simp] theorem modClock_sync : (s.modClock g).sync = s.sync := rfl
@[simp] theorem modClock_start : (s.modClock g).start = s.start := rfl
@[simp] theorem modClock_inaug : (s.modClock g).inaug = s.inaug := rfl
@[simp] theorem modClock_synth : (s.modClock g).synth = s.synth := rfl
@[simp] theorem modClock_weirs : (s.modClock g).weirs = s.weirs := rfl
@[simp] theorem modClock_red : (s.modClock g).red = s.red := rfl
@[simp] theorem modClock_mill : (s.modClock g).mill = s.mill := rfl
@[simp] theorem modClock_host : (s.modClock g).host = s.host := rfl
@[simp] theorem modClock_far : (s.modClock g).far = s.far := rfl
@[simp] theorem modClock_con : (s.modClock g).con = s.con := rfl
@[simp] theorem modClock_can : (s.modClock g).can = s.can := rfl
@[simp] theorem modClock_keys : (s.modClock g).keys = s.keys := rfl
@[simp] theorem modClock_conf : (s.modClock g).conf = s.conf := rfl
@[simp] theorem modClock_sec : (s.modClock g).sec = s.sec := rfl
@[simp] theorem modClock_mem : (s.modClock g).mem = s.mem := rfl
@[simp] theorem modClock_debug : (s.modClock g).dbg = s.dbg := rfl
@[simp] theorem modClock_held : (s.modClock g).held = s.held := rfl
@[simp] theorem modClock_out : (s.modClock g).out = s.out := rfl
@[simp] theorem modClock_free : (s.modClock g).free = s.free := rfl
@[simp] theorem modClock_get (f : Fld) (ix : List Nat) : (s.modClock g).get f ix = s.get f ix := rfl
@[simp] theorem modClock_on (f : Fld) (ix : List Nat) : (s.modClock g).on f ix = s.on f ix := rfl

end modClock

section modBoot
variable (s : State) (g : Boot → Boot)

@[simp] theorem modBoot_pending : (s.modBoot g).pending = s.pending := rfl
@[simp] theorem modBoot_regs : (s.modBoot g).regs = s.regs := rfl
@[simp] theorem modBoot_pins : (s.modBoot g).pins = s.pins := rfl
@[simp] theorem modBoot_power : (s.modBoot g).power = s.power := rfl
@[simp] theorem modBoot_clock : (s.modBoot g).clock = s.clock := rfl
@[simp] theorem modBoot_boot : (s.modBoot g).boot = g s.boot := rfl
@[simp] theorem modBoot_tally : (s.modBoot g).tally = s.tally := rfl
@[simp] theorem modBoot_ports : (s.modBoot g).ports = s.ports := rfl
@[simp] theorem modBoot_sync : (s.modBoot g).sync = s.sync := rfl
@[simp] theorem modBoot_start : (s.modBoot g).start = s.start := rfl
@[simp] theorem modBoot_inaug : (s.modBoot g).inaug = s.inaug := rfl
@[simp] theorem modBoot_synth : (s.modBoot g).synth = s.synth := rfl
@[simp] theorem modBoot_weirs : (s.modBoot g).weirs = s.weirs := rfl
@[simp] theorem modBoot_red : (s.modBoot g).red = s.red := rfl
@[simp] theorem modBoot_mill : (s.modBoot g).mill = s.mill := rfl
@[simp] theorem modBoot_host : (s.modBoot g).host = s.host := rfl
@[simp] theorem modBoot_far : (s.modBoot g).far = s.far := rfl
@[simp] theorem modBoot_con : (s.modBoot g).con = s.con := rfl
@[simp] theorem modBoot_can : (s.modBoot g).can = s.can := rfl
@[simp] theorem modBoot_keys : (s.modBoot g).keys = s.keys := rfl
@[simp] theorem modBoot_conf : (s.modBoot g).conf = s.conf := rfl
@[simp] theorem modBoot_sec : (s.modBoot g).sec = s.sec := rfl
@[simp] theorem modBoot_mem : (s.modBoot g).mem = s.mem := rfl
@[simp] theorem modBoot_debug : (s.modBoot g).dbg = s.dbg := rfl
@[simp] theorem modBoot_held : (s.modBoot g).held = s.held := rfl
@[simp] theorem modBoot_out : (s.modBoot g).out = s.out := rfl
@[simp] theorem modBoot_free : (s.modBoot g).free = s.free := rfl
@[simp] theorem modBoot_get (f : Fld) (ix : List Nat) : (s.modBoot g).get f ix = s.get f ix := rfl
@[simp] theorem modBoot_on (f : Fld) (ix : List Nat) : (s.modBoot g).on f ix = s.on f ix := rfl

end modBoot

section modPower
variable (s : State) (g : Power → Power)

@[simp] theorem modPower_pending : (s.modPower g).pending = s.pending := rfl
@[simp] theorem modPower_regs : (s.modPower g).regs = s.regs := rfl
@[simp] theorem modPower_pins : (s.modPower g).pins = s.pins := rfl
@[simp] theorem modPower_power : (s.modPower g).power = g s.power := rfl
@[simp] theorem modPower_clock : (s.modPower g).clock = s.clock := rfl
@[simp] theorem modPower_boot : (s.modPower g).boot = s.boot := rfl
@[simp] theorem modPower_tally : (s.modPower g).tally = s.tally := rfl
@[simp] theorem modPower_ports : (s.modPower g).ports = s.ports := rfl
@[simp] theorem modPower_sync : (s.modPower g).sync = s.sync := rfl
@[simp] theorem modPower_start : (s.modPower g).start = s.start := rfl
@[simp] theorem modPower_inaug : (s.modPower g).inaug = s.inaug := rfl
@[simp] theorem modPower_synth : (s.modPower g).synth = s.synth := rfl
@[simp] theorem modPower_weirs : (s.modPower g).weirs = s.weirs := rfl
@[simp] theorem modPower_red : (s.modPower g).red = s.red := rfl
@[simp] theorem modPower_mill : (s.modPower g).mill = s.mill := rfl
@[simp] theorem modPower_host : (s.modPower g).host = s.host := rfl
@[simp] theorem modPower_far : (s.modPower g).far = s.far := rfl
@[simp] theorem modPower_con : (s.modPower g).con = s.con := rfl
@[simp] theorem modPower_can : (s.modPower g).can = s.can := rfl
@[simp] theorem modPower_keys : (s.modPower g).keys = s.keys := rfl
@[simp] theorem modPower_conf : (s.modPower g).conf = s.conf := rfl
@[simp] theorem modPower_sec : (s.modPower g).sec = s.sec := rfl
@[simp] theorem modPower_mem : (s.modPower g).mem = s.mem := rfl
@[simp] theorem modPower_debug : (s.modPower g).dbg = s.dbg := rfl
@[simp] theorem modPower_held : (s.modPower g).held = s.held := rfl
@[simp] theorem modPower_out : (s.modPower g).out = s.out := rfl
@[simp] theorem modPower_free : (s.modPower g).free = s.free := rfl
@[simp] theorem modPower_get (f : Fld) (ix : List Nat) : (s.modPower g).get f ix = s.get f ix := rfl
@[simp] theorem modPower_on (f : Fld) (ix : List Nat) : (s.modPower g).on f ix = s.on f ix := rfl

end modPower

section modPins
variable (s : State) (g : Pins → Pins)

@[simp] theorem modPins_pending : (s.modPins g).pending = s.pending := rfl
@[simp] theorem modPins_regs : (s.modPins g).regs = s.regs := rfl
@[simp] theorem modPins_pins : (s.modPins g).pins = g s.pins := rfl
@[simp] theorem modPins_power : (s.modPins g).power = s.power := rfl
@[simp] theorem modPins_clock : (s.modPins g).clock = s.clock := rfl
@[simp] theorem modPins_boot : (s.modPins g).boot = s.boot := rfl
@[simp] theorem modPins_tally : (s.modPins g).tally = s.tally := rfl
@[simp] theorem modPins_ports : (s.modPins g).ports = s.ports := rfl
@[simp] theorem modPins_sync : (s.modPins g).sync = s.sync := rfl
@[simp] theorem modPins_start : (s.modPins g).start = s.start := rfl
@[simp] theorem modPins_inaug : (s.modPins g).inaug = s.inaug := rfl
@[simp] theorem modPins_synth : (s.modPins g).synth = s.synth := rfl
@[simp] theorem modPins_weirs : (s.modPins g).weirs = s.weirs := rfl
@[simp] theorem modPins_red : (s.modPins g).red = s.red := rfl
@[simp] theorem modPins_mill : (s.modPins g).mill = s.mill := rfl
@[simp] theorem modPins_host : (s.modPins g).host = s.host := rfl
@[simp] theorem modPins_far : (s.modPins g).far = s.far := rfl
@[simp] theorem modPins_con : (s.modPins g).con = s.con := rfl
@[simp] theorem modPins_can : (s.modPins g).can = s.can := rfl
@[simp] theorem modPins_keys : (s.modPins g).keys = s.keys := rfl
@[simp] theorem modPins_conf : (s.modPins g).conf = s.conf := rfl
@[simp] theorem modPins_sec : (s.modPins g).sec = s.sec := rfl
@[simp] theorem modPins_mem : (s.modPins g).mem = s.mem := rfl
@[simp] theorem modPins_debug : (s.modPins g).dbg = s.dbg := rfl
@[simp] theorem modPins_held : (s.modPins g).held = s.held := rfl
@[simp] theorem modPins_out : (s.modPins g).out = s.out := rfl
@[simp] theorem modPins_free : (s.modPins g).free = s.free := rfl
@[simp] theorem modPins_get (f : Fld) (ix : List Nat) : (s.modPins g).get f ix = s.get f ix := rfl
@[simp] theorem modPins_on (f : Fld) (ix : List Nat) : (s.modPins g).on f ix = s.on f ix := rfl

end modPins

section modTally
variable (s : State) (g : Tally → Tally)

@[simp] theorem modTally_pending : (s.modTally g).pending = s.pending := rfl
@[simp] theorem modTally_regs : (s.modTally g).regs = s.regs := rfl
@[simp] theorem modTally_pins : (s.modTally g).pins = s.pins := rfl
@[simp] theorem modTally_power : (s.modTally g).power = s.power := rfl
@[simp] theorem modTally_clock : (s.modTally g).clock = s.clock := rfl
@[simp] theorem modTally_boot : (s.modTally g).boot = s.boot := rfl
@[simp] theorem modTally_tally : (s.modTally g).tally = g s.tally := rfl
@[simp] theorem modTally_ports : (s.modTally g).ports = s.ports := rfl
@[simp] theorem modTally_sync : (s.modTally g).sync = s.sync := rfl
@[simp] theorem modTally_start : (s.modTally g).start = s.start := rfl
@[simp] theorem modTally_inaug : (s.modTally g).inaug = s.inaug := rfl
@[simp] theorem modTally_synth : (s.modTally g).synth = s.synth := rfl
@[simp] theorem modTally_weirs : (s.modTally g).weirs = s.weirs := rfl
@[simp] theorem modTally_red : (s.modTally g).red = s.red := rfl
@[simp] theorem modTally_mill : (s.modTally g).mill = s.mill := rfl
@[simp] theorem modTally_host : (s.modTally g).host = s.host := rfl
@[simp] theorem modTally_far : (s.modTally g).far = s.far := rfl
@[simp] theorem modTally_con : (s.modTally g).con = s.con := rfl
@[simp] theorem modTally_can : (s.modTally g).can = s.can := rfl
@[simp] theorem modTally_keys : (s.modTally g).keys = s.keys := rfl
@[simp] theorem modTally_conf : (s.modTally g).conf = s.conf := rfl
@[simp] theorem modTally_sec : (s.modTally g).sec = s.sec := rfl
@[simp] theorem modTally_mem : (s.modTally g).mem = s.mem := rfl
@[simp] theorem modTally_debug : (s.modTally g).dbg = s.dbg := rfl
@[simp] theorem modTally_held : (s.modTally g).held = s.held := rfl
@[simp] theorem modTally_out : (s.modTally g).out = s.out := rfl
@[simp] theorem modTally_free : (s.modTally g).free = s.free := rfl
@[simp] theorem modTally_get (f : Fld) (ix : List Nat) : (s.modTally g).get f ix = s.get f ix := rfl
@[simp] theorem modTally_on (f : Fld) (ix : List Nat) : (s.modTally g).on f ix = s.on f ix := rfl

end modTally

section modSync
variable (s : State) (g : Sync → Sync)

@[simp] theorem modSync_pending : (s.modSync g).pending = s.pending := rfl
@[simp] theorem modSync_regs : (s.modSync g).regs = s.regs := rfl
@[simp] theorem modSync_pins : (s.modSync g).pins = s.pins := rfl
@[simp] theorem modSync_power : (s.modSync g).power = s.power := rfl
@[simp] theorem modSync_clock : (s.modSync g).clock = s.clock := rfl
@[simp] theorem modSync_boot : (s.modSync g).boot = s.boot := rfl
@[simp] theorem modSync_tally : (s.modSync g).tally = s.tally := rfl
@[simp] theorem modSync_ports : (s.modSync g).ports = s.ports := rfl
@[simp] theorem modSync_sync : (s.modSync g).sync = g s.sync := rfl
@[simp] theorem modSync_start : (s.modSync g).start = s.start := rfl
@[simp] theorem modSync_inaug : (s.modSync g).inaug = s.inaug := rfl
@[simp] theorem modSync_synth : (s.modSync g).synth = s.synth := rfl
@[simp] theorem modSync_weirs : (s.modSync g).weirs = s.weirs := rfl
@[simp] theorem modSync_red : (s.modSync g).red = s.red := rfl
@[simp] theorem modSync_mill : (s.modSync g).mill = s.mill := rfl
@[simp] theorem modSync_host : (s.modSync g).host = s.host := rfl
@[simp] theorem modSync_far : (s.modSync g).far = s.far := rfl
@[simp] theorem modSync_con : (s.modSync g).con = s.con := rfl
@[simp] theorem modSync_can : (s.modSync g).can = s.can := rfl
@[simp] theorem modSync_keys : (s.modSync g).keys = s.keys := rfl
@[simp] theorem modSync_conf : (s.modSync g).conf = s.conf := rfl
@[simp] theorem modSync_sec : (s.modSync g).sec = s.sec := rfl
@[simp] theorem modSync_mem : (s.modSync g).mem = s.mem := rfl
@[simp] theorem modSync_debug : (s.modSync g).dbg = s.dbg := rfl
@[simp] theorem modSync_held : (s.modSync g).held = s.held := rfl
@[simp] theorem modSync_out : (s.modSync g).out = s.out := rfl
@[simp] theorem modSync_free : (s.modSync g).free = s.free := rfl
@[simp] theorem modSync_get (f : Fld) (ix : List Nat) : (s.modSync g).get f ix = s.get f ix := rfl
@[simp] theorem modSync_on (f : Fld) (ix : List Nat) : (s.modSync g).on f ix = s.on f ix := rfl

end modSync

section modStart
variable (s : State) (g : Start → Start)

@[simp] theorem modStart_pending : (s.modStart g).pending = s.pending := rfl
@[simp] theorem modStart_regs : (s.modStart g).regs = s.regs := rfl
@[simp] theorem modStart_pins : (s.modStart g).pins = s.pins := rfl
@[simp] theorem modStart_power : (s.modStart g).power = s.power := rfl
@[simp] theorem modStart_clock : (s.modStart g).clock = s.clock := rfl
@[simp] theorem modStart_boot : (s.modStart g).boot = s.boot := rfl
@[simp] theorem modStart_tally : (s.modStart g).tally = s.tally := rfl
@[simp] theorem modStart_ports : (s.modStart g).ports = s.ports := rfl
@[simp] theorem modStart_sync : (s.modStart g).sync = s.sync := rfl
@[simp] theorem modStart_start : (s.modStart g).start = g s.start := rfl
@[simp] theorem modStart_inaug : (s.modStart g).inaug = s.inaug := rfl
@[simp] theorem modStart_synth : (s.modStart g).synth = s.synth := rfl
@[simp] theorem modStart_weirs : (s.modStart g).weirs = s.weirs := rfl
@[simp] theorem modStart_red : (s.modStart g).red = s.red := rfl
@[simp] theorem modStart_mill : (s.modStart g).mill = s.mill := rfl
@[simp] theorem modStart_host : (s.modStart g).host = s.host := rfl
@[simp] theorem modStart_far : (s.modStart g).far = s.far := rfl
@[simp] theorem modStart_con : (s.modStart g).con = s.con := rfl
@[simp] theorem modStart_can : (s.modStart g).can = s.can := rfl
@[simp] theorem modStart_keys : (s.modStart g).keys = s.keys := rfl
@[simp] theorem modStart_conf : (s.modStart g).conf = s.conf := rfl
@[simp] theorem modStart_sec : (s.modStart g).sec = s.sec := rfl
@[simp] theorem modStart_mem : (s.modStart g).mem = s.mem := rfl
@[simp] theorem modStart_debug : (s.modStart g).dbg = s.dbg := rfl
@[simp] theorem modStart_held : (s.modStart g).held = s.held := rfl
@[simp] theorem modStart_out : (s.modStart g).out = s.out := rfl
@[simp] theorem modStart_free : (s.modStart g).free = s.free := rfl
@[simp] theorem modStart_get (f : Fld) (ix : List Nat) : (s.modStart g).get f ix = s.get f ix := rfl
@[simp] theorem modStart_on (f : Fld) (ix : List Nat) : (s.modStart g).on f ix = s.on f ix := rfl

end modStart

section modInaug
variable (s : State) (g : Inaug → Inaug)

@[simp] theorem modInaug_pending : (s.modInaug g).pending = s.pending := rfl
@[simp] theorem modInaug_regs : (s.modInaug g).regs = s.regs := rfl
@[simp] theorem modInaug_pins : (s.modInaug g).pins = s.pins := rfl
@[simp] theorem modInaug_power : (s.modInaug g).power = s.power := rfl
@[simp] theorem modInaug_clock : (s.modInaug g).clock = s.clock := rfl
@[simp] theorem modInaug_boot : (s.modInaug g).boot = s.boot := rfl
@[simp] theorem modInaug_tally : (s.modInaug g).tally = s.tally := rfl
@[simp] theorem modInaug_ports : (s.modInaug g).ports = s.ports := rfl
@[simp] theorem modInaug_sync : (s.modInaug g).sync = s.sync := rfl
@[simp] theorem modInaug_start : (s.modInaug g).start = s.start := rfl
@[simp] theorem modInaug_inaug : (s.modInaug g).inaug = g s.inaug := rfl
@[simp] theorem modInaug_synth : (s.modInaug g).synth = s.synth := rfl
@[simp] theorem modInaug_weirs : (s.modInaug g).weirs = s.weirs := rfl
@[simp] theorem modInaug_red : (s.modInaug g).red = s.red := rfl
@[simp] theorem modInaug_mill : (s.modInaug g).mill = s.mill := rfl
@[simp] theorem modInaug_host : (s.modInaug g).host = s.host := rfl
@[simp] theorem modInaug_far : (s.modInaug g).far = s.far := rfl
@[simp] theorem modInaug_con : (s.modInaug g).con = s.con := rfl
@[simp] theorem modInaug_can : (s.modInaug g).can = s.can := rfl
@[simp] theorem modInaug_keys : (s.modInaug g).keys = s.keys := rfl
@[simp] theorem modInaug_conf : (s.modInaug g).conf = s.conf := rfl
@[simp] theorem modInaug_sec : (s.modInaug g).sec = s.sec := rfl
@[simp] theorem modInaug_mem : (s.modInaug g).mem = s.mem := rfl
@[simp] theorem modInaug_debug : (s.modInaug g).dbg = s.dbg := rfl
@[simp] theorem modInaug_held : (s.modInaug g).held = s.held := rfl
@[simp] theorem modInaug_out : (s.modInaug g).out = s.out := rfl
@[simp] theorem modInaug_free : (s.modInaug g).free = s.free := rfl
@[simp] theorem modInaug_get (f : Fld) (ix : List Nat) : (s.modInaug g).get f ix = s.get f ix := rfl
@[simp] theorem modInaug_on (f : Fld) (ix : List Nat) : (s.modInaug g).on f ix = s.on f ix := rfl

end modInaug

section modSynth
variable (s : State) (g : Synth → Synth)

@[simp] theorem modSynth_pending : (s.modSynth g).pending = s.pending := rfl
@[simp] theorem modSynth_regs : (s.modSynth g).regs = s.regs := rfl
@[simp] theorem modSynth_pins : (s.modSynth g).pins = s.pins := rfl
@[simp] theorem modSynth_power : (s.modSynth g).power = s.power := rfl
@[simp] theorem modSynth_clock : (s.modSynth g).clock = s.clock := rfl
@[simp] theorem modSynth_boot : (s.modSynth g).boot = s.boot := rfl
@[simp] theorem modSynth_tally : (s.modSynth g).tally = s.tally := rfl
@[simp] theorem modSynth_ports : (s.modSynth g).ports = s.ports := rfl
@[simp] theorem modSynth_sync : (s.modSynth g).sync = s.sync := rfl
@[simp] theorem modSynth_start : (s.modSynth g).start = s.start := rfl
@[simp] theorem modSynth_inaug : (s.modSynth g).inaug = s.inaug := rfl
@[simp] theorem modSynth_synth : (s.modSynth g).synth = g s.synth := rfl
@[simp] theorem modSynth_weirs : (s.modSynth g).weirs = s.weirs := rfl
@[simp] theorem modSynth_red : (s.modSynth g).red = s.red := rfl
@[simp] theorem modSynth_mill : (s.modSynth g).mill = s.mill := rfl
@[simp] theorem modSynth_host : (s.modSynth g).host = s.host := rfl
@[simp] theorem modSynth_far : (s.modSynth g).far = s.far := rfl
@[simp] theorem modSynth_con : (s.modSynth g).con = s.con := rfl
@[simp] theorem modSynth_can : (s.modSynth g).can = s.can := rfl
@[simp] theorem modSynth_keys : (s.modSynth g).keys = s.keys := rfl
@[simp] theorem modSynth_conf : (s.modSynth g).conf = s.conf := rfl
@[simp] theorem modSynth_sec : (s.modSynth g).sec = s.sec := rfl
@[simp] theorem modSynth_mem : (s.modSynth g).mem = s.mem := rfl
@[simp] theorem modSynth_debug : (s.modSynth g).dbg = s.dbg := rfl
@[simp] theorem modSynth_held : (s.modSynth g).held = s.held := rfl
@[simp] theorem modSynth_out : (s.modSynth g).out = s.out := rfl
@[simp] theorem modSynth_free : (s.modSynth g).free = s.free := rfl
@[simp] theorem modSynth_get (f : Fld) (ix : List Nat) : (s.modSynth g).get f ix = s.get f ix := rfl
@[simp] theorem modSynth_on (f : Fld) (ix : List Nat) : (s.modSynth g).on f ix = s.on f ix := rfl

end modSynth

section modRed
variable (s : State) (g : Red → Red)

@[simp] theorem modRed_pending : (s.modRed g).pending = s.pending := rfl
@[simp] theorem modRed_regs : (s.modRed g).regs = s.regs := rfl
@[simp] theorem modRed_pins : (s.modRed g).pins = s.pins := rfl
@[simp] theorem modRed_power : (s.modRed g).power = s.power := rfl
@[simp] theorem modRed_clock : (s.modRed g).clock = s.clock := rfl
@[simp] theorem modRed_boot : (s.modRed g).boot = s.boot := rfl
@[simp] theorem modRed_tally : (s.modRed g).tally = s.tally := rfl
@[simp] theorem modRed_ports : (s.modRed g).ports = s.ports := rfl
@[simp] theorem modRed_sync : (s.modRed g).sync = s.sync := rfl
@[simp] theorem modRed_start : (s.modRed g).start = s.start := rfl
@[simp] theorem modRed_inaug : (s.modRed g).inaug = s.inaug := rfl
@[simp] theorem modRed_synth : (s.modRed g).synth = s.synth := rfl
@[simp] theorem modRed_weirs : (s.modRed g).weirs = s.weirs := rfl
@[simp] theorem modRed_red : (s.modRed g).red = g s.red := rfl
@[simp] theorem modRed_mill : (s.modRed g).mill = s.mill := rfl
@[simp] theorem modRed_host : (s.modRed g).host = s.host := rfl
@[simp] theorem modRed_far : (s.modRed g).far = s.far := rfl
@[simp] theorem modRed_con : (s.modRed g).con = s.con := rfl
@[simp] theorem modRed_can : (s.modRed g).can = s.can := rfl
@[simp] theorem modRed_keys : (s.modRed g).keys = s.keys := rfl
@[simp] theorem modRed_conf : (s.modRed g).conf = s.conf := rfl
@[simp] theorem modRed_sec : (s.modRed g).sec = s.sec := rfl
@[simp] theorem modRed_mem : (s.modRed g).mem = s.mem := rfl
@[simp] theorem modRed_debug : (s.modRed g).dbg = s.dbg := rfl
@[simp] theorem modRed_held : (s.modRed g).held = s.held := rfl
@[simp] theorem modRed_out : (s.modRed g).out = s.out := rfl
@[simp] theorem modRed_free : (s.modRed g).free = s.free := rfl
@[simp] theorem modRed_get (f : Fld) (ix : List Nat) : (s.modRed g).get f ix = s.get f ix := rfl
@[simp] theorem modRed_on (f : Fld) (ix : List Nat) : (s.modRed g).on f ix = s.on f ix := rfl

end modRed

section modMill
variable (s : State) (g : Mill → Mill)

@[simp] theorem modMill_pending : (s.modMill g).pending = s.pending := rfl
@[simp] theorem modMill_regs : (s.modMill g).regs = s.regs := rfl
@[simp] theorem modMill_pins : (s.modMill g).pins = s.pins := rfl
@[simp] theorem modMill_power : (s.modMill g).power = s.power := rfl
@[simp] theorem modMill_clock : (s.modMill g).clock = s.clock := rfl
@[simp] theorem modMill_boot : (s.modMill g).boot = s.boot := rfl
@[simp] theorem modMill_tally : (s.modMill g).tally = s.tally := rfl
@[simp] theorem modMill_ports : (s.modMill g).ports = s.ports := rfl
@[simp] theorem modMill_sync : (s.modMill g).sync = s.sync := rfl
@[simp] theorem modMill_start : (s.modMill g).start = s.start := rfl
@[simp] theorem modMill_inaug : (s.modMill g).inaug = s.inaug := rfl
@[simp] theorem modMill_synth : (s.modMill g).synth = s.synth := rfl
@[simp] theorem modMill_weirs : (s.modMill g).weirs = s.weirs := rfl
@[simp] theorem modMill_red : (s.modMill g).red = s.red := rfl
@[simp] theorem modMill_mill : (s.modMill g).mill = g s.mill := rfl
@[simp] theorem modMill_host : (s.modMill g).host = s.host := rfl
@[simp] theorem modMill_far : (s.modMill g).far = s.far := rfl
@[simp] theorem modMill_con : (s.modMill g).con = s.con := rfl
@[simp] theorem modMill_can : (s.modMill g).can = s.can := rfl
@[simp] theorem modMill_keys : (s.modMill g).keys = s.keys := rfl
@[simp] theorem modMill_conf : (s.modMill g).conf = s.conf := rfl
@[simp] theorem modMill_sec : (s.modMill g).sec = s.sec := rfl
@[simp] theorem modMill_mem : (s.modMill g).mem = s.mem := rfl
@[simp] theorem modMill_debug : (s.modMill g).dbg = s.dbg := rfl
@[simp] theorem modMill_held : (s.modMill g).held = s.held := rfl
@[simp] theorem modMill_out : (s.modMill g).out = s.out := rfl
@[simp] theorem modMill_free : (s.modMill g).free = s.free := rfl
@[simp] theorem modMill_get (f : Fld) (ix : List Nat) : (s.modMill g).get f ix = s.get f ix := rfl
@[simp] theorem modMill_on (f : Fld) (ix : List Nat) : (s.modMill g).on f ix = s.on f ix := rfl

end modMill

section modHost
variable (s : State) (g : HostIf → HostIf)

@[simp] theorem modHost_pending : (s.modHost g).pending = s.pending := rfl
@[simp] theorem modHost_regs : (s.modHost g).regs = s.regs := rfl
@[simp] theorem modHost_pins : (s.modHost g).pins = s.pins := rfl
@[simp] theorem modHost_power : (s.modHost g).power = s.power := rfl
@[simp] theorem modHost_clock : (s.modHost g).clock = s.clock := rfl
@[simp] theorem modHost_boot : (s.modHost g).boot = s.boot := rfl
@[simp] theorem modHost_tally : (s.modHost g).tally = s.tally := rfl
@[simp] theorem modHost_ports : (s.modHost g).ports = s.ports := rfl
@[simp] theorem modHost_sync : (s.modHost g).sync = s.sync := rfl
@[simp] theorem modHost_start : (s.modHost g).start = s.start := rfl
@[simp] theorem modHost_inaug : (s.modHost g).inaug = s.inaug := rfl
@[simp] theorem modHost_synth : (s.modHost g).synth = s.synth := rfl
@[simp] theorem modHost_weirs : (s.modHost g).weirs = s.weirs := rfl
@[simp] theorem modHost_red : (s.modHost g).red = s.red := rfl
@[simp] theorem modHost_mill : (s.modHost g).mill = s.mill := rfl
@[simp] theorem modHost_host : (s.modHost g).host = g s.host := rfl
@[simp] theorem modHost_far : (s.modHost g).far = s.far := rfl
@[simp] theorem modHost_con : (s.modHost g).con = s.con := rfl
@[simp] theorem modHost_can : (s.modHost g).can = s.can := rfl
@[simp] theorem modHost_keys : (s.modHost g).keys = s.keys := rfl
@[simp] theorem modHost_conf : (s.modHost g).conf = s.conf := rfl
@[simp] theorem modHost_sec : (s.modHost g).sec = s.sec := rfl
@[simp] theorem modHost_mem : (s.modHost g).mem = s.mem := rfl
@[simp] theorem modHost_debug : (s.modHost g).dbg = s.dbg := rfl
@[simp] theorem modHost_held : (s.modHost g).held = s.held := rfl
@[simp] theorem modHost_out : (s.modHost g).out = s.out := rfl
@[simp] theorem modHost_free : (s.modHost g).free = s.free := rfl
@[simp] theorem modHost_get (f : Fld) (ix : List Nat) : (s.modHost g).get f ix = s.get f ix := rfl
@[simp] theorem modHost_on (f : Fld) (ix : List Nat) : (s.modHost g).on f ix = s.on f ix := rfl

end modHost

section modFar
variable (s : State) (g : Far → Far)

@[simp] theorem modFar_pending : (s.modFar g).pending = s.pending := rfl
@[simp] theorem modFar_regs : (s.modFar g).regs = s.regs := rfl
@[simp] theorem modFar_pins : (s.modFar g).pins = s.pins := rfl
@[simp] theorem modFar_power : (s.modFar g).power = s.power := rfl
@[simp] theorem modFar_clock : (s.modFar g).clock = s.clock := rfl
@[simp] theorem modFar_boot : (s.modFar g).boot = s.boot := rfl
@[simp] theorem modFar_tally : (s.modFar g).tally = s.tally := rfl
@[simp] theorem modFar_ports : (s.modFar g).ports = s.ports := rfl
@[simp] theorem modFar_sync : (s.modFar g).sync = s.sync := rfl
@[simp] theorem modFar_start : (s.modFar g).start = s.start := rfl
@[simp] theorem modFar_inaug : (s.modFar g).inaug = s.inaug := rfl
@[simp] theorem modFar_synth : (s.modFar g).synth = s.synth := rfl
@[simp] theorem modFar_weirs : (s.modFar g).weirs = s.weirs := rfl
@[simp] theorem modFar_red : (s.modFar g).red = s.red := rfl
@[simp] theorem modFar_mill : (s.modFar g).mill = s.mill := rfl
@[simp] theorem modFar_host : (s.modFar g).host = s.host := rfl
@[simp] theorem modFar_far : (s.modFar g).far = g s.far := rfl
@[simp] theorem modFar_con : (s.modFar g).con = s.con := rfl
@[simp] theorem modFar_can : (s.modFar g).can = s.can := rfl
@[simp] theorem modFar_keys : (s.modFar g).keys = s.keys := rfl
@[simp] theorem modFar_conf : (s.modFar g).conf = s.conf := rfl
@[simp] theorem modFar_sec : (s.modFar g).sec = s.sec := rfl
@[simp] theorem modFar_mem : (s.modFar g).mem = s.mem := rfl
@[simp] theorem modFar_debug : (s.modFar g).dbg = s.dbg := rfl
@[simp] theorem modFar_held : (s.modFar g).held = s.held := rfl
@[simp] theorem modFar_out : (s.modFar g).out = s.out := rfl
@[simp] theorem modFar_free : (s.modFar g).free = s.free := rfl
@[simp] theorem modFar_get (f : Fld) (ix : List Nat) : (s.modFar g).get f ix = s.get f ix := rfl
@[simp] theorem modFar_on (f : Fld) (ix : List Nat) : (s.modFar g).on f ix = s.on f ix := rfl

end modFar

section modKeys
variable (s : State) (g : LineKeys → LineKeys)

@[simp] theorem modKeys_pending : (s.modKeys g).pending = s.pending := rfl
@[simp] theorem modKeys_regs : (s.modKeys g).regs = s.regs := rfl
@[simp] theorem modKeys_pins : (s.modKeys g).pins = s.pins := rfl
@[simp] theorem modKeys_power : (s.modKeys g).power = s.power := rfl
@[simp] theorem modKeys_clock : (s.modKeys g).clock = s.clock := rfl
@[simp] theorem modKeys_boot : (s.modKeys g).boot = s.boot := rfl
@[simp] theorem modKeys_tally : (s.modKeys g).tally = s.tally := rfl
@[simp] theorem modKeys_ports : (s.modKeys g).ports = s.ports := rfl
@[simp] theorem modKeys_sync : (s.modKeys g).sync = s.sync := rfl
@[simp] theorem modKeys_start : (s.modKeys g).start = s.start := rfl
@[simp] theorem modKeys_inaug : (s.modKeys g).inaug = s.inaug := rfl
@[simp] theorem modKeys_synth : (s.modKeys g).synth = s.synth := rfl
@[simp] theorem modKeys_weirs : (s.modKeys g).weirs = s.weirs := rfl
@[simp] theorem modKeys_red : (s.modKeys g).red = s.red := rfl
@[simp] theorem modKeys_mill : (s.modKeys g).mill = s.mill := rfl
@[simp] theorem modKeys_host : (s.modKeys g).host = s.host := rfl
@[simp] theorem modKeys_far : (s.modKeys g).far = s.far := rfl
@[simp] theorem modKeys_con : (s.modKeys g).con = s.con := rfl
@[simp] theorem modKeys_can : (s.modKeys g).can = s.can := rfl
@[simp] theorem modKeys_keys : (s.modKeys g).keys = g s.keys := rfl
@[simp] theorem modKeys_conf : (s.modKeys g).conf = s.conf := rfl
@[simp] theorem modKeys_sec : (s.modKeys g).sec = s.sec := rfl
@[simp] theorem modKeys_mem : (s.modKeys g).mem = s.mem := rfl
@[simp] theorem modKeys_debug : (s.modKeys g).dbg = s.dbg := rfl
@[simp] theorem modKeys_held : (s.modKeys g).held = s.held := rfl
@[simp] theorem modKeys_out : (s.modKeys g).out = s.out := rfl
@[simp] theorem modKeys_free : (s.modKeys g).free = s.free := rfl
@[simp] theorem modKeys_get (f : Fld) (ix : List Nat) : (s.modKeys g).get f ix = s.get f ix := rfl
@[simp] theorem modKeys_on (f : Fld) (ix : List Nat) : (s.modKeys g).on f ix = s.on f ix := rfl

end modKeys

section modCon
variable (s : State) (g : Con → Con)

@[simp] theorem modCon_pending : (s.modCon g).pending = s.pending := rfl
@[simp] theorem modCon_regs : (s.modCon g).regs = s.regs := rfl
@[simp] theorem modCon_pins : (s.modCon g).pins = s.pins := rfl
@[simp] theorem modCon_power : (s.modCon g).power = s.power := rfl
@[simp] theorem modCon_clock : (s.modCon g).clock = s.clock := rfl
@[simp] theorem modCon_boot : (s.modCon g).boot = s.boot := rfl
@[simp] theorem modCon_tally : (s.modCon g).tally = s.tally := rfl
@[simp] theorem modCon_ports : (s.modCon g).ports = s.ports := rfl
@[simp] theorem modCon_sync : (s.modCon g).sync = s.sync := rfl
@[simp] theorem modCon_start : (s.modCon g).start = s.start := rfl
@[simp] theorem modCon_inaug : (s.modCon g).inaug = s.inaug := rfl
@[simp] theorem modCon_synth : (s.modCon g).synth = s.synth := rfl
@[simp] theorem modCon_weirs : (s.modCon g).weirs = s.weirs := rfl
@[simp] theorem modCon_red : (s.modCon g).red = s.red := rfl
@[simp] theorem modCon_mill : (s.modCon g).mill = s.mill := rfl
@[simp] theorem modCon_host : (s.modCon g).host = s.host := rfl
@[simp] theorem modCon_far : (s.modCon g).far = s.far := rfl
@[simp] theorem modCon_con : (s.modCon g).con = g s.con := rfl
@[simp] theorem modCon_can : (s.modCon g).can = s.can := rfl
@[simp] theorem modCon_keys : (s.modCon g).keys = s.keys := rfl
@[simp] theorem modCon_conf : (s.modCon g).conf = s.conf := rfl
@[simp] theorem modCon_sec : (s.modCon g).sec = s.sec := rfl
@[simp] theorem modCon_mem : (s.modCon g).mem = s.mem := rfl
@[simp] theorem modCon_debug : (s.modCon g).dbg = s.dbg := rfl
@[simp] theorem modCon_held : (s.modCon g).held = s.held := rfl
@[simp] theorem modCon_out : (s.modCon g).out = s.out := rfl
@[simp] theorem modCon_free : (s.modCon g).free = s.free := rfl
@[simp] theorem modCon_get (f : Fld) (ix : List Nat) : (s.modCon g).get f ix = s.get f ix := rfl
@[simp] theorem modCon_on (f : Fld) (ix : List Nat) : (s.modCon g).on f ix = s.on f ix := rfl

end modCon

section modCan
variable (s : State) (g : Can → Can)

@[simp] theorem modCan_pending : (s.modCan g).pending = s.pending := rfl
@[simp] theorem modCan_regs : (s.modCan g).regs = s.regs := rfl
@[simp] theorem modCan_pins : (s.modCan g).pins = s.pins := rfl
@[simp] theorem modCan_power : (s.modCan g).power = s.power := rfl
@[simp] theorem modCan_clock : (s.modCan g).clock = s.clock := rfl
@[simp] theorem modCan_boot : (s.modCan g).boot = s.boot := rfl
@[simp] theorem modCan_tally : (s.modCan g).tally = s.tally := rfl
@[simp] theorem modCan_ports : (s.modCan g).ports = s.ports := rfl
@[simp] theorem modCan_sync : (s.modCan g).sync = s.sync := rfl
@[simp] theorem modCan_start : (s.modCan g).start = s.start := rfl
@[simp] theorem modCan_inaug : (s.modCan g).inaug = s.inaug := rfl
@[simp] theorem modCan_synth : (s.modCan g).synth = s.synth := rfl
@[simp] theorem modCan_weirs : (s.modCan g).weirs = s.weirs := rfl
@[simp] theorem modCan_red : (s.modCan g).red = s.red := rfl
@[simp] theorem modCan_mill : (s.modCan g).mill = s.mill := rfl
@[simp] theorem modCan_host : (s.modCan g).host = s.host := rfl
@[simp] theorem modCan_far : (s.modCan g).far = s.far := rfl
@[simp] theorem modCan_con : (s.modCan g).con = s.con := rfl
@[simp] theorem modCan_can : (s.modCan g).can = g s.can := rfl
@[simp] theorem modCan_keys : (s.modCan g).keys = s.keys := rfl
@[simp] theorem modCan_conf : (s.modCan g).conf = s.conf := rfl
@[simp] theorem modCan_sec : (s.modCan g).sec = s.sec := rfl
@[simp] theorem modCan_mem : (s.modCan g).mem = s.mem := rfl
@[simp] theorem modCan_debug : (s.modCan g).dbg = s.dbg := rfl
@[simp] theorem modCan_held : (s.modCan g).held = s.held := rfl
@[simp] theorem modCan_out : (s.modCan g).out = s.out := rfl
@[simp] theorem modCan_free : (s.modCan g).free = s.free := rfl
@[simp] theorem modCan_get (f : Fld) (ix : List Nat) : (s.modCan g).get f ix = s.get f ix := rfl
@[simp] theorem modCan_on (f : Fld) (ix : List Nat) : (s.modCan g).on f ix = s.on f ix := rfl

end modCan

section modSec
variable (s : State) (g : Sec → Sec)

@[simp] theorem modSec_pending : (s.modSec g).pending = s.pending := rfl
@[simp] theorem modSec_regs : (s.modSec g).regs = s.regs := rfl
@[simp] theorem modSec_pins : (s.modSec g).pins = s.pins := rfl
@[simp] theorem modSec_power : (s.modSec g).power = s.power := rfl
@[simp] theorem modSec_clock : (s.modSec g).clock = s.clock := rfl
@[simp] theorem modSec_boot : (s.modSec g).boot = s.boot := rfl
@[simp] theorem modSec_tally : (s.modSec g).tally = s.tally := rfl
@[simp] theorem modSec_ports : (s.modSec g).ports = s.ports := rfl
@[simp] theorem modSec_sync : (s.modSec g).sync = s.sync := rfl
@[simp] theorem modSec_start : (s.modSec g).start = s.start := rfl
@[simp] theorem modSec_inaug : (s.modSec g).inaug = s.inaug := rfl
@[simp] theorem modSec_synth : (s.modSec g).synth = s.synth := rfl
@[simp] theorem modSec_weirs : (s.modSec g).weirs = s.weirs := rfl
@[simp] theorem modSec_red : (s.modSec g).red = s.red := rfl
@[simp] theorem modSec_mill : (s.modSec g).mill = s.mill := rfl
@[simp] theorem modSec_host : (s.modSec g).host = s.host := rfl
@[simp] theorem modSec_far : (s.modSec g).far = s.far := rfl
@[simp] theorem modSec_con : (s.modSec g).con = s.con := rfl
@[simp] theorem modSec_can : (s.modSec g).can = s.can := rfl
@[simp] theorem modSec_keys : (s.modSec g).keys = s.keys := rfl
@[simp] theorem modSec_conf : (s.modSec g).conf = s.conf := rfl
@[simp] theorem modSec_sec : (s.modSec g).sec = g s.sec := rfl
@[simp] theorem modSec_mem : (s.modSec g).mem = s.mem := rfl
@[simp] theorem modSec_debug : (s.modSec g).dbg = s.dbg := rfl
@[simp] theorem modSec_held : (s.modSec g).held = s.held := rfl
@[simp] theorem modSec_out : (s.modSec g).out = s.out := rfl
@[simp] theorem modSec_free : (s.modSec g).free = s.free := rfl
@[simp] theorem modSec_get (f : Fld) (ix : List Nat) : (s.modSec g).get f ix = s.get f ix := rfl
@[simp] theorem modSec_on (f : Fld) (ix : List Nat) : (s.modSec g).on f ix = s.on f ix := rfl

end modSec

section modMem
variable (s : State) (g : Mem → Mem)

@[simp] theorem modMem_pending : (s.modMem g).pending = s.pending := rfl
@[simp] theorem modMem_regs : (s.modMem g).regs = s.regs := rfl
@[simp] theorem modMem_pins : (s.modMem g).pins = s.pins := rfl
@[simp] theorem modMem_power : (s.modMem g).power = s.power := rfl
@[simp] theorem modMem_clock : (s.modMem g).clock = s.clock := rfl
@[simp] theorem modMem_boot : (s.modMem g).boot = s.boot := rfl
@[simp] theorem modMem_tally : (s.modMem g).tally = s.tally := rfl
@[simp] theorem modMem_ports : (s.modMem g).ports = s.ports := rfl
@[simp] theorem modMem_sync : (s.modMem g).sync = s.sync := rfl
@[simp] theorem modMem_start : (s.modMem g).start = s.start := rfl
@[simp] theorem modMem_inaug : (s.modMem g).inaug = s.inaug := rfl
@[simp] theorem modMem_synth : (s.modMem g).synth = s.synth := rfl
@[simp] theorem modMem_weirs : (s.modMem g).weirs = s.weirs := rfl
@[simp] theorem modMem_red : (s.modMem g).red = s.red := rfl
@[simp] theorem modMem_mill : (s.modMem g).mill = s.mill := rfl
@[simp] theorem modMem_host : (s.modMem g).host = s.host := rfl
@[simp] theorem modMem_far : (s.modMem g).far = s.far := rfl
@[simp] theorem modMem_con : (s.modMem g).con = s.con := rfl
@[simp] theorem modMem_can : (s.modMem g).can = s.can := rfl
@[simp] theorem modMem_keys : (s.modMem g).keys = s.keys := rfl
@[simp] theorem modMem_conf : (s.modMem g).conf = s.conf := rfl
@[simp] theorem modMem_sec : (s.modMem g).sec = s.sec := rfl
@[simp] theorem modMem_mem : (s.modMem g).mem = g s.mem := rfl
@[simp] theorem modMem_debug : (s.modMem g).dbg = s.dbg := rfl
@[simp] theorem modMem_held : (s.modMem g).held = s.held := rfl
@[simp] theorem modMem_out : (s.modMem g).out = s.out := rfl
@[simp] theorem modMem_free : (s.modMem g).free = s.free := rfl
@[simp] theorem modMem_get (f : Fld) (ix : List Nat) : (s.modMem g).get f ix = s.get f ix := rfl
@[simp] theorem modMem_on (f : Fld) (ix : List Nat) : (s.modMem g).on f ix = s.on f ix := rfl

end modMem

section modDebug
variable (s : State) (g : Debug → Debug)

@[simp] theorem modDebug_pending : (s.modDebug g).pending = s.pending := rfl
@[simp] theorem modDebug_regs : (s.modDebug g).regs = s.regs := rfl
@[simp] theorem modDebug_pins : (s.modDebug g).pins = s.pins := rfl
@[simp] theorem modDebug_power : (s.modDebug g).power = s.power := rfl
@[simp] theorem modDebug_clock : (s.modDebug g).clock = s.clock := rfl
@[simp] theorem modDebug_boot : (s.modDebug g).boot = s.boot := rfl
@[simp] theorem modDebug_tally : (s.modDebug g).tally = s.tally := rfl
@[simp] theorem modDebug_ports : (s.modDebug g).ports = s.ports := rfl
@[simp] theorem modDebug_sync : (s.modDebug g).sync = s.sync := rfl
@[simp] theorem modDebug_start : (s.modDebug g).start = s.start := rfl
@[simp] theorem modDebug_inaug : (s.modDebug g).inaug = s.inaug := rfl
@[simp] theorem modDebug_synth : (s.modDebug g).synth = s.synth := rfl
@[simp] theorem modDebug_weirs : (s.modDebug g).weirs = s.weirs := rfl
@[simp] theorem modDebug_red : (s.modDebug g).red = s.red := rfl
@[simp] theorem modDebug_mill : (s.modDebug g).mill = s.mill := rfl
@[simp] theorem modDebug_host : (s.modDebug g).host = s.host := rfl
@[simp] theorem modDebug_far : (s.modDebug g).far = s.far := rfl
@[simp] theorem modDebug_con : (s.modDebug g).con = s.con := rfl
@[simp] theorem modDebug_can : (s.modDebug g).can = s.can := rfl
@[simp] theorem modDebug_keys : (s.modDebug g).keys = s.keys := rfl
@[simp] theorem modDebug_conf : (s.modDebug g).conf = s.conf := rfl
@[simp] theorem modDebug_sec : (s.modDebug g).sec = s.sec := rfl
@[simp] theorem modDebug_mem : (s.modDebug g).mem = s.mem := rfl
@[simp] theorem modDebug_debug : (s.modDebug g).dbg = g s.dbg := rfl
@[simp] theorem modDebug_held : (s.modDebug g).held = s.held := rfl
@[simp] theorem modDebug_out : (s.modDebug g).out = s.out := rfl
@[simp] theorem modDebug_free : (s.modDebug g).free = s.free := rfl
@[simp] theorem modDebug_get (f : Fld) (ix : List Nat) : (s.modDebug g).get f ix = s.get f ix := rfl
@[simp] theorem modDebug_on (f : Fld) (ix : List Nat) : (s.modDebug g).on f ix = s.on f ix := rfl

end modDebug

section modConf
variable (s : State) (g : Conf → Conf)

@[simp] theorem modConf_pending : (s.modConf g).pending = s.pending := rfl
@[simp] theorem modConf_regs : (s.modConf g).regs = s.regs := rfl
@[simp] theorem modConf_pins : (s.modConf g).pins = s.pins := rfl
@[simp] theorem modConf_power : (s.modConf g).power = s.power := rfl
@[simp] theorem modConf_clock : (s.modConf g).clock = s.clock := rfl
@[simp] theorem modConf_boot : (s.modConf g).boot = s.boot := rfl
@[simp] theorem modConf_tally : (s.modConf g).tally = s.tally := rfl
@[simp] theorem modConf_ports : (s.modConf g).ports = s.ports := rfl
@[simp] theorem modConf_sync : (s.modConf g).sync = s.sync := rfl
@[simp] theorem modConf_start : (s.modConf g).start = s.start := rfl
@[simp] theorem modConf_inaug : (s.modConf g).inaug = s.inaug := rfl
@[simp] theorem modConf_synth : (s.modConf g).synth = s.synth := rfl
@[simp] theorem modConf_weirs : (s.modConf g).weirs = s.weirs := rfl
@[simp] theorem modConf_red : (s.modConf g).red = s.red := rfl
@[simp] theorem modConf_mill : (s.modConf g).mill = s.mill := rfl
@[simp] theorem modConf_host : (s.modConf g).host = s.host := rfl
@[simp] theorem modConf_far : (s.modConf g).far = s.far := rfl
@[simp] theorem modConf_con : (s.modConf g).con = s.con := rfl
@[simp] theorem modConf_can : (s.modConf g).can = s.can := rfl
@[simp] theorem modConf_keys : (s.modConf g).keys = s.keys := rfl
@[simp] theorem modConf_conf : (s.modConf g).conf = g s.conf := rfl
@[simp] theorem modConf_sec : (s.modConf g).sec = s.sec := rfl
@[simp] theorem modConf_mem : (s.modConf g).mem = s.mem := rfl
@[simp] theorem modConf_debug : (s.modConf g).dbg = s.dbg := rfl
@[simp] theorem modConf_held : (s.modConf g).held = s.held := rfl
@[simp] theorem modConf_out : (s.modConf g).out = s.out := rfl
@[simp] theorem modConf_free : (s.modConf g).free = s.free := rfl
@[simp] theorem modConf_get (f : Fld) (ix : List Nat) : (s.modConf g).get f ix = s.get f ix := rfl
@[simp] theorem modConf_on (f : Fld) (ix : List Nat) : (s.modConf g).on f ix = s.on f ix := rfl

end modConf

section emit
variable (s : State) (o : Out)

@[simp] theorem emit_pending : (s.emit o).pending = s.pending := rfl
@[simp] theorem emit_regs : (s.emit o).regs = s.regs := rfl
@[simp] theorem emit_pins : (s.emit o).pins = s.pins := rfl
@[simp] theorem emit_power : (s.emit o).power = s.power := rfl
@[simp] theorem emit_clock : (s.emit o).clock = s.clock := rfl
@[simp] theorem emit_boot : (s.emit o).boot = s.boot := rfl
@[simp] theorem emit_tally : (s.emit o).tally = s.tally := rfl
@[simp] theorem emit_ports : (s.emit o).ports = s.ports := rfl
@[simp] theorem emit_sync : (s.emit o).sync = s.sync := rfl
@[simp] theorem emit_start : (s.emit o).start = s.start := rfl
@[simp] theorem emit_inaug : (s.emit o).inaug = s.inaug := rfl
@[simp] theorem emit_synth : (s.emit o).synth = s.synth := rfl
@[simp] theorem emit_weirs : (s.emit o).weirs = s.weirs := rfl
@[simp] theorem emit_red : (s.emit o).red = s.red := rfl
@[simp] theorem emit_mill : (s.emit o).mill = s.mill := rfl
@[simp] theorem emit_host : (s.emit o).host = s.host := rfl
@[simp] theorem emit_far : (s.emit o).far = s.far := rfl
@[simp] theorem emit_con : (s.emit o).con = s.con := rfl
@[simp] theorem emit_can : (s.emit o).can = s.can := rfl
@[simp] theorem emit_keys : (s.emit o).keys = s.keys := rfl
@[simp] theorem emit_conf : (s.emit o).conf = s.conf := rfl
@[simp] theorem emit_sec : (s.emit o).sec = s.sec := rfl
@[simp] theorem emit_mem : (s.emit o).mem = s.mem := rfl
@[simp] theorem emit_debug : (s.emit o).dbg = s.dbg := rfl
@[simp] theorem emit_held : (s.emit o).held = s.held := rfl
@[simp] theorem emit_out : (s.emit o).out = o :: s.out := rfl
@[simp] theorem emit_free : (s.emit o).free = s.free := rfl
@[simp] theorem emit_get (f : Fld) (ix : List Nat) : (s.emit o).get f ix = s.get f ix := rfl
@[simp] theorem emit_on (f : Fld) (ix : List Nat) : (s.emit o).on f ix = s.on f ix := rfl

end emit

section modPort
variable (s : State) (n : Nat) (g : Port → Port)

@[simp] theorem modPort_pending : (s.modPort n g).pending = s.pending := rfl
@[simp] theorem modPort_regs : (s.modPort n g).regs = s.regs := rfl
@[simp] theorem modPort_pins : (s.modPort n g).pins = s.pins := rfl
@[simp] theorem modPort_power : (s.modPort n g).power = s.power := rfl
@[simp] theorem modPort_clock : (s.modPort n g).clock = s.clock := rfl
@[simp] theorem modPort_boot : (s.modPort n g).boot = s.boot := rfl
@[simp] theorem modPort_tally : (s.modPort n g).tally = s.tally := rfl
@[simp] theorem modPort_ports : (s.modPort n g).ports = listMod s.ports n g := rfl
@[simp] theorem modPort_sync : (s.modPort n g).sync = s.sync := rfl
@[simp] theorem modPort_start : (s.modPort n g).start = s.start := rfl
@[simp] theorem modPort_inaug : (s.modPort n g).inaug = s.inaug := rfl
@[simp] theorem modPort_synth : (s.modPort n g).synth = s.synth := rfl
@[simp] theorem modPort_weirs : (s.modPort n g).weirs = s.weirs := rfl
@[simp] theorem modPort_red : (s.modPort n g).red = s.red := rfl
@[simp] theorem modPort_mill : (s.modPort n g).mill = s.mill := rfl
@[simp] theorem modPort_host : (s.modPort n g).host = s.host := rfl
@[simp] theorem modPort_far : (s.modPort n g).far = s.far := rfl
@[simp] theorem modPort_con : (s.modPort n g).con = s.con := rfl
@[simp] theorem modPort_can : (s.modPort n g).can = s.can := rfl
@[simp] theorem modPort_keys : (s.modPort n g).keys = s.keys := rfl
@[simp] theorem modPort_conf : (s.modPort n g).conf = s.conf := rfl
@[simp] theorem modPort_sec : (s.modPort n g).sec = s.sec := rfl
@[simp] theorem modPort_mem : (s.modPort n g).mem = s.mem := rfl
@[simp] theorem modPort_debug : (s.modPort n g).dbg = s.dbg := rfl
@[simp] theorem modPort_held : (s.modPort n g).held = s.held := rfl
@[simp] theorem modPort_out : (s.modPort n g).out = s.out := rfl
@[simp] theorem modPort_free : (s.modPort n g).free = s.free := rfl
@[simp] theorem modPort_get (f : Fld) (ix : List Nat) : (s.modPort n g).get f ix = s.get f ix := rfl
@[simp] theorem modPort_on (f : Fld) (ix : List Nat) : (s.modPort n g).on f ix = s.on f ix := rfl

end modPort

section set
variable (s : State) (fl : Fld) (ix : List Nat) (v : Nat)

@[simp] theorem set_pending : (s.set fl ix v).pending = s.pending := rfl
@[simp] theorem set_regs : (s.set fl ix v).regs = Sparse.write fl.rst (fl.key ix) (v % 2 ^ fl.width) s.regs := rfl
@[simp] theorem set_pins : (s.set fl ix v).pins = s.pins := rfl
@[simp] theorem set_power : (s.set fl ix v).power = s.power := rfl
@[simp] theorem set_clock : (s.set fl ix v).clock = s.clock := rfl
@[simp] theorem set_boot : (s.set fl ix v).boot = s.boot := rfl
@[simp] theorem set_tally : (s.set fl ix v).tally = s.tally := rfl
@[simp] theorem set_ports : (s.set fl ix v).ports = s.ports := rfl
@[simp] theorem set_sync : (s.set fl ix v).sync = s.sync := rfl
@[simp] theorem set_start : (s.set fl ix v).start = s.start := rfl
@[simp] theorem set_inaug : (s.set fl ix v).inaug = s.inaug := rfl
@[simp] theorem set_synth : (s.set fl ix v).synth = s.synth := rfl
@[simp] theorem set_weirs : (s.set fl ix v).weirs = s.weirs := rfl
@[simp] theorem set_red : (s.set fl ix v).red = s.red := rfl
@[simp] theorem set_mill : (s.set fl ix v).mill = s.mill := rfl
@[simp] theorem set_host : (s.set fl ix v).host = s.host := rfl
@[simp] theorem set_far : (s.set fl ix v).far = s.far := rfl
@[simp] theorem set_con : (s.set fl ix v).con = s.con := rfl
@[simp] theorem set_can : (s.set fl ix v).can = s.can := rfl
@[simp] theorem set_keys : (s.set fl ix v).keys = s.keys := rfl
@[simp] theorem set_conf : (s.set fl ix v).conf = s.conf := rfl
@[simp] theorem set_sec : (s.set fl ix v).sec = s.sec := rfl
@[simp] theorem set_mem : (s.set fl ix v).mem = s.mem := rfl
@[simp] theorem set_debug : (s.set fl ix v).dbg = s.dbg := rfl
@[simp] theorem set_held : (s.set fl ix v).held = s.held := rfl
@[simp] theorem set_out : (s.set fl ix v).out = s.out := rfl
@[simp] theorem set_free : (s.set fl ix v).free = s.free := rfl

end set

section flag
variable (s : State) (fl : Fld) (ix : List Nat) (b : Bool)

@[simp] theorem flag_pending : (s.flag fl ix b).pending = s.pending := rfl
@[simp] theorem flag_pins : (s.flag fl ix b).pins = s.pins := rfl
@[simp] theorem flag_power : (s.flag fl ix b).power = s.power := rfl
@[simp] theorem flag_clock : (s.flag fl ix b).clock = s.clock := rfl
@[simp] theorem flag_boot : (s.flag fl ix b).boot = s.boot := rfl
@[simp] theorem flag_tally : (s.flag fl ix b).tally = s.tally := rfl
@[simp] theorem flag_ports : (s.flag fl ix b).ports = s.ports := rfl
@[simp] theorem flag_sync : (s.flag fl ix b).sync = s.sync := rfl
@[simp] theorem flag_start : (s.flag fl ix b).start = s.start := rfl
@[simp] theorem flag_inaug : (s.flag fl ix b).inaug = s.inaug := rfl
@[simp] theorem flag_synth : (s.flag fl ix b).synth = s.synth := rfl
@[simp] theorem flag_weirs : (s.flag fl ix b).weirs = s.weirs := rfl
@[simp] theorem flag_red : (s.flag fl ix b).red = s.red := rfl
@[simp] theorem flag_mill : (s.flag fl ix b).mill = s.mill := rfl
@[simp] theorem flag_host : (s.flag fl ix b).host = s.host := rfl
@[simp] theorem flag_far : (s.flag fl ix b).far = s.far := rfl
@[simp] theorem flag_con : (s.flag fl ix b).con = s.con := rfl
@[simp] theorem flag_can : (s.flag fl ix b).can = s.can := rfl
@[simp] theorem flag_keys : (s.flag fl ix b).keys = s.keys := rfl
@[simp] theorem flag_conf : (s.flag fl ix b).conf = s.conf := rfl
@[simp] theorem flag_sec : (s.flag fl ix b).sec = s.sec := rfl
@[simp] theorem flag_mem : (s.flag fl ix b).mem = s.mem := rfl
@[simp] theorem flag_debug : (s.flag fl ix b).dbg = s.dbg := rfl
@[simp] theorem flag_held : (s.flag fl ix b).held = s.held := rfl
@[simp] theorem flag_out : (s.flag fl ix b).out = s.out := rfl
@[simp] theorem flag_free : (s.flag fl ix b).free = s.free := rfl

end flag

section inc
variable (s : State) (fl : Fld) (ix : List Nat) (n : Nat)

@[simp] theorem inc_pending : (s.inc fl ix n).pending = s.pending := rfl
@[simp] theorem inc_pins : (s.inc fl ix n).pins = s.pins := rfl
@[simp] theorem inc_power : (s.inc fl ix n).power = s.power := rfl
@[simp] theorem inc_clock : (s.inc fl ix n).clock = s.clock := rfl
@[simp] theorem inc_boot : (s.inc fl ix n).boot = s.boot := rfl
@[simp] theorem inc_tally : (s.inc fl ix n).tally = s.tally := rfl
@[simp] theorem inc_ports : (s.inc fl ix n).ports = s.ports := rfl
@[simp] theorem inc_sync : (s.inc fl ix n).sync = s.sync := rfl
@[simp] theorem inc_start : (s.inc fl ix n).start = s.start := rfl
@[simp] theorem inc_inaug : (s.inc fl ix n).inaug = s.inaug := rfl
@[simp] theorem inc_synth : (s.inc fl ix n).synth = s.synth := rfl
@[simp] theorem inc_weirs : (s.inc fl ix n).weirs = s.weirs := rfl
@[simp] theorem inc_red : (s.inc fl ix n).red = s.red := rfl
@[simp] theorem inc_mill : (s.inc fl ix n).mill = s.mill := rfl
@[simp] theorem inc_host : (s.inc fl ix n).host = s.host := rfl
@[simp] theorem inc_far : (s.inc fl ix n).far = s.far := rfl
@[simp] theorem inc_con : (s.inc fl ix n).con = s.con := rfl
@[simp] theorem inc_can : (s.inc fl ix n).can = s.can := rfl
@[simp] theorem inc_keys : (s.inc fl ix n).keys = s.keys := rfl
@[simp] theorem inc_conf : (s.inc fl ix n).conf = s.conf := rfl
@[simp] theorem inc_sec : (s.inc fl ix n).sec = s.sec := rfl
@[simp] theorem inc_mem : (s.inc fl ix n).mem = s.mem := rfl
@[simp] theorem inc_debug : (s.inc fl ix n).dbg = s.dbg := rfl
@[simp] theorem inc_held : (s.inc fl ix n).held = s.held := rfl
@[simp] theorem inc_out : (s.inc fl ix n).out = s.out := rfl
@[simp] theorem inc_free : (s.inc fl ix n).free = s.free := rfl

end inc

section setBits
variable (s : State) (fl : Fld) (ix : List Nat) (v : Nat)

@[simp] theorem setBits_pending : (s.setBits fl ix v).pending = s.pending := rfl
@[simp] theorem setBits_pins : (s.setBits fl ix v).pins = s.pins := rfl
@[simp] theorem setBits_power : (s.setBits fl ix v).power = s.power := rfl
@[simp] theorem setBits_clock : (s.setBits fl ix v).clock = s.clock := rfl
@[simp] theorem setBits_boot : (s.setBits fl ix v).boot = s.boot := rfl
@[simp] theorem setBits_tally : (s.setBits fl ix v).tally = s.tally := rfl
@[simp] theorem setBits_ports : (s.setBits fl ix v).ports = s.ports := rfl
@[simp] theorem setBits_sync : (s.setBits fl ix v).sync = s.sync := rfl
@[simp] theorem setBits_start : (s.setBits fl ix v).start = s.start := rfl
@[simp] theorem setBits_inaug : (s.setBits fl ix v).inaug = s.inaug := rfl
@[simp] theorem setBits_synth : (s.setBits fl ix v).synth = s.synth := rfl
@[simp] theorem setBits_weirs : (s.setBits fl ix v).weirs = s.weirs := rfl
@[simp] theorem setBits_red : (s.setBits fl ix v).red = s.red := rfl
@[simp] theorem setBits_mill : (s.setBits fl ix v).mill = s.mill := rfl
@[simp] theorem setBits_host : (s.setBits fl ix v).host = s.host := rfl
@[simp] theorem setBits_far : (s.setBits fl ix v).far = s.far := rfl
@[simp] theorem setBits_con : (s.setBits fl ix v).con = s.con := rfl
@[simp] theorem setBits_can : (s.setBits fl ix v).can = s.can := rfl
@[simp] theorem setBits_keys : (s.setBits fl ix v).keys = s.keys := rfl
@[simp] theorem setBits_conf : (s.setBits fl ix v).conf = s.conf := rfl
@[simp] theorem setBits_sec : (s.setBits fl ix v).sec = s.sec := rfl
@[simp] theorem setBits_mem : (s.setBits fl ix v).mem = s.mem := rfl
@[simp] theorem setBits_debug : (s.setBits fl ix v).dbg = s.dbg := rfl
@[simp] theorem setBits_held : (s.setBits fl ix v).held = s.held := rfl
@[simp] theorem setBits_out : (s.setBits fl ix v).out = s.out := rfl
@[simp] theorem setBits_free : (s.setBits fl ix v).free = s.free := rfl

end setBits

section clrBits
variable (s : State) (fl : Fld) (ix : List Nat) (v : Nat)

@[simp] theorem clrBits_pending : (s.clrBits fl ix v).pending = s.pending := rfl
@[simp] theorem clrBits_pins : (s.clrBits fl ix v).pins = s.pins := rfl
@[simp] theorem clrBits_power : (s.clrBits fl ix v).power = s.power := rfl
@[simp] theorem clrBits_clock : (s.clrBits fl ix v).clock = s.clock := rfl
@[simp] theorem clrBits_boot : (s.clrBits fl ix v).boot = s.boot := rfl
@[simp] theorem clrBits_tally : (s.clrBits fl ix v).tally = s.tally := rfl
@[simp] theorem clrBits_ports : (s.clrBits fl ix v).ports = s.ports := rfl
@[simp] theorem clrBits_sync : (s.clrBits fl ix v).sync = s.sync := rfl
@[simp] theorem clrBits_start : (s.clrBits fl ix v).start = s.start := rfl
@[simp] theorem clrBits_inaug : (s.clrBits fl ix v).inaug = s.inaug := rfl
@[simp] theorem clrBits_synth : (s.clrBits fl ix v).synth = s.synth := rfl
@[simp] theorem clrBits_weirs : (s.clrBits fl ix v).weirs = s.weirs := rfl
@[simp] theorem clrBits_red : (s.clrBits fl ix v).red = s.red := rfl
@[simp] theorem clrBits_mill : (s.clrBits fl ix v).mill = s.mill := rfl
@[simp] theorem clrBits_host : (s.clrBits fl ix v).host = s.host := rfl
@[simp] theorem clrBits_far : (s.clrBits fl ix v).far = s.far := rfl
@[simp] theorem clrBits_con : (s.clrBits fl ix v).con = s.con := rfl
@[simp] theorem clrBits_can : (s.clrBits fl ix v).can = s.can := rfl
@[simp] theorem clrBits_keys : (s.clrBits fl ix v).keys = s.keys := rfl
@[simp] theorem clrBits_conf : (s.clrBits fl ix v).conf = s.conf := rfl
@[simp] theorem clrBits_sec : (s.clrBits fl ix v).sec = s.sec := rfl
@[simp] theorem clrBits_mem : (s.clrBits fl ix v).mem = s.mem := rfl
@[simp] theorem clrBits_debug : (s.clrBits fl ix v).dbg = s.dbg := rfl
@[simp] theorem clrBits_held : (s.clrBits fl ix v).held = s.held := rfl
@[simp] theorem clrBits_out : (s.clrBits fl ix v).out = s.out := rfl
@[simp] theorem clrBits_free : (s.clrBits fl ix v).free = s.free := rfl

end clrBits

section setInt
variable (s : State) (fl : Fld) (ix : List Nat) (v : Int)

@[simp] theorem setInt_pending : (s.setInt fl ix v).pending = s.pending := rfl
@[simp] theorem setInt_pins : (s.setInt fl ix v).pins = s.pins := rfl
@[simp] theorem setInt_power : (s.setInt fl ix v).power = s.power := rfl
@[simp] theorem setInt_clock : (s.setInt fl ix v).clock = s.clock := rfl
@[simp] theorem setInt_boot : (s.setInt fl ix v).boot = s.boot := rfl
@[simp] theorem setInt_tally : (s.setInt fl ix v).tally = s.tally := rfl
@[simp] theorem setInt_ports : (s.setInt fl ix v).ports = s.ports := rfl
@[simp] theorem setInt_sync : (s.setInt fl ix v).sync = s.sync := rfl
@[simp] theorem setInt_start : (s.setInt fl ix v).start = s.start := rfl
@[simp] theorem setInt_inaug : (s.setInt fl ix v).inaug = s.inaug := rfl
@[simp] theorem setInt_synth : (s.setInt fl ix v).synth = s.synth := rfl
@[simp] theorem setInt_weirs : (s.setInt fl ix v).weirs = s.weirs := rfl
@[simp] theorem setInt_red : (s.setInt fl ix v).red = s.red := rfl
@[simp] theorem setInt_mill : (s.setInt fl ix v).mill = s.mill := rfl
@[simp] theorem setInt_host : (s.setInt fl ix v).host = s.host := rfl
@[simp] theorem setInt_far : (s.setInt fl ix v).far = s.far := rfl
@[simp] theorem setInt_con : (s.setInt fl ix v).con = s.con := rfl
@[simp] theorem setInt_can : (s.setInt fl ix v).can = s.can := rfl
@[simp] theorem setInt_keys : (s.setInt fl ix v).keys = s.keys := rfl
@[simp] theorem setInt_conf : (s.setInt fl ix v).conf = s.conf := rfl
@[simp] theorem setInt_sec : (s.setInt fl ix v).sec = s.sec := rfl
@[simp] theorem setInt_mem : (s.setInt fl ix v).mem = s.mem := rfl
@[simp] theorem setInt_debug : (s.setInt fl ix v).dbg = s.dbg := rfl
@[simp] theorem setInt_held : (s.setInt fl ix v).held = s.held := rfl
@[simp] theorem setInt_out : (s.setInt fl ix v).out = s.out := rfl
@[simp] theorem setInt_free : (s.setInt fl ix v).free = s.free := rfl

end setInt

/-- Fields at different places are different entries of the register file: a write of one leaves the other. -/
theorem get_set_other (s : State) (f g : Fld) (ix jx : List Nat) (v : Nat) (h : g.key jx ≠ f.key ix) :
    (s.set f ix v).get g jx = s.get g jx := by
  simp [get, set, Sparse.find_write_other h]

/-- A field that has been written reads the value, cut to its width. -/
theorem get_set_same (s : State) (f : Fld) (ix : List Nat) (v : Nat) (h : Sparse.sorted s.regs = true) :
    (s.set f ix v).get f ix = v % 2 ^ f.width := by
  simpa [get, set] using Sparse.read_write f.rst (f.key ix) (f.key ix) (v % 2 ^ f.width) h

/-- A write keeps the register file in order. -/
theorem sorted_set (s : State) (f : Fld) (ix : List Nat) (v : Nat) (h : Sparse.sorted s.regs = true) :
    Sparse.sorted (s.set f ix v).regs = true := Sparse.sorted_write _ _ _ h

/-- Setting a field to its reset value takes it out of the register file: a field that is not listed reads its reset value (R13). -/
theorem get_unlisted (s : State) (f : Fld) (ix : List Nat) (h : Sparse.find (f.key ix) s.regs = none) : s.get f ix = f.rst := by
  simp [get, h]

end State

end Sys2Proof.Machine
end

