-- ==== Sys2Proof/Laws/Memory.lean ====
section
/-!
SUPPORT. The window of tenant 16: every operation on it keeps its canonical form, and what a byte reads after one byte is written.
-/

namespace Sys2Proof.Machine

/-- A test that holds of every entry and of a new one holds after it is put. -/
theorem Sparse.all_put {α : Type} (p : Nat × α → Bool) (k : Nat) (v : α) {l : List (Nat × α)} (hv : p (k, v) = true)
    (hl : l.all p = true) : (Sparse.put k v l).all p = true := by
  induction l with
  | nil => simp [Sparse.put, hv]
  | cons e l ih =>
    simp only [List.all_cons, Bool.and_eq_true] at hl
    simp only [Sparse.put]
    split
    · simp [hv, hl.1, hl.2]
    · split
      · simp [hv, hl.2]
      · simp [hl.1, ih hl.2]

/-- A test that holds of every entry holds after one is deleted. -/
theorem Sparse.all_del {α : Type} (p : Nat × α → Bool) (k : Nat) {l : List (Nat × α)} (hl : l.all p = true) :
    (Sparse.del k l).all p = true := by
  induction l with
  | nil => rfl
  | cons e l ih =>
    simp only [List.all_cons, Bool.and_eq_true] at hl
    simp only [Sparse.del]
    split
    · exact hl.2
    · simp [hl.1, ih hl.2]

/-- One byte written keeps the canonical form. -/
theorem Memory.wf_write {m : List Host.Cell} (h : Memory.wf m = true) (a : Nat) (b : Byte) :
    Memory.wf (Sparse.write 0 (a % winSize) b m) = true := by
  simp only [Memory.wf, Bool.and_eq_true] at *
  refine ⟨Sparse.sorted_write _ _ _ h.1, ?_⟩
  unfold Sparse.write
  split
  · exact Sparse.all_del _ _ h.2
  · next hb =>
    refine Sparse.all_put _ _ _ ?_ h.2
    simp only [Bool.and_eq_true, decide_eq_true_eq, bne_iff_ne]
    exact ⟨Nat.mod_lt _ (by decide), hb⟩

/-- Bytes written into the window keep the canonical form. -/
theorem State.winPut_wf (d : List Byte) : ∀ (m : List Host.Cell) (off : Nat), Memory.wf m = true → Memory.wf (State.winPut m off d) = true := by
  induction d with
  | nil => intro m off h; exact h
  | cons b d ih => intro m off h; exact ih _ _ (Memory.wf_write h off b)

/-- WRITE_WIN, result data and completions of tenant 16 keep the window's canonical form. -/
theorem State.winWrite_wf (s : State) (off : Nat) (d : List Byte) (h : Memory.wf s.host.window = true) :
    Memory.wf (s.winWrite off d).host.window = true := State.winPut_wf d _ _ h

/-- A tenant's memory written, whichever tenant's, keeps the window's canonical form. -/
theorem State.memWrite_wf (s : State) (t a : Nat) (d : List Byte) (h : Memory.wf s.host.window = true) :
    Memory.wf (s.memWrite t a d).host.window = true := by
  unfold State.memWrite
  split
  · exact h
  · split
    · exact State.winWrite_wf s a d h
    · exact h

/-- The window of the reset state is in canonical form. -/
theorem State.reset_window_wf : Memory.wf State.reset.host.window = true := rfl

/-- One byte written is read at its offset, and every other offset reads as before. -/
theorem State.window_read_write {m : List Host.Cell} (h : Memory.wf m = true) (a k : Nat) (b : Byte) :
    (Sparse.find a (Sparse.write 0 k b m)).getD 0 = if a = k then b else (Sparse.find a m).getD 0 := by
  simp only [Memory.wf, Bool.and_eq_true] at h
  exact Sparse.read_write 0 a k b h.1

end Sys2Proof.Machine
end

