-- ==== Sys2Proof/Laws/Keeps.lean ====
section
/-!
SUPPORT. What every operation on the node's state keeps (State.Keeps), and the rules by which the lemmas of Laws/Keeps*.lean are proved: one
lemma for each way of making a state from another.
-/

namespace Sys2Proof.Machine

namespace State

variable {b s t : State}

theorem Keeps.refl (s : State) : Keeps s s := ⟨rfl, ⟨[], rfl⟩, id, id, id, Nat.le_refl _, Nat.le_refl _⟩

/-- One operation after another. -/
theorem Keeps.trans (h : Keeps b s) (k : Keeps s t) : Keeps b t := by
  obtain ⟨l, hl⟩ := h.out
  obtain ⟨m, hm⟩ := k.out
  exact ⟨k.pending.trans h.pending, ⟨m ++ l, by rw [hm, hl, List.append_assoc]⟩, fun x => k.regs (h.regs x),
    fun x => k.window (h.window x), fun x => k.tally (h.tally x), Nat.le_trans h.fuses k.fuses, Nat.le_trans h.lifecycle k.lifecycle⟩

/-- A change of other parts of the state. -/
theorem Keeps.other (h : Keeps b s) (p : t.pending = s.pending) (o : t.out = s.out) (r : t.regs = s.regs)
    (w : t.host.window = s.host.window) (y : t.tally = s.tally) (z : t.sec = s.sec) : Keeps b t :=
  h.trans ⟨p, ⟨[], by simp [o]⟩, fun x => by rw [r]; exact x, fun x => by rw [w]; exact x, fun x => by rw [y]; exact x,
    by rw [z], by rw [z]⟩

theorem set_keeps (h : Keeps b s) (f : Fld) (ix : List Nat) (v : Nat) : Keeps b (s.set f ix v) :=
  h.trans ⟨rfl, ⟨[], rfl⟩, sorted_set s f ix v, id, id, Nat.le_refl _, Nat.le_refl _⟩

theorem emit_keeps (h : Keeps b s) (o : Out) : Keeps b (s.emit o) := h.trans ⟨rfl, ⟨[o], rfl⟩, id, id, id, Nat.le_refl _, Nat.le_refl _⟩

theorem ite_keeps {c : Prop} [Decidable c] {x y : State} (hx : Keeps b x) (hy : Keeps b y) : Keeps b (if c then x else y) := by
  split
  · exact hx
  · exact hy

theorem ite_snd_keeps {α : Type} {c : Prop} [Decidable c] {x y : α × State} (hx : Keeps b x.2) (hy : Keeps b y.2) :
    Keeps b (if c then x else y).2 := by
  split
  · exact hx
  · exact hy

theorem foldl_keeps {α : Type} (h : Keeps b s) (l : List α) (f : State → α → State) (hf : ∀ s x, Keeps b s → Keeps b (f s x)) :
    Keeps b (l.foldl f s) := by
  induction l generalizing s with
  | nil => exact h
  | cons x l ih => exact ih (hf s x h)

theorem foldl_snd_keeps {α β : Type} (p : β × State) (h : Keeps b p.2) (l : List α) (f : β × State → α → β × State)
    (hf : ∀ p x, Keeps b p.2 → Keeps b (f p x).2) : Keeps b (l.foldl f p).2 := by
  induction l generalizing p with
  | nil => exact h
  | cons x l ih => exact ih _ (hf p x h)

theorem foldl_third_keeps {α β γ : Type} (p : β × γ × State) (h : Keeps b p.2.2) (l : List α) (f : β × γ × State → α → β × γ × State)
    (hf : ∀ p x, Keeps b p.2.2 → Keeps b (f p x).2.2) : Keeps b (l.foldl f p).2.2 := by
  induction l generalizing p with
  | nil => exact h
  | cons x l ih => exact ih _ (hf p x h)

/-- A state that an operation answers beside something else. -/
theorem Keeps.ofSnd {α : Type} {p : α × State} {v : α} (hp : Keeps b p.2) (e : p = (v, s)) : Keeps b s := by
  rw [e] at hp
  exact hp

theorem Keeps.ofThird {α β : Type} {p : α × β × State} {v : α} {w : β} (hp : Keeps b p.2.2) (e : p = (v, w, s)) : Keeps b s := by
  rw [e] at hp
  exact hp

theorem Keeps.ofFourth {α β γ : Type} {p : α × β × γ × State} {v : α} {w : β} {u : γ} (hp : Keeps b p.2.2.2) (e : p = (v, w, u, s)) :
    Keeps b s := by
  rw [e] at hp
  exact hp

theorem modHost_keeps (h : Keeps b s) (f : HostIf → HostIf) (hf : ∀ x, (f x).window = x.window) : Keeps b (s.modHost f) :=
  h.other rfl rfl rfl (hf _) rfl rfl

theorem when_keeps (h : Keeps b s) (c : Bool) (f : State → State) (hf : ∀ s, Keeps b s → Keeps b (f s)) : Keeps b (s.when c f) := by
  unfold State.when
  exact ite_keeps (hf s h) h

theorem modClock_keeps (h : Keeps b s) (f : Clock → Clock) : Keeps b (s.modClock f) := h.other rfl rfl rfl rfl rfl rfl

theorem modBoot_keeps (h : Keeps b s) (f : Boot → Boot) : Keeps b (s.modBoot f) := h.other rfl rfl rfl rfl rfl rfl

theorem modPower_keeps (h : Keeps b s) (f : Power → Power) : Keeps b (s.modPower f) := h.other rfl rfl rfl rfl rfl rfl

theorem modPins_keeps (h : Keeps b s) (f : Pins → Pins) : Keeps b (s.modPins f) := h.other rfl rfl rfl rfl rfl rfl

theorem modTally_keeps (h : Keeps b s) (f : Tally → Tally) (hf : ∀ x : Tally, x.bounded → (f x).bounded) : Keeps b (s.modTally f) :=
  h.trans ⟨rfl, ⟨[], rfl⟩, id, id, hf _, Nat.le_refl _, Nat.le_refl _⟩

theorem modSync_keeps (h : Keeps b s) (f : Sync → Sync) : Keeps b (s.modSync f) := h.other rfl rfl rfl rfl rfl rfl

theorem modStart_keeps (h : Keeps b s) (f : Start → Start) : Keeps b (s.modStart f) := h.other rfl rfl rfl rfl rfl rfl

theorem modInaug_keeps (h : Keeps b s) (f : Inaug → Inaug) : Keeps b (s.modInaug f) := h.other rfl rfl rfl rfl rfl rfl

theorem modSynth_keeps (h : Keeps b s) (f : Synth → Synth) : Keeps b (s.modSynth f) := h.other rfl rfl rfl rfl rfl rfl

theorem modRed_keeps (h : Keeps b s) (f : Red → Red) : Keeps b (s.modRed f) := h.other rfl rfl rfl rfl rfl rfl

theorem modMill_keeps (h : Keeps b s) (f : Mill → Mill) : Keeps b (s.modMill f) := h.other rfl rfl rfl rfl rfl rfl

theorem modFar_keeps (h : Keeps b s) (f : Far → Far) : Keeps b (s.modFar f) := h.other rfl rfl rfl rfl rfl rfl

theorem modKeys_keeps (h : Keeps b s) (f : LineKeys → LineKeys) : Keeps b (s.modKeys f) := h.other rfl rfl rfl rfl rfl rfl

theorem modCon_keeps (h : Keeps b s) (f : Con → Con) : Keeps b (s.modCon f) := h.other rfl rfl rfl rfl rfl rfl

theorem modCan_keeps (h : Keeps b s) (f : Can → Can) : Keeps b (s.modCan f) := h.other rfl rfl rfl rfl rfl rfl

theorem modSec_keeps (h : Keeps b s) (f : Sec → Sec) (hf : ∀ x : Sec, x.fuses ≤ (f x).fuses ∧ x.lifecycle ≤ (f x).lifecycle) :
    Keeps b (s.modSec f) :=
  h.trans ⟨rfl, ⟨[], rfl⟩, id, id, id, (hf _).1, (hf _).2⟩

theorem modMem_keeps (h : Keeps b s) (f : Mem → Mem) : Keeps b (s.modMem f) := h.other rfl rfl rfl rfl rfl rfl

theorem modDebug_keeps (h : Keeps b s) (f : Debug → Debug) : Keeps b (s.modDebug f) := h.other rfl rfl rfl rfl rfl rfl

theorem modConf_keeps (h : Keeps b s) (f : Conf → Conf) : Keeps b (s.modConf f) := h.other rfl rfl rfl rfl rfl rfl

theorem modPort_keeps (h : Keeps b s) (n : Nat) (f : Port → Port) : Keeps b (s.modPort n f) := h.other rfl rfl rfl rfl rfl rfl

theorem take_keeps (h : Keeps b s) (w : Nat) : Keeps b (s.take w).2 := h.other rfl rfl rfl rfl rfl rfl

theorem takeRandom_keeps (h : Keeps b s) (n : Nat) : Keeps b (s.takeRandom n).2 := h.other rfl rfl rfl rfl rfl rfl

end State

end Sys2Proof.Machine
end

