-- ==== Sys2Proof/Laws/KeepsLine.lean ====
section
/-!
SUPPORT. One lemma for each operation and each command: what it keeps (State.Keeps). Here: the tally queue, the bank arbiter, the areas of the tally book, the line layout, line ports, host queues, weirs, line transmission and reception, the consist switch and the millpond.
-/

namespace Sys2Proof.Machine

open State

theorem State.flag_keeps {z s : State} (h : Keeps z s) (f : Fld) (ix : List Nat) (b : Bool) : Keeps z (State.flag s f ix b) := by
  unfold State.flag
  repeat' first
    | with_reducible assumption
    | intro _
    | exact rfl
    | with_reducible apply ite_keeps
    | with_reducible apply State.set_keeps

theorem State.inc_keeps {b s : State} (h : Keeps b s) (f : Fld) (ix : List Nat) (n : Nat) : Keeps b (State.inc s f ix n) := by
  unfold State.inc
  repeat' first
    | with_reducible assumption
    | intro _
    | exact rfl
    | with_reducible apply ite_keeps
    | with_reducible apply State.set_keeps

theorem State.setBits_keeps {b s : State} (h : Keeps b s) (f : Fld) (ix : List Nat) (m : Nat) : Keeps b (State.setBits s f ix m) := by
  unfold State.setBits
  repeat' first
    | with_reducible assumption
    | intro _
    | exact rfl
    | with_reducible apply ite_keeps
    | with_reducible apply State.set_keeps

theorem State.clrBits_keeps {b s : State} (h : Keeps b s) (f : Fld) (ix : List Nat) (m : Nat) : Keeps b (State.clrBits s f ix m) := by
  unfold State.clrBits
  repeat' first
    | with_reducible assumption
    | intro _
    | exact rfl
    | with_reducible apply ite_keeps
    | with_reducible apply State.set_keeps

theorem State.setInt_keeps {b s : State} (h : Keeps b s) (f : Fld) (ix : List Nat) (v : Int) : Keeps b (State.setInt s f ix v) := by
  unfold State.setInt
  repeat' first
    | with_reducible assumption
    | intro _
    | exact rfl
    | with_reducible apply ite_keeps
    | with_reducible apply State.set_keeps

theorem State.modJob_keeps {b s : State} (h : Keeps b s) (u : Nat) (f : Job → Job) : Keeps b (State.modJob s u f) := by
  unfold State.modJob
  repeat' first
    | with_reducible assumption
    | intro _
    | exact rfl
    | with_reducible apply ite_keeps
    | with_reducible apply State.modClock_keeps

theorem State.showLoad_keeps {b s : State} (h : Keeps b s) (j l : Nat) : Keeps b (State.showLoad s j l) := by
  unfold State.showLoad
  repeat' first
    | with_reducible assumption
    | ((try lift_lets); intro x; clear_value x)
    | intro _
    | exact rfl
    | with_reducible apply ite_keeps
    | with_reducible apply State.modClock_keeps

theorem State.ran_keeps {b s : State} (h : Keeps b s) (u l : Nat) : Keeps b (State.ran s u l) := by
  unfold State.ran
  repeat' first
    | with_reducible assumption
    | ((try lift_lets); intro x; refine (fun (_ : Keeps b x) => ?_) ?_; (on_goal 2 => subst x); clear_value x)
    | intro _
    | exact rfl
    | with_reducible apply ite_keeps
    | with_reducible refine foldl_keeps ?_ _ _ (fun _ _ _ => ?_)
    | with_reducible refine foldl_snd_keeps _ ?_ _ _ (fun _ _ _ => ?_)
    | with_reducible apply State.modJob_keeps
    | with_reducible apply State.showLoad_keeps

theorem State.did_keeps {b s : State} (h : Keeps b s) (turn : Nat) (o : Once) : Keeps b (State.did s turn o) := by
  unfold State.did
  repeat' first
    | with_reducible assumption
    | intro _
    | exact rfl
    | with_reducible apply ite_keeps
    | with_reducible apply State.modClock_keeps

theorem State.consoleLine_keeps {b s : State} (h : Keeps b s) (r : Rec) : Keeps b (State.consoleLine s r) := by
  unfold State.consoleLine
  repeat' first
    | with_reducible assumption
    | intro _
    | exact rfl
    | with_reducible apply ite_keeps
    | with_reducible apply State.emit_keeps
    | with_reducible apply State.inc_keeps
    | with_reducible apply State.modClock_keeps

/-- A queue that takes one more record stays within its capacity (R526, R527, R548). -/
theorem State.queueWith_bound {s : State} {code flags : Nat} (h : s.hasPlace code flags = true) (r : Rec)
    (hq : s.tally.queue.length ≤ 4096) : (s.queueWith r).length ≤ 4096 := by
  simp only [State.hasPlace, Bool.or_eq_true, decide_eq_true_eq] at h
  unfold State.queueWith
  rw [List.length_append, List.length_singleton]
  by_cases hd : s.on Reg.TALLY_STAT_DEGRADED = true
  · simp only [hd, Bool.true_and, decide_eq_true_eq]
    split
    · rw [List.length_tail]; omega
    · omega
  · have h1 : s.tally.queue.length < 4096 := by
      rcases h with h | h
      · exact absurd h hd
      · split at h <;> omega
    simp only [hd, Bool.false_and, Bool.false_eq_true, if_false]
    omega

theorem State.queueRec_keeps {b s : State} (h : Keeps b s) {code flags : Nat} (hp : s.hasPlace code flags = true) (r : Rec) :
    Keeps b (State.queueRec s r) := by
  have k : Keeps s (s.modTally fun t => { t with queue := s.queueWith r }) :=
    ⟨rfl, ⟨[], rfl⟩, id, id, fun x => ⟨State.queueWith_bound hp r x.1, x.2.1, x.2.2⟩, Nat.le_refl _, Nat.le_refl _⟩
  exact State.set_keeps (State.set_keeps (h.trans k) _ _ _) _ _ _

/-- The emergency general ring stays within its 1,008 places (Table 20-4). -/
theorem State.emerWith_bound (s : State) (r : Rec) (h : s.tally.emer.length ≤ 1008) : (s.emerWith r).length ≤ 1008 := by
  unfold State.emerWith
  split
  · rw [List.length_append, List.length_singleton, List.length_tail]; omega
  · rw [List.length_append, List.length_singleton]; omega

theorem State.emerCopy_keeps {b s : State} (h : Keeps b s) (r : Rec) : Keeps b (State.emerCopy s r) := by
  unfold State.emerCopy
  split
  · exact h
  · split
    · rename_i l _ _
      have k : Keeps s (s.modTally fun t => { t with
          emer := s.emerWith r, emerLast := if l then some s.clock.optime else t.emerLast }) :=
        ⟨rfl, ⟨[], rfl⟩, id, id, fun x => ⟨x.1, State.emerWith_bound s r x.2.1, x.2.2⟩, Nat.le_refl _, Nat.le_refl _⟩
      exact State.set_keeps (h.trans k) _ _ _
    · exact State.inc_keeps h _ _ _

theorem State.enqueue_keeps {b s : State} (h : Keeps b s) (code sev src flags p0 p1 p2 : Nat) :
    Keeps b (State.enqueue s code sev src flags p0 p1 p2) := by
  unfold State.enqueue
  split
  · next hp => exact State.consoleLine_keeps (State.emerCopy_keeps (State.queueRec_keeps h hp _) _) _
  · exact State.modTally_keeps (State.inc_keeps h _ _ _) _ (fun _ h => h)

theorem State.record_keeps {b s : State} (h : Keeps b s) (code sev src p1 p2 : Nat) : Keeps b (State.record s code sev src p1 p2) := by
  unfold State.record
  repeat' first
    | with_reducible assumption
    | intro _
    | exact rfl
    | with_reducible apply ite_keeps
    | with_reducible apply State.enqueue_keeps

theorem State.sluiced_keeps {b s : State} (h : Keeps b s) (code sev src p0 p1 p2 : Nat) : Keeps b (State.sluiced s code sev src p0 p1 p2) := by
  unfold State.sluiced
  repeat' first
    | with_reducible assumption
    | ((try lift_lets); intro x; clear_value x)
    | intro _
    | exact rfl
    | with_reducible apply ite_keeps
    | with_reducible apply State.enqueue_keeps
    | with_reducible apply State.inc_keeps
    | ((with_reducible apply State.modTally_keeps); on_goal 2 => exact fun _ h => h)
    | with_reducible apply State.modTally_keeps
    | with_reducible apply State.set_keeps
    | split

theorem State.recordS_keeps {b s : State} (h : Keeps b s) (code sev src p1 p2 : Nat) : Keeps b (State.recordS s code sev src p1 p2) := by
  unfold State.recordS
  repeat' first
    | with_reducible assumption
    | intro _
    | exact rfl
    | with_reducible apply ite_keeps
    | with_reducible apply State.sluiced_keeps

theorem State.recordT_keeps {b s : State} (h : Keeps b s) (code sev src p1 p2 : Nat) : Keeps b (State.recordT s code sev src p1 p2) := by
  unfold State.recordT
  repeat' first
    | with_reducible assumption
    | intro _
    | exact rfl
    | with_reducible apply ite_keeps
    | with_reducible apply State.enqueue_keeps

theorem State.secRefuse_keeps {b s : State} (h : Keeps b s) (m a : Nat) : Keeps b (State.secRefuse s m a) := by
  unfold State.secRefuse
  repeat' first
    | with_reducible assumption
    | intro _
    | exact rfl
    | with_reducible apply ite_keeps
    | with_reducible apply State.inc_keeps
    | with_reducible apply State.recordS_keeps
    | with_reducible apply State.set_keeps

theorem State.memGrant_keeps {b s : State} (h : Keeps b s) (q : MemReq) : Keeps b (State.memGrant s q) := by
  unfold State.memGrant
  repeat' first
    | with_reducible assumption
    | intro _
    | exact rfl
    | with_reducible apply ite_keeps
    | with_reducible apply State.modMem_keeps

theorem State.memWait_keeps {b s : State} (h : Keeps b s) (q : MemReq) : Keeps b (State.memWait s q) := by
  unfold State.memWait
  repeat' first
    | with_reducible assumption
    | intro _
    | exact rfl
    | with_reducible apply ite_keeps
    | with_reducible apply State.modMem_keeps

theorem State.memAccess_keeps {b s : State} (h : Keeps b s) (m a : Nat) : Keeps b (State.memAccess s m a) := by
  unfold State.memAccess
  repeat' first
    | with_reducible assumption
    | intro _
    | exact rfl
    | with_reducible apply ite_keeps
    | with_reducible apply State.memWait_keeps
    | with_reducible apply State.secRefuse_keeps

theorem State.memLose_keeps {b s : State} (h : Keeps b s) (lost : Bool) (q : MemReq) : Keeps b (State.memLose s lost q) := by
  unfold State.memLose
  repeat' first
    | with_reducible assumption
    | ((try lift_lets); intro x; refine (fun (_ : Keeps b x) => ?_) ?_; (on_goal 2 => subst x); clear_value x)
    | intro _
    | exact rfl
    | with_reducible apply ite_keeps
    | with_reducible apply State.inc_keeps
    | with_reducible apply State.modMem_keeps
    | split

theorem State.setLayout_keeps {b s : State} (h : Keeps b s) (stop : Bool) (prof n : Nat) : Keeps b (State.setLayout s stop prof n) := by
  unfold State.setLayout
  repeat' first
    | with_reducible assumption
    | ((try lift_lets); intro x; refine (fun (_ : Keeps b x) => ?_) ?_; (on_goal 2 => subst x); clear_value x)
    | ((try lift_lets); intro x; clear_value x)
    | intro _
    | exact rfl
    | with_reducible apply ite_keeps
    | with_reducible apply State.flag_keeps
    | with_reducible apply State.set_keeps

theorem State.stopLayout_keeps {b s : State} (h : Keeps b s) : Keeps b (State.stopLayout s) := by
  unfold State.stopLayout
  repeat' first
    | with_reducible assumption
    | intro _
    | exact rfl
    | with_reducible apply ite_keeps
    | with_reducible apply State.setLayout_keeps

theorem State.showHops_keeps {b s : State} (h : Keeps b s) : Keeps b (State.showHops s) := by
  unfold State.showHops
  repeat' first
    | with_reducible assumption
    | ((try lift_lets); intro x; clear_value x)
    | intro _
    | exact rfl
    | with_reducible apply ite_keeps
    | with_reducible apply State.set_keeps

theorem State.learnH_keeps {b s : State} (hh : Keeps b s) (e : Nat) (h : Nat) : Keeps b (State.learnH s e h) := by
  unfold State.learnH
  repeat' first
    | with_reducible assumption
    | intro _
    | exact rfl
    | with_reducible apply ite_keeps
    | with_reducible apply State.modInaug_keeps
    | with_reducible apply State.showHops_keeps

theorem State.showLuid_keeps {b s : State} (h : Keeps b s) : Keeps b (State.showLuid s) := by
  unfold State.showLuid
  repeat' first
    | with_reducible assumption
    | intro _
    | exact rfl
    | with_reducible apply ite_keeps
    | with_reducible apply State.set_keeps

theorem State.winWrite_keeps {b s : State} (h : Keeps b s) (off : Nat) (d : List Byte) : Keeps b (s.winWrite off d) :=
  h.trans ⟨rfl, ⟨[], rfl⟩, id, State.winWrite_wf s off d, id, Nat.le_refl _, Nat.le_refl _⟩

theorem State.memWrite_keeps {b s : State} (h : Keeps b s) (t addr : Nat) (d : List Byte) : Keeps b (State.memWrite s t addr d) := by
  unfold State.memWrite
  repeat' first
    | with_reducible assumption
    | intro _
    | exact rfl
    | with_reducible apply ite_keeps
    | with_reducible apply State.emit_keeps
    | with_reducible apply State.winWrite_keeps

theorem State.msix_keeps {b s : State} (h : Keeps b s) (t v : Nat) : Keeps b (State.msix s t v) := by
  unfold State.msix
  repeat' first
    | with_reducible assumption
    | ((try lift_lets); intro x; clear_value x)
    | intro _
    | exact rfl
    | with_reducible apply ite_keeps
    | with_reducible apply State.emit_keeps
    | with_reducible apply State.modHost_keeps

theorem State.signal_keeps {b s : State} (h : Keeps b s) (t bit vec : Nat) : Keeps b (State.signal s t bit vec) := by
  unfold State.signal
  repeat' first
    | with_reducible assumption
    | intro _
    | exact rfl
    | with_reducible apply ite_keeps
    | with_reducible apply State.msix_keeps
    | with_reducible apply State.set_keeps
    | with_reducible apply State.setBits_keeps

theorem State.tnErr_keeps {b s : State} (h : Keeps b s) (t : Nat) (f : Fld) : Keeps b (State.tnErr s t f) := by
  unfold State.tnErr
  repeat' first
    | with_reducible assumption
    | ((try lift_lets); intro x; refine (fun (_ : Keeps b x) => ?_) ?_; (on_goal 2 => subst x); clear_value x)
    | intro _
    | exact rfl
    | with_reducible apply ite_keeps
    | with_reducible apply State.set_keeps
    | with_reducible apply State.signal_keeps

theorem State.gpioEdge_keeps {b s : State} (h : Keeps b s) (i : Nat) (rise : Bool) : Keeps b (State.gpioEdge s i rise) := by
  unfold State.gpioEdge
  repeat' first
    | with_reducible assumption
    | ((try lift_lets); intro x; refine (fun (_ : Keeps b x) => ?_) ?_; (on_goal 2 => subst x); clear_value x)
    | intro _
    | exact rfl
    | with_reducible apply ite_keeps
    | with_reducible apply State.msix_keeps
    | with_reducible apply State.setBits_keeps

theorem State.gpioSettle_keeps {b s : State} (h : Keeps b s) : Keeps b (State.gpioSettle s) := by
  unfold State.gpioSettle
  repeat' first
    | with_reducible assumption
    | ((try lift_lets); intro x; clear_value x)
    | intro _
    | exact rfl
    | with_reducible apply ite_keeps
    | with_reducible refine foldl_keeps ?_ _ _ (fun _ _ _ => ?_)
    | with_reducible refine foldl_snd_keeps _ ?_ _ _ (fun _ _ _ => ?_)
    | with_reducible apply State.gpioEdge_keeps
    | with_reducible apply State.set_keeps

theorem State.modQueue_keeps {b s : State} (h : Keeps b s) (t q : Nat) (f : Queue → Queue) : Keeps b (State.modQueue s t q f) := by
  unfold State.modQueue
  repeat' first
    | with_reducible assumption
    | intro _
    | exact rfl
    | with_reducible apply ite_keeps
    | with_reducible apply State.modHost_keeps

theorem State.showFlight_keeps {b s : State} (h : Keeps b s) (t q : Nat) : Keeps b (State.showFlight s t q) := by
  unfold State.showFlight
  repeat' first
    | with_reducible assumption
    | ((try lift_lets); intro x; refine (fun (_ : Keeps b x) => ?_) ?_; (on_goal 2 => subst x); clear_value x)
    | intro _
    | exact rfl
    | with_reducible apply ite_keeps
    | with_reducible refine foldl_keeps ?_ _ _ (fun _ _ _ => ?_)
    | with_reducible refine foldl_snd_keeps _ ?_ _ _ (fun _ _ _ => ?_)
    | with_reducible apply State.set_keeps

theorem State.queueSignal_keeps {b s : State} (h : Keeps b s) (t q : Nat) : Keeps b (State.queueSignal s t q) := by
  unfold State.queueSignal
  repeat' first
    | with_reducible assumption
    | ((try lift_lets); intro x; refine (fun (_ : Keeps b x) => ?_) ?_; (on_goal 2 => subst x); clear_value x)
    | ((try lift_lets); intro x; clear_value x)
    | intro _
    | exact rfl
    | with_reducible apply ite_keeps
    | with_reducible apply State.modQueue_keeps
    | with_reducible apply State.signal_keeps

theorem State.writeOne_keeps {b s : State} (h : Keeps b s) (t q : Nat) : Keeps b (s.writeOne t q) := by
  unfold State.writeOne
  dsimp only
  repeat' first
    | with_reducible assumption
    | with_reducible apply ite_keeps
    | with_reducible apply State.memWrite_keeps
    | with_reducible apply State.modQueue_keeps
    | with_reducible apply State.queueSignal_keeps
    | with_reducible apply State.set_keeps
    | with_reducible apply State.showFlight_keeps
    | split

theorem State.writeDone_keeps {b s : State} (h : Keeps b s) (t q : Nat) (k : Nat) : Keeps b (State.writeDone s t q k) := by
  induction k generalizing s t q with
  | zero => exact h
  | succ k ih =>
    unfold State.writeDone
    repeat' first
      | with_reducible assumption
      | intro _
      | with_reducible apply ih
      | exact rfl
      | with_reducible apply ite_keeps
      | with_reducible apply State.writeOne_keeps

theorem State.flushQueue_keeps {b s : State} (h : Keeps b s) (t q : Nat) : Keeps b (State.flushQueue s t q) := by
  unfold State.flushQueue
  repeat' first
    | with_reducible assumption
    | intro _
    | exact rfl
    | with_reducible apply ite_keeps
    | with_reducible apply State.writeDone_keeps

theorem State.completeC_keeps {b s : State} (h : Keeps b s) (t q i status cflags rlen rval : Nat) : Keeps b (State.completeC s t q i status cflags rlen rval) := by
  unfold State.completeC
  repeat' first
    | with_reducible assumption
    | intro _
    | exact rfl
    | with_reducible apply ite_keeps
    | with_reducible apply State.emit_keeps
    | with_reducible apply State.flushQueue_keeps
    | with_reducible apply State.modQueue_keeps

theorem State.complete_keeps {b s : State} (h : Keeps b s) (t q i status rlen rval : Nat) : Keeps b (State.complete s t q i status rlen rval) := by
  unfold State.complete
  repeat' first
    | with_reducible assumption
    | intro _
    | exact rfl
    | with_reducible apply ite_keeps
    | with_reducible apply State.completeC_keeps

theorem State.failCheck_keeps {b s : State} (h : Keeps b s) (t q i status : Nat) : Keeps b (State.failCheck s t q i status) := by
  unfold State.failCheck
  repeat' first
    | with_reducible assumption
    | ((try lift_lets); intro x; refine (fun (_ : Keeps b x) => ?_) ?_; (on_goal 2 => subst x); clear_value x)
    | intro _
    | exact rfl
    | with_reducible apply ite_keeps
    | with_reducible apply State.complete_keeps
    | with_reducible apply State.inc_keeps

theorem State.startWork_keeps {b s : State} (h : Keeps b s) (t q i : Nat) : Keeps b (State.startWork s t q i) := by
  unfold State.startWork
  repeat' first
    | with_reducible assumption
    | intro _
    | exact rfl
    | with_reducible apply ite_keeps
    | with_reducible apply State.modQueue_keeps

theorem State.dropWork_keeps {b s : State} (h : Keeps b s) (t q : Nat) : Keeps b (State.dropWork s t q) := by
  unfold State.dropWork
  repeat' first
    | with_reducible assumption
    | ((try lift_lets); intro x; refine (fun (_ : Keeps b x) => ?_) ?_; (on_goal 2 => subst x); clear_value x)
    | ((try lift_lets); intro x; clear_value x)
    | intro _
    | exact rfl
    | with_reducible apply ite_keeps
    | with_reducible apply State.modBoot_keeps
    | with_reducible apply State.modCan_keeps
    | with_reducible apply State.modConf_keeps
    | with_reducible apply State.modFar_keeps
    | with_reducible apply State.modHost_keeps
    | with_reducible apply State.modInaug_keeps
    | with_reducible apply State.modRed_keeps
    | ((with_reducible apply State.modSec_keeps); on_goal 2 => exact fun _ => ⟨Nat.le_refl _, Nat.le_refl _⟩)
    | ((with_reducible apply State.modTally_keeps); on_goal 2 => exact fun _ h => h)
    | with_reducible apply State.modTally_keeps
    | split
    | refine Keeps.ofSnd ?_ (by assumption)
    | refine Keeps.ofThird ?_ (by assumption)
    | refine Keeps.ofFourth ?_ (by assumption)
    | (apply Keeps.other (by assumption) <;> rfl)

theorem State.discardQueue_keeps {b s : State} (h : Keeps b s) (t q : Nat) : Keeps b (State.discardQueue s t q) := by
  unfold State.discardQueue
  repeat' first
    | with_reducible assumption
    | intro _
    | exact rfl
    | with_reducible apply ite_keeps
    | with_reducible apply State.dropWork_keeps
    | with_reducible apply State.hold_keeps
    | with_reducible apply State.modQueue_keeps
    | with_reducible apply State.showFlight_keeps

theorem State.showQen_keeps {b s : State} (h : Keeps b s) (t : Nat) : Keeps b (State.showQen s t) := by
  unfold State.showQen
  repeat' first
    | with_reducible assumption
    | intro _
    | exact rfl
    | with_reducible apply ite_keeps
    | with_reducible apply State.set_keeps

theorem State.completeAll_keeps {b s : State} (h : Keeps b s) (ops : List Nat) (onlyStarted : Bool) (status rval : Nat) : Keeps b (State.completeAll s ops onlyStarted status rval) := by
  unfold State.completeAll
  repeat' first
    | with_reducible assumption
    | intro _
    | exact rfl
    | with_reducible apply ite_keeps
    | with_reducible refine foldl_keeps ?_ _ _ (fun _ _ _ => ?_)
    | with_reducible refine foldl_snd_keeps _ ?_ _ _ (fun _ _ _ => ?_)
    | with_reducible apply State.complete_keeps

theorem State.showTally_keeps {b s : State} (h : Keeps b s) : Keeps b (State.showTally s) := by
  unfold State.showTally
  repeat' first
    | with_reducible assumption
    | intro _
    | exact rfl
    | with_reducible apply ite_keeps
    | with_reducible apply State.set_keeps

theorem State.showPerm_keeps {b s : State} (h : Keeps b s) (n : Nat) : Keeps b (State.showPerm s n) := by
  unfold State.showPerm
  repeat' first
    | with_reducible assumption
    | intro _
    | exact rfl
    | with_reducible apply ite_keeps
    | with_reducible apply State.flag_keeps
    | with_reducible apply State.set_keeps

theorem State.dropClears_keeps {b s : State} (h : Keeps b s) : Keeps b (State.dropClears s) := by
  unfold State.dropClears
  repeat' first
    | with_reducible assumption
    | intro _
    | exact rfl
    | with_reducible apply ite_keeps
    | with_reducible refine foldl_keeps ?_ _ _ (fun _ _ _ => ?_)
    | with_reducible refine foldl_snd_keeps _ ?_ _ _ (fun _ _ _ => ?_)
    | with_reducible apply State.complete_keeps
    | ((with_reducible apply State.modTally_keeps); on_goal 2 => exact fun _ h => h)

theorem State.degrade_keeps {b s : State} (h : Keeps b s) (why off : Nat) : Keeps b (State.degrade s why off) := by
  unfold State.degrade
  repeat' first
    | with_reducible assumption
    | intro _
    | exact rfl
    | with_reducible apply ite_keeps
    | with_reducible apply State.dropClears_keeps
    | ((with_reducible apply State.modTally_keeps); on_goal 2 => exact fun _ h => h)
    | with_reducible apply State.modTally_keeps
    | with_reducible apply State.recordT_keeps
    | with_reducible apply State.set_keeps

theorem State.writePtr_keeps {b s : State} (h : Keeps b s) : Keeps b (State.writePtr s) := by
  unfold State.writePtr
  repeat' first
    | with_reducible assumption
    | ((try lift_lets); intro x; clear_value x)
    | intro _
    | exact rfl
    | with_reducible apply ite_keeps
    | with_reducible refine foldl_keeps ?_ _ _ (fun _ _ _ => ?_)
    | with_reducible refine foldl_snd_keeps _ ?_ _ _ (fun _ _ _ => ?_)
    | ((with_reducible apply State.modTally_keeps); on_goal 2 => exact fun _ h => h)

theorem State.persistPtr_keeps {b s : State} (h : Keeps b s) (fail : Option Nat) : Keeps b (State.persistPtr s fail) := by
  unfold State.persistPtr
  repeat' first
    | with_reducible assumption
    | intro _
    | exact rfl
    | with_reducible apply ite_keeps
    | with_reducible apply State.degrade_keeps
    | ((with_reducible apply State.modTally_keeps); on_goal 2 => exact fun _ h => h)
    | with_reducible apply State.modTally_keeps
    | with_reducible apply State.writePtr_keeps
    | split

theorem State.storeRecs_keeps {b s : State} (h : Keeps b s) (toCirc : Bool) (l : List Place) : Keeps b (State.storeRecs s toCirc l) := by
  unfold State.storeRecs
  repeat' first
    | with_reducible assumption
    | ((try lift_lets); intro x; clear_value x)
    | intro _
    | exact rfl
    | with_reducible apply ite_keeps
    | with_reducible refine foldl_keeps ?_ _ _ (fun _ _ _ => ?_)
    | with_reducible refine foldl_snd_keeps _ ?_ _ _ (fun _ _ _ => ?_)
    | ((with_reducible apply State.modTally_keeps); on_goal 2 => exact fun _ h => h)

theorem State.advance_keeps {b s : State} (h : Keeps b s) (toCirc : Bool) (n : Nat) : Keeps b (State.advance s toCirc n) := by
  unfold State.advance
  repeat' first
    | with_reducible assumption
    | ((try lift_lets); intro x; refine (fun (_ : Keeps b x) => ?_) ?_; (on_goal 2 => subst x); clear_value x)
    | ((try lift_lets); intro x; clear_value x)
    | intro _
    | exact rfl
    | with_reducible apply ite_keeps
    | with_reducible apply State.set_keeps
    | with_reducible apply State.showPerm_keeps

theorem State.clearNow_keeps {b s : State} (h : Keeps b s) (c : ClearReq) (r : Rec) : Keeps b (State.clearNow s c r) := by
  unfold State.clearNow
  repeat' first
    | with_reducible assumption
    | ((try lift_lets); intro x; refine (fun (_ : Keeps b x) => ?_) ?_; (on_goal 2 => subst x); clear_value x)
    | ((try lift_lets); intro x; clear_value x)
    | intro _
    | exact rfl
    | with_reducible apply ite_keeps
    | ((with_reducible apply State.modTally_keeps); on_goal 2 => exact fun x hx => ⟨Nat.le_trans (by dsimp only; rw [List.length_tail]; omega) hx.1, hx.2.1, by have := hx.2.2; dsimp only; split <;> simp only [List.length_tail, List.length_append, List.length_singleton] at * <;> omega⟩)
    | with_reducible apply State.advance_keeps
    | with_reducible apply State.complete_keeps
    | with_reducible apply State.inc_keeps
    | with_reducible apply State.modTally_keeps
    | with_reducible apply State.set_keeps
    | with_reducible apply State.showTally_keeps
    | with_reducible apply State.storeRecs_keeps
    | with_reducible apply State.writePtr_keeps

theorem State.writeUnit_keeps {b s : State} (h : Keeps b s) (left : Nat) (fail : Option Nat) : Keeps b (State.writeUnit s left fail) := by
  unfold State.writeUnit
  repeat' first
    | with_reducible assumption
    | ((try lift_lets); intro x; refine (fun (_ : Keeps b x) => ?_) ?_; (on_goal 2 => subst x); clear_value x)
    | ((try lift_lets); intro x; clear_value x)
    | intro _
    | exact rfl
    | with_reducible apply ite_keeps
    | ((with_reducible apply State.modTally_keeps); on_goal 2 => exact fun x hx => ⟨Nat.le_trans (by dsimp only; rw [List.length_drop]; omega) hx.1, hx.2.1, hx.2.2⟩)
    | with_reducible apply State.advance_keeps
    | with_reducible apply State.clearNow_keeps
    | with_reducible apply State.degrade_keeps
    | with_reducible apply State.modTally_keeps
    | with_reducible apply State.showTally_keeps
    | with_reducible apply State.storeRecs_keeps
    | with_reducible apply State.take_keeps
    | split

theorem State.deferUnits_keeps {b s : State} (h : Keeps b s) (k : Nat) : Keeps b (State.deferUnits s k) := by
  unfold State.deferUnits
  repeat' first
    | with_reducible assumption
    | ((try lift_lets); intro x; clear_value x)
    | intro _
    | exact rfl
    | with_reducible apply ite_keeps
    | with_reducible apply State.modPower_keeps

theorem State.job6_keeps {b s : State} (h : Keeps b s) : Keeps b (State.job6 s) := by
  unfold State.job6
  repeat' first
    | with_reducible assumption
    | ((try lift_lets); intro x; clear_value x)
    | intro _
    | exact rfl
    | with_reducible apply ite_keeps
    | with_reducible apply State.deferUnits_keeps
    | ((with_reducible apply State.modTally_keeps); on_goal 2 => exact fun _ h => h)

theorem State.mramApply_keeps {b s : State} (h : Keeps b s) (w : MramWrite) (fail : Option Nat) : Keeps b (State.mramApply s w fail) := by
  unfold State.mramApply
  repeat' first
    | with_reducible assumption
    | intro _
    | exact rfl
    | with_reducible apply ite_keeps
    | with_reducible apply State.modConf_keeps
    | with_reducible apply State.modPort_keeps
    | with_reducible apply State.modRed_keeps
    | ((with_reducible apply State.modSec_keeps); on_goal 2 => exact fun _ => ⟨Nat.le_refl _, Nat.le_refl _⟩)
    | with_reducible apply State.modSync_keeps
    | with_reducible apply State.modSynth_keeps
    | with_reducible apply State.persistPtr_keeps
    | with_reducible apply State.set_keeps
    | with_reducible apply State.setInt_keeps
    | with_reducible apply State.writeUnit_keeps
    | split

theorem State.mramWrite_keeps {b s : State} (h : Keeps b s) (w : MramWrite) (fail : Option Nat) : Keeps b (State.mramWrite s w fail) := by
  unfold State.mramWrite
  repeat' first
    | with_reducible assumption
    | intro _
    | exact rfl
    | with_reducible apply ite_keeps
    | with_reducible apply State.modPower_keeps
    | with_reducible apply State.mramApply_keeps

theorem State.writeSlots_keeps {b s : State} (h : Keeps b s) : Keeps b (State.writeSlots s) := by
  unfold State.writeSlots
  repeat' first
    | with_reducible assumption
    | intro _
    | exact rfl
    | with_reducible apply ite_keeps
    | with_reducible apply State.mramWrite_keeps

theorem State.bulkStart_keeps {b s : State} (h : Keeps b s) (d : BulkData) (bytes : Nat) : Keeps b (State.bulkStart s d bytes) := by
  unfold State.bulkStart
  repeat' first
    | with_reducible assumption
    | intro _
    | exact rfl
    | with_reducible apply ite_keeps
    | with_reducible apply State.modPower_keeps

theorem State.modWeirs_keeps {b s : State} (h : Keeps b s) (f : Weirs → Weirs) : Keeps b (State.modWeirs s f) := by
  unfold State.modWeirs
  repeat' first
    | with_reducible assumption
    | intro _
    | exact rfl
    | with_reducible apply ite_keeps
    | split
    | refine Keeps.ofSnd ?_ (by assumption)
    | refine Keeps.ofThird ?_ (by assumption)
    | refine Keeps.ofFourth ?_ (by assumption)
    | (apply Keeps.other (by assumption) <;> rfl)

theorem State.modWeir_keeps {b s : State} (h : Keeps b s) (w : Nat) (f : Weir → Weir) : Keeps b (State.modWeir s w f) := by
  unfold State.modWeir
  repeat' first
    | with_reducible assumption
    | intro _
    | exact rfl
    | with_reducible apply ite_keeps
    | with_reducible apply State.modWeirs_keeps

theorem State.setWst_keeps {b s : State} (h : Keeps b s) (w st : Nat) : Keeps b (State.setWst s w st) := by
  unfold State.setWst
  repeat' first
    | with_reducible assumption
    | ((try lift_lets); intro x; refine (fun (_ : Keeps b x) => ?_) ?_; (on_goal 2 => subst x); clear_value x)
    | ((try lift_lets); intro x; clear_value x)
    | intro _
    | exact rfl
    | with_reducible apply ite_keeps
    | with_reducible apply State.modWeir_keeps
    | with_reducible apply State.recordS_keeps
    | with_reducible apply State.set_keeps

theorem State.seedWeir_keeps {b s : State} (h : Keeps b s) (w : Nat) : Keeps b (State.seedWeir s w) := by
  unfold State.seedWeir
  repeat' first
    | with_reducible assumption
    | intro _
    | exact rfl
    | with_reducible apply ite_keeps
    | with_reducible apply State.modWeir_keeps

theorem State.weirFollow_keeps {b s : State} (h : Keeps b s) (w : Nat) : Keeps b (State.weirFollow s w) := by
  unfold State.weirFollow
  repeat' first
    | with_reducible assumption
    | ((try lift_lets); intro x; clear_value x)
    | intro _
    | exact rfl
    | with_reducible apply ite_keeps
    | with_reducible apply State.seedWeir_keeps
    | with_reducible apply State.setWst_keeps

theorem State.weirsFollow_keeps {b s : State} (h : Keeps b s) : Keeps b (State.weirsFollow s) := by
  unfold State.weirsFollow
  repeat' first
    | with_reducible assumption
    | intro _
    | exact rfl
    | with_reducible apply ite_keeps
    | with_reducible apply State.weirFollow_keeps

theorem State.relays_keeps {b s : State} (h : Keeps b s) : Keeps b (State.relays s) := by
  unfold State.relays
  repeat' first
    | with_reducible assumption
    | intro _
    | exact rfl
    | with_reducible apply ite_keeps
    | with_reducible apply State.modPins_keeps

theorem State.weirFail_keeps {b s : State} (h : Keeps b s) (w why : Nat) : Keeps b (State.weirFail s w why) := by
  unfold State.weirFail
  repeat' first
    | with_reducible assumption
    | ((try lift_lets); intro x; refine (fun (_ : Keeps b x) => ?_) ?_; (on_goal 2 => subst x); clear_value x)
    | intro _
    | exact rfl
    | with_reducible apply ite_keeps
    | with_reducible apply State.recordS_keeps
    | with_reducible apply State.relays_keeps
    | with_reducible apply State.set_keeps
    | with_reducible apply State.setWst_keeps

theorem State.liftFence_keeps {b s : State} (h : Keeps b s) : Keeps b (State.liftFence s) := by
  unfold State.liftFence
  repeat' first
    | with_reducible assumption
    | ((try lift_lets); intro x; refine (fun (_ : Keeps b x) => ?_) ?_; (on_goal 2 => subst x); clear_value x)
    | ((try lift_lets); intro x; clear_value x)
    | intro _
    | exact rfl
    | with_reducible apply ite_keeps
    | with_reducible apply State.modWeirs_keeps
    | with_reducible apply State.recordS_keeps
    | with_reducible apply State.set_keeps

theorem State.weirCount_keeps {b s : State} (h : Keeps b s) (w sender row : Nat) : Keeps b (State.weirCount s w sender row) := by
  unfold State.weirCount
  repeat' first
    | with_reducible assumption
    | ((try lift_lets); intro x; clear_value x)
    | intro _
    | exact rfl
    | with_reducible apply ite_keeps
    | with_reducible apply State.modWeirs_keeps

theorem State.ownBlock_keeps {b s : State} (h : Keeps b s) (w port row slot : Nat) : Keeps b (State.ownBlock s w port row slot) := by
  unfold State.ownBlock
  repeat' first
    | with_reducible assumption
    | ((try lift_lets); intro x; refine (fun (_ : Keeps b x) => ?_) ?_; (on_goal 2 => subst x); clear_value x)
    | intro _
    | exact rfl
    | with_reducible apply ite_keeps
    | with_reducible apply State.modWeir_keeps
    | with_reducible apply State.recordS_keeps
    | with_reducible apply State.set_keeps

theorem State.weirCheck_keeps {b s : State} (h : Keeps b s) (port phase : Nat) (fwd : Bool) (f : Frame) : Keeps b (State.weirCheck s port phase fwd f).2 := by
  unfold State.weirCheck
  repeat' first
    | with_reducible assumption
    | ((try lift_lets); intro x; clear_value x)
    | intro _
    | exact rfl
    | with_reducible apply ite_keeps
    | with_reducible apply ite_snd_keeps
    | with_reducible apply State.inc_keeps
    | with_reducible apply State.modWeir_keeps
    | with_reducible apply State.modWeirs_keeps
    | with_reducible apply State.ownBlock_keeps
    | with_reducible apply State.pass_keeps
    | with_reducible apply State.take_keeps
    | with_reducible apply State.up_keeps
    | with_reducible apply State.weirCount_keeps
    | split
    | refine Keeps.ofSnd ?_ (by assumption)
    | refine Keeps.ofThird ?_ (by assumption)
    | refine Keeps.ofFourth ?_ (by assumption)
    | dsimp only

theorem State.transmit_keeps {b s : State} (h : Keeps b s) (port phase : Nat) (fwd stomp : Bool) (f : Frame) : Keeps b (State.transmit s port phase fwd stomp f) := by
  unfold State.transmit
  repeat' first
    | with_reducible assumption
    | intro _
    | exact rfl
    | with_reducible apply ite_keeps
    | with_reducible apply State.emit_keeps
    | with_reducible apply State.pass_keeps
    | with_reducible apply State.weirCheck_keeps
    | split
    | refine Keeps.ofSnd ?_ (by assumption)

theorem State.takeTable_keeps {b s : State} (h : Keeps b s) (w : Nat) (stale : Bool) : Keeps b (State.takeTable s w stale) := by
  unfold State.takeTable
  repeat' first
    | with_reducible assumption
    | intro _
    | exact rfl
    | with_reducible apply ite_keeps
    | with_reducible apply State.modWeir_keeps

theorem State.reloadWeir_keeps {b s : State} (h : Keeps b s) (w : Nat) (t : WinTable) (crcOk parityOk : Bool) : Keeps b (State.reloadWeir s w t crcOk parityOk).2 := by
  unfold State.reloadWeir
  repeat' first
    | with_reducible assumption
    | ((try lift_lets); intro x; refine (fun (_ : Keeps b x) => ?_) ?_; (on_goal 2 => subst x); clear_value x)
    | intro _
    | exact rfl
    | with_reducible apply ite_keeps
    | with_reducible apply ite_snd_keeps
    | with_reducible apply State.inc_keeps
    | with_reducible apply State.modWeir_keeps
    | with_reducible apply State.recordS_keeps
    | with_reducible apply State.weirFail_keeps

theorem State.weirTick_keeps {b s : State} (h : Keeps b s) (w : Nat) : Keeps b (State.weirTick s w) := by
  unfold State.weirTick
  repeat' first
    | with_reducible assumption
    | ((try lift_lets); intro x; refine (fun (_ : Keeps b x) => ?_) ?_; (on_goal 2 => subst x); clear_value x)
    | ((try lift_lets); intro x; clear_value x)
    | intro _
    | exact rfl
    | with_reducible apply ite_keeps
    | with_reducible apply State.modWeir_keeps
    | with_reducible apply State.set_keeps
    | with_reducible apply State.setInt_keeps

theorem State.weirRef_keeps {b s : State} (h : Keeps b s) (port : Nat) (phase : Nat) (slot hops : Nat) (corr : Int) : Keeps b (State.weirRef s port phase slot hops corr) := by
  unfold State.weirRef
  repeat' first
    | with_reducible assumption
    | ((try lift_lets); intro x; clear_value x)
    | intro _
    | exact rfl
    | with_reducible apply ite_keeps
    | with_reducible apply State.modWeir_keeps

theorem State.weirNit_keeps {b s : State} (h : Keeps b s) (w : Nat) : Keeps b (State.weirNit s w) := by
  unfold State.weirNit
  repeat' first
    | with_reducible assumption
    | ((try lift_lets); intro x; refine (fun (_ : Keeps b x) => ?_) ?_; (on_goal 2 => subst x); clear_value x)
    | ((try lift_lets); intro x; clear_value x)
    | intro _
    | exact rfl
    | with_reducible apply ite_keeps
    | with_reducible refine foldl_keeps ?_ _ _ (fun _ _ _ => ?_)
    | with_reducible refine foldl_snd_keeps _ ?_ _ _ (fun _ _ _ => ?_)
    | with_reducible apply State.modWeir_keeps
    | with_reducible apply State.setWst_keeps

theorem State.weirTimeout_keeps {b s : State} (h : Keeps b s) (w : Nat) : Keeps b (State.weirTimeout s w) := by
  unfold State.weirTimeout
  repeat' first
    | with_reducible assumption
    | ((try lift_lets); intro x; clear_value x)
    | intro _
    | exact rfl
    | with_reducible apply ite_keeps
    | with_reducible apply State.seedWeir_keeps
    | with_reducible apply State.setWst_keeps

theorem State.fence_keeps {b s : State} (h : Keeps b s) : Keeps b (State.fence s) := by
  unfold State.fence
  repeat' first
    | with_reducible assumption
    | ((try lift_lets); intro x; refine (fun (_ : Keeps b x) => ?_) ?_; (on_goal 2 => subst x); clear_value x)
    | ((try lift_lets); intro x; clear_value x)
    | intro _
    | exact rfl
    | with_reducible apply ite_keeps
    | with_reducible apply State.inc_keeps
    | with_reducible apply State.modWeirs_keeps
    | with_reducible apply State.recordS_keeps
    | with_reducible apply State.set_keeps

theorem execWeirNitAdjust_keeps {b s s1 : State} (h : State.Keeps b s) (w : Fin 2) (e : execWeirNitAdjust w s = .next s1) : State.Keeps b s1 := by
  unfold execWeirNitAdjust at e
  cases e
  repeat' first
    | with_reducible assumption
    | intro _
    | exact rfl
    | with_reducible apply ite_keeps
    | with_reducible apply State.modWeir_keeps
    | with_reducible apply State.weirNit_keeps

theorem execWeirStateTimeout_keeps {b s s1 : State} (h : State.Keeps b s) (w : Fin 2) (e : execWeirStateTimeout w s = .next s1) : State.Keeps b s1 := by
  unfold execWeirStateTimeout at e
  cases e
  repeat' first
    | with_reducible assumption
    | intro _
    | exact rfl
    | with_reducible apply ite_keeps
    | with_reducible apply State.weirTimeout_keeps

theorem execNodeFenced_keeps {b s s1 : State} (h : State.Keeps b s) (e : execNodeFenced s = .next s1) : State.Keeps b s1 := by
  unfold execNodeFenced at e
  cases e
  repeat' first
    | with_reducible assumption
    | intro _
    | exact rfl
    | with_reducible apply ite_keeps
    | with_reducible apply State.fence_keeps

theorem State.showEnds_keeps {b s : State} (h : Keeps b s) : Keeps b (State.showEnds s) := by
  unfold State.showEnds
  repeat' first
    | with_reducible assumption
    | ((try lift_lets); intro x; refine (fun (_ : Keeps b x) => ?_) ?_; (on_goal 2 => subst x); clear_value x)
    | intro _
    | exact rfl
    | with_reducible apply ite_keeps
    | with_reducible apply State.flag_keeps
    | with_reducible apply State.set_keeps
    | with_reducible apply State.showLuid_keeps

theorem State.pend_keeps {b s : State} (h : Keeps b s) (t : Trigger) (startUp : Bool) : Keeps b (State.pend s t startUp) := by
  unfold State.pend
  repeat' first
    | with_reducible assumption
    | ((try lift_lets); intro x; refine (fun (_ : Keeps b x) => ?_) ?_; (on_goal 2 => subst x); clear_value x)
    | intro _
    | exact rfl
    | with_reducible apply ite_keeps
    | with_reducible apply State.flag_keeps
    | with_reducible apply State.modInaug_keeps

theorem State.actTrigger_keeps {b s : State} (h : Keeps b s) (t : Trigger) : Keeps b (State.actTrigger s t) := by
  unfold State.actTrigger
  repeat' first
    | with_reducible assumption
    | ((try lift_lets); intro x; refine (fun (_ : Keeps b x) => ?_) ?_; (on_goal 2 => subst x); clear_value x)
    | intro _
    | exact rfl
    | with_reducible apply ite_keeps
    | with_reducible apply State.modInaug_keeps
    | with_reducible apply State.modStart_keeps

theorem State.actPending_keeps {b s : State} (h : Keeps b s) : Keeps b (State.actPending s) := by
  unfold State.actPending
  repeat' first
    | with_reducible assumption
    | ((try lift_lets); intro x; clear_value x)
    | intro _
    | exact rfl
    | with_reducible apply ite_keeps
    | with_reducible apply State.actTrigger_keeps
    | with_reducible apply State.modInaug_keeps

theorem State.raise_keeps {b s : State} (h : Keeps b s) (kind port : Nat) : Keeps b (State.raise s kind port) := by
  unfold State.raise
  repeat' first
    | with_reducible assumption
    | ((try lift_lets); intro x; refine (fun (_ : Keeps b x) => ?_) ?_; (on_goal 2 => subst x); clear_value x)
    | intro _
    | exact rfl
    | with_reducible apply ite_keeps
    | with_reducible apply State.actTrigger_keeps
    | with_reducible apply State.pend_keeps
    | with_reducible apply State.record_keeps

theorem State.dropQueued_keeps {b s : State} (h : Keeps b s) (n : Nat) (p : QFrame → Bool) : Keeps b (State.dropQueued s n p).2 := by
  unfold State.dropQueued
  repeat' first
    | with_reducible assumption
    | ((try lift_lets); intro x; refine (fun (_ : Keeps b x) => ?_) ?_; (on_goal 2 => subst x); clear_value x)
    | ((try lift_lets); intro x; clear_value x)
    | intro _
    | exact rfl
    | with_reducible apply ite_keeps
    | with_reducible apply ite_snd_keeps
    | with_reducible apply State.inc_keeps
    | with_reducible apply State.modPort_keeps

theorem State.forgetLink_keeps {b s : State} (h : Keeps b s) (n : Nat) : Keeps b (State.forgetLink s n) := by
  unfold State.forgetLink
  repeat' first
    | with_reducible assumption
    | ((try lift_lets); intro x; refine (fun (_ : Keeps b x) => ?_) ?_; (on_goal 2 => subst x); clear_value x)
    | intro _
    | exact rfl
    | with_reducible apply ite_keeps
    | with_reducible apply State.modPort_keeps
    | with_reducible apply State.set_keeps

theorem State.splitCheck_keeps {b s : State} (h : Keeps b s) (e : Nat) (had : Bool) (uid : Nat) : Keeps b (State.splitCheck s e had uid) := by
  unfold State.splitCheck
  repeat' first
    | with_reducible assumption
    | ((try lift_lets); intro x; refine (fun (_ : Keeps b x) => ?_) ?_; (on_goal 2 => subst x); clear_value x)
    | intro _
    | exact rfl
    | with_reducible apply ite_keeps
    | with_reducible apply State.record_keeps
    | with_reducible apply State.set_keeps

theorem State.splitsFrom_keeps {b s : State} (h : Keeps b s) : Keeps b (State.splitsFrom s old) := by
  unfold State.splitsFrom
  repeat' first
    | with_reducible assumption
    | intro _
    | exact rfl
    | with_reducible apply ite_keeps
    | with_reducible refine foldl_keeps ?_ _ _ (fun _ _ _ => ?_)
    | with_reducible refine foldl_snd_keeps _ ?_ _ _ (fun _ _ _ => ?_)
    | with_reducible apply State.splitCheck_keeps

theorem State.portTo_keeps {b s : State} (h : Keeps b s) (n st : Nat) : Keeps b (State.portTo s n st) := by
  unfold State.portTo
  repeat' first
    | with_reducible assumption
    | ((try lift_lets); intro x; refine (fun (_ : Keeps b x) => ?_) ?_; (on_goal 2 => subst x); clear_value x)
    | ((try lift_lets); intro x; clear_value x)
    | intro _
    | exact rfl
    | with_reducible apply ite_keeps
    | with_reducible apply State.forgetLink_keeps
    | with_reducible apply State.inc_keeps
    | with_reducible apply State.modPort_keeps
    | with_reducible apply State.raise_keeps
    | with_reducible apply State.record_keeps
    | with_reducible apply State.set_keeps
    | with_reducible apply State.showEnds_keeps
    | with_reducible apply State.splitsFrom_keeps

theorem State.hold_keeps {b s : State} (h : Keeps b s) (n why : Nat) : Keeps b (State.hold s n why) := by
  unfold State.hold
  repeat' first
    | with_reducible assumption
    | ((try lift_lets); intro x; refine (fun (_ : Keeps b x) => ?_) ?_; (on_goal 2 => subst x); clear_value x)
    | intro _
    | exact rfl
    | with_reducible apply ite_keeps
    | with_reducible apply State.modPort_keeps
    | with_reducible apply State.portTo_keeps
    | with_reducible apply State.record_keeps
    | with_reducible apply State.set_keeps
    | with_reducible apply State.showEnds_keeps

theorem State.up_keeps {b s : State} (h : Keeps b s) (n kind : Nat) : Keeps b (State.up s n kind) := by
  unfold State.up
  repeat' first
    | with_reducible assumption
    | ((try lift_lets); intro x; refine (fun (_ : Keeps b x) => ?_) ?_; (on_goal 2 => subst x); clear_value x)
    | intro _
    | exact rfl
    | with_reducible apply ite_keeps
    | with_reducible apply State.modPort_keeps
    | with_reducible apply State.modStart_keeps
    | with_reducible apply State.portTo_keeps
    | with_reducible apply State.raise_keeps
    | with_reducible apply State.record_keeps
    | with_reducible apply State.set_keeps
    | with_reducible apply State.showEnds_keeps

theorem State.followReset_keeps {b s : State} (h : Keeps b s) (start : Bool) : Keeps b (State.followReset s start) := by
  unfold State.followReset
  repeat' first
    | with_reducible assumption
    | ((try lift_lets); intro x; refine (fun (_ : Keeps b x) => ?_) ?_; (on_goal 2 => subst x); clear_value x)
    | ((try lift_lets); intro x; clear_value x)
    | intro _
    | exact rfl
    | with_reducible apply ite_keeps
    | with_reducible apply State.modSync_keeps
    | with_reducible apply State.set_keeps
    | with_reducible apply State.setInt_keeps

theorem State.listen_keeps {b s : State} (h : Keeps b s) : Keeps b (State.listen s) := by
  unfold State.listen
  repeat' first
    | with_reducible assumption
    | ((try lift_lets); intro x; refine (fun (_ : Keeps b x) => ?_) ?_; (on_goal 2 => subst x); clear_value x)
    | intro _
    | exact rfl
    | with_reducible apply ite_keeps
    | with_reducible apply State.modStart_keeps
    | with_reducible apply State.set_keeps
    | split
    | refine Keeps.ofSnd ?_ (by assumption)
    | refine Keeps.ofThird ?_ (by assumption)
    | refine Keeps.ofFourth ?_ (by assumption)
    | (apply Keeps.other (by assumption) <;> rfl)

theorem State.toLine_keeps {b s : State} (h : Keeps b s) (st : Nat) : Keeps b (State.toLine s st) := by
  unfold State.toLine
  repeat' first
    | with_reducible assumption
    | ((try lift_lets); intro x; refine (fun (_ : Keeps b x) => ?_) ?_; (on_goal 2 => subst x); clear_value x)
    | ((try lift_lets); intro x; clear_value x)
    | intro _
    | exact rfl
    | with_reducible apply ite_keeps
    | with_reducible apply State.flag_keeps
    | with_reducible apply State.followReset_keeps
    | with_reducible apply State.inc_keeps
    | with_reducible apply State.liftFence_keeps
    | with_reducible apply State.listen_keeps
    | with_reducible apply State.modInaug_keeps
    | with_reducible apply State.modRed_keeps
    | with_reducible apply State.modStart_keeps
    | with_reducible apply State.record_keeps
    | with_reducible apply State.relays_keeps
    | with_reducible apply State.set_keeps
    | with_reducible apply State.up_keeps
    | with_reducible apply State.weirsFollow_keeps

theorem State.leaveSolo_keeps {b s : State} (h : Keeps b s) (port : Nat) : Keeps b (State.leaveSolo s port) := by
  unfold State.leaveSolo
  repeat' first
    | with_reducible assumption
    | ((try lift_lets); intro x; clear_value x)
    | intro _
    | exact rfl
    | with_reducible apply ite_keeps
    | with_reducible apply State.modStart_keeps
    | with_reducible apply State.record_keeps
    | with_reducible apply State.toLine_keeps

theorem State.upFrom_keeps {b s : State} (h : Keeps b s) (n kind : Nat) : Keeps b (State.upFrom s n kind) := by
  unfold State.upFrom
  repeat' first
    | with_reducible assumption
    | intro _
    | exact rfl
    | with_reducible apply ite_keeps
    | with_reducible apply State.leaveSolo_keeps
    | with_reducible apply State.up_keeps

theorem State.withSalt_keeps {b s : State} (h : Keeps b s) : Keeps b (State.withSalt s) := by
  unfold State.withSalt
  repeat' first
    | with_reducible assumption
    | intro _
    | exact rfl
    | with_reducible apply ite_keeps
    | with_reducible apply State.modKeys_keeps
    | with_reducible apply State.takeRandom_keeps
    | split

theorem State.sendHop_keeps {b s : State} (h : Keeps b s) (n phase : Nat) : Keeps b (State.sendHop s n phase) := by
  unfold State.sendHop
  repeat' first
    | with_reducible assumption
    | ((try lift_lets); intro x; refine (fun (_ : Keeps b x) => ?_) ?_; (on_goal 2 => subst x); clear_value x)
    | ((try lift_lets); intro x; clear_value x)
    | intro _
    | exact rfl
    | with_reducible apply ite_keeps
    | with_reducible apply State.modPort_keeps
    | with_reducible apply State.mramWrite_keeps
    | with_reducible apply State.take_keeps
    | with_reducible apply State.transmit_keeps

theorem State.freeHeld_keeps {b s : State} (h : Keeps b s) (src : Option Nat) (cls blocks : Nat) : Keeps b (State.freeHeld s src cls blocks) := by
  unfold State.freeHeld
  repeat' first
    | with_reducible assumption
    | intro _
    | exact rfl
    | with_reducible apply ite_keeps
    | with_reducible apply State.modPort_keeps
    | split

theorem State.leftPort_keeps {b s : State} (h : Keeps b s) (q : QFrame) : Keeps b (State.leftPort s q) := by
  unfold State.leftPort
  repeat' first
    | with_reducible assumption
    | intro _
    | exact rfl
    | with_reducible apply ite_keeps
    | with_reducible apply State.complete_keeps
    | split

theorem State.sendQueued_keeps {b s : State} (h : Keeps b s) (n t : Nat) (q : QFrame) : Keeps b (State.sendQueued s n t q) := by
  unfold State.sendQueued
  repeat' first
    | with_reducible assumption
    | ((try lift_lets); intro x; refine (fun (_ : Keeps b x) => ?_) ?_; (on_goal 2 => subst x); clear_value x)
    | ((try lift_lets); intro x; clear_value x)
    | intro _
    | exact rfl
    | with_reducible apply ite_keeps
    | with_reducible apply State.freeHeld_keeps
    | with_reducible apply State.leftPort_keeps
    | with_reducible apply State.modPort_keeps
    | with_reducible apply State.transmit_keeps

theorem State.burst_keeps {b s : State} (h : Keeps b s) (n stream t dynEnd : Nat) (k : Nat) (k1 : Nat) (k2 : Nat) : Keeps b (State.burst n stream t dynEnd k k1 k2 s).2 := by
  induction k generalizing s k1 k2 n stream t dynEnd with
  | zero => exact h
  | succ k ih =>
    unfold State.burst
    repeat' first
      | with_reducible assumption
      | with_reducible apply ih
      | ((try lift_lets); intro x; clear_value x)
      | intro _
      | exact rfl
      | with_reducible apply ite_keeps
      | with_reducible apply ite_snd_keeps
      | with_reducible apply State.inc_keeps
      | with_reducible apply State.sendQueued_keeps
      | split

theorem State.servePool_keeps {b s : State} (h : Keeps b s) (n dynEnd : Nat) (k : Nat) (k1 : Nat) : Keeps b (State.servePool n dynEnd k k1 s) := by
  induction k generalizing s k1 n dynEnd with
  | zero => exact State.modPort_keeps h _ _
  | succ k ih =>
    unfold State.servePool
    repeat' first
      | with_reducible assumption
      | with_reducible apply ih
      | ((try lift_lets); intro x; clear_value x)
      | intro _
      | exact rfl
      | with_reducible apply ite_keeps
      | with_reducible apply State.modPort_keeps
      | with_reducible apply State.sendQueued_keeps
      | split

theorem State.poolLate_keeps {b s : State} (h : Keeps b s) (n : Nat) : Keeps b (State.poolLate s n) := by
  unfold State.poolLate
  repeat' first
    | with_reducible assumption
    | ((try lift_lets); intro x; clear_value x)
    | intro _
    | exact rfl
    | with_reducible apply ite_keeps
    | with_reducible apply State.servePool_keeps
    | split

theorem State.nextSeq_keeps {b s : State} (h : Keeps b s) (stream : Nat) : Keeps b (State.nextSeq s stream).2 := by
  unfold State.nextSeq
  repeat' first
    | with_reducible assumption
    | ((try lift_lets); intro x; clear_value x)
    | intro _
    | exact rfl
    | with_reducible apply ite_keeps
    | with_reducible apply ite_snd_keeps
    | with_reducible apply State.modRed_keeps

theorem State.sendX_keeps {b s : State} (h : Keeps b s) (f : Frame) : Keeps b (State.sendX s f) := by
  unfold State.sendX
  repeat' first
    | with_reducible assumption
    | ((try lift_lets); intro x; clear_value x)
    | intro _
    | exact rfl
    | with_reducible apply ite_keeps
    | with_reducible refine foldl_keeps ?_ _ _ (fun _ _ _ => ?_)
    | with_reducible refine foldl_snd_keeps _ ?_ _ _ (fun _ _ _ => ?_)
    | with_reducible apply State.transmit_keeps

theorem State.makeDyn_keeps {b s : State} (h : Keeps b s) (stream dest dkind sel prio : Nat) (data : List Byte) (life : Nat) : Keeps b (State.makeDyn s stream dest dkind sel prio data life).2 := by
  unfold State.makeDyn
  repeat' first
    | with_reducible assumption
    | intro _
    | exact rfl
    | with_reducible apply ite_keeps
    | with_reducible apply ite_snd_keeps
    | with_reducible apply State.nextSeq_keeps

theorem State.queueOwn_keeps {b s : State} (h : Keeps b s) (f : Frame) (dest : Nat) (own : Option (Nat × Nat × Nat)) : Keeps b (State.queueOwn s f dest own) := by
  unfold State.queueOwn
  repeat' first
    | with_reducible assumption
    | intro _
    | exact rfl
    | with_reducible apply ite_keeps
    | with_reducible refine foldl_keeps ?_ _ _ (fun _ _ _ => ?_)
    | with_reducible refine foldl_snd_keeps _ ?_ _ _ (fun _ _ _ => ?_)
    | with_reducible apply State.modPort_keeps
    | with_reducible apply State.poolLate_keeps

theorem State.originate_keeps {b s : State} (h : Keeps b s) (stream dest dkind sel prio : Nat) (data : List Byte) (own : Option (Nat × Nat × Nat)) : Keeps b (State.originate s stream dest dkind sel prio data own).2 := by
  unfold State.originate
  repeat' first
    | with_reducible assumption
    | intro _
    | exact rfl
    | with_reducible apply ite_keeps
    | with_reducible apply ite_snd_keeps
    | with_reducible apply State.makeDyn_keeps
    | with_reducible apply State.queueOwn_keeps
    | with_reducible apply State.sendX_keeps

theorem State.pairSend_keeps {b s : State} (h : Keeps b s) (sel : Nat) (data : List Byte) : Keeps b (State.pairSend s sel data) := by
  unfold State.pairSend
  repeat' first
    | with_reducible assumption
    | intro _
    | exact rfl
    | with_reducible apply ite_keeps
    | with_reducible apply State.sendX_keeps

theorem State.sendWitness_keeps {b s : State} (h : Keeps b s) : Keeps b (State.sendWitness s) := by
  unfold State.sendWitness
  repeat' first
    | with_reducible assumption
    | intro _
    | exact rfl
    | with_reducible apply ite_keeps
    | with_reducible refine foldl_keeps ?_ _ _ (fun _ _ _ => ?_)
    | with_reducible refine foldl_snd_keeps _ ?_ _ _ (fun _ _ _ => ?_)
    | with_reducible apply State.originate_keeps

theorem State.dynSegment_keeps {b s : State} (h : Keeps b s) (n : Nat) : Keeps b (State.dynSegment s n) := by
  unfold State.dynSegment
  repeat' first
    | with_reducible assumption
    | ((try lift_lets); intro x; refine (fun (_ : Keeps b x) => ?_) ?_; (on_goal 2 => subst x); clear_value x)
    | ((try lift_lets); intro x; clear_value x)
    | intro _
    | exact rfl
    | with_reducible apply ite_keeps
    | with_reducible refine foldl_keeps ?_ _ _ (fun _ _ _ => ?_)
    | with_reducible refine foldl_snd_keeps _ ?_ _ _ (fun _ _ _ => ?_)
    | with_reducible apply State.burst_keeps
    | with_reducible apply State.inc_keeps
    | with_reducible apply State.modPort_keeps
    | with_reducible apply State.sendHop_keeps
    | with_reducible apply State.servePool_keeps
    | with_reducible apply State.when_keeps

theorem State.expireHolds_keeps {b s : State} (h : Keeps b s) : Keeps b (State.expireHolds s) := by
  unfold State.expireHolds
  repeat' first
    | with_reducible assumption
    | ((try lift_lets); intro x; refine (fun (_ : Keeps b x) => ?_) ?_; (on_goal 2 => subst x); clear_value x)
    | ((try lift_lets); intro x; clear_value x)
    | intro _
    | exact rfl
    | with_reducible apply ite_keeps
    | with_reducible refine foldl_keeps ?_ _ _ (fun _ _ _ => ?_)
    | with_reducible refine foldl_snd_keeps _ ?_ _ _ (fun _ _ _ => ?_)
    | with_reducible apply State.hold_keeps
    | with_reducible apply State.inc_keeps
    | with_reducible apply State.modQueue_keeps
    | with_reducible apply State.recordS_keeps

theorem State.expireHeld_keeps {b s : State} (h : Keeps b s) : Keeps b (State.expireHeld s) := by
  unfold State.expireHeld
  repeat' first
    | with_reducible assumption
    | ((try lift_lets); intro x; refine (fun (_ : Keeps b x) => ?_) ?_; (on_goal 2 => subst x); clear_value x)
    | ((try lift_lets); intro x; clear_value x)
    | intro _
    | exact rfl
    | with_reducible apply ite_keeps
    | with_reducible refine foldl_keeps ?_ _ _ (fun _ _ _ => ?_)
    | with_reducible refine foldl_snd_keeps _ ?_ _ _ (fun _ _ _ => ?_)
    | with_reducible apply State.modCon_keeps
    | with_reducible apply State.recordS_keeps

theorem State.expireQueue_keeps {b s : State} (h : Keeps b s) (n : Nat) : Keeps b (State.expireQueue s n) := by
  unfold State.expireQueue
  repeat' first
    | with_reducible assumption
    | ((try lift_lets); intro x; clear_value x)
    | intro _
    | exact rfl
    | with_reducible apply ite_keeps
    | with_reducible refine foldl_keeps ?_ _ _ (fun _ _ _ => ?_)
    | with_reducible refine foldl_snd_keeps _ ?_ _ _ (fun _ _ _ => ?_)
    | with_reducible apply State.complete_keeps
    | with_reducible apply State.dropQueued_keeps
    | with_reducible apply State.freeHeld_keeps
    | with_reducible apply State.recordS_keeps

theorem State.lineOut_keeps {b s : State} (h : Keeps b s) (stream dest dkind sel prio : Nat) (data : List Byte) (own : Option (Nat × Nat × Nat)) : Keeps b (State.lineOut s stream dest dkind sel prio data own).2 := by
  unfold State.lineOut
  repeat' first
    | with_reducible assumption
    | ((try lift_lets); intro x; clear_value x)
    | intro _
    | exact rfl
    | with_reducible apply ite_keeps
    | with_reducible apply ite_snd_keeps
    | with_reducible apply State.originate_keeps
    | with_reducible apply State.sendX_keeps

theorem State.originateRelay_keeps {b s : State} (h : Keeps b s) (n slot : Nat) (mid : Bool) (corr : Int) (body : RelayWord → Payload) : Keeps b (State.originateRelay s n slot mid corr body) := by
  unfold State.originateRelay
  repeat' first
    | with_reducible assumption
    | ((try lift_lets); intro x; refine (fun (_ : Keeps b x) => ?_) ?_; (on_goal 2 => subst x); clear_value x)
    | intro _
    | exact rfl
    | with_reducible apply ite_keeps
    | with_reducible apply State.transmit_keeps
    | with_reducible apply State.withSalt_keeps

theorem execHopExtraSend_keeps {b s s1 : State} (h : State.Keeps b s) (n : Fin 4) (e : execHopExtraSend n s = .next s1) : State.Keeps b s1 := by
  unfold execHopExtraSend at e
  cases e
  repeat' first
    | with_reducible assumption
    | intro _
    | exact rfl
    | with_reducible apply ite_keeps
    | with_reducible refine foldl_keeps ?_ _ _ (fun _ _ _ => ?_)
    | with_reducible refine foldl_snd_keeps _ ?_ _ _ (fun _ _ _ => ?_)
    | with_reducible apply State.modPort_keeps
    | with_reducible apply State.sendHop_keeps

theorem execHopPeriodicSend_keeps {b s s1 : State} (h : State.Keeps b s) (n : Fin 4) (e : execHopPeriodicSend n s = .next s1) : State.Keeps b s1 := by
  unfold execHopPeriodicSend at e
  cases e
  repeat' first
    | with_reducible assumption
    | intro _
    | exact rfl
    | with_reducible apply ite_keeps
    | with_reducible apply State.modPort_keeps
    | with_reducible apply State.sendHop_keeps

theorem execDynamicSegment_keeps {b s s1 : State} (h : State.Keeps b s) (e : execDynamicSegment s = .next s1) : State.Keeps b s1 := by
  unfold execDynamicSegment at e
  cases e
  repeat' first
    | with_reducible assumption
    | intro _
    | exact rfl
    | with_reducible apply ite_keeps
    | with_reducible refine foldl_keeps ?_ _ _ (fun _ _ _ => ?_)
    | with_reducible refine foldl_snd_keeps _ ?_ _ _ (fun _ _ _ => ?_)
    | with_reducible apply State.did_keeps
    | with_reducible apply State.dynSegment_keeps
    | with_reducible apply State.sendWitness_keeps

theorem execDynamicLifetimeExpiry_keeps {b s s1 : State} (h : State.Keeps b s) (n : Fin 4) (e : execDynamicLifetimeExpiry n s = .next s1) : State.Keeps b s1 := by
  unfold execDynamicLifetimeExpiry at e
  cases e
  repeat' first
    | with_reducible assumption
    | intro _
    | exact rfl
    | with_reducible apply ite_keeps
    | with_reducible apply State.expireHeld_keeps
    | with_reducible apply State.expireHolds_keeps
    | with_reducible apply State.expireQueue_keeps

theorem State.learn_keeps {b s : State} (h : Keeps b s) (mac vid : Nat) (p : BridgePort) : Keeps b (State.learn s mac vid p) := by
  unfold State.learn
  repeat' first
    | with_reducible assumption
    | intro _
    | exact rfl
    | with_reducible apply ite_keeps
    | with_reducible apply State.modCon_keeps

theorem State.cpQueue_keeps {b s : State} (h : Keeps b s) (f : EgFrame) : Keeps b (State.cpQueue s f) := by
  unfold State.cpQueue
  repeat' first
    | with_reducible assumption
    | intro _
    | exact rfl
    | with_reducible apply ite_keeps
    | with_reducible apply State.modCon_keeps

theorem State.fabricMove_keeps {b s : State} (h : Keeps b s) : Keeps b (State.fabricMove s) := by
  unfold State.fabricMove
  repeat' first
    | with_reducible assumption
    | intro _
    | exact rfl
    | with_reducible apply ite_keeps
    | with_reducible refine foldl_keeps ?_ _ _ (fun _ _ _ => ?_)
    | with_reducible refine foldl_snd_keeps _ ?_ _ _ (fun _ _ _ => ?_)
    | with_reducible apply State.cpQueue_keeps
    | with_reducible apply State.modCon_keeps

theorem State.cpSend_keeps {b s : State} (h : Keeps b s) (src : Option Nat) (own : Option (Nat × Nat × Nat)) (n v vid prio : Nat) (f : EthFrame) : Keeps b (State.cpSend s src own n v vid prio f) := by
  unfold State.cpSend
  repeat' first
    | with_reducible assumption
    | ((try lift_lets); intro x; clear_value x)
    | intro _
    | exact rfl
    | with_reducible apply ite_keeps
    | with_reducible apply State.cpQueue_keeps
    | with_reducible apply State.inc_keeps

theorem State.sendDone_keeps {b s : State} (h : Keeps b s) (f : EgFrame) (status : Nat) : Keeps b (State.sendDone s f status) := by
  unfold State.sendDone
  repeat' first
    | with_reducible assumption
    | intro _
    | exact rfl
    | with_reducible apply ite_keeps
    | with_reducible apply State.complete_keeps
    | split

theorem State.cpServe_keeps {b s : State} (h : Keeps b s) (n : Nat) : Keeps b (State.cpServe s n) := by
  unfold State.cpServe
  repeat' first
    | with_reducible assumption
    | ((try lift_lets); intro x; clear_value x)
    | intro _
    | exact rfl
    | with_reducible apply ite_keeps
    | with_reducible refine foldl_keeps ?_ _ _ (fun _ _ _ => ?_)
    | with_reducible refine foldl_snd_keeps _ ?_ _ _ (fun _ _ _ => ?_)
    | with_reducible apply State.emit_keeps
    | with_reducible apply State.modCon_keeps
    | with_reducible apply State.sendDone_keeps
    | split

theorem State.fillConsist_keeps {b s : State} (h : Keeps b s) (t q : Nat) (k : Nat) : Keeps b (State.fillConsist s t q k) := by
  induction k generalizing s t q with
  | zero => exact h
  | succ k ih =>
    unfold State.fillConsist
    repeat' first
      | with_reducible assumption
      | ((try lift_lets); intro x; refine (fun (_ : Keeps b x) => ?_) ?_; (on_goal 2 => subst x); clear_value x)
      | with_reducible apply ih
      | intro _
      | exact rfl
      | with_reducible apply ite_keeps
      | with_reducible apply State.completeC_keeps
      | with_reducible apply State.memWrite_keeps
      | with_reducible apply State.modCon_keeps
      | with_reducible apply State.take_keeps
      | split

theorem State.toHost_keeps {b s : State} (h : Keeps b s) (t ingress vidIn time : Nat) (f : EthFrame) : Keeps b (State.toHost s t ingress vidIn time f) := by
  unfold State.toHost
  repeat' first
    | with_reducible assumption
    | ((try lift_lets); intro x; refine (fun (_ : Keeps b x) => ?_) ?_; (on_goal 2 => subst x); clear_value x)
    | ((try lift_lets); intro x; clear_value x)
    | intro _
    | exact rfl
    | with_reducible apply ite_keeps
    | with_reducible apply State.fillConsist_keeps
    | with_reducible apply State.modCon_keeps

theorem State.bridgeToLine_keeps {b s : State} (h : Keeps b s) (v vid prio ingress : Nat) (tagged : Bool) (time dest : Nat) (f : EthFrame) : Keeps b (State.bridgeToLine s v vid prio ingress tagged time dest f) := by
  unfold State.bridgeToLine
  repeat' first
    | with_reducible assumption
    | ((try lift_lets); intro x; clear_value x)
    | intro _
    | exact rfl
    | with_reducible apply ite_keeps
    | with_reducible apply State.inc_keeps
    | with_reducible apply State.lineOut_keeps
    | with_reducible apply State.modCon_keeps

theorem State.releaseHeld_keeps {b s : State} (h : Keeps b s) : Keeps b (State.releaseHeld s) := by
  unfold State.releaseHeld
  repeat' first
    | with_reducible assumption
    | ((try lift_lets); intro x; refine (fun (_ : Keeps b x) => ?_) ?_; (on_goal 2 => subst x); clear_value x)
    | ((try lift_lets); intro x; clear_value x)
    | intro _
    | exact rfl
    | with_reducible apply ite_keeps
    | with_reducible refine foldl_keeps ?_ _ _ (fun _ _ _ => ?_)
    | with_reducible refine foldl_snd_keeps _ ?_ _ _ (fun _ _ _ => ?_)
    | with_reducible apply State.inc_keeps
    | with_reducible apply State.lineOut_keeps
    | with_reducible apply State.modCon_keeps

theorem State.bridge_keeps {b s : State} (h : Keeps b s) (from_ : BridgePort) (ingress v vid prio : Nat) (time : Nat) (f : EthFrame) : Keeps b (State.bridge s from_ ingress v vid prio time f) := by
  unfold State.bridge
  repeat' first
    | with_reducible assumption
    | ((try lift_lets); intro x; refine (fun (hx : ∀ s, Keeps b s → Keeps b (x s)) => ?_) ?_; (on_goal 2 => subst x); clear_value x)
    | ((try lift_lets); intro x; refine (fun (_ : Keeps b x) => ?_) ?_; (on_goal 2 => subst x); clear_value x)
    | ((try lift_lets); intro x; clear_value x)
    | intro _
    | exact rfl
    | with_reducible apply ite_keeps
    | with_reducible refine foldl_keeps ?_ _ _ (fun _ _ _ => ?_)
    | with_reducible refine foldl_snd_keeps _ ?_ _ _ (fun _ _ _ => ?_)
    | with_reducible apply State.bridgeToLine_keeps
    | with_reducible apply State.cpSend_keeps
    | with_reducible apply State.learn_keeps
    | with_reducible apply State.toHost_keeps
    | split
    | refine Keeps.ofSnd ?_ (by assumption)
    | refine Keeps.ofThird ?_ (by assumption)
    | refine Keeps.ofFourth ?_ (by assumption)
    | with_reducible apply hx

theorem State.fromLine_keeps {b s : State} (h : Keeps b s) (sender prio sel : Nat) (data : List Byte) : Keeps b (State.fromLine s sender prio sel data) := by
  unfold State.fromLine
  repeat' first
    | with_reducible assumption
    | ((try lift_lets); intro x; refine (fun (_ : Keeps b x) => ?_) ?_; (on_goal 2 => subst x); clear_value x)
    | ((try lift_lets); intro x; clear_value x)
    | intro _
    | exact rfl
    | with_reducible apply ite_keeps
    | with_reducible apply State.bridge_keeps
    | with_reducible apply State.cpSend_keeps
    | with_reducible apply State.inc_keeps
    | with_reducible apply State.learn_keeps
    | with_reducible apply State.take_keeps
    | split

theorem State.ingest_keeps {b s : State} (h : Keeps b s) (n time v vid prio : Nat) (f : EthFrame) : Keeps b (State.ingest s n time v vid prio f) := by
  unfold State.ingest
  repeat' first
    | with_reducible assumption
    | intro _
    | exact rfl
    | with_reducible apply ite_keeps
    | with_reducible apply State.bridge_keeps

theorem State.ingressMove_keeps {b s : State} (h : Keeps b s) (k : Nat) : Keeps b (State.ingressMove s k) := by
  induction k generalizing s with
  | zero => exact h
  | succ k ih =>
    unfold State.ingressMove
    repeat' first
      | with_reducible assumption
      | ((try lift_lets); intro x; refine (fun (_ : Keeps b x) => ?_) ?_; (on_goal 2 => subst x); clear_value x)
      | with_reducible apply ih
      | intro _
      | exact rfl
      | with_reducible apply ite_keeps
      | with_reducible apply State.inc_keeps
      | with_reducible apply State.ingest_keeps
      | with_reducible apply State.modCon_keeps
      | split

theorem State.consistStep_keeps {b s : State} (h : Keeps b s) : Keeps b (State.consistStep s) := by
  unfold State.consistStep
  repeat' first
    | with_reducible assumption
    | ((try lift_lets); intro x; refine (fun (_ : Keeps b x) => ?_) ?_; (on_goal 2 => subst x); clear_value x)
    | intro _
    | exact rfl
    | with_reducible apply ite_keeps
    | with_reducible refine foldl_keeps ?_ _ _ (fun _ _ _ => ?_)
    | with_reducible refine foldl_snd_keeps _ ?_ _ _ (fun _ _ _ => ?_)
    | with_reducible apply State.cpServe_keeps
    | with_reducible apply State.fabricMove_keeps
    | with_reducible apply State.ingressMove_keeps

theorem State.consistCredit_keeps {b s : State} (h : Keeps b s) : Keeps b (State.consistCredit s) := by
  unfold State.consistCredit
  repeat' first
    | with_reducible assumption
    | ((try lift_lets); intro x; refine (fun (_ : Keeps b x) => ?_) ?_; (on_goal 2 => subst x); clear_value x)
    | intro _
    | exact rfl
    | with_reducible apply ite_keeps
    | with_reducible apply State.fabricMove_keeps
    | with_reducible apply State.ingressMove_keeps

theorem State.fillCells_keeps {b s : State} (h : Keeps b s) (uid : Nat) (ps : List Parcel) (rank : Nat) : Keeps b (State.fillCells s uid ps rank) := by
  unfold State.fillCells
  repeat' first
    | with_reducible assumption
    | intro _
    | exact rfl
    | with_reducible apply ite_keeps
    | with_reducible apply State.modMill_keeps

theorem State.unfillCells_keeps {b s : State} (h : Keeps b s) (uid : Nat) (ps : List Parcel) : Keeps b (State.unfillCells s uid ps) := by
  unfold State.unfillCells
  repeat' first
    | with_reducible assumption
    | intro _
    | exact rfl
    | with_reducible apply ite_keeps
    | with_reducible apply State.modMill_keeps

theorem State.noteHeartbeat_keeps {b s : State} (h : Keeps b s) (pos seqGen : Nat) (ps : List Parcel) : Keeps b (State.noteHeartbeat s pos seqGen ps) := by
  unfold State.noteHeartbeat
  repeat' first
    | with_reducible assumption
    | ((try lift_lets); intro x; clear_value x)
    | intro _
    | exact rfl
    | with_reducible apply ite_keeps
    | with_reducible apply State.modInaug_keeps

theorem State.storeCopy_keeps {b s : State} (h : Keeps b s) (slot : Nat) (f : Frame) (ps : List Parcel) : Keeps b (State.storeCopy s slot f ps) := by
  unfold State.storeCopy
  repeat' first
    | with_reducible assumption
    | ((try lift_lets); intro x; refine (fun (_ : Keeps b x) => ?_) ?_; (on_goal 2 => subst x); clear_value x)
    | ((try lift_lets); intro x; clear_value x)
    | intro _
    | exact rfl
    | with_reducible apply ite_keeps
    | with_reducible apply State.fillCells_keeps
    | with_reducible apply State.inc_keeps
    | with_reducible apply State.modMill_keeps
    | with_reducible apply State.noteHeartbeat_keeps
    | with_reducible apply State.recordS_keeps
    | with_reducible apply State.unfillCells_keeps
    | split

theorem State.swapCells_keeps {b s : State} (h : Keeps b s) : Keeps b (State.swapCells s) := by
  unfold State.swapCells
  repeat' first
    | with_reducible assumption
    | ((try lift_lets); intro x; clear_value x)
    | intro _
    | exact rfl
    | with_reducible apply ite_keeps
    | with_reducible apply State.modMill_keeps

theorem State.rebuildCells_keeps {b s : State} (h : Keeps b s) (sched : Schedule) (uidOf : Nat → Nat) : Keeps b (State.rebuildCells s sched uidOf) := by
  unfold State.rebuildCells
  repeat' first
    | with_reducible assumption
    | ((try lift_lets); intro x; clear_value x)
    | intro _
    | exact rfl
    | with_reducible apply ite_keeps
    | with_reducible apply State.modMill_keeps

theorem State.anchor_keeps {b s : State} (h : Keeps b s) (cause : Nat) : Keeps b (State.anchor s cause) := by
  unfold State.anchor
  repeat' first
    | with_reducible assumption
    | ((try lift_lets); intro x; refine (fun (_ : Keeps b x) => ?_) ?_; (on_goal 2 => subst x); clear_value x)
    | ((try lift_lets); intro x; clear_value x)
    | intro _
    | exact rfl
    | with_reducible apply ite_keeps
    | with_reducible apply State.enqueue_keeps
    | ((with_reducible apply State.modTally_keeps); on_goal 2 => exact fun _ h => h)

theorem State.alignTime_keeps {b s : State} (h : Keeps b s) (ns origin : Nat) : Keeps b (State.alignTime s ns origin) := by
  unfold State.alignTime
  repeat' first
    | with_reducible assumption
    | ((try lift_lets); intro x; refine (fun (_ : Keeps b x) => ?_) ?_; (on_goal 2 => subst x); clear_value x)
    | ((try lift_lets); intro x; clear_value x)
    | intro _
    | exact rfl
    | with_reducible apply ite_keeps
    | with_reducible apply State.anchor_keeps
    | with_reducible apply State.modClock_keeps
    | with_reducible apply State.modSync_keeps
    | with_reducible apply State.record_keeps
    | with_reducible apply State.set_keeps

theorem State.ppsSettle_keeps {b s : State} (h : Keeps b s) : Keeps b (State.ppsSettle s) := by
  unfold State.ppsSettle
  repeat' first
    | with_reducible assumption
    | intro _
    | exact rfl
    | with_reducible apply ite_keeps
    | with_reducible apply State.modPins_keeps

theorem State.pass_keeps {b s : State} (h : Keeps b s) (d : Nat) : Keeps b (State.pass s d) := by
  unfold State.pass
  repeat' first
    | with_reducible assumption
    | ((try lift_lets); intro x; refine (fun (_ : Keeps b x) => ?_) ?_; (on_goal 2 => subst x); clear_value x)
    | ((try lift_lets); intro x; clear_value x)
    | intro _
    | exact rfl
    | with_reducible apply ite_keeps
    | with_reducible apply State.modClock_keeps
    | with_reducible apply State.modSync_keeps
    | with_reducible apply State.ppsSettle_keeps
    | with_reducible apply State.up_keeps
    | split
    | refine Keeps.ofSnd ?_ (by assumption)
    | refine Keeps.ofThird ?_ (by assumption)
    | refine Keeps.ofFourth ?_ (by assumption)
    | (apply Keeps.other (by assumption) <;> rfl)

theorem State.passTo_keeps {b s : State} (h : Keeps b s) (x : Nat) : Keeps b (State.passTo s x) := by
  unfold State.passTo
  repeat' first
    | with_reducible assumption
    | intro _
    | exact rfl
    | with_reducible apply ite_keeps
    | with_reducible apply State.pass_keeps

theorem State.delaySample_keeps {b s : State} (h : Keeps b s) (n : Nat) (d : Int) : Keeps b (State.delaySample s n d) := by
  unfold State.delaySample
  repeat' first
    | with_reducible assumption
    | ((try lift_lets); intro x; refine (fun (_ : Keeps b x) => ?_) ?_; (on_goal 2 => subst x); clear_value x)
    | ((try lift_lets); intro x; clear_value x)
    | intro _
    | exact rfl
    | with_reducible apply ite_keeps
    | with_reducible apply State.inc_keeps
    | with_reducible apply State.modPort_keeps
    | with_reducible apply State.set_keeps

theorem State.delayLimit_keeps {b s : State} (h : Keeps b s) (n : Nat) : Keeps b (State.delayLimit s n) := by
  unfold State.delayLimit
  repeat' first
    | with_reducible assumption
    | ((try lift_lets); intro x; clear_value x)
    | intro _
    | exact rfl
    | with_reducible apply ite_keeps
    | with_reducible apply State.hold_keeps
    | with_reducible apply State.record_keeps

theorem State.delayLimits_keeps {b s : State} (h : Keeps b s) : Keeps b (State.delayLimits s) := by
  unfold State.delayLimits
  repeat' first
    | with_reducible assumption
    | intro _
    | exact rfl
    | with_reducible apply ite_keeps
    | with_reducible refine foldl_keeps ?_ _ _ (fun _ _ _ => ?_)
    | with_reducible refine foldl_snd_keeps _ ?_ _ _ (fun _ _ _ => ?_)
    | with_reducible apply State.delayLimit_keeps

theorem State.noteSender_keeps {b s : State} (h : Keeps b s) (pos uid dist : Nat) (d : Int) : Keeps b (State.noteSender s pos uid dist d) := by
  unfold State.noteSender
  repeat' first
    | with_reducible assumption
    | intro _
    | exact rfl
    | with_reducible apply ite_keeps
    | with_reducible apply State.modSync_keeps

theorem State.goSilent_keeps {b s : State} (h : Keeps b s) (why : Nat) : Keeps b (State.goSilent s why) := by
  unfold State.goSilent
  repeat' first
    | with_reducible assumption
    | ((try lift_lets); intro x; refine (fun (_ : Keeps b x) => ?_) ?_; (on_goal 2 => subst x); clear_value x)
    | intro _
    | exact rfl
    | with_reducible apply ite_keeps
    | with_reducible apply State.inc_keeps
    | with_reducible apply State.modSync_keeps
    | with_reducible apply State.record_keeps
    | with_reducible apply State.toLine_keeps

theorem State.nitRate_keeps {b s : State} (h : Keeps b s) (m : Int) : Keeps b (State.nitRate s m) := by
  unfold State.nitRate
  repeat' first
    | with_reducible assumption
    | ((try lift_lets); intro x; clear_value x)
    | intro _
    | exact rfl
    | with_reducible apply ite_keeps
    | with_reducible apply State.flag_keeps
    | with_reducible apply State.modSync_keeps
    | with_reducible apply State.record_keeps
    | with_reducible apply State.set_keeps
    | split

theorem State.nitCheck_keeps {b s : State} (h : Keeps b s) (conv : Bool) : Keeps b (State.nitCheck s conv) := by
  unfold State.nitCheck
  repeat' first
    | with_reducible assumption
    | intro _
    | exact rfl
    | with_reducible apply ite_keeps
    | with_reducible apply State.goSilent_keeps

theorem State.nitClamp_keeps {b s : State} (h : Keeps b s) : Keeps b (State.nitClamp s) := by
  unfold State.nitClamp
  repeat' first
    | with_reducible assumption
    | intro _
    | exact rfl
    | with_reducible apply ite_keeps
    | with_reducible apply State.inc_keeps

theorem State.nitWith_keeps {b s : State} (h : Keeps b s) (m : Int) : Keeps b (State.nitWith s m) := by
  unfold State.nitWith
  repeat' first
    | with_reducible assumption
    | ((try lift_lets); intro x; refine (fun (_ : Keeps b x) => ?_) ?_; (on_goal 2 => subst x); clear_value x)
    | ((try lift_lets); intro x; clear_value x)
    | intro _
    | exact rfl
    | with_reducible apply ite_keeps
    | with_reducible apply State.modSync_keeps
    | with_reducible apply State.nitCheck_keeps
    | with_reducible apply State.nitClamp_keeps
    | with_reducible apply State.nitRate_keeps
    | with_reducible apply State.set_keeps
    | with_reducible apply State.setInt_keeps

theorem State.nitSync_keeps {b s : State} (h : Keeps b s) : Keeps b (State.nitSync s) := by
  unfold State.nitSync
  repeat' first
    | with_reducible assumption
    | ((try lift_lets); intro x; refine (fun (_ : Keeps b x) => ?_) ?_; (on_goal 2 => subst x); clear_value x)
    | ((try lift_lets); intro x; clear_value x)
    | intro _
    | exact rfl
    | with_reducible apply ite_keeps
    | with_reducible apply State.inc_keeps
    | with_reducible apply State.modSync_keeps
    | with_reducible apply State.nitCheck_keeps
    | with_reducible apply State.nitClamp_keeps
    | with_reducible apply State.nitWith_keeps
    | with_reducible apply State.set_keeps
    | split

theorem State.probe_keeps {b s : State} (h : Keeps b s) (n k : Nat) : Keeps b (State.probe s n k) := by
  unfold State.probe
  repeat' first
    | with_reducible assumption
    | intro _
    | exact rfl
    | with_reducible apply ite_keeps
    | with_reducible apply State.modPort_keeps
    | with_reducible apply State.portTo_keeps

theorem State.heardSignal_keeps {b s : State} (h : Keeps b s) (n : Nat) : Keeps b (State.heardSignal s n) := by
  unfold State.heardSignal
  repeat' first
    | with_reducible assumption
    | intro _
    | exact rfl
    | with_reducible apply ite_keeps
    | with_reducible apply State.modPort_keeps

theorem State.freshCeil_keeps {b s : State} (h : Keeps b s) (n : Nat) : Keeps b (State.freshCeil s n) := by
  unfold State.freshCeil
  repeat' first
    | with_reducible assumption
    | intro _
    | exact rfl
    | with_reducible apply ite_keeps
    | with_reducible apply State.set_keeps

theorem State.train_keeps {b s : State} (h : Keeps b s) (n rate role : Nat) : Keeps b (State.train s n rate role) := by
  unfold State.train
  repeat' first
    | with_reducible assumption
    | intro _
    | exact rfl
    | with_reducible apply ite_keeps
    | with_reducible apply State.modPort_keeps
    | with_reducible apply State.portTo_keeps
    | with_reducible apply State.set_keeps

theorem State.trainXlink_keeps {b s : State} (h : Keeps b s) (n : Nat) : Keeps b (State.trainXlink s n) := by
  unfold State.trainXlink
  repeat' first
    | with_reducible assumption
    | intro _
    | exact rfl
    | with_reducible apply ite_keeps
    | with_reducible apply State.train_keeps

theorem State.startPort_keeps {b s : State} (h : Keeps b s) (n : Nat) : Keeps b (State.startPort s n) := by
  unfold State.startPort
  repeat' first
    | with_reducible assumption
    | ((try lift_lets); intro x; refine (fun (_ : Keeps b x) => ?_) ?_; (on_goal 2 => subst x); clear_value x)
    | ((try lift_lets); intro x; clear_value x)
    | intro _
    | exact rfl
    | with_reducible apply ite_keeps
    | with_reducible apply State.flag_keeps
    | with_reducible apply State.probe_keeps
    | with_reducible apply State.trainXlink_keeps

theorem State.stopPort_keeps {b s : State} (h : Keeps b s) (n : Nat) : Keeps b (State.stopPort s n) := by
  unfold State.stopPort
  repeat' first
    | with_reducible assumption
    | intro _
    | exact rfl
    | with_reducible apply ite_keeps
    | with_reducible refine foldl_keeps ?_ _ _ (fun _ _ _ => ?_)
    | with_reducible refine foldl_snd_keeps _ ?_ _ _ (fun _ _ _ => ?_)
    | with_reducible apply State.complete_keeps
    | with_reducible apply State.dropQueued_keeps
    | with_reducible apply State.portTo_keeps

theorem State.settlePorts_keeps {b s : State} (h : Keeps b s) : Keeps b (State.settlePorts s) := by
  unfold State.settlePorts
  repeat' first
    | with_reducible assumption
    | intro _
    | exact rfl
    | with_reducible apply ite_keeps
    | with_reducible refine foldl_keeps ?_ _ _ (fun _ _ _ => ?_)
    | with_reducible refine foldl_snd_keeps _ ?_ _ _ (fun _ _ _ => ?_)
    | with_reducible apply State.startPort_keeps
    | with_reducible apply State.stopPort_keeps

theorem State.trainFail_keeps {b s : State} (h : Keeps b s) (n : Nat) : Keeps b (State.trainFail s n) := by
  unfold State.trainFail
  repeat' first
    | with_reducible assumption
    | ((try lift_lets); intro x; refine (fun (_ : Keeps b x) => ?_) ?_; (on_goal 2 => subst x); clear_value x)
    | intro _
    | exact rfl
    | with_reducible apply ite_keeps
    | with_reducible apply State.inc_keeps
    | with_reducible apply State.probe_keeps
    | with_reducible apply State.record_keeps
    | with_reducible apply State.set_keeps
    | with_reducible apply State.trainXlink_keeps

theorem State.linkLoss_keeps {b s : State} (h : Keeps b s) (n : Nat) : Keeps b (State.linkLoss s n) := by
  unfold State.linkLoss
  repeat' first
    | with_reducible assumption
    | intro _
    | exact rfl
    | with_reducible apply ite_keeps
    | with_reducible apply State.probe_keeps
    | with_reducible apply State.trainXlink_keeps

theorem State.lpRetry_keeps {b s : State} (h : Keeps b s) (n : Nat) : Keeps b (State.lpRetry s n) := by
  unfold State.lpRetry
  repeat' first
    | with_reducible assumption
    | ((try lift_lets); intro x; refine (fun (_ : Keeps b x) => ?_) ?_; (on_goal 2 => subst x); clear_value x)
    | intro _
    | exact rfl
    | with_reducible apply ite_keeps
    | with_reducible apply State.freshCeil_keeps
    | with_reducible apply State.linkLoss_keeps

theorem execProbeListenEnd_keeps {b s s1 : State} (h : State.Keeps b s) (n : Fin 4) (e : execProbeListenEnd n s = .next s1) : State.Keeps b s1 := by
  unfold execProbeListenEnd at e
  cases e
  repeat' first
    | with_reducible assumption
    | intro _
    | exact rfl
    | with_reducible apply ite_keeps
    | with_reducible apply State.modPort_keeps

theorem execProbeMasterEnd_keeps {b s s1 : State} (h : State.Keeps b s) (n : Fin 4) (e : execProbeMasterEnd n s = .next s1) : State.Keeps b s1 := by
  unfold execProbeMasterEnd at e
  cases e
  repeat' first
    | with_reducible assumption
    | intro _
    | exact rfl
    | with_reducible apply ite_keeps
    | with_reducible apply State.probe_keeps

theorem execTrainingSignalDetect_keeps {b s s1 : State} (h : State.Keeps b s) (n : Fin 4) (rate : Fin 5) (e : execTrainingSignalDetect n rate s = .next s1) : State.Keeps b s1 := by
  unfold execTrainingSignalDetect at e
  cases e
  repeat' first
    | with_reducible assumption
    | ((try lift_lets); intro x; refine (fun (_ : Keeps b x) => ?_) ?_; (on_goal 2 => subst x); clear_value x)
    | intro _
    | exact rfl
    | with_reducible apply ite_keeps
    | with_reducible apply State.heardSignal_keeps
    | with_reducible apply State.train_keeps

theorem execSlaveResponse_keeps {b s s1 : State} (h : State.Keeps b s) (n : Fin 4) (e : execSlaveResponse n s = .next s1) : State.Keeps b s1 := by
  unfold execSlaveResponse at e
  cases e
  repeat' first
    | with_reducible assumption
    | intro _
    | exact rfl
    | with_reducible apply ite_keeps
    | with_reducible apply State.heardSignal_keeps
    | with_reducible apply State.train_keeps

theorem execTrainingFail_keeps {b s s1 : State} (h : State.Keeps b s) (n : Fin 4) (e : execTrainingFail n s = .next s1) : State.Keeps b s1 := by
  unfold execTrainingFail at e
  cases e
  repeat' first
    | with_reducible assumption
    | intro _
    | exact rfl
    | with_reducible apply ite_keeps
    | with_reducible apply State.trainFail_keeps

theorem execPhyLinkUp_keeps {b s s1 : State} (h : State.Keeps b s) (n : Fin 4) (sqi : Fin 8) (e : execPhyLinkUp n sqi s = .next s1) : State.Keeps b s1 := by
  unfold execPhyLinkUp at e
  cases e
  repeat' first
    | with_reducible assumption
    | intro _
    | exact rfl
    | with_reducible apply ite_keeps
    | with_reducible apply State.portTo_keeps
    | with_reducible apply State.set_keeps

theorem execIdentifyTimeout_keeps {b s s1 : State} (h : State.Keeps b s) (n : Fin 4) (e : execIdentifyTimeout n s = .next s1) : State.Keeps b s1 := by
  unfold execIdentifyTimeout at e
  cases e
  repeat' first
    | with_reducible assumption
    | intro _
    | exact rfl
    | with_reducible apply ite_keeps
    | with_reducible apply State.linkLoss_keeps

theorem execProbeCeilingReset_keeps {b s s1 : State} (h : State.Keeps b s) (n : Fin 4) (e : execProbeCeilingReset n s = .next s1) : State.Keeps b s1 := by
  unfold execProbeCeilingReset at e
  cases e
  repeat' first
    | with_reducible assumption
    | intro _
    | exact rfl
    | with_reducible apply ite_keeps
    | with_reducible apply State.freshCeil_keeps

theorem execLpRetry_keeps {b s s1 : State} (h : State.Keeps b s) (n : Fin 4) (e : execLpRetry n s = .next s1) : State.Keeps b s1 := by
  unfold execLpRetry at e
  cases e
  repeat' first
    | with_reducible assumption
    | intro _
    | exact rfl
    | with_reducible apply ite_keeps
    | with_reducible apply State.lpRetry_keeps

theorem execLinkLoss_keeps {b s s1 : State} (h : State.Keeps b s) (n : Fin 4) (e : execLinkLoss n s = .next s1) : State.Keeps b s1 := by
  unfold execLinkLoss at e
  cases e
  repeat' first
    | with_reducible assumption
    | intro _
    | exact rfl
    | with_reducible apply ite_keeps
    | with_reducible apply State.linkLoss_keeps

theorem State.rxCheck_keeps {b s : State} (h : Keeps b s) (n : Nat) (f : Frame) (c : RxCheck) (icnt : Bool) (delta : Option Int) (counted tag : Bool) : Keeps b (State.rxCheck s n f c icnt delta counted tag).2 := by
  unfold State.rxCheck
  repeat' first
    | with_reducible assumption
    | ((try lift_lets); intro x; clear_value x)
    | intro _
    | exact rfl
    | with_reducible apply ite_keeps
    | with_reducible apply ite_snd_keeps
    | with_reducible apply State.inc_keeps
    | with_reducible apply State.recordS_keeps

theorem State.forward_keeps {b s : State} (h : Keeps b s) (n : Nat) (c : RxCheck) (stomp : Bool) (f : Frame) : Keeps b (State.forward s n c stomp f) := by
  unfold State.forward
  repeat' first
    | with_reducible assumption
    | ((try lift_lets); intro x; clear_value x)
    | intro _
    | exact rfl
    | with_reducible apply ite_keeps
    | with_reducible apply State.inc_keeps
    | with_reducible apply State.transmit_keeps

theorem State.toPartner_keeps {b s : State} (h : Keeps b s) (f : Frame) : Keeps b (State.toPartner s f) := by
  unfold State.toPartner
  repeat' first
    | with_reducible assumption
    | intro _
    | exact rfl
    | with_reducible apply ite_keeps
    | with_reducible refine foldl_keeps ?_ _ _ (fun _ _ _ => ?_)
    | with_reducible refine foldl_snd_keeps _ ?_ _ _ (fun _ _ _ => ?_)
    | with_reducible apply State.transmit_keeps

theorem State.rxX_keeps {b s : State} (h : Keeps b s) (n : Nat) (f : Frame) (c : RxCheck) : Keeps b (State.rxX s n f c).2 := by
  unfold State.rxX
  repeat' first
    | with_reducible assumption
    | intro _
    | exact rfl
    | with_reducible apply ite_keeps
    | with_reducible apply ite_snd_keeps
    | with_reducible apply State.rxCheck_keeps

theorem State.noteHome_keeps {b s : State} (h : Keeps b s) (f : Frame) (d : Int) : Keeps b (State.noteHome s f d) := by
  unfold State.noteHome
  repeat' first
    | with_reducible assumption
    | intro _
    | exact rfl
    | with_reducible apply ite_keeps
    | with_reducible apply State.noteSender_keeps

theorem State.witnessHome_keeps {b s : State} (h : Keeps b s) (chanB : Bool) (f : Frame) : Keeps b (State.witnessHome s chanB f) := by
  unfold State.witnessHome
  repeat' first
    | with_reducible assumption
    | intro _
    | exact rfl
    | with_reducible apply ite_keeps
    | with_reducible apply State.modRed_keeps

theorem State.rxStatic_keeps {b s : State} (h : Keeps b s) (n : Nat) (f : Frame) (c : RxCheck) : Keeps b (State.rxStatic s n f c) := by
  unfold State.rxStatic
  repeat' first
    | with_reducible assumption
    | ((try lift_lets); intro x; refine (fun (_ : Keeps b x) => ?_) ?_; (on_goal 2 => subst x); clear_value x)
    | ((try lift_lets); intro x; clear_value x)
    | intro _
    | exact rfl
    | with_reducible apply ite_keeps
    | with_reducible apply State.forward_keeps
    | with_reducible apply State.noteHome_keeps
    | with_reducible apply State.rxCheck_keeps
    | with_reducible apply State.storeCopy_keeps
    | with_reducible apply State.toPartner_keeps
    | with_reducible apply State.witnessHome_keeps
    | split
    | refine Keeps.ofSnd ?_ (by assumption)

theorem State.rxStaticX_keeps {b s : State} (h : Keeps b s) (n : Nat) (f : Frame) (c : RxCheck) : Keeps b (State.rxStaticX s n f c) := by
  unfold State.rxStaticX
  repeat' first
    | with_reducible assumption
    | intro _
    | exact rfl
    | with_reducible apply ite_keeps
    | with_reducible apply State.rxX_keeps
    | with_reducible apply State.storeCopy_keeps
    | with_reducible apply State.witnessHome_keeps
    | split

theorem State.observe_keeps {b s : State} (h : Keeps b s) (n kind luid hops : Nat) (f : Frame) (c : RxCheck) : Keeps b (State.observe s n kind luid hops f c) := by
  unfold State.observe
  repeat' first
    | with_reducible assumption
    | ((try lift_lets); intro x; clear_value x)
    | intro _
    | exact rfl
    | with_reducible apply ite_keeps
    | with_reducible apply State.modPort_keeps

theorem State.restartListen_keeps {b s : State} (h : Keeps b s) : Keeps b (State.restartListen s) := by
  unfold State.restartListen
  repeat' first
    | with_reducible assumption
    | intro _
    | exact rfl
    | with_reducible apply ite_keeps
    | with_reducible apply State.modStart_keeps

theorem State.heardLine_keeps {b s : State} (h : Keeps b s) (n : Nat) (own : Bool) : Keeps b (State.heardLine s n own) := by
  unfold State.heardLine
  repeat' first
    | with_reducible assumption
    | ((try lift_lets); intro x; refine (fun (_ : Keeps b x) => ?_) ?_; (on_goal 2 => subst x); clear_value x)
    | intro _
    | exact rfl
    | with_reducible apply ite_keeps
    | with_reducible apply State.leaveSolo_keeps
    | with_reducible apply State.modStart_keeps
    | with_reducible apply State.restartListen_keeps

theorem State.startupRelay_keeps {b s : State} (h : Keeps b s) (n : Nat) (f : Frame) (w : RelayWord) (c : RxCheck) : Keeps b (State.startupRelay s n f w c) := by
  unfold State.startupRelay
  repeat' first
    | with_reducible assumption
    | ((try lift_lets); intro x; refine (fun (_ : Keeps b x) => ?_) ?_; (on_goal 2 => subst x); clear_value x)
    | intro _
    | exact rfl
    | with_reducible apply ite_keeps
    | with_reducible apply State.heardLine_keeps
    | with_reducible apply State.modStart_keeps
    | with_reducible apply State.observe_keeps
    | with_reducible apply State.toLine_keeps

theorem State.startupKickoff_keeps {b s : State} (h : Keeps b s) (n : Nat) (f : Frame) (k : Kickoff) (c : RxCheck) : Keeps b (State.startupKickoff s n f k c) := by
  unfold State.startupKickoff
  repeat' first
    | with_reducible assumption
    | ((try lift_lets); intro x; refine (fun (_ : Keeps b x) => ?_) ?_; (on_goal 2 => subst x); clear_value x)
    | intro _
    | exact rfl
    | with_reducible apply ite_keeps
    | with_reducible apply State.heardLine_keeps
    | with_reducible apply State.inc_keeps
    | with_reducible apply State.observe_keeps
    | with_reducible apply State.record_keeps
    | with_reducible apply State.toLine_keeps

theorem State.startupX_keeps {b s : State} (h : Keeps b s) (n : Nat) (f : Frame) (w : RelayWord) (c : RxCheck) : Keeps b (State.startupX s n f w c) := by
  unfold State.startupX
  repeat' first
    | with_reducible assumption
    | intro _
    | exact rfl
    | with_reducible apply ite_keeps
    | with_reducible apply State.startupRelay_keeps

theorem State.noteRelay_keeps {b s : State} (h : Keeps b s) (w : RelayWord) (d : Int) : Keeps b (State.noteRelay s w d) := by
  unfold State.noteRelay
  repeat' first
    | with_reducible assumption
    | intro _
    | exact rfl
    | with_reducible apply ite_keeps
    | with_reducible apply State.noteSender_keeps

theorem State.relayOn_keeps {b s : State} (h : Keeps b s) (n : Nat) (f : Frame) (w : RelayWord) (c : RxCheck) (stomp changed : Bool) (body : RelayWord → Payload) : Keeps b (State.relayOn s n f w c stomp changed body) := by
  unfold State.relayOn
  repeat' first
    | with_reducible assumption
    | ((try lift_lets); intro x; refine (fun (_ : Keeps b x) => ?_) ?_; (on_goal 2 => subst x); clear_value x)
    | intro _
    | exact rfl
    | with_reducible apply ite_keeps
    | with_reducible apply State.forward_keeps
    | with_reducible apply State.withSalt_keeps

theorem State.rxRelay_keeps {b s : State} (h : Keeps b s) (n : Nat) (f : Frame) (w : RelayWord) (c : RxCheck) : Keeps b (State.rxRelay s n f w c).2 := by
  unfold State.rxRelay
  repeat' first
    | with_reducible assumption
    | ((try lift_lets); intro x; refine (fun (_ : Keeps b x) => ?_) ?_; (on_goal 2 => subst x); clear_value x)
    | intro _
    | exact rfl
    | with_reducible apply ite_keeps
    | with_reducible apply ite_snd_keeps
    | with_reducible apply State.learnH_keeps
    | with_reducible apply State.modPort_keeps
    | with_reducible apply State.noteRelay_keeps
    | with_reducible apply State.rxCheck_keeps
    | with_reducible apply State.startupRelay_keeps
    | with_reducible apply State.toPartner_keeps
    | with_reducible apply State.weirRef_keeps
    | split
    | refine Keeps.ofSnd ?_ (by assumption)

theorem State.forwardKickoff_keeps {b s : State} (h : Keeps b s) (n : Nat) (f : Frame) (k : Kickoff) (c : RxCheck) (stomp : Bool) : Keeps b (State.forwardKickoff s n f k c stomp) := by
  unfold State.forwardKickoff
  repeat' first
    | with_reducible assumption
    | intro _
    | exact rfl
    | with_reducible apply ite_keeps
    | with_reducible apply State.forward_keeps
    | with_reducible apply State.inc_keeps
    | with_reducible apply State.recordS_keeps

theorem State.rxKickoff_keeps {b s : State} (h : Keeps b s) (n : Nat) (f : Frame) (k : Kickoff) (c : RxCheck) : Keeps b (State.rxKickoff s n f k c) := by
  unfold State.rxKickoff
  repeat' first
    | with_reducible assumption
    | ((try lift_lets); intro x; refine (fun (_ : Keeps b x) => ?_) ?_; (on_goal 2 => subst x); clear_value x)
    | intro _
    | exact rfl
    | with_reducible apply ite_keeps
    | with_reducible apply State.forwardKickoff_keeps
    | with_reducible apply State.noteSender_keeps
    | with_reducible apply State.rxCheck_keeps
    | with_reducible apply State.startupKickoff_keeps
    | with_reducible apply State.toPartner_keeps
    | with_reducible apply State.weirRef_keeps
    | split

theorem State.rxKickoffX_keeps {b s : State} (h : Keeps b s) (n : Nat) (f : Frame) (k : Kickoff) (c : RxCheck) : Keeps b (State.rxKickoffX s n f k c) := by
  unfold State.rxKickoffX
  repeat' first
    | with_reducible assumption
    | intro _
    | exact rfl
    | with_reducible apply ite_keeps
    | with_reducible apply State.rxX_keeps
    | with_reducible apply State.startupKickoff_keeps

theorem State.identify_keeps {b s : State} (hh : Keeps b s) (n : Nat) (h : Hop) : Keeps b (State.identify s n h) := by
  unfold State.identify
  repeat' first
    | with_reducible assumption
    | ((try lift_lets); intro x; refine (fun (_ : Keeps b x) => ?_) ?_; (on_goal 2 => subst x); clear_value x)
    | intro _
    | exact rfl
    | with_reducible apply ite_keeps
    | with_reducible refine foldl_keeps ?_ _ _ (fun _ _ _ => ?_)
    | with_reducible refine foldl_snd_keeps _ ?_ _ _ (fun _ _ _ => ?_)
    | with_reducible apply State.flag_keeps
    | with_reducible apply State.hold_keeps
    | with_reducible apply State.modPort_keeps
    | with_reducible apply State.record_keeps
    | with_reducible apply State.set_keeps
    | with_reducible apply State.settlePorts_keeps
    | with_reducible apply State.up_keeps
    | with_reducible apply State.upFrom_keeps
    | split

theorem State.nbrState_keeps {b s : State} (h : Keeps b s) (n ls : Nat) : Keeps b (State.nbrState s n ls) := by
  unfold State.nbrState
  repeat' first
    | with_reducible assumption
    | ((try lift_lets); intro x; refine (fun (_ : Keeps b x) => ?_) ?_; (on_goal 2 => subst x); clear_value x)
    | intro _
    | exact rfl
    | with_reducible apply ite_keeps
    | with_reducible apply State.modPort_keeps
    | with_reducible apply State.modStart_keeps
    | with_reducible apply State.showEnds_keeps

theorem State.rxHop_keeps {b s : State} (hh : Keeps b s) (n : Nat) (f : Frame) (h : Hop) (c : RxCheck) : Keeps b (State.rxHop s n f h c) := by
  unfold State.rxHop
  repeat' first
    | with_reducible assumption
    | ((try lift_lets); intro x; refine (fun (_ : Keeps b x) => ?_) ?_; (on_goal 2 => subst x); clear_value x)
    | ((try lift_lets); intro x; clear_value x)
    | intro _
    | exact rfl
    | with_reducible apply ite_keeps
    | with_reducible apply State.delayLimit_keeps
    | with_reducible apply State.delaySample_keeps
    | with_reducible apply State.identify_keeps
    | with_reducible apply State.modPort_keeps
    | with_reducible apply State.nbrState_keeps
    | with_reducible apply State.poolLate_keeps
    | with_reducible apply State.rxCheck_keeps
    | split

theorem State.eliminate_keeps {b s : State} (h : Keeps b s) (sender stream seq : Nat) : Keeps b (State.eliminate s sender stream seq).2 := by
  unfold State.eliminate
  repeat' first
    | with_reducible assumption
    | ((try lift_lets); intro x; refine (fun (hx : ∀ y0 y1, Keeps b (x y0 y1)) => ?_) ?_; (on_goal 2 => subst x); clear_value x)
    | ((try lift_lets); intro x; clear_value x)
    | intro _
    | exact rfl
    | with_reducible apply ite_keeps
    | with_reducible apply ite_snd_keeps
    | with_reducible apply State.inc_keeps
    | with_reducible apply State.modRed_keeps
    | split
    | refine Keeps.ofSnd ?_ (by assumption)
    | refine Keeps.ofThird ?_ (by assumption)
    | refine Keeps.ofFourth ?_ (by assumption)
    | with_reducible apply hx

theorem State.toReceive_keeps {b s : State} (h : Keeps b s) (f : Frame) (d : Dyn) : Keeps b (State.toReceive s f d) := by
  unfold State.toReceive
  repeat' first
    | with_reducible assumption
    | ((try lift_lets); intro x; clear_value x)
    | intro _
    | exact rfl
    | with_reducible apply ite_keeps
    | with_reducible apply State.hold_keeps
    | with_reducible apply State.inc_keeps
    | with_reducible apply State.modQueue_keeps
    | with_reducible apply State.recordS_keeps

theorem State.fillBuffers_keeps {b s : State} (h : Keeps b s) (t q : Nat) (k : Nat) : Keeps b (State.fillBuffers s t q k) := by
  induction k generalizing s t q with
  | zero => exact h
  | succ k ih =>
    unfold State.fillBuffers
    repeat' first
      | with_reducible assumption
      | with_reducible apply ih
      | ((try lift_lets); intro x; clear_value x)
      | intro _
      | exact rfl
      | with_reducible apply ite_keeps
      | with_reducible apply State.completeC_keeps
      | with_reducible apply State.hold_keeps
      | with_reducible apply State.memWrite_keeps
      | with_reducible apply State.modQueue_keeps
      | with_reducible apply State.take_keeps
      | split
      | refine Keeps.ofSnd ?_ (by assumption)
      | refine Keeps.ofThird ?_ (by assumption)
      | refine Keeps.ofFourth ?_ (by assumption)
      | dsimp only

theorem State.deliver_keeps {b s : State} (h : Keeps b s) (f : Frame) (d : Dyn) : Keeps b (State.deliver s f d) := by
  unfold State.deliver
  repeat' first
    | with_reducible assumption
    | intro _
    | exact rfl
    | with_reducible apply ite_keeps
    | with_reducible apply State.eliminate_keeps
    | with_reducible apply State.fillBuffers_keeps
    | with_reducible apply State.fromLine_keeps
    | with_reducible apply State.toReceive_keeps

theorem State.deliverOwn_keeps {b s : State} (h : Keeps b s) (f : Frame) (d : Dyn) : Keeps b (State.deliverOwn s f d) := by
  unfold State.deliverOwn
  repeat' first
    | with_reducible assumption
    | intro _
    | exact rfl
    | with_reducible apply ite_keeps
    | with_reducible apply State.fillBuffers_keeps
    | with_reducible apply State.fromLine_keeps
    | with_reducible apply State.toReceive_keeps

theorem State.rxDynamic_keeps {b s : State} (h : Keeps b s) (n : Nat) (f : Frame) (d : Dyn) (c : RxCheck) : Keeps b (State.rxDynamic s n f d c) := by
  unfold State.rxDynamic
  repeat' first
    | with_reducible assumption
    | ((try lift_lets); intro x; clear_value x)
    | intro _
    | exact rfl
    | with_reducible apply ite_keeps
    | with_reducible apply State.deliver_keeps
    | with_reducible apply State.freeHeld_keeps
    | with_reducible apply State.inc_keeps
    | with_reducible apply State.modPort_keeps
    | with_reducible apply State.poolLate_keeps
    | with_reducible apply State.recordS_keeps
    | with_reducible apply State.rxCheck_keeps
    | with_reducible apply State.toPartner_keeps
    | with_reducible apply State.when_keeps

theorem State.noteSent_keeps {b s : State} (h : Keeps b s) (f : Frame) : Keeps b (State.noteSent s f) := by
  unfold State.noteSent
  repeat' first
    | with_reducible assumption
    | ((try lift_lets); intro x; clear_value x)
    | intro _
    | exact rfl
    | with_reducible apply ite_keeps
    | with_reducible apply State.modRed_keeps

theorem State.rxDynamicX_keeps {b s : State} (h : Keeps b s) (n : Nat) (f : Frame) (d : Dyn) (c : RxCheck) : Keeps b (State.rxDynamicX s n f d c) := by
  unfold State.rxDynamicX
  repeat' first
    | with_reducible assumption
    | ((try lift_lets); intro x; refine (fun (_ : Keeps b x) => ?_) ?_; (on_goal 2 => subst x); clear_value x)
    | ((try lift_lets); intro x; clear_value x)
    | intro _
    | exact rfl
    | with_reducible apply ite_keeps
    | with_reducible apply State.complete_keeps
    | with_reducible apply State.deliver_keeps
    | with_reducible apply State.deliverOwn_keeps
    | with_reducible apply State.noteSent_keeps
    | with_reducible apply State.originate_keeps
    | with_reducible apply State.queueOwn_keeps
    | with_reducible apply State.rxX_keeps

theorem execStaticFrameReceive_keeps {b s s1 : State} (h : State.Keeps b s) (n : Fin 4) (f : Frame) (c : RxCheck) (e : execStaticFrameReceive n f c s = .next s1) : State.Keeps b s1 := by
  unfold execStaticFrameReceive at e
  cases e
  repeat' first
    | with_reducible assumption
    | intro _
    | exact rfl
    | with_reducible apply ite_keeps
    | with_reducible apply State.rxStatic_keeps
    | with_reducible apply State.rxStaticX_keeps

theorem execKickoffReceive_keeps {b s s1 : State} (h : State.Keeps b s) (n : Fin 4) (f : Frame) (c : RxCheck) (e : execKickoffReceive n f c s = .next s1) : State.Keeps b s1 := by
  unfold execKickoffReceive at e
  cases e
  repeat' first
    | with_reducible assumption
    | intro _
    | exact rfl
    | with_reducible apply ite_keeps
    | with_reducible apply State.rxKickoff_keeps
    | with_reducible apply State.rxKickoffX_keeps
    | split

theorem execHopFrameReceive_keeps {b s s1 : State} (h : State.Keeps b s) (n : Fin 4) (f : Frame) (c : RxCheck) (e : execHopFrameReceive n f c s = .next s1) : State.Keeps b s1 := by
  unfold execHopFrameReceive at e
  cases e
  repeat' first
    | with_reducible assumption
    | intro _
    | exact rfl
    | with_reducible apply ite_keeps
    | with_reducible apply State.rxHop_keeps
    | split

theorem execDynamicFrameReceive_keeps {b s s1 : State} (h : State.Keeps b s) (n : Fin 4) (f : Frame) (c : RxCheck) (e : execDynamicFrameReceive n f c s = .next s1) : State.Keeps b s1 := by
  unfold execDynamicFrameReceive at e
  cases e
  repeat' first
    | with_reducible assumption
    | intro _
    | exact rfl
    | with_reducible apply ite_keeps
    | with_reducible apply State.rxDynamic_keeps
    | with_reducible apply State.rxDynamicX_keeps
    | split

theorem execRecoveryStateTimeout_keeps {b s s1 : State} (h : State.Keeps b s) (e : execRecoveryStateTimeout s = .next s1) : State.Keeps b s1 := by
  unfold execRecoveryStateTimeout at e
  cases e
  repeat' first
    | with_reducible assumption
    | intro _
    | exact rfl
    | with_reducible apply ite_keeps
    | with_reducible apply State.modRed_keeps

end Sys2Proof.Machine
end

