-- ==== Sys2Proof/Laws/KeepsInaug.lean ====
section
/-!
SUPPORT. One lemma for each operation and each command: what it keeps (State.Keeps). Here: far transfers, relay frames, inauguration, synthesis and the turn images.
-/

namespace Sys2Proof.Machine

open State

theorem State.showFar_keeps {b s : State} (h : Keeps b s) : Keeps b (State.showFar s) := by
  unfold State.showFar
  repeat' first
    | with_reducible assumption
    | ((try lift_lets); intro x; refine (fun (_ : Keeps b x) => ?_) ?_; (on_goal 2 => subst x); clear_value x)
    | intro _
    | exact rfl
    | with_reducible apply ite_keeps
    | with_reducible apply State.set_keeps

theorem State.showApErr_keeps {b s : State} (h : Keeps b s) (port : Nat) : Keeps b (State.showApErr s port) := by
  unfold State.showApErr
  repeat' first
    | with_reducible assumption
    | ((try lift_lets); intro x; clear_value x)
    | intro _
    | exact rfl
    | with_reducible apply ite_keeps
    | with_reducible apply State.set_keeps

theorem State.apError_keeps {b s : State} (h : Keeps b s) (port off seq fstat pieces : Nat) : Keeps b (State.apError s port off seq fstat pieces) := by
  unfold State.apError
  repeat' first
    | with_reducible assumption
    | ((try lift_lets); intro x; refine (fun (_ : Keeps b x) => ?_) ?_; (on_goal 2 => subst x); clear_value x)
    | ((try lift_lets); intro x; clear_value x)
    | intro _
    | exact rfl
    | with_reducible apply ite_keeps
    | with_reducible apply State.modFar_keeps
    | with_reducible apply State.msix_keeps
    | with_reducible apply State.recordS_keeps
    | with_reducible apply State.showApErr_keeps

theorem State.apDone_keeps {b s : State} (h : Keeps b s) (port seq : Nat) : Keeps b (State.apDone s port seq) := by
  unfold State.apDone
  repeat' first
    | with_reducible assumption
    | ((try lift_lets); intro x; refine (fun (_ : Keeps b x) => ?_) ?_; (on_goal 2 => subst x); clear_value x)
    | ((try lift_lets); intro x; clear_value x)
    | intro _
    | exact rfl
    | with_reducible apply ite_keeps
    | with_reducible refine foldl_keeps ?_ _ _ (fun _ _ _ => ?_)
    | with_reducible refine foldl_snd_keeps _ ?_ _ _ (fun _ _ _ => ?_)
    | with_reducible apply State.modFar_keeps
    | with_reducible apply State.set_keeps

theorem State.pfDiscard_keeps {b s : State} (h : Keeps b s) (i : Nat) : Keeps b (State.pfDiscard s i) := by
  unfold State.pfDiscard
  repeat' first
    | with_reducible assumption
    | ((try lift_lets); intro x; refine (fun (_ : Keeps b x) => ?_) ?_; (on_goal 2 => subst x); clear_value x)
    | intro _
    | exact rfl
    | with_reducible apply ite_keeps
    | with_reducible apply State.modFar_keeps
    | with_reducible apply State.recordS_keeps
    | split

theorem State.pfDiscardIf_keeps {b s : State} (h : Keeps b s) (p : Prefetch → Bool) : Keeps b (State.pfDiscardIf s p) := by
  unfold State.pfDiscardIf
  repeat' first
    | with_reducible assumption
    | intro _
    | exact rfl
    | with_reducible apply ite_keeps
    | with_reducible refine foldl_keeps ?_ _ _ (fun _ _ _ => ?_)
    | with_reducible refine foldl_snd_keeps _ ?_ _ _ (fun _ _ _ => ?_)
    | with_reducible apply State.pfDiscard_keeps

theorem State.pfKeep_keeps {b s : State} (h : Keeps b s) (pos uid func wnum width off : Nat) (data : List Byte) : Keeps b (State.pfKeep s pos uid func wnum width off data) := by
  unfold State.pfKeep
  repeat' first
    | with_reducible assumption
    | ((try lift_lets); intro x; refine (fun (_ : Keeps b x) => ?_) ?_; (on_goal 2 => subst x); clear_value x)
    | ((try lift_lets); intro x; clear_value x)
    | intro _
    | exact rfl
    | with_reducible apply ite_keeps
    | with_reducible refine foldl_keeps ?_ _ _ (fun _ _ _ => ?_)
    | with_reducible refine foldl_snd_keeps _ ?_ _ _ (fun _ _ _ => ?_)
    | with_reducible apply State.modFar_keeps
    | with_reducible apply State.pfDiscard_keeps

theorem State.dropTransfers_keeps {b s : State} (h : Keeps b s) (t q i : Nat) : Keeps b (State.dropTransfers s t q i) := by
  unfold State.dropTransfers
  repeat' first
    | with_reducible assumption
    | intro _
    | exact rfl
    | with_reducible apply ite_keeps
    | with_reducible apply State.modFar_keeps
    | with_reducible apply State.showFar_keeps

theorem State.noteAnswered_keeps {b s : State} (h : Keeps b s) (uid func end_ : Nat) : Keeps b (State.noteAnswered s uid func end_) := by
  unfold State.noteAnswered
  repeat' first
    | with_reducible assumption
    | intro _
    | exact rfl
    | with_reducible apply ite_keeps
    | with_reducible apply State.modFar_keeps

theorem State.readAnswered_keeps {b s : State} (h : Keeps b s) (l : List Transfer) : Keeps b (State.readAnswered s l) := by
  unfold State.readAnswered
  repeat' first
    | with_reducible assumption
    | intro _
    | exact rfl
    | with_reducible apply ite_keeps
    | with_reducible apply State.noteAnswered_keeps
    | split

theorem State.farComplete_keeps {b s : State} (h : Keeps b s) (t q i : Nat) : Keeps b (State.farComplete s t q i) := by
  unfold State.farComplete
  repeat' first
    | with_reducible assumption
    | ((try lift_lets); intro x; refine (fun (_ : Keeps b x) => ?_) ?_; (on_goal 2 => subst x); clear_value x)
    | ((try lift_lets); intro x; clear_value x)
    | intro _
    | exact rfl
    | with_reducible apply ite_keeps
    | with_reducible apply State.complete_keeps
    | with_reducible apply State.dropTransfers_keeps
    | with_reducible apply State.readAnswered_keeps
    | split

theorem State.setTransfer_keeps {b s : State} (h : Keeps b s) (x y : Transfer) : Keeps b (State.setTransfer s x y) := by
  unfold State.setTransfer
  repeat' first
    | with_reducible assumption
    | intro _
    | exact rfl
    | with_reducible apply ite_keeps
    | with_reducible apply State.modFar_keeps

theorem State.farEnd_keeps {b s : State} (h : Keeps b s) (x : Transfer) (fstat pieces bytes wnum : Nat) (data : List Byte) : Keeps b (State.farEnd s x fstat pieces bytes wnum data) := by
  unfold State.farEnd
  repeat' first
    | with_reducible assumption
    | ((try lift_lets); intro x; refine (fun (_ : Keeps b x) => ?_) ?_; (on_goal 2 => subst x); clear_value x)
    | intro _
    | exact rfl
    | with_reducible apply ite_keeps
    | with_reducible apply State.apDone_keeps
    | with_reducible apply State.apError_keeps
    | with_reducible apply State.emit_keeps
    | with_reducible apply State.farComplete_keeps
    | with_reducible apply State.modFar_keeps
    | with_reducible apply State.setTransfer_keeps
    | with_reducible apply State.showFar_keeps
    | split

theorem State.attStop_keeps {b s : State} (h : Keeps b s) : Keeps b (State.attStop s) := by
  unfold State.attStop
  repeat' first
    | with_reducible assumption
    | ((try lift_lets); intro x; clear_value x)
    | intro _
    | exact rfl
    | with_reducible apply ite_keeps
    | with_reducible refine foldl_keeps ?_ _ _ (fun _ _ _ => ?_)
    | with_reducible refine foldl_snd_keeps _ ?_ _ _ (fun _ _ _ => ?_)
    | with_reducible apply State.complete_keeps
    | ((with_reducible apply State.modSec_keeps); on_goal 2 => exact fun _ => ⟨Nat.le_refl _, Nat.le_refl _⟩)

theorem State.farStop_keeps {b s : State} (h : Keeps b s) : Keeps b (State.farStop s) := by
  unfold State.farStop
  repeat' first
    | with_reducible assumption
    | ((try lift_lets); intro x; refine (fun (_ : Keeps b x) => ?_) ?_; (on_goal 2 => subst x); clear_value x)
    | intro _
    | exact rfl
    | with_reducible apply ite_keeps
    | with_reducible refine foldl_keeps ?_ _ _ (fun _ _ _ => ?_)
    | with_reducible refine foldl_snd_keeps _ ?_ _ _ (fun _ _ _ => ?_)
    | with_reducible apply State.attStop_keeps
    | with_reducible apply State.completeAll_keeps
    | with_reducible apply State.farEnd_keeps
    | with_reducible apply State.modFar_keeps
    | with_reducible apply State.pfDiscardIf_keeps
    | with_reducible apply State.showFar_keeps
    | split

theorem State.meet_keeps {b s : State} (h : Keeps b s) (n : Nat) (c : Confirm) : Keeps b (State.meet s n c) := by
  unfold State.meet
  repeat' first
    | with_reducible assumption
    | ((try lift_lets); intro x; refine (fun (_ : Keeps b x) => ?_) ?_; (on_goal 2 => subst x); clear_value x)
    | intro _
    | exact rfl
    | with_reducible apply ite_keeps
    | with_reducible apply State.modInaug_keeps
    | with_reducible apply State.modPort_keeps
    | with_reducible apply State.raise_keeps
    | with_reducible apply State.record_keeps

theorem State.readConfirm_keeps {b s : State} (h : Keeps b s) (n : Nat) (f : Frame) (c : Confirm) : Keeps b (State.readConfirm s n f c) := by
  unfold State.readConfirm
  repeat' first
    | with_reducible assumption
    | ((try lift_lets); intro x; refine (fun (_ : Keeps b x) => ?_) ?_; (on_goal 2 => subst x); clear_value x)
    | ((try lift_lets); intro x; clear_value x)
    | intro _
    | exact rfl
    | with_reducible apply ite_keeps
    | with_reducible apply State.meet_keeps
    | with_reducible apply State.modPort_keeps
    | with_reducible apply State.showEnds_keeps

theorem State.storeConfirm_keeps {b s : State} (h : Keeps b s) (e : Nat) (f : Frame) (c : Confirm) : Keeps b (State.storeConfirm s e f c) := by
  unfold State.storeConfirm
  repeat' first
    | with_reducible assumption
    | ((try lift_lets); intro x; clear_value x)
    | intro _
    | exact rfl
    | with_reducible apply ite_keeps
    | with_reducible apply State.modInaug_keeps

theorem State.witness1_keeps {b s : State} (h : Keeps b s) (chanB : Bool) (f : Frame) : Keeps b (State.witness1 s chanB f) := by
  unfold State.witness1
  repeat' first
    | with_reducible assumption
    | intro _
    | exact rfl
    | with_reducible apply ite_keeps
    | with_reducible apply State.modRed_keeps

theorem State.noteOwnClaim_keeps {b s : State} (h : Keeps b s) : Keeps b (State.noteOwnClaim s) := by
  unfold State.noteOwnClaim
  repeat' first
    | with_reducible assumption
    | ((try lift_lets); intro x; refine (fun (_ : Keeps b x) => ?_) ?_; (on_goal 2 => subst x); clear_value x)
    | intro _
    | exact rfl
    | with_reducible apply ite_keeps
    | with_reducible apply State.modSynth_keeps
    | with_reducible apply State.set_keeps
    | split

theorem State.storeClaim_keeps {b s : State} (h : Keeps b s) (c : Claim) : Keeps b (State.storeClaim s c) := by
  unfold State.storeClaim
  repeat' first
    | with_reducible assumption
    | ((try lift_lets); intro x; refine (fun (_ : Keeps b x) => ?_) ?_; (on_goal 2 => subst x); clear_value x)
    | intro _
    | exact rfl
    | with_reducible apply ite_keeps
    | with_reducible apply State.modSynth_keeps

theorem State.storeService_keeps {b s : State} (h : Keeps b s) (n : Nat) (v : Service) : Keeps b (State.storeService s n v) := by
  unfold State.storeService
  repeat' first
    | with_reducible assumption
    | intro _
    | exact rfl
    | with_reducible apply ite_keeps
    | with_reducible apply State.modKeys_keeps

theorem State.sendRelay_keeps {b s : State} (h : Keeps b s) (n slot : Nat) (mid : Bool) (corr : Int) : Keeps b (State.sendRelay s n slot mid corr) := by
  unfold State.sendRelay
  repeat' first
    | with_reducible assumption
    | ((try lift_lets); intro x; refine (fun (_ : Keeps b x) => ?_) ?_; (on_goal 2 => subst x); clear_value x)
    | intro _
    | exact rfl
    | with_reducible apply ite_keeps
    | with_reducible apply State.noteOwnClaim_keeps
    | with_reducible apply State.originateRelay_keeps
    | with_reducible apply State.withSalt_keeps
    | split

theorem execKickoffSend_keeps {b s s1 : State} (h : State.Keeps b s) (e : execKickoffSend s = .next s1) : State.Keeps b s1 := by
  unfold execKickoffSend at e
  cases e
  repeat' first
    | with_reducible assumption
    | ((try lift_lets); intro x; refine (fun (_ : Keeps b x) => ?_) ?_; (on_goal 2 => subst x); clear_value x)
    | intro _
    | exact rfl
    | with_reducible apply ite_keeps
    | with_reducible refine foldl_keeps ?_ _ _ (fun _ _ _ => ?_)
    | with_reducible refine foldl_snd_keeps _ ?_ _ _ (fun _ _ _ => ?_)
    | with_reducible apply State.did_keeps
    | with_reducible apply State.modStart_keeps
    | with_reducible apply State.transmit_keeps

theorem execRelayOriginate_keeps {b s s1 : State} (h : State.Keeps b s) (slot : Fin 67) (corr : Int) (e : execRelayOriginate slot corr s = .next s1) : State.Keeps b s1 := by
  unfold execRelayOriginate at e
  cases e
  repeat' first
    | with_reducible assumption
    | ((try lift_lets); intro x; clear_value x)
    | intro _
    | exact rfl
    | with_reducible apply ite_keeps
    | with_reducible refine foldl_keeps ?_ _ _ (fun _ _ _ => ?_)
    | with_reducible refine foldl_snd_keeps _ ?_ _ _ (fun _ _ _ => ?_)
    | with_reducible apply State.did_keeps
    | with_reducible apply State.learnH_keeps
    | with_reducible apply State.sendRelay_keeps

theorem execRelayMidOriginate_keeps {b s s1 : State} (h : State.Keeps b s) (n : Fin 4) (slot : Fin 4) (corr : Int) (e : execRelayMidOriginate n slot corr s = .next s1) : State.Keeps b s1 := by
  unfold execRelayMidOriginate at e
  cases e
  repeat' first
    | with_reducible assumption
    | ((try lift_lets); intro x; refine (fun (_ : Keeps b x) => ?_) ?_; (on_goal 2 => subst x); clear_value x)
    | intro _
    | exact rfl
    | with_reducible apply ite_keeps
    | with_reducible apply State.modPort_keeps
    | with_reducible apply State.recordS_keeps
    | with_reducible apply State.sendRelay_keeps

theorem State.rxConfirmX_keeps {z s : State} (h : Keeps z s) (n : Nat) (f : Frame) (w : RelayWord) (b : Confirm) (c : RxCheck) : Keeps z (State.rxConfirmX s n f w b c) := by
  unfold State.rxConfirmX
  repeat' first
    | with_reducible assumption
    | intro _
    | exact rfl
    | with_reducible apply ite_keeps
    | with_reducible apply State.rxX_keeps
    | with_reducible apply State.startupX_keeps
    | with_reducible apply State.storeConfirm_keeps
    | with_reducible apply State.witness1_keeps

theorem State.rxConfirm_keeps {z s : State} (h : Keeps z s) (n : Nat) (f : Frame) (w : RelayWord) (b : Confirm) (c : RxCheck) : Keeps z (State.rxConfirm s n f w b c) := by
  unfold State.rxConfirm
  repeat' first
    | with_reducible assumption
    | ((try lift_lets); intro x; refine (fun (_ : Keeps z x) => ?_) ?_; (on_goal 2 => subst x); clear_value x)
    | ((try lift_lets); intro x; clear_value x)
    | intro _
    | exact rfl
    | with_reducible apply ite_keeps
    | with_reducible apply State.modInaug_keeps
    | with_reducible apply State.readConfirm_keeps
    | with_reducible apply State.relayOn_keeps
    | with_reducible apply State.rxRelay_keeps
    | with_reducible apply State.storeConfirm_keeps
    | with_reducible apply State.toPartner_keeps
    | with_reducible apply State.when_keeps
    | with_reducible apply State.witness1_keeps
    | split
    | refine Keeps.ofSnd ?_ (by assumption)

theorem State.rxClaimX_keeps {z s : State} (h : Keeps z s) (n : Nat) (f : Frame) (w : RelayWord) (b : Claim) (c : RxCheck) : Keeps z (State.rxClaimX s n f w b c) := by
  unfold State.rxClaimX
  repeat' first
    | with_reducible assumption
    | intro _
    | exact rfl
    | with_reducible apply ite_keeps
    | with_reducible apply State.rxX_keeps
    | with_reducible apply State.startupX_keeps
    | with_reducible apply State.storeClaim_keeps

theorem State.rxClaim_keeps {z s : State} (h : Keeps z s) (n : Nat) (f : Frame) (w : RelayWord) (b : Claim) (c : RxCheck) : Keeps z (State.rxClaim s n f w b c) := by
  unfold State.rxClaim
  repeat' first
    | with_reducible assumption
    | ((try lift_lets); intro x; clear_value x)
    | intro _
    | exact rfl
    | with_reducible apply ite_keeps
    | with_reducible apply State.noteOwnClaim_keeps
    | with_reducible apply State.relayOn_keeps
    | with_reducible apply State.rxRelay_keeps
    | with_reducible apply State.storeClaim_keeps
    | with_reducible apply State.toPartner_keeps
    | split
    | refine Keeps.ofSnd ?_ (by assumption)

theorem State.rxServiceX_keeps {z s : State} (h : Keeps z s) (n : Nat) (f : Frame) (w : RelayWord) (b : Service) (c : RxCheck) : Keeps z (State.rxServiceX s n f w b c) := by
  unfold State.rxServiceX
  repeat' first
    | with_reducible assumption
    | intro _
    | exact rfl
    | with_reducible apply ite_keeps
    | with_reducible apply State.rxX_keeps
    | with_reducible apply State.startupX_keeps
    | with_reducible apply State.storeService_keeps

theorem State.rxService_keeps {z s : State} (h : Keeps z s) (n : Nat) (f : Frame) (w : RelayWord) (b : Service) (c : RxCheck) : Keeps z (State.rxService s n f w b c) := by
  unfold State.rxService
  repeat' first
    | with_reducible assumption
    | ((try lift_lets); intro x; refine (fun (_ : Keeps z x) => ?_) ?_; (on_goal 2 => subst x); clear_value x)
    | ((try lift_lets); intro x; clear_value x)
    | intro _
    | exact rfl
    | with_reducible apply ite_keeps
    | with_reducible apply State.modKeys_keeps
    | with_reducible apply State.relayOn_keeps
    | with_reducible apply State.rxRelay_keeps
    | with_reducible apply State.storeService_keeps
    | with_reducible apply State.toPartner_keeps
    | with_reducible apply State.when_keeps
    | split
    | refine Keeps.ofSnd ?_ (by assumption)

theorem State.storeEntry_keeps {b s : State} (h : Keeps b s) (e : Nat) (f : Frame) (x : DirEntry) : Keeps b (State.storeEntry s e f x) := by
  unfold State.storeEntry
  repeat' first
    | with_reducible assumption
    | intro _
    | exact rfl
    | with_reducible apply ite_keeps
    | with_reducible apply State.modInaug_keeps

theorem State.rxDirectoryX_keeps {b s : State} (h : Keeps b s) (n : Nat) (f : Frame) (e : DirEntry) (c : RxCheck) : Keeps b (State.rxDirectoryX s n f e c) := by
  unfold State.rxDirectoryX
  repeat' first
    | with_reducible assumption
    | intro _
    | exact rfl
    | with_reducible apply ite_keeps
    | with_reducible apply State.rxX_keeps
    | with_reducible apply State.storeEntry_keeps

theorem State.rxDirectory_keeps {b s : State} (h : Keeps b s) (n : Nat) (f : Frame) (w : RelayWord) (e : DirEntry) (c : RxCheck) : Keeps b (State.rxDirectory s n f w e c) := by
  unfold State.rxDirectory
  repeat' first
    | with_reducible assumption
    | intro _
    | exact rfl
    | with_reducible apply ite_keeps
    | with_reducible apply State.relayOn_keeps
    | with_reducible apply State.rxRelay_keeps
    | with_reducible apply State.storeEntry_keeps
    | with_reducible apply State.toPartner_keeps
    | split
    | refine Keeps.ofSnd ?_ (by assumption)

theorem execConfirmFrameReceive_keeps {b s s1 : State} (h : State.Keeps b s) (n : Fin 4) (f : Frame) (c : RxCheck) (e : execConfirmFrameReceive n f c s = .next s1) : State.Keeps b s1 := by
  unfold execConfirmFrameReceive at e
  cases e
  repeat' first
    | with_reducible assumption
    | intro _
    | exact rfl
    | with_reducible apply ite_keeps
    | with_reducible apply State.rxConfirm_keeps
    | with_reducible apply State.rxConfirmX_keeps
    | split

theorem execClaimFrameReceive_keeps {b s s1 : State} (h : State.Keeps b s) (n : Fin 4) (f : Frame) (c : RxCheck) (e : execClaimFrameReceive n f c s = .next s1) : State.Keeps b s1 := by
  unfold execClaimFrameReceive at e
  cases e
  repeat' first
    | with_reducible assumption
    | intro _
    | exact rfl
    | with_reducible apply ite_keeps
    | with_reducible apply State.rxClaim_keeps
    | with_reducible apply State.rxClaimX_keeps
    | split

theorem execServiceFrameReceive_keeps {b s s1 : State} (h : State.Keeps b s) (n : Fin 4) (f : Frame) (c : RxCheck) (e : execServiceFrameReceive n f c s = .next s1) : State.Keeps b s1 := by
  unfold execServiceFrameReceive at e
  cases e
  repeat' first
    | with_reducible assumption
    | intro _
    | exact rfl
    | with_reducible apply ite_keeps
    | with_reducible apply State.rxService_keeps
    | with_reducible apply State.rxServiceX_keeps
    | split

theorem execDirectoryFrameReceive_keeps {b s s1 : State} (h : State.Keeps b s) (n : Fin 4) (f : Frame) (c : RxCheck) (e : execDirectoryFrameReceive n f c s = .next s1) : State.Keeps b s1 := by
  unfold execDirectoryFrameReceive at e
  cases e
  repeat' first
    | with_reducible assumption
    | intro _
    | exact rfl
    | with_reducible apply ite_keeps
    | with_reducible apply State.rxDirectory_keeps
    | with_reducible apply State.rxDirectoryX_keeps
    | split

theorem State.setWord_keeps {b s : State} (h : Keeps b s) (fs : List Fld) (off v : Nat) : Keeps b (State.setWord s fs off v) := by
  unfold State.setWord
  repeat' first
    | with_reducible assumption
    | intro _
    | exact rfl
    | with_reducible apply ite_keeps
    | with_reducible refine foldl_keeps ?_ _ _ (fun _ _ _ => ?_)
    | with_reducible refine foldl_snd_keeps _ ?_ _ _ (fun _ _ _ => ?_)
    | with_reducible apply State.set_keeps
    | split

theorem State.applyRegs_keeps {b s : State} (h : Keeps b s) (t : Nat) (regs : List (Nat × Nat × Nat)) (skip : Nat → Bool) : Keeps b (State.applyRegs s t regs skip) := by
  unfold State.applyRegs
  repeat' first
    | with_reducible assumption
    | intro _
    | exact rfl
    | with_reducible apply ite_keeps
    | with_reducible refine foldl_keeps ?_ _ _ (fun _ _ _ => ?_)
    | with_reducible refine foldl_snd_keeps _ ?_ _ _ (fun _ _ _ => ?_)
    | with_reducible apply State.setWord_keeps

theorem State.takeIdentity_keeps {b s : State} (h : Keeps b s) : Keeps b (State.takeIdentity s) := by
  unfold State.takeIdentity
  repeat' first
    | with_reducible assumption
    | intro _
    | exact rfl
    | with_reducible apply ite_keeps
    | with_reducible apply State.applyRegs_keeps
    | with_reducible apply State.modConf_keeps
    | with_reducible apply State.modSynth_keeps
    | split

theorem State.rulesView_keeps {b s : State} (h : Keeps b s) (d : List DirEntry) : Keeps b (State.rulesView s d) := by
  unfold State.rulesView
  repeat' first
    | with_reducible assumption
    | intro _
    | exact rfl
    | with_reducible apply ite_keeps
    | with_reducible apply State.applyRegs_keeps
    | split

theorem State.showSched_keeps {b s : State} (h : Keeps b s) : Keeps b (State.showSched s) := by
  unfold State.showSched
  repeat' first
    | with_reducible assumption
    | ((try lift_lets); intro x; refine (fun (_ : Keeps b x) => ?_) ?_; (on_goal 2 => subst x); clear_value x)
    | ((try lift_lets); intro x; clear_value x)
    | intro _
    | exact rfl
    | with_reducible apply ite_keeps
    | with_reducible apply State.set_keeps
    | split

theorem State.emptyPool_keeps {b s : State} (h : Keeps b s) : Keeps b (State.emptyPool s) := by
  unfold State.emptyPool
  repeat' first
    | with_reducible assumption
    | intro _
    | exact rfl
    | with_reducible apply ite_keeps
    | with_reducible apply State.modSynth_keeps
    | with_reducible apply State.showSched_keeps

theorem State.freshPool_keeps {b s : State} (h : Keeps b s) : Keeps b (State.freshPool s) := by
  unfold State.freshPool
  repeat' first
    | with_reducible assumption
    | ((try lift_lets); intro x; refine (fun (_ : Keeps b x) => ?_) ?_; (on_goal 2 => subst x); clear_value x)
    | intro _
    | exact rfl
    | with_reducible apply ite_keeps
    | with_reducible apply State.emptyPool_keeps
    | with_reducible apply State.modSynth_keeps
    | with_reducible apply State.set_keeps

theorem State.poolResets_keeps {b s : State} (h : Keeps b s) : Keeps b (State.poolResets s) := by
  unfold State.poolResets
  repeat' first
    | with_reducible assumption
    | ((try lift_lets); intro x; clear_value x)
    | intro _
    | exact rfl
    | with_reducible apply ite_keeps
    | with_reducible refine foldl_keeps ?_ _ _ (fun _ _ _ => ?_)
    | with_reducible refine foldl_snd_keeps _ ?_ _ _ (fun _ _ _ => ?_)
    | with_reducible apply State.emptyPool_keeps
    | with_reducible apply State.inc_keeps
    | with_reducible apply State.modSynth_keeps
    | with_reducible apply State.record_keeps

theorem State.newTables_keeps {b s : State} (h : Keeps b s) : Keeps b (State.newTables s) := by
  unfold State.newTables
  repeat' first
    | with_reducible assumption
    | ((try lift_lets); intro x; clear_value x)
    | intro _
    | exact rfl
    | with_reducible apply ite_keeps
    | with_reducible apply State.modWeir_keeps

theorem State.showTables_keeps {b s : State} (h : Keeps b s) : Keeps b (State.showTables s) := by
  unfold State.showTables
  repeat' first
    | with_reducible assumption
    | intro _
    | exact rfl
    | with_reducible apply ite_keeps
    | with_reducible apply State.flag_keeps

theorem State.toPhase_keeps {b s : State} (h : Keeps b s) (p : Nat) : Keeps b (State.toPhase s p) := by
  unfold State.toPhase
  repeat' first
    | with_reducible assumption
    | intro _
    | exact rfl
    | with_reducible apply ite_keeps
    | with_reducible apply State.set_keeps
    | with_reducible apply State.showTables_keeps

theorem State.stopWork_keeps {b s : State} (h : Keeps b s) : Keeps b (State.stopWork s) := by
  unfold State.stopWork
  repeat' first
    | with_reducible assumption
    | ((try lift_lets); intro x; refine (fun (_ : Keeps b x) => ?_) ?_; (on_goal 2 => subst x); clear_value x)
    | ((try lift_lets); intro x; clear_value x)
    | intro _
    | exact rfl
    | with_reducible apply ite_keeps
    | with_reducible refine foldl_keeps ?_ _ _ (fun _ _ _ => ?_)
    | with_reducible refine foldl_snd_keeps _ ?_ _ _ (fun _ _ _ => ?_)
    | with_reducible apply State.completeAll_keeps
    | with_reducible apply State.dropQueued_keeps
    | with_reducible apply State.farStop_keeps
    | with_reducible apply State.freeHeld_keeps

theorem State.flushLine_keeps {b s : State} (h : Keeps b s) : Keeps b (State.flushLine s) := by
  unfold State.flushLine
  repeat' first
    | with_reducible assumption
    | intro _
    | exact rfl
    | with_reducible apply ite_keeps
    | with_reducible apply State.modCon_keeps

theorem State.cancelRoll_keeps {b s : State} (h : Keeps b s) : Keeps b (State.cancelRoll s) := by
  unfold State.cancelRoll
  repeat' first
    | with_reducible assumption
    | intro _
    | exact rfl
    | with_reducible apply ite_keeps
    | with_reducible apply State.modKeys_keeps
    | with_reducible apply State.set_keeps

theorem State.enterStop_keeps {b s : State} (h : Keeps b s) (attempt : Nat) : Keeps b (State.enterStop s attempt) := by
  unfold State.enterStop
  repeat' first
    | with_reducible assumption
    | ((try lift_lets); intro x; refine (fun (_ : Keeps b x) => ?_) ?_; (on_goal 2 => subst x); clear_value x)
    | intro _
    | exact rfl
    | with_reducible apply ite_keeps
    | with_reducible apply State.cancelRoll_keeps
    | with_reducible apply State.delayLimits_keeps
    | with_reducible apply State.flushLine_keeps
    | with_reducible apply State.liftFence_keeps
    | with_reducible apply State.modInaug_keeps
    | with_reducible apply State.modSynth_keeps
    | with_reducible apply State.newTables_keeps
    | with_reducible apply State.set_keeps
    | with_reducible apply State.showHops_keeps
    | with_reducible apply State.stopLayout_keeps
    | with_reducible apply State.stopWork_keeps
    | with_reducible apply State.toPhase_keeps

theorem State.soloStart_keeps {b s : State} (h : Keeps b s) : Keeps b (State.soloStart s) := by
  unfold State.soloStart
  repeat' first
    | with_reducible assumption
    | ((try lift_lets); intro x; refine (fun (_ : Keeps b x) => ?_) ?_; (on_goal 2 => subst x); clear_value x)
    | intro _
    | exact rfl
    | with_reducible apply ite_keeps
    | with_reducible apply State.modInaug_keeps
    | with_reducible apply State.modStart_keeps
    | with_reducible apply State.modSynth_keeps
    | with_reducible apply State.takeIdentity_keeps
    | with_reducible apply State.toPhase_keeps

theorem State.enterSolo_keeps {b s : State} (h : Keeps b s) : Keeps b (State.enterSolo s) := by
  unfold State.enterSolo
  repeat' first
    | with_reducible assumption
    | ((try lift_lets); intro x; refine (fun (_ : Keeps b x) => ?_) ?_; (on_goal 2 => subst x); clear_value x)
    | intro _
    | exact rfl
    | with_reducible apply ite_keeps
    | with_reducible apply State.inc_keeps
    | with_reducible apply State.record_keeps
    | with_reducible apply State.soloStart_keeps
    | with_reducible apply State.toLine_keeps

theorem State.fallback_keeps {b s : State} (h : Keeps b s) : Keeps b (State.fallback s) := by
  unfold State.fallback
  repeat' first
    | with_reducible assumption
    | ((try lift_lets); intro x; refine (fun (_ : Keeps b x) => ?_) ?_; (on_goal 2 => subst x); clear_value x)
    | intro _
    | exact rfl
    | with_reducible apply ite_keeps
    | with_reducible refine foldl_keeps ?_ _ _ (fun _ _ _ => ?_)
    | with_reducible refine foldl_snd_keeps _ ?_ _ _ (fun _ _ _ => ?_)
    | with_reducible apply State.enterSolo_keeps
    | with_reducible apply State.enterStop_keeps
    | with_reducible apply State.hold_keeps
    | with_reducible apply State.inc_keeps
    | with_reducible apply State.modBoot_keeps
    | with_reducible apply State.modConf_keeps
    | with_reducible apply State.record_keeps
    | with_reducible apply State.set_keeps
    | with_reducible apply State.when_keeps

theorem State.releaseFallback_keeps {b s : State} (h : Keeps b s) : Keeps b (State.releaseFallback s) := by
  unfold State.releaseFallback
  repeat' first
    | with_reducible assumption
    | intro _
    | exact rfl
    | with_reducible apply ite_keeps
    | with_reducible refine foldl_keeps ?_ _ _ (fun _ _ _ => ?_)
    | with_reducible refine foldl_snd_keeps _ ?_ _ _ (fun _ _ _ => ?_)
    | with_reducible apply State.upFrom_keeps

theorem State.nextAttempt_keeps {b s : State} (h : Keeps b s) (own : Bool) (toStop : Bool) : Keeps b (State.nextAttempt s own toStop) := by
  unfold State.nextAttempt
  repeat' first
    | with_reducible assumption
    | ((try lift_lets); intro x; refine (fun (_ : Keeps b x) => ?_) ?_; (on_goal 2 => subst x); clear_value x)
    | ((try lift_lets); intro x; clear_value x)
    | intro _
    | exact rfl
    | with_reducible apply ite_keeps
    | with_reducible apply State.enterStop_keeps
    | with_reducible apply State.fallback_keeps
    | with_reducible apply State.inc_keeps
    | with_reducible apply State.modInaug_keeps
    | with_reducible apply State.modSynth_keeps
    | with_reducible apply State.record_keeps
    | with_reducible apply State.set_keeps
    | with_reducible apply State.takeIdentity_keeps
    | with_reducible apply State.toPhase_keeps

theorem State.sendTable_keeps {b s : State} (h : Keeps b s) : Keeps b (State.sendTable s) := by
  unfold State.sendTable
  repeat' first
    | with_reducible assumption
    | ((try lift_lets); intro x; clear_value x)
    | intro _
    | exact rfl
    | with_reducible apply ite_keeps
    | with_reducible refine foldl_keeps ?_ _ _ (fun _ _ _ => ?_)
    | with_reducible refine foldl_snd_keeps _ ?_ _ _ (fun _ _ _ => ?_)
    | with_reducible apply State.originate_keeps
    | with_reducible apply State.take_keeps
    | split

theorem State.keepTable_keeps {b s : State} (h : Keeps b s) (t : FuncTable) : Keeps b (State.keepTable s t) := by
  unfold State.keepTable
  repeat' first
    | with_reducible assumption
    | intro _
    | exact rfl
    | with_reducible apply ite_keeps
    | with_reducible apply State.modSynth_keeps
    | with_reducible apply State.mramWrite_keeps

theorem State.synthNow_keeps {b s : State} (h : Keeps b s) : Keeps b (State.synthNow s) := by
  unfold State.synthNow
  repeat' first
    | with_reducible assumption
    | ((try lift_lets); intro x; clear_value x)
    | intro _
    | exact rfl
    | with_reducible apply ite_keeps
    | with_reducible refine foldl_keeps ?_ _ _ (fun _ _ _ => ?_)
    | with_reducible refine foldl_snd_keeps _ ?_ _ _ (fun _ _ _ => ?_)
    | with_reducible apply State.flag_keeps
    | with_reducible apply State.keepTable_keeps
    | with_reducible apply State.modSynth_keeps
    | with_reducible apply State.record_keeps
    | with_reducible apply State.rulesView_keeps
    | split

theorem State.lineLayout_keeps {b s : State} (h : Keeps b s) : Keeps b (State.lineLayout s) := by
  unfold State.lineLayout
  repeat' first
    | with_reducible assumption
    | intro _
    | exact rfl
    | with_reducible apply ite_keeps
    | with_reducible apply State.delayLimits_keeps
    | with_reducible apply State.showHops_keeps
    | with_reducible apply State.stopLayout_keeps

theorem State.integrate_keeps {b s : State} (h : Keeps b s) (imp : Int) (o : FoundTurn) : Keeps b (State.integrate s imp o) := by
  unfold State.integrate
  repeat' first
    | with_reducible assumption
    | ((try lift_lets); intro x; refine (fun (_ : Keeps b x) => ?_) ?_; (on_goal 2 => subst x); clear_value x)
    | ((try lift_lets); intro x; clear_value x)
    | intro _
    | exact rfl
    | with_reducible apply ite_keeps
    | with_reducible apply State.learnH_keeps
    | with_reducible apply State.lineLayout_keeps
    | with_reducible apply State.modClock_keeps
    | with_reducible apply State.modInaug_keeps
    | with_reducible apply State.modKeys_keeps
    | with_reducible apply State.modStart_keeps
    | with_reducible apply State.record_keeps
    | with_reducible apply State.set_keeps
    | with_reducible apply State.toLine_keeps
    | split

theorem State.loseLine_keeps {b s : State} (h : Keeps b s) (cause : Nat) : Keeps b (State.loseLine s cause) := by
  unfold State.loseLine
  repeat' first
    | with_reducible assumption
    | ((try lift_lets); intro x; refine (fun (_ : Keeps b x) => ?_) ?_; (on_goal 2 => subst x); clear_value x)
    | ((try lift_lets); intro x; clear_value x)
    | intro _
    | exact rfl
    | with_reducible apply ite_keeps
    | with_reducible apply State.inc_keeps
    | with_reducible apply State.modBoot_keeps
    | with_reducible apply State.modConf_keeps
    | with_reducible apply State.modInaug_keeps
    | with_reducible apply State.modKeys_keeps
    | with_reducible apply State.modSynth_keeps
    | with_reducible apply State.record_keeps
    | with_reducible apply State.toLine_keeps
    | with_reducible apply State.toPhase_keeps
    | with_reducible apply State.when_keeps

theorem State.doYield_keeps {b s : State} (h : Keeps b s) : Keeps b (State.doYield s) := by
  unfold State.doYield
  repeat' first
    | with_reducible assumption
    | ((try lift_lets); intro x; refine (fun (_ : Keeps b x) => ?_) ?_; (on_goal 2 => subst x); clear_value x)
    | ((try lift_lets); intro x; clear_value x)
    | intro _
    | exact rfl
    | with_reducible apply ite_keeps
    | with_reducible refine foldl_keeps ?_ _ _ (fun _ _ _ => ?_)
    | with_reducible refine foldl_snd_keeps _ ?_ _ _ (fun _ _ _ => ?_)
    | with_reducible apply State.cancelRoll_keeps
    | with_reducible apply State.delayLimits_keeps
    | with_reducible apply State.flushLine_keeps
    | with_reducible apply State.freshPool_keeps
    | with_reducible apply State.hold_keeps
    | with_reducible apply State.modInaug_keeps
    | with_reducible apply State.modKeys_keeps
    | with_reducible apply State.modStart_keeps
    | with_reducible apply State.modSynth_keeps
    | with_reducible apply State.newTables_keeps
    | with_reducible apply State.record_keeps
    | with_reducible apply State.set_keeps
    | with_reducible apply State.showHops_keeps
    | with_reducible apply State.stopLayout_keeps
    | with_reducible apply State.stopWork_keeps
    | with_reducible apply State.toLine_keeps
    | with_reducible apply State.toPhase_keeps

theorem State.phaseStep_keeps {b s : State} (h : Keeps b s) : Keeps b (State.phaseStep s) := by
  unfold State.phaseStep
  repeat' first
    | with_reducible assumption
    | ((try lift_lets); intro x; refine (fun (_ : Keeps b x) => ?_) ?_; (on_goal 2 => subst x); clear_value x)
    | ((try lift_lets); intro x; clear_value x)
    | intro _
    | exact rfl
    | with_reducible apply ite_keeps
    | with_reducible apply State.fallback_keeps
    | with_reducible apply State.inc_keeps
    | with_reducible apply State.modInaug_keeps
    | with_reducible apply State.nextAttempt_keeps
    | with_reducible apply State.record_keeps
    | with_reducible apply State.sendTable_keeps
    | with_reducible apply State.set_keeps
    | with_reducible apply State.takeIdentity_keeps
    | with_reducible apply State.toPhase_keeps

theorem State.adoptLine_keeps {b s : State} (h : Keeps b s) : Keeps b (State.adoptLine s) := by
  unfold State.adoptLine
  repeat' first
    | with_reducible assumption
    | ((try lift_lets); intro x; clear_value x)
    | intro _
    | exact rfl
    | with_reducible apply ite_keeps
    | with_reducible refine foldl_keeps ?_ _ _ (fun _ _ _ => ?_)
    | with_reducible refine foldl_snd_keeps _ ?_ _ _ (fun _ _ _ => ?_)
    | with_reducible apply State.actPending_keeps
    | with_reducible apply State.complete_keeps
    | with_reducible apply State.delayLimits_keeps
    | with_reducible apply State.freshPool_keeps
    | with_reducible apply State.inc_keeps
    | with_reducible apply State.modHost_keeps
    | with_reducible apply State.modInaug_keeps
    | with_reducible apply State.modRed_keeps
    | with_reducible apply State.modStart_keeps
    | with_reducible apply State.modSynth_keeps
    | with_reducible apply State.newTables_keeps
    | with_reducible apply State.rebuildCells_keeps
    | with_reducible apply State.record_keeps
    | with_reducible apply State.set_keeps
    | with_reducible apply State.setLayout_keeps
    | with_reducible apply State.showHops_keeps
    | with_reducible apply State.take_keeps
    | with_reducible apply State.toPhase_keeps
    | with_reducible apply State.up_keeps
    | split

theorem execListenTimeout_keeps {b s s1 : State} (h : State.Keeps b s) (e : execListenTimeout s = .next s1) : State.Keeps b s1 := by
  unfold execListenTimeout at e
  cases e
  repeat' first
    | with_reducible assumption
    | intro _
    | exact rfl
    | with_reducible apply ite_keeps
    | with_reducible apply State.lineLayout_keeps
    | with_reducible apply State.toLine_keeps

theorem execKickoffFloorPersist_keeps {b s s1 : State} (h : State.Keeps b s) (e : execKickoffFloorPersist s = .next s1) : State.Keeps b s1 := by
  unfold execKickoffFloorPersist at e
  cases e
  repeat' first
    | with_reducible assumption
    | intro _
    | exact rfl
    | with_reducible apply ite_keeps
    | with_reducible apply State.modStart_keeps
    | with_reducible apply State.set_keeps

theorem execIntegration_keeps {b s s1 : State} (h : State.Keeps b s) (e : execIntegration s = .next s1) : State.Keeps b s1 := by
  unfold execIntegration at e
  cases e
  repeat' first
    | with_reducible assumption
    | intro _
    | exact rfl
    | with_reducible apply ite_keeps
    | with_reducible apply State.integrate_keeps
    | split

theorem execColdstartIntegrate_keeps {b s s1 : State} (h : State.Keeps b s) (e : execColdstartIntegrate s = .next s1) : State.Keeps b s1 := by
  unfold execColdstartIntegrate at e
  cases e
  repeat' first
    | with_reducible assumption
    | ((try lift_lets); intro x; refine (fun (_ : Keeps b x) => ?_) ?_; (on_goal 2 => subst x); clear_value x)
    | ((try lift_lets); intro x; clear_value x)
    | intro _
    | exact rfl
    | with_reducible apply ite_keeps
    | with_reducible apply State.modStart_keeps
    | with_reducible apply State.record_keeps
    | with_reducible apply State.set_keeps
    | with_reducible apply State.toLine_keeps

theorem execSolitaryEntry_keeps {b s s1 : State} (h : State.Keeps b s) (e : execSolitaryEntry s = .next s1) : State.Keeps b s1 := by
  unfold execSolitaryEntry at e
  cases e
  repeat' first
    | with_reducible assumption
    | intro _
    | exact rfl
    | with_reducible apply ite_keeps
    | with_reducible apply State.enterSolo_keeps

theorem execSolitaryReinaugurate_keeps {b s s1 : State} (h : State.Keeps b s) (e : execSolitaryReinaugurate s = .next s1) : State.Keeps b s1 := by
  unfold execSolitaryReinaugurate at e
  cases e
  repeat' first
    | with_reducible assumption
    | intro _
    | exact rfl
    | with_reducible apply ite_keeps
    | with_reducible apply State.modInaug_keeps
    | with_reducible apply State.set_keeps
    | with_reducible apply State.soloStart_keeps

theorem execLineLost_keeps {b s s1 : State} (h : State.Keeps b s) (e : execLineLost s = .next s1) : State.Keeps b s1 := by
  unfold execLineLost at e
  cases e
  repeat' first
    | with_reducible assumption
    | intro _
    | exact rfl
    | with_reducible apply ite_keeps
    | with_reducible apply State.loseLine_keeps

theorem execYieldHoldEnd_keeps {b s s1 : State} (h : State.Keeps b s) (e : execYieldHoldEnd s = .next s1) : State.Keeps b s1 := by
  unfold execYieldHoldEnd at e
  cases e
  repeat' first
    | with_reducible assumption
    | intro _
    | exact rfl
    | with_reducible apply ite_keeps
    | with_reducible apply State.hold_keeps
    | with_reducible apply State.modStart_keeps
    | with_reducible apply State.set_keeps

theorem execPendingTriggerAct_keeps {b s s1 : State} (h : State.Keeps b s) (e : execPendingTriggerAct s = .next s1) : State.Keeps b s1 := by
  unfold execPendingTriggerAct at e
  cases e
  repeat' first
    | with_reducible assumption
    | ((try lift_lets); intro x; refine (fun (_ : Keeps b x) => ?_) ?_; (on_goal 2 => subst x); clear_value x)
    | intro _
    | exact rfl
    | with_reducible apply ite_keeps
    | with_reducible apply State.actPending_keeps
    | with_reducible apply State.modInaug_keeps
    | with_reducible apply State.pend_keeps
    | with_reducible apply State.record_keeps
    | with_reducible apply State.set_keeps

theorem State.couplerMoves_keeps {b s : State} (h : Keeps b s) (e : Nat) (level : Bool) : Keeps b (State.couplerMoves s e level) := by
  unfold State.couplerMoves
  repeat' first
    | with_reducible assumption
    | ((try lift_lets); intro x; refine (fun (_ : Keeps b x) => ?_) ?_; (on_goal 2 => subst x); clear_value x)
    | ((try lift_lets); intro x; clear_value x)
    | intro _
    | exact rfl
    | with_reducible apply ite_keeps
    | with_reducible refine foldl_keeps ?_ _ _ (fun _ _ _ => ?_)
    | with_reducible refine foldl_snd_keeps _ ?_ _ _ (fun _ _ _ => ?_)
    | with_reducible apply State.modStart_keeps
    | with_reducible apply State.raise_keeps
    | with_reducible apply State.upFrom_keeps

theorem execCouplerInputChange_keeps {b s s1 : State} (h : State.Keeps b s) (e : Fin 2) (level : Bool) (e : execCouplerInputChange e level s = .next s1) : State.Keeps b s1 := by
  unfold execCouplerInputChange at e
  cases e
  repeat' first
    | with_reducible assumption
    | ((try lift_lets); intro x; refine (fun (_ : Keeps b x) => ?_) ?_; (on_goal 2 => subst x); clear_value x)
    | intro _
    | exact rfl
    | with_reducible apply ite_keeps
    | with_reducible apply State.couplerMoves_keeps
    | with_reducible apply State.flag_keeps
    | with_reducible apply State.modPins_keeps

theorem execCouplerNoLink_keeps {b s s1 : State} (h : State.Keeps b s) (e : Fin 2) (e : execCouplerNoLink e s = .next s1) : State.Keeps b s1 := by
  unfold execCouplerNoLink at e
  cases e
  repeat' first
    | with_reducible assumption
    | intro _
    | exact rfl
    | with_reducible apply ite_keeps
    | with_reducible apply State.modStart_keeps
    | with_reducible apply State.record_keeps
    | with_reducible apply State.up_keeps
    | split

theorem execCabActiveChange_keeps {b s s1 : State} (h : State.Keeps b s) (level : Bool) (e : execCabActiveChange level s = .next s1) : State.Keeps b s1 := by
  unfold execCabActiveChange at e
  cases e
  repeat' first
    | with_reducible assumption
    | ((try lift_lets); intro x; refine (fun (_ : Keeps b x) => ?_) ?_; (on_goal 2 => subst x); clear_value x)
    | intro _
    | exact rfl
    | with_reducible apply ite_keeps
    | with_reducible apply State.flag_keeps
    | with_reducible apply State.modPins_keeps

theorem execInaugInhibitRise_keeps {b s s1 : State} (h : State.Keeps b s) (e : execInaugInhibitRise s = .next s1) : State.Keeps b s1 := by
  unfold execInaugInhibitRise at e
  cases e
  repeat' first
    | with_reducible assumption
    | ((try lift_lets); intro x; refine (fun (_ : Keeps b x) => ?_) ?_; (on_goal 2 => subst x); clear_value x)
    | intro _
    | exact rfl
    | with_reducible apply ite_keeps
    | with_reducible apply State.modInaug_keeps
    | with_reducible apply State.modPins_keeps
    | with_reducible apply State.pend_keeps
    | with_reducible apply State.record_keeps
    | with_reducible apply State.set_keeps
    | split

theorem execInaugInhibitFall_keeps {b s s1 : State} (h : State.Keeps b s) (e : execInaugInhibitFall s = .next s1) : State.Keeps b s1 := by
  unfold execInaugInhibitFall at e
  cases e
  repeat' first
    | with_reducible assumption
    | ((try lift_lets); intro x; refine (fun (_ : Keeps b x) => ?_) ?_; (on_goal 2 => subst x); clear_value x)
    | intro _
    | exact rfl
    | with_reducible apply ite_keeps
    | with_reducible refine foldl_keeps ?_ _ _ (fun _ _ _ => ?_)
    | with_reducible refine foldl_snd_keeps _ ?_ _ _ (fun _ _ _ => ?_)
    | with_reducible apply State.actPending_keeps
    | with_reducible apply State.modInaug_keeps
    | with_reducible apply State.modPins_keeps
    | with_reducible apply State.modPort_keeps
    | with_reducible apply State.set_keeps
    | with_reducible apply State.showEnds_keeps

theorem execStopEntry_keeps {b s s1 : State} (h : State.Keeps b s) (e : execStopEntry s = .next s1) : State.Keeps b s1 := by
  unfold execStopEntry at e
  cases e
  repeat' first
    | with_reducible assumption
    | intro _
    | exact rfl
    | with_reducible apply ite_keeps
    | with_reducible apply State.enterStop_keeps

theorem execInaugPhaseChange_keeps {b s s1 : State} (h : State.Keeps b s) (e : execInaugPhaseChange s = .next s1) : State.Keeps b s1 := by
  unfold execInaugPhaseChange at e
  cases e
  repeat' first
    | with_reducible assumption
    | intro _
    | exact rfl
    | with_reducible apply ite_keeps
    | with_reducible apply State.phaseStep_keeps

theorem execStopHoldOut_keeps {b s s1 : State} (h : State.Keeps b s) (e : execStopHoldOut s = .next s1) : State.Keeps b s1 := by
  unfold execStopHoldOut at e
  cases e
  repeat' first
    | with_reducible assumption
    | ((try lift_lets); intro x; clear_value x)
    | intro _
    | exact rfl
    | with_reducible apply ite_keeps
    | with_reducible refine foldl_keeps ?_ _ _ (fun _ _ _ => ?_)
    | with_reducible refine foldl_snd_keeps _ ?_ _ _ (fun _ _ _ => ?_)
    | with_reducible apply State.hold_keeps
    | with_reducible apply State.record_keeps

theorem execHoldOutEnd_keeps {b s s1 : State} (h : State.Keeps b s) (n : Fin 4) (e : execHoldOutEnd n s = .next s1) : State.Keeps b s1 := by
  unfold execHoldOutEnd at e
  cases e
  repeat' first
    | with_reducible assumption
    | intro _
    | exact rfl
    | with_reducible apply ite_keeps
    | with_reducible apply State.upFrom_keeps

theorem execYield_keeps {b s s1 : State} (h : State.Keeps b s) (e : execYield s = .next s1) : State.Keeps b s1 := by
  unfold execYield at e
  cases e
  repeat' first
    | with_reducible assumption
    | intro _
    | exact rfl
    | with_reducible apply ite_keeps
    | with_reducible apply State.doYield_keeps

theorem execTableFragmentReceive_keeps {b s s1 : State} (h : State.Keeps b s) (body : List Byte) (e : execTableFragmentReceive body s = .next s1) : State.Keeps b s1 := by
  unfold execTableFragmentReceive at e
  cases e
  repeat' first
    | with_reducible assumption
    | ((try lift_lets); intro x; refine (fun (_ : Keeps b x) => ?_) ?_; (on_goal 2 => subst x); clear_value x)
    | ((try lift_lets); intro x; clear_value x)
    | intro _
    | exact rfl
    | with_reducible apply ite_keeps
    | with_reducible refine foldl_keeps ?_ _ _ (fun _ _ _ => ?_)
    | with_reducible refine foldl_snd_keeps _ ?_ _ _ (fun _ _ _ => ?_)
    | with_reducible apply State.keepTable_keeps
    | with_reducible apply State.modSynth_keeps
    | with_reducible apply State.showTables_keeps

theorem execSynthesisStart_keeps {b s s1 : State} (h : State.Keeps b s) (e : execSynthesisStart s = .next s1) : State.Keeps b s1 := by
  unfold execSynthesisStart at e
  cases e
  repeat' first
    | with_reducible assumption
    | intro _
    | exact rfl
    | with_reducible apply ite_keeps
    | with_reducible apply State.modSynth_keeps

theorem execSynthesisComplete_keeps {b s s1 : State} (h : State.Keeps b s) (us : Nat) (e : execSynthesisComplete us s = .next s1) : State.Keeps b s1 := by
  unfold execSynthesisComplete at e
  cases e
  repeat' first
    | with_reducible assumption
    | ((try lift_lets); intro x; refine (fun (_ : Keeps b x) => ?_) ?_; (on_goal 2 => subst x); clear_value x)
    | intro _
    | exact rfl
    | with_reducible apply ite_keeps
    | with_reducible apply State.modInaug_keeps
    | with_reducible apply State.record_keeps
    | with_reducible apply State.set_keeps
    | with_reducible apply State.synthNow_keeps

theorem execSpareClaim_keeps {b s s1 : State} (h : State.Keeps b s) (e : execSpareClaim s = .next s1) : State.Keeps b s1 := by
  unfold execSpareClaim at e
  cases e
  repeat' first
    | with_reducible assumption
    | intro _
    | exact rfl
    | with_reducible apply ite_keeps
    | with_reducible apply State.noteOwnClaim_keeps

theorem State.resolveClaims_keeps {b s : State} (h : Keeps b s) (c : Schedule) : Keeps b (State.resolveClaims s c) := by
  unfold State.resolveClaims
  repeat' first
    | with_reducible assumption
    | ((try lift_lets); intro x; refine (fun (_ : Keeps b x) => ?_) ?_; (on_goal 2 => subst x); clear_value x)
    | ((try lift_lets); intro x; clear_value x)
    | intro _
    | exact rfl
    | with_reducible apply ite_keeps
    | with_reducible refine foldl_keeps ?_ _ _ (fun _ _ _ => ?_)
    | with_reducible refine foldl_snd_keeps _ ?_ _ _ (fun _ _ _ => ?_)
    | with_reducible apply State.inc_keeps
    | with_reducible apply State.modSynth_keeps
    | with_reducible apply State.record_keeps
    | with_reducible apply State.set_keeps

theorem execClaimResolve_keeps {b s s1 : State} (h : State.Keeps b s) (e : execClaimResolve s = .next s1) : State.Keeps b s1 := by
  unfold execClaimResolve at e
  cases e
  repeat' first
    | with_reducible assumption
    | intro _
    | exact rfl
    | with_reducible apply ite_keeps
    | with_reducible apply State.poolResets_keeps
    | with_reducible apply State.resolveClaims_keeps
    | split

theorem execSpareGrantEffect_keeps {b s s1 : State} (h : State.Keeps b s) (e : execSpareGrantEffect s = .next s1) : State.Keeps b s1 := by
  unfold execSpareGrantEffect at e
  cases e
  repeat' first
    | with_reducible assumption
    | intro _
    | exact rfl
    | with_reducible apply ite_keeps
    | with_reducible apply State.showSched_keeps

theorem execPoolReset_keeps {b s s1 : State} (h : State.Keeps b s) (e : execPoolReset s = .next s1) : State.Keeps b s1 := by
  unfold execPoolReset at e
  cases e
  repeat' first
    | with_reducible assumption
    | intro _
    | exact rfl
    | with_reducible apply ite_keeps
    | with_reducible apply State.poolResets_keeps

theorem State.modImage_keeps {b s : State} (h : Keeps b s) (t : Nat) (f : Image → Image) : Keeps b (State.modImage s t f) := by
  unfold State.modImage
  repeat' first
    | with_reducible assumption
    | intro _
    | exact rfl
    | with_reducible apply ite_keeps
    | with_reducible apply State.modHost_keeps

theorem State.showReads_keeps {b s : State} (h : Keeps b s) : Keeps b (State.showReads s) := by
  unfold State.showReads
  repeat' first
    | with_reducible assumption
    | ((try lift_lets); intro x; clear_value x)
    | intro _
    | exact rfl
    | with_reducible apply ite_keeps
    | with_reducible refine foldl_keeps ?_ _ _ (fun _ _ _ => ?_)
    | with_reducible refine foldl_snd_keeps _ ?_ _ _ (fun _ _ _ => ?_)
    | with_reducible apply State.set_keeps

theorem State.buildSlot_keeps {b s : State} (h : Keeps b s) (slot : Nat) (own : Bool) : Keeps b (State.buildSlot s slot own) := by
  unfold State.buildSlot
  repeat' first
    | with_reducible assumption
    | ((try lift_lets); intro x; clear_value x)
    | intro _
    | exact rfl
    | with_reducible apply ite_keeps
    | with_reducible apply State.modMill_keeps

theorem State.lateFetches_keeps {b s : State} (h : Keeps b s) (slot : Nat) : Keeps b (State.lateFetches s slot) := by
  unfold State.lateFetches
  repeat' first
    | with_reducible assumption
    | intro _
    | exact rfl
    | with_reducible apply ite_keeps
    | with_reducible refine foldl_keeps ?_ _ _ (fun _ _ _ => ?_)
    | with_reducible refine foldl_snd_keeps _ ?_ _ _ (fun _ _ _ => ?_)
    | with_reducible apply State.inc_keeps
    | with_reducible apply State.recordS_keeps

theorem State.handOff_keeps {b s : State} (h : Keeps b s) (slot : Nat) : Keeps b (State.handOff s slot) := by
  unfold State.handOff
  repeat' first
    | with_reducible assumption
    | intro _
    | exact rfl
    | with_reducible apply ite_keeps
    | with_reducible apply State.sendX_keeps
    | split

theorem State.storeOwn_keeps {z s : State} (h : Keeps z s) (b : Built) : Keeps z (State.storeOwn s b) := by
  unfold State.storeOwn
  repeat' first
    | with_reducible assumption
    | intro _
    | exact rfl
    | with_reducible apply ite_keeps
    | with_reducible apply State.fillCells_keeps
    | with_reducible apply State.noteHeartbeat_keeps

theorem State.refresh_keeps {b s : State} (h : Keeps b s) (func : Nat) (data : List Byte) : Keeps b (State.refresh s func data) := by
  unfold State.refresh
  repeat' first
    | with_reducible assumption
    | intro _
    | exact rfl
    | with_reducible apply ite_keeps
    | with_reducible apply State.modMill_keeps

theorem State.noteSeq_keeps {b s : State} (h : Keeps b s) (func seq : Nat) : Keeps b (State.noteSeq s func seq) := by
  unfold State.noteSeq
  repeat' first
    | with_reducible assumption
    | intro _
    | exact rfl
    | with_reducible apply ite_keeps
    | with_reducible apply State.modMill_keeps

theorem State.takeEntries_keeps {b s : State} (h : Keeps b s) (t : Nat) (k : Nat) (k1 : List Byte) : Keeps b (State.takeEntries t k k1 s).2 := by
  induction k generalizing s k1 t with
  | zero => exact h
  | succ k ih =>
    unfold State.takeEntries
    repeat' first
      | with_reducible assumption
      | with_reducible apply ih
      | ((try lift_lets); intro x; clear_value x)
      | intro _
      | exact rfl
      | with_reducible apply ite_keeps
      | with_reducible apply ite_snd_keeps
      | with_reducible apply State.noteSeq_keeps
      | with_reducible apply State.recordS_keeps
      | with_reducible apply State.refresh_keeps
      | with_reducible apply State.set_keeps
      | split

theorem State.passPublished_keeps {b s : State} (h : Keeps b s) (l : List (Nat × List Byte)) : Keeps b (State.passPublished s l) := by
  unfold State.passPublished
  repeat' first
    | with_reducible assumption
    | intro _
    | exact rfl
    | with_reducible apply ite_keeps
    | with_reducible apply State.emit_keeps

theorem State.takePublished_keeps {b s : State} (h : Keeps b s) (l : List (Nat × List Byte)) : Keeps b (State.takePublished s l) := by
  unfold State.takePublished
  repeat' first
    | with_reducible assumption
    | ((try lift_lets); intro x; clear_value x)
    | intro _
    | exact rfl
    | with_reducible apply ite_keeps
    | with_reducible refine foldl_keeps ?_ _ _ (fun _ _ _ => ?_)
    | with_reducible refine foldl_snd_keeps _ ?_ _ _ (fun _ _ _ => ?_)
    | with_reducible apply State.modMill_keeps
    | with_reducible apply State.refresh_keeps
    | split

theorem State.resolveSubs_keeps {b s : State} (h : Keeps b s) (t : Nat) : Keeps b (State.resolveSubs s t) := by
  unfold State.resolveSubs
  repeat' first
    | with_reducible assumption
    | ((try lift_lets); intro x; refine (fun (_ : Keeps b x) => ?_) ?_; (on_goal 2 => subst x); clear_value x)
    | ((try lift_lets); intro x; clear_value x)
    | intro _
    | exact rfl
    | with_reducible apply ite_keeps
    | with_reducible apply State.modImage_keeps
    | with_reducible apply State.recordS_keeps
    | with_reducible apply State.set_keeps
    | split

theorem State.writeImage_keeps {b s : State} (h : Keeps b s) (t : Nat) : Keeps b (State.writeImage s t) := by
  unfold State.writeImage
  repeat' first
    | with_reducible assumption
    | ((try lift_lets); intro x; refine (fun (_ : Keeps b x) => ?_) ?_; (on_goal 2 => subst x); clear_value x)
    | ((try lift_lets); intro x; clear_value x)
    | intro _
    | exact rfl
    | with_reducible apply ite_keeps
    | with_reducible apply State.inc_keeps
    | with_reducible apply State.memWrite_keeps
    | with_reducible apply State.modImage_keeps
    | with_reducible apply State.set_keeps
    | with_reducible apply State.signal_keeps

theorem State.enableImage_keeps {b s : State} (h : Keeps b s) (t : Nat) (list : List Byte) : Keeps b (State.enableImage s t list) := by
  unfold State.enableImage
  repeat' first
    | with_reducible assumption
    | ((try lift_lets); intro x; refine (fun (_ : Keeps b x) => ?_) ?_; (on_goal 2 => subst x); clear_value x)
    | ((try lift_lets); intro x; clear_value x)
    | intro _
    | exact rfl
    | with_reducible apply ite_keeps
    | with_reducible apply State.emit_keeps
    | with_reducible apply State.modImage_keeps
    | with_reducible apply State.set_keeps

theorem execFrameBuild_keeps {b s s1 : State} (h : State.Keeps b s) (slot : Nat) (e : execFrameBuild slot s = .next s1) : State.Keeps b s1 := by
  unfold execFrameBuild at e
  cases e
  repeat' first
    | with_reducible assumption
    | ((try lift_lets); intro x; refine (fun (_ : Keeps b x) => ?_) ?_; (on_goal 2 => subst x); clear_value x)
    | intro _
    | exact rfl
    | with_reducible apply ite_keeps
    | with_reducible apply State.buildSlot_keeps
    | with_reducible apply State.handOff_keeps
    | with_reducible apply State.inc_keeps
    | with_reducible apply State.lateFetches_keeps
    | with_reducible apply State.modRed_keeps

theorem execStaticSlotTransmit_keeps {b s s1 : State} (h : State.Keeps b s) (slot : Nat) (corr : Int) (e : execStaticSlotTransmit slot corr s = .next s1) : State.Keeps b s1 := by
  unfold execStaticSlotTransmit at e
  cases e
  repeat' first
    | with_reducible assumption
    | ((try lift_lets); intro x; refine (fun (_ : Keeps b x) => ?_) ?_; (on_goal 2 => subst x); clear_value x)
    | ((try lift_lets); intro x; clear_value x)
    | intro _
    | exact rfl
    | with_reducible apply ite_keeps
    | with_reducible refine foldl_keeps ?_ _ _ (fun _ _ _ => ?_)
    | with_reducible refine foldl_snd_keeps _ ?_ _ _ (fun _ _ _ => ?_)
    | with_reducible apply State.did_keeps
    | with_reducible apply State.storeOwn_keeps
    | with_reducible apply State.transmit_keeps
    | split

theorem execStaticHandoffReceive_keeps {b s s1 : State} (h : State.Keeps b s) (n : Fin 4) (f : Frame) (c : RxCheck) (e : execStaticHandoffReceive n f c s = .next s1) : State.Keeps b s1 := by
  unfold execStaticHandoffReceive at e
  cases e
  repeat' first
    | with_reducible assumption
    | ((try lift_lets); intro x; clear_value x)
    | intro _
    | exact rfl
    | with_reducible apply ite_keeps
    | with_reducible apply State.modMill_keeps
    | with_reducible apply State.modRed_keeps
    | with_reducible apply State.rxX_keeps
    | split

theorem execPublishFetch_keeps {b s s1 : State} (h : State.Keeps b s) (t : Fin 17) (flip : Nat) (e : execPublishFetch t flip s = .next s1) : State.Keeps b s1 := by
  unfold execPublishFetch at e
  cases e
  repeat' first
    | with_reducible assumption
    | ((try lift_lets); intro x; refine (fun (_ : Keeps b x) => ?_) ?_; (on_goal 2 => subst x); clear_value x)
    | ((try lift_lets); intro x; clear_value x)
    | intro _
    | exact rfl
    | with_reducible apply ite_keeps
    | with_reducible apply State.did_keeps
    | with_reducible apply State.emit_keeps
    | with_reducible apply State.modImage_keeps
    | with_reducible apply State.showReads_keeps
    | split

theorem execPublishFetchDone_keeps {b s s1 : State} (h : State.Keeps b s) (t : Fin 17) (data : List Byte) (e : execPublishFetchDone t data s = .next s1) : State.Keeps b s1 := by
  unfold execPublishFetchDone at e
  cases e
  repeat' first
    | with_reducible assumption
    | ((try lift_lets); intro x; refine (fun (_ : Keeps b x) => ?_) ?_; (on_goal 2 => subst x); clear_value x)
    | ((try lift_lets); intro x; clear_value x)
    | intro _
    | exact rfl
    | with_reducible apply ite_keeps
    | with_reducible apply State.memWrite_keeps
    | with_reducible apply State.modImage_keeps
    | with_reducible apply State.passPublished_keeps
    | with_reducible apply State.showReads_keeps
    | with_reducible apply State.takeEntries_keeps
    | split
    | refine Keeps.ofSnd ?_ (by assumption)
    | refine Keeps.ofThird ?_ (by assumption)
    | refine Keeps.ofFourth ?_ (by assumption)
    | dsimp only

theorem execTiEnable_keeps {b s s1 : State} (h : State.Keeps b s) (t : Fin 17) (list : List Byte) (e : execTiEnable t list s = .next s1) : State.Keeps b s1 := by
  unfold execTiEnable at e
  cases e
  repeat' first
    | with_reducible assumption
    | intro _
    | exact rfl
    | with_reducible apply ite_keeps
    | with_reducible apply State.enableImage_keeps

theorem execSubscriptionResolve_keeps {b s s1 : State} (h : State.Keeps b s) (t : Fin 17) (e : execSubscriptionResolve t s = .next s1) : State.Keeps b s1 := by
  unfold execSubscriptionResolve at e
  cases e
  repeat' first
    | with_reducible assumption
    | intro _
    | exact rfl
    | with_reducible apply ite_keeps
    | with_reducible apply State.resolveSubs_keeps

end Sys2Proof.Machine
end

