-- ==== Sys2Proof/Laws/KeepsPair.lean ====
section
/-!
SUPPORT. One lemma for each operation and each command: what it keeps (State.Keeps). Here: the CAN controllers, gPTP, the gateway, redundancy and the queue opcodes.
-/

namespace Sys2Proof.Machine

open State

theorem State.modCtl_keeps {b s : State} (h : Keeps b s) (n : Nat) (f : CanCtl → CanCtl) : Keeps b (State.modCtl s n f) := by
  unfold State.modCtl
  repeat' first
    | with_reducible assumption
    | intro _
    | exact rfl
    | with_reducible apply ite_keeps
    | with_reducible apply State.modCan_keeps

theorem State.modBuf_keeps {z s : State} (h : Keeps z s) (g b : Nat) (f : CanBuf → CanBuf) : Keeps z (State.modBuf s g b f) := by
  unfold State.modBuf
  repeat' first
    | with_reducible assumption
    | intro _
    | exact rfl
    | with_reducible apply ite_keeps
    | with_reducible apply State.modCtl_keeps

theorem State.canIrq_keeps {b s : State} (h : Keeps b s) (n : Nat) (f en : Fld) : Keeps b (State.canIrq s n f en) := by
  unfold State.canIrq
  repeat' first
    | with_reducible assumption
    | ((try lift_lets); intro x; refine (fun (_ : Keeps b x) => ?_) ?_; (on_goal 2 => subst x); clear_value x)
    | intro _
    | exact rfl
    | with_reducible apply ite_keeps
    | with_reducible apply State.msix_keeps
    | with_reducible apply State.set_keeps

theorem State.showPending_keeps {b s : State} (h : Keeps b s) (g : Nat) : Keeps b (State.showPending s g) := by
  unfold State.showPending
  repeat' first
    | with_reducible assumption
    | ((try lift_lets); intro x; refine (fun (_ : Keeps b x) => ?_) ?_; (on_goal 2 => subst x); clear_value x)
    | intro _
    | exact rfl
    | with_reducible apply ite_keeps
    | with_reducible apply State.set_keeps

theorem State.canPendOn_keeps {z s : State} (h : Keeps z s) (g b : Nat) (even odd : Bool) : Keeps z (State.canPendOn s g b even odd) := by
  unfold State.canPendOn
  repeat' first
    | with_reducible assumption
    | ((try lift_lets); intro x; clear_value x)
    | intro _
    | exact rfl
    | with_reducible apply ite_keeps
    | with_reducible apply State.modCtl_keeps
    | with_reducible apply State.showPending_keeps

theorem State.canPend_keeps {z s : State} (h : Keeps z s) (g b : Nat) : Keeps z (State.canPend s g b) := by
  unfold State.canPend
  repeat' first
    | with_reducible assumption
    | intro _
    | exact rfl
    | with_reducible apply ite_keeps
    | with_reducible apply State.canPendOn_keeps

theorem State.canUnpend_keeps {z s : State} (h : Keeps z s) (n b : Nat) : Keeps z (State.canUnpend s n b) := by
  unfold State.canUnpend
  repeat' first
    | with_reducible assumption
    | ((try lift_lets); intro x; clear_value x)
    | intro _
    | exact rfl
    | with_reducible apply ite_keeps
    | with_reducible apply State.modCtl_keeps
    | with_reducible apply State.showPending_keeps

theorem State.canLoop_keeps {b s : State} (h : Keeps b s) (n : Nat) : Keeps b (State.canLoop s n) := by
  unfold State.canLoop
  repeat' first
    | with_reducible assumption
    | intro _
    | exact rfl
    | with_reducible apply ite_keeps
    | with_reducible apply State.set_keeps
    | with_reducible apply State.take_keeps

theorem State.canTake_keeps {z s : State} (h : Keeps z s) (g b t q i : Nat) (f : CanFrame) : Keeps z (State.canTake s g b t q i f) := by
  unfold State.canTake
  repeat' first
    | with_reducible assumption
    | intro _
    | exact rfl
    | with_reducible apply ite_keeps
    | with_reducible apply State.canPend_keeps
    | with_reducible apply State.modBuf_keeps

theorem State.canFeed_keeps {b s : State} (h : Keeps b s) (g : Nat) (k : Nat) : Keeps b (State.canFeed s g k) := by
  induction k generalizing s g with
  | zero => exact h
  | succ k ih =>
    unfold State.canFeed
    repeat' first
      | with_reducible assumption
      | intro _
      | with_reducible apply ih
      | exact rfl
      | with_reducible apply ite_keeps
      | with_reducible apply State.canTake_keeps
      | with_reducible apply State.modCtl_keeps
      | split

theorem State.canQueue_keeps {b s : State} (h : Keeps b s) (g t q i : Nat) (f : CanFrame) : Keeps b (State.canQueue s g t q i f) := by
  unfold State.canQueue
  repeat' first
    | with_reducible assumption
    | intro _
    | exact rfl
    | with_reducible apply ite_keeps
    | with_reducible apply State.canTake_keeps
    | with_reducible apply State.inc_keeps
    | with_reducible apply State.modCtl_keeps
    | split

theorem State.canEnd_keeps {z s : State} (h : Keeps z s) (g b status rval : Nat) : Keeps z (State.canEnd s g b status rval) := by
  unfold State.canEnd
  repeat' first
    | with_reducible assumption
    | intro _
    | exact rfl
    | with_reducible apply ite_keeps
    | with_reducible apply State.canFeed_keeps
    | with_reducible apply State.complete_keeps
    | with_reducible apply State.modBuf_keeps
    | split

theorem State.canDropWaits_keeps {b s : State} (h : Keeps b s) (n : Nat) : Keeps b (State.canDropWaits s n) := by
  unfold State.canDropWaits
  repeat' first
    | with_reducible assumption
    | ((try lift_lets); intro x; refine (fun (_ : Keeps b x) => ?_) ?_; (on_goal 2 => subst x); clear_value x)
    | ((try lift_lets); intro x; clear_value x)
    | intro _
    | exact rfl
    | with_reducible apply ite_keeps
    | with_reducible refine foldl_keeps ?_ _ _ (fun _ _ _ => ?_)
    | with_reducible refine foldl_snd_keeps _ ?_ _ _ (fun _ _ _ => ?_)
    | with_reducible apply State.complete_keeps
    | with_reducible apply State.modCtl_keeps

theorem State.canAbort_keeps {b s : State} (h : Keeps b s) (n : Nat) : Keeps b (State.canAbort s n) := by
  unfold State.canAbort
  repeat' first
    | with_reducible assumption
    | ((try lift_lets); intro x; refine (fun (_ : Keeps b x) => ?_) ?_; (on_goal 2 => subst x); clear_value x)
    | ((try lift_lets); intro x; clear_value x)
    | intro _
    | exact rfl
    | with_reducible apply ite_keeps
    | with_reducible refine foldl_keeps ?_ _ _ (fun _ _ _ => ?_)
    | with_reducible refine foldl_snd_keeps _ ?_ _ _ (fun _ _ _ => ?_)
    | with_reducible apply State.canDropWaits_keeps
    | with_reducible apply State.canEnd_keeps
    | with_reducible apply State.canUnpend_keeps

theorem State.canPark_keeps {b s : State} (h : Keeps b s) (n : Nat) : Keeps b (State.canPark s n) := by
  unfold State.canPark
  repeat' first
    | with_reducible assumption
    | intro _
    | exact rfl
    | with_reducible apply ite_keeps
    | with_reducible refine foldl_keeps ?_ _ _ (fun _ _ _ => ?_)
    | with_reducible refine foldl_snd_keeps _ ?_ _ _ (fun _ _ _ => ?_)
    | with_reducible apply State.canUnpend_keeps

theorem State.canUnpark_keeps {b s : State} (h : Keeps b s) (g : Nat) : Keeps b (State.canUnpark s g) := by
  unfold State.canUnpark
  repeat' first
    | with_reducible assumption
    | intro _
    | exact rfl
    | with_reducible apply ite_keeps
    | with_reducible refine foldl_keeps ?_ _ _ (fun _ _ _ => ?_)
    | with_reducible refine foldl_snd_keeps _ ?_ _ _ (fun _ _ _ => ?_)
    | with_reducible apply State.canPend_keeps

theorem State.canWrite_keeps {b s : State} (h : Keeps b s) (g : Nat) (w : CanPut) : Keeps b (State.canWrite s g w) := by
  unfold State.canWrite
  repeat' first
    | with_reducible assumption
    | intro _
    | exact rfl
    | with_reducible apply ite_keeps
    | with_reducible apply State.modBuf_keeps

theorem State.canUpdate_keeps {b s : State} (h : Keeps b s) (g : Nat) (w : CanPut) : Keeps b (State.canUpdate s g w) := by
  unfold State.canUpdate
  repeat' first
    | with_reducible assumption
    | intro _
    | exact rfl
    | with_reducible apply ite_keeps
    | with_reducible apply State.canWrite_keeps
    | with_reducible apply State.modCtl_keeps

theorem State.canHeld_keeps {z s : State} (h : Keeps z s) (g b : Nat) : Keeps z (State.canHeld s g b) := by
  unfold State.canHeld
  repeat' first
    | with_reducible assumption
    | ((try lift_lets); intro x; refine (fun (_ : Keeps z x) => ?_) ?_; (on_goal 2 => subst x); clear_value x)
    | ((try lift_lets); intro x; clear_value x)
    | intro _
    | exact rfl
    | with_reducible apply ite_keeps
    | with_reducible refine foldl_keeps ?_ _ _ (fun _ _ _ => ?_)
    | with_reducible refine foldl_snd_keeps _ ?_ _ _ (fun _ _ _ => ?_)
    | with_reducible apply State.canWrite_keeps
    | with_reducible apply State.modCtl_keeps

theorem State.canCounters_keeps {b s : State} (h : Keeps b s) (n tec rec_ : Nat) : Keeps b (State.canCounters s n tec rec_) := by
  unfold State.canCounters
  repeat' first
    | with_reducible assumption
    | ((try lift_lets); intro x; refine (fun (_ : Keeps b x) => ?_) ?_; (on_goal 2 => subst x); clear_value x)
    | ((try lift_lets); intro x; clear_value x)
    | intro _
    | exact rfl
    | with_reducible apply ite_keeps
    | with_reducible apply State.canIrq_keeps
    | with_reducible apply State.flag_keeps
    | with_reducible apply State.pass_keeps
    | with_reducible apply State.recordS_keeps
    | with_reducible apply State.set_keeps

theorem State.canBusOff_keeps {b s : State} (h : Keeps b s) (n : Nat) : Keeps b (State.canBusOff s n) := by
  unfold State.canBusOff
  repeat' first
    | with_reducible assumption
    | ((try lift_lets); intro x; refine (fun (_ : Keeps b x) => ?_) ?_; (on_goal 2 => subst x); clear_value x)
    | ((try lift_lets); intro x; clear_value x)
    | intro _
    | exact rfl
    | with_reducible apply ite_keeps
    | with_reducible apply State.canAbort_keeps
    | with_reducible apply State.canIrq_keeps
    | with_reducible apply State.inc_keeps
    | with_reducible apply State.modCtl_keeps
    | with_reducible apply State.pend_keeps
    | with_reducible apply State.recordS_keeps
    | with_reducible apply State.set_keeps

theorem State.canHeard_keeps {b s : State} (h : Keeps b s) (n : Nat) : Keeps b (State.canHeard s n) := by
  unfold State.canHeard
  repeat' first
    | with_reducible assumption
    | intro _
    | exact rfl
    | with_reducible apply ite_keeps
    | with_reducible apply State.modCtl_keeps
    | with_reducible apply State.set_keeps

theorem State.canSleep_keeps {b s : State} (h : Keeps b s) (n : Nat) : Keeps b (State.canSleep s n) := by
  unfold State.canSleep
  repeat' first
    | with_reducible assumption
    | ((try lift_lets); intro x; refine (fun (_ : Keeps b x) => ?_) ?_; (on_goal 2 => subst x); clear_value x)
    | intro _
    | exact rfl
    | with_reducible apply ite_keeps
    | with_reducible apply State.canAbort_keeps
    | with_reducible apply State.modCtl_keeps
    | with_reducible apply State.modPins_keeps
    | with_reducible apply State.recordS_keeps
    | with_reducible apply State.set_keeps

theorem State.canIdle_keeps {b s : State} (h : Keeps b s) (n : Nat) : Keeps b (State.canIdle s n) := by
  unfold State.canIdle
  repeat' first
    | with_reducible assumption
    | intro _
    | exact rfl
    | with_reducible apply ite_keeps
    | with_reducible apply State.canSleep_keeps

theorem State.canWake_keeps {b s : State} (h : Keeps b s) (n cause : Nat) : Keeps b (State.canWake s n cause) := by
  unfold State.canWake
  repeat' first
    | with_reducible assumption
    | ((try lift_lets); intro x; refine (fun (_ : Keeps b x) => ?_) ?_; (on_goal 2 => subst x); clear_value x)
    | intro _
    | exact rfl
    | with_reducible apply ite_keeps
    | with_reducible apply State.canIrq_keeps
    | with_reducible apply State.modCtl_keeps
    | with_reducible apply State.modPins_keeps
    | with_reducible apply State.recordS_keeps
    | with_reducible apply State.set_keeps
    | with_reducible apply State.setBits_keeps

theorem State.canCut_keeps {b s : State} (h : Keeps b s) (n : Nat) : Keeps b (State.canCut s n) := by
  unfold State.canCut
  repeat' first
    | with_reducible assumption
    | intro _
    | exact rfl
    | with_reducible apply ite_keeps
    | with_reducible apply State.emit_keeps

theorem State.cutFrames_keeps {b s : State} (h : Keeps b s) : Keeps b (State.cutFrames s) := by
  unfold State.cutFrames
  repeat' first
    | with_reducible assumption
    | intro _
    | exact rfl
    | with_reducible apply ite_keeps
    | with_reducible refine foldl_keeps ?_ _ _ (fun _ _ _ => ?_)
    | with_reducible refine foldl_snd_keeps _ ?_ _ _ (fun _ _ _ => ?_)
    | with_reducible apply State.canCut_keeps
    | with_reducible apply State.emit_keeps

theorem State.canInit_keeps {b s : State} (h : Keeps b s) (n : Nat) : Keeps b (State.canInit s n) := by
  unfold State.canInit
  repeat' first
    | with_reducible assumption
    | ((try lift_lets); intro x; refine (fun (_ : Keeps b x) => ?_) ?_; (on_goal 2 => subst x); clear_value x)
    | ((try lift_lets); intro x; clear_value x)
    | intro _
    | exact rfl
    | with_reducible apply ite_keeps
    | with_reducible apply State.canCut_keeps
    | with_reducible apply State.canHeld_keeps
    | with_reducible apply State.modCtl_keeps
    | with_reducible apply State.set_keeps
    | split

theorem State.canSettle_keeps {b s : State} (h : Keeps b s) (n : Nat) : Keeps b (State.canSettle s n) := by
  unfold State.canSettle
  repeat' first
    | with_reducible assumption
    | ((try lift_lets); intro x; refine (fun (hx : ∀ s y0, Keeps b s → Keeps b (x s y0)) => ?_) ?_; (on_goal 2 => subst x); clear_value x)
    | ((try lift_lets); intro x; clear_value x)
    | intro _
    | exact rfl
    | with_reducible apply ite_keeps
    | with_reducible apply State.canInit_keeps
    | with_reducible apply State.modPins_keeps
    | with_reducible apply State.set_keeps
    | split
    | refine Keeps.ofSnd ?_ (by assumption)
    | refine Keeps.ofThird ?_ (by assumption)
    | refine Keeps.ofFourth ?_ (by assumption)
    | with_reducible apply hx

theorem State.canStore_keeps {z s : State} (h : Keeps z s) (n g b : Nat) (f : CanFrame) (ns turn : Nat) : Keeps z (State.canStore s n g b f ns turn) := by
  unfold State.canStore
  repeat' first
    | with_reducible assumption
    | ((try lift_lets); intro x; refine (fun (_ : Keeps z x) => ?_) ?_; (on_goal 2 => subst x); clear_value x)
    | ((try lift_lets); intro x; clear_value x)
    | intro _
    | exact rfl
    | with_reducible apply ite_keeps
    | with_reducible apply State.canIrq_keeps
    | with_reducible apply State.inc_keeps
    | with_reducible apply State.modBuf_keeps
    | with_reducible apply State.recordS_keeps

theorem State.canReceive_keeps {b s : State} (h : Keeps b s) (n : Nat) (f : CanFrame) (ns turn : Nat) : Keeps b (State.canReceive s n f ns turn) := by
  unfold State.canReceive
  repeat' first
    | with_reducible assumption
    | ((try lift_lets); intro x; refine (fun (_ : Keeps b x) => ?_) ?_; (on_goal 2 => subst x); clear_value x)
    | ((try lift_lets); intro x; clear_value x)
    | intro _
    | exact rfl
    | with_reducible apply ite_keeps
    | with_reducible apply State.canStore_keeps
    | with_reducible apply State.inc_keeps
    | with_reducible apply State.modCtl_keeps
    | with_reducible apply State.up_keeps
    | split

theorem State.canOpen_keeps {b s : State} (h : Keeps b s) (g c : Nat) : Keeps b (State.canOpen s g c) := by
  unfold State.canOpen
  repeat' first
    | with_reducible assumption
    | ((try lift_lets); intro x; refine (fun (_ : Keeps b x) => ?_) ?_; (on_goal 2 => subst x); clear_value x)
    | ((try lift_lets); intro x; clear_value x)
    | intro _
    | exact rfl
    | with_reducible apply ite_keeps
    | with_reducible apply State.canPendOn_keeps
    | with_reducible apply State.modCtl_keeps
    | split

theorem State.canMiss_keeps {b s : State} (h : Keeps b s) (g : Nat) (w : CanWin) : Keeps b (State.canMiss s g w) := by
  unfold State.canMiss
  repeat' first
    | with_reducible assumption
    | ((try lift_lets); intro x; refine (fun (_ : Keeps b x) => ?_) ?_; (on_goal 2 => subst x); clear_value x)
    | intro _
    | exact rfl
    | with_reducible apply ite_keeps
    | with_reducible apply State.canIrq_keeps
    | with_reducible apply State.canUnpend_keeps
    | with_reducible apply State.inc_keeps
    | with_reducible apply State.modCtl_keeps
    | with_reducible apply State.recordS_keeps
    | with_reducible apply State.setBits_keeps
    | split

theorem State.canLate_keeps {b s : State} (h : Keeps b s) (row done : Nat) : Keeps b (State.canLate s row done) := by
  unfold State.canLate
  repeat' first
    | with_reducible assumption
    | intro _
    | exact rfl
    | with_reducible apply ite_keeps
    | with_reducible refine foldl_keeps ?_ _ _ (fun _ _ _ => ?_)
    | with_reducible refine foldl_snd_keeps _ ?_ _ _ (fun _ _ _ => ?_)
    | with_reducible apply State.canMiss_keeps
    | split

theorem State.canTick_keeps {b s : State} (h : Keeps b s) : Keeps b (State.canTick s) := by
  unfold State.canTick
  repeat' first
    | with_reducible assumption
    | intro _
    | exact rfl
    | with_reducible apply ite_keeps
    | with_reducible refine foldl_keeps ?_ _ _ (fun _ _ _ => ?_)
    | with_reducible refine foldl_snd_keeps _ ?_ _ _ (fun _ _ _ => ?_)
    | with_reducible apply State.canMiss_keeps
    | with_reducible apply State.modCtl_keeps

theorem State.canMet_keeps {z s : State} (h : Keeps z s) (g b : Nat) : Keeps z (State.canMet s g b) := by
  unfold State.canMet
  repeat' first
    | with_reducible assumption
    | intro _
    | exact rfl
    | with_reducible apply ite_keeps
    | with_reducible apply State.modCtl_keeps

theorem State.canSuccess_keeps {z s : State} (h : Keeps z s) (n b ns turn : Nat) : Keeps z (State.canSuccess s n b ns turn) := by
  unfold State.canSuccess
  repeat' first
    | with_reducible assumption
    | ((try lift_lets); intro x; refine (fun (_ : Keeps z x) => ?_) ?_; (on_goal 2 => subst x); clear_value x)
    | ((try lift_lets); intro x; clear_value x)
    | intro _
    | exact rfl
    | with_reducible apply ite_keeps
    | with_reducible apply State.canCounters_keeps
    | with_reducible apply State.canEnd_keeps
    | with_reducible apply State.canHeard_keeps
    | with_reducible apply State.canHeld_keeps
    | with_reducible apply State.canIdle_keeps
    | with_reducible apply State.canMet_keeps
    | with_reducible apply State.canReceive_keeps
    | with_reducible apply State.canUnpend_keeps
    | with_reducible apply State.inc_keeps
    | with_reducible apply State.modBuf_keeps
    | with_reducible apply State.modCtl_keeps

theorem State.canRecDown_keeps {b s : State} (h : Keeps b s) (n : Nat) : Keeps b (State.canRecDown s n) := by
  unfold State.canRecDown
  repeat' first
    | with_reducible assumption
    | ((try lift_lets); intro x; clear_value x)
    | intro _
    | exact rfl
    | with_reducible apply ite_keeps
    | with_reducible apply State.canCounters_keeps
    | with_reducible apply State.take_keeps

theorem State.canOff_keeps {b s : State} (h : Keeps b s) : Keeps b (State.canOff s) := by
  unfold State.canOff
  repeat' first
    | with_reducible assumption
    | ((try lift_lets); intro x; refine (fun (_ : Keeps b x) => ?_) ?_; (on_goal 2 => subst x); clear_value x)
    | intro _
    | exact rfl
    | with_reducible apply ite_keeps
    | with_reducible refine foldl_keeps ?_ _ _ (fun _ _ _ => ?_)
    | with_reducible refine foldl_snd_keeps _ ?_ _ _ (fun _ _ _ => ?_)
    | with_reducible apply State.canCut_keeps
    | with_reducible apply State.modCtl_keeps
    | with_reducible apply State.modPins_keeps
    | with_reducible apply State.set_keeps

theorem State.canYield_keeps {b s : State} (h : Keeps b s) (n : Nat) : Keeps b (State.canYield s n) := by
  unfold State.canYield
  repeat' first
    | with_reducible assumption
    | intro _
    | exact rfl
    | with_reducible apply ite_keeps
    | with_reducible apply State.canHeld_keeps
    | with_reducible apply State.modCtl_keeps
    | split

theorem State.canAck_keeps {b s : State} (h : Keeps b s) (n : Nat) : Keeps b (State.canAck s n) := by
  unfold State.canAck
  repeat' first
    | with_reducible assumption
    | intro _
    | exact rfl
    | with_reducible apply ite_keeps
    | with_reducible apply State.emit_keeps

theorem State.canFlag_keeps {b s : State} (h : Keeps b s) (n : Nat) : Keeps b (State.canFlag s n) := by
  unfold State.canFlag
  repeat' first
    | with_reducible assumption
    | intro _
    | exact rfl
    | with_reducible apply ite_keeps
    | with_reducible apply State.emit_keeps

theorem State.canRefuse_keeps {b s : State} (h : Keeps b s) (n : Nat) : Keeps b (State.canRefuse s n) := by
  unfold State.canRefuse
  repeat' first
    | with_reducible assumption
    | intro _
    | exact rfl
    | with_reducible apply ite_keeps
    | with_reducible apply State.canCounters_keeps
    | with_reducible apply State.canFlag_keeps
    | with_reducible apply State.canIdle_keeps
    | with_reducible apply State.canYield_keeps
    | with_reducible apply State.set_keeps
    | with_reducible apply State.take_keeps

theorem State.canRecover_keeps {b s : State} (h : Keeps b s) (n : Nat) : Keeps b (State.canRecover s n) := by
  unfold State.canRecover
  repeat' first
    | with_reducible assumption
    | intro _
    | exact rfl
    | with_reducible apply ite_keeps
    | with_reducible apply State.modCtl_keeps

theorem State.canSleepCmd_keeps {b s : State} (h : Keeps b s) (n : Nat) : Keeps b (State.canSleepCmd s n) := by
  unfold State.canSleepCmd
  repeat' first
    | with_reducible assumption
    | intro _
    | exact rfl
    | with_reducible apply ite_keeps
    | with_reducible apply State.canSleep_keeps
    | with_reducible apply State.modCtl_keeps

theorem execCanFrameReceive_keeps {b s s1 : State} (h : State.Keeps b s) (n : Fin 8) (f : CanFrame) (ns turn : Nat) (e : execCanFrameReceive n f ns turn s = .next s1) : State.Keeps b s1 := by
  unfold execCanFrameReceive at e
  cases e
  repeat' first
    | with_reducible assumption
    | intro _
    | exact rfl
    | with_reducible apply ite_keeps
    | with_reducible apply State.canAck_keeps
    | with_reducible apply State.canHeard_keeps
    | with_reducible apply State.canIdle_keeps
    | with_reducible apply State.canRecDown_keeps
    | with_reducible apply State.canReceive_keeps
    | with_reducible apply State.canRefuse_keeps
    | with_reducible apply State.canYield_keeps

theorem execCanTxStart_keeps {b s s1 : State} (h : State.Keeps b s) (n : Fin 8) (e : execCanTxStart n s = .next s1) : State.Keeps b s1 := by
  unfold execCanTxStart at e
  cases e
  repeat' first
    | with_reducible assumption
    | ((try lift_lets); intro x; refine (fun (_ : Keeps b x) => ?_) ?_; (on_goal 2 => subst x); clear_value x)
    | ((try lift_lets); intro x; clear_value x)
    | intro _
    | exact rfl
    | with_reducible apply ite_keeps
    | with_reducible apply State.canLoop_keeps
    | with_reducible apply State.emit_keeps
    | with_reducible apply State.modCtl_keeps
    | split

theorem execCanTxSuccess_keeps {b s s1 : State} (h : State.Keeps b s) (n : Fin 8) (ns turn : Nat) (e : execCanTxSuccess n ns turn s = .next s1) : State.Keeps b s1 := by
  unfold execCanTxSuccess at e
  cases e
  repeat' first
    | with_reducible assumption
    | intro _
    | exact rfl
    | with_reducible apply ite_keeps
    | with_reducible apply State.canSuccess_keeps
    | split

theorem execCanWindowOpen_keeps {b s s1 : State} (h : State.Keeps b s) (n : Fin 8) (c : Fin 32) (e : execCanWindowOpen n c s = .next s1) : State.Keeps b s1 := by
  unfold execCanWindowOpen at e
  cases e
  repeat' first
    | with_reducible assumption
    | intro _
    | exact rfl
    | with_reducible apply ite_keeps
    | with_reducible apply State.canOpen_keeps

theorem execCanWindowMiss_keeps {b s s1 : State} (h : State.Keeps b s) (n : Fin 8) (c : Fin 32) (e : execCanWindowMiss n c s = .next s1) : State.Keeps b s1 := by
  unfold execCanWindowMiss at e
  cases e
  repeat' first
    | with_reducible assumption
    | intro _
    | exact rfl
    | with_reducible apply ite_keeps
    | with_reducible apply State.canMiss_keeps
    | split

theorem execCanBusError_keeps {b s s1 : State} (h : State.Keeps b s) (n : Fin 8) (tx : Bool) (lec : Fin 7) (dataPhase : Bool) (step : Fin 9) (res : Bool) (e : execCanBusError n tx lec dataPhase step res s = .next s1) : State.Keeps b s1 := by
  unfold execCanBusError at e
  cases e
  repeat' first
    | with_reducible assumption
    | ((try lift_lets); intro x; refine (fun (_ : Keeps b x) => ?_) ?_; (on_goal 2 => subst x); clear_value x)
    | ((try lift_lets); intro x; clear_value x)
    | intro _
    | exact rfl
    | with_reducible apply ite_keeps
    | with_reducible apply State.canBusOff_keeps
    | with_reducible apply State.canCounters_keeps
    | with_reducible apply State.canFlag_keeps
    | with_reducible apply State.canHeld_keeps
    | with_reducible apply State.canIdle_keeps
    | with_reducible apply State.flag_keeps
    | with_reducible apply State.modCtl_keeps
    | with_reducible apply State.set_keeps
    | split

theorem execCanRecoveryDone_keeps {b s s1 : State} (h : State.Keeps b s) (n : Fin 8) (e : execCanRecoveryDone n s = .next s1) : State.Keeps b s1 := by
  unfold execCanRecoveryDone at e
  cases e
  repeat' first
    | with_reducible assumption
    | ((try lift_lets); intro x; refine (fun (_ : Keeps b x) => ?_) ?_; (on_goal 2 => subst x); clear_value x)
    | ((try lift_lets); intro x; clear_value x)
    | intro _
    | exact rfl
    | with_reducible apply ite_keeps
    | with_reducible apply State.canCounters_keeps
    | with_reducible apply State.canIrq_keeps
    | with_reducible apply State.modCtl_keeps
    | with_reducible apply State.recordS_keeps
    | with_reducible apply State.set_keeps

theorem execCanRecoverCmd_keeps {b s s1 : State} (h : State.Keeps b s) (n : Fin 8) (e : execCanRecoverCmd n s = .next s1) : State.Keeps b s1 := by
  unfold execCanRecoverCmd at e
  cases e
  repeat' first
    | with_reducible assumption
    | intro _
    | exact rfl
    | with_reducible apply ite_keeps
    | with_reducible apply State.canRecover_keeps

theorem execCanAlone_keeps {b s s1 : State} (h : State.Keeps b s) (n : Fin 8) (e : execCanAlone n s = .next s1) : State.Keeps b s1 := by
  unfold execCanAlone at e
  cases e
  repeat' first
    | with_reducible assumption
    | ((try lift_lets); intro x; refine (fun (_ : Keeps b x) => ?_) ?_; (on_goal 2 => subst x); clear_value x)
    | intro _
    | exact rfl
    | with_reducible apply ite_keeps
    | with_reducible apply State.canIrq_keeps
    | with_reducible apply State.flag_keeps
    | with_reducible apply State.hold_keeps
    | with_reducible apply State.recordS_keeps
    | with_reducible apply State.set_keeps

theorem execCanBusIntegrated_keeps {b s s1 : State} (h : State.Keeps b s) (n : Fin 8) (e : execCanBusIntegrated n s = .next s1) : State.Keeps b s1 := by
  unfold execCanBusIntegrated at e
  cases e
  repeat' first
    | with_reducible assumption
    | intro _
    | exact rfl
    | with_reducible apply ite_keeps
    | with_reducible apply State.set_keeps

theorem execCanSleepCmd_keeps {b s s1 : State} (h : State.Keeps b s) (n : Fin 8) (e : execCanSleepCmd n s = .next s1) : State.Keeps b s1 := by
  unfold execCanSleepCmd at e
  cases e
  repeat' first
    | with_reducible assumption
    | intro _
    | exact rfl
    | with_reducible apply ite_keeps
    | with_reducible apply State.canSleepCmd_keeps

theorem execCanWakeCmd_keeps {b s s1 : State} (h : State.Keeps b s) (n : Fin 8) (e : execCanWakeCmd n s = .next s1) : State.Keeps b s1 := by
  unfold execCanWakeCmd at e
  cases e
  repeat' first
    | with_reducible assumption
    | intro _
    | exact rfl
    | with_reducible apply ite_keeps
    | with_reducible apply State.canWake_keeps

theorem execCanWakeDetect_keeps {b s s1 : State} (h : State.Keeps b s) (n : Fin 8) (w : WakeSeen) (e : execCanWakeDetect n w s = .next s1) : State.Keeps b s1 := by
  unfold execCanWakeDetect at e
  cases e
  repeat' first
    | with_reducible assumption
    | ((try lift_lets); intro x; refine (fun (_ : Keeps b x) => ?_) ?_; (on_goal 2 => subst x); clear_value x)
    | intro _
    | exact rfl
    | with_reducible apply ite_keeps
    | with_reducible apply State.canWake_keeps
    | with_reducible apply State.inc_keeps
    | with_reducible apply State.take_keeps
    | split

theorem execMirrorTwinExpiry_keeps {b s s1 : State} (h : State.Keeps b s) (n : Fin 8) (k : Nat) (e : execMirrorTwinExpiry n k s = .next s1) : State.Keeps b s1 := by
  unfold execMirrorTwinExpiry at e
  cases e
  repeat' first
    | with_reducible assumption
    | intro _
    | exact rfl
    | with_reducible apply ite_keeps
    | with_reducible apply State.modCtl_keeps

theorem execCanBufferNewWrite_keeps {z s s1 : State} (h : State.Keeps z s) (n : Fin 8) (b : Fin 128) (e : execCanBufferNewWrite n b s = .next s1) : State.Keeps z s1 := by
  unfold execCanBufferNewWrite at e
  cases e
  repeat' first
    | with_reducible assumption
    | intro _
    | exact rfl
    | with_reducible apply ite_keeps
    | with_reducible apply State.canUpdate_keeps

theorem State.modGptp_keeps {b s : State} (h : Keeps b s) (n : Nat) (f : GptpPort → GptpPort) : Keeps b (State.modGptp s n f) := by
  unfold State.modGptp
  repeat' first
    | with_reducible assumption
    | intro _
    | exact rfl
    | with_reducible apply ite_keeps
    | with_reducible apply State.modCon_keeps

theorem State.gptpSend_keeps {b s : State} (h : Keeps b s) (n typ flags : Nat) (corr : Int) (seq ctl interval : Nat) (body : List Byte) : Keeps b (State.gptpSend s n typ flags corr seq ctl interval body) := by
  unfold State.gptpSend
  repeat' first
    | with_reducible assumption
    | ((try lift_lets); intro x; clear_value x)
    | intro _
    | exact rfl
    | with_reducible apply ite_keeps
    | with_reducible apply State.emit_keeps

theorem State.gptpAsk_keeps {b s : State} (h : Keeps b s) (n : Nat) : Keeps b (State.gptpAsk s n) := by
  unfold State.gptpAsk
  repeat' first
    | with_reducible assumption
    | ((try lift_lets); intro x; clear_value x)
    | intro _
    | exact rfl
    | with_reducible apply ite_keeps
    | with_reducible apply State.gptpSend_keeps
    | with_reducible apply State.modGptp_keeps

theorem State.gptpAnswer_keeps {b s : State} (h : Keeps b s) (n time : Nat) (m : List Byte) : Keeps b (State.gptpAnswer s n time m) := by
  unfold State.gptpAnswer
  repeat' first
    | with_reducible assumption
    | ((try lift_lets); intro x; clear_value x)
    | intro _
    | exact rfl
    | with_reducible apply ite_keeps
    | with_reducible apply State.gptpSend_keeps

theorem State.gptpDelay_keeps {b s : State} (h : Keeps b s) (n : Nat) (m : List Byte) : Keeps b (State.gptpDelay s n m) := by
  unfold State.gptpDelay
  repeat' first
    | with_reducible assumption
    | ((try lift_lets); intro x; clear_value x)
    | intro _
    | exact rfl
    | with_reducible apply ite_keeps
    | with_reducible apply State.modGptp_keeps
    | split
    | refine Keeps.ofSnd ?_ (by assumption)
    | refine Keeps.ofThird ?_ (by assumption)
    | refine Keeps.ofFourth ?_ (by assumption)
    | dsimp only

theorem State.gptpAnnounce_keeps {b s : State} (h : Keeps b s) (n : Nat) (m : List Byte) : Keeps b (State.gptpAnnounce s n m) := by
  unfold State.gptpAnnounce
  repeat' first
    | with_reducible assumption
    | ((try lift_lets); intro x; refine (fun (_ : Keeps b x) => ?_) ?_; (on_goal 2 => subst x); clear_value x)
    | ((try lift_lets); intro x; clear_value x)
    | intro _
    | exact rfl
    | with_reducible apply ite_keeps
    | with_reducible refine foldl_keeps ?_ _ _ (fun _ _ _ => ?_)
    | with_reducible refine foldl_snd_keeps _ ?_ _ _ (fun _ _ _ => ?_)
    | with_reducible apply State.gptpSend_keeps
    | with_reducible apply State.modCon_keeps

theorem State.gptpRelay_keeps {b s : State} (h : Keeps b s) (n time : Nat) (corr : Int) (m : List Byte) : Keeps b (State.gptpRelay s n time corr m) := by
  unfold State.gptpRelay
  repeat' first
    | with_reducible assumption
    | ((try lift_lets); intro x; clear_value x)
    | intro _
    | exact rfl
    | with_reducible apply ite_keeps
    | with_reducible refine foldl_keeps ?_ _ _ (fun _ _ _ => ?_)
    | with_reducible refine foldl_snd_keeps _ ?_ _ _ (fun _ _ _ => ?_)
    | with_reducible apply State.gptpSend_keeps

theorem State.gptpSync_keeps {b s : State} (h : Keeps b s) (n time : Nat) (m : List Byte) : Keeps b (State.gptpSync s n time m) := by
  unfold State.gptpSync
  repeat' first
    | with_reducible assumption
    | intro _
    | exact rfl
    | with_reducible apply ite_keeps
    | with_reducible apply State.gptpRelay_keeps
    | with_reducible apply State.modCon_keeps

theorem State.gptpFollow_keeps {b s : State} (h : Keeps b s) (n : Nat) (m : List Byte) : Keeps b (State.gptpFollow s n m) := by
  unfold State.gptpFollow
  repeat' first
    | with_reducible assumption
    | intro _
    | exact rfl
    | with_reducible apply ite_keeps
    | with_reducible apply State.gptpRelay_keeps
    | with_reducible apply State.gptpSync_keeps
    | with_reducible apply State.modCon_keeps
    | split

theorem State.gptpFrame_keeps {b s : State} (h : Keeps b s) (n time : Nat) (f : EthFrame) : Keeps b (State.gptpFrame s n time f) := by
  unfold State.gptpFrame
  repeat' first
    | with_reducible assumption
    | ((try lift_lets); intro x; clear_value x)
    | intro _
    | exact rfl
    | with_reducible apply ite_keeps
    | with_reducible apply State.gptpAnnounce_keeps
    | with_reducible apply State.gptpAnswer_keeps
    | with_reducible apply State.gptpDelay_keeps
    | with_reducible apply State.gptpFollow_keeps
    | with_reducible apply State.gptpSync_keeps
    | with_reducible apply State.modGptp_keeps
    | split

theorem State.gptpTick_keeps {b s : State} (h : Keeps b s) : Keeps b (State.gptpTick s) := by
  unfold State.gptpTick
  repeat' first
    | with_reducible assumption
    | intro _
    | exact rfl
    | with_reducible apply ite_keeps
    | with_reducible refine foldl_keeps ?_ _ _ (fun _ _ _ => ?_)
    | with_reducible refine foldl_snd_keeps _ ?_ _ _ (fun _ _ _ => ?_)
    | with_reducible apply State.gptpAsk_keeps

theorem State.gptpLeave_keeps {b s : State} (h : Keeps b s) (n : Nat) : Keeps b (State.gptpLeave s n) := by
  unfold State.gptpLeave
  repeat' first
    | with_reducible assumption
    | intro _
    | exact rfl
    | with_reducible apply ite_keeps
    | with_reducible apply State.gptpSync_keeps
    | with_reducible apply State.modCon_keeps

theorem State.modMap_keeps {b s : State} (h : Keeps b s) (i : Nat) (f : GwEntry → GwEntry) : Keeps b (State.modMap s i f) := by
  unfold State.modMap
  repeat' first
    | with_reducible assumption
    | intro _
    | exact rfl
    | with_reducible apply ite_keeps
    | with_reducible apply State.modCon_keeps

theorem State.modTel_keeps {b s : State} (h : Keeps b s) (i : Nat) (f : Tel → Tel) : Keeps b (State.modTel s i f) := by
  unfold State.modTel
  repeat' first
    | with_reducible assumption
    | intro _
    | exact rfl
    | with_reducible apply ite_keeps
    | with_reducible apply State.modCon_keeps

theorem State.gwWrite_keeps {b s : State} (h : Keeps b s) (e : GwEntry) (raw : Nat) (dflt : Bool) : Keeps b (State.gwWrite s e raw dflt) := by
  unfold State.gwWrite
  repeat' first
    | with_reducible assumption
    | ((try lift_lets); intro x; clear_value x)
    | intro _
    | exact rfl
    | with_reducible apply ite_keeps
    | with_reducible apply State.canUpdate_keeps
    | with_reducible apply State.modMill_keeps
    | with_reducible apply State.modTel_keeps
    | with_reducible apply State.refresh_keeps
    | split

theorem State.gwEval_keeps {b s : State} (h : Keeps b s) (src : List Byte × Bool) (i : Nat) : Keeps b (State.gwEval src s i) := by
  unfold State.gwEval
  repeat' first
    | with_reducible assumption
    | ((try lift_lets); intro x; clear_value x)
    | intro _
    | exact rfl
    | with_reducible apply ite_keeps
    | with_reducible apply State.gwWrite_keeps
    | with_reducible apply State.inc_keeps
    | with_reducible apply State.modMap_keeps
    | with_reducible apply State.recordS_keeps

theorem State.gwRestart_keeps {b s : State} (h : Keeps b s) : Keeps b (State.gwRestart s) := by
  unfold State.gwRestart
  repeat' first
    | with_reducible assumption
    | intro _
    | exact rfl
    | with_reducible apply ite_keeps
    | with_reducible apply State.modCon_keeps

theorem State.bindCopies_keeps {b s : State} (h : Keeps b s) (tels : List Tel) : Keeps b (State.bindCopies tels s) := by
  unfold State.bindCopies
  repeat' first
    | with_reducible assumption
    | intro _
    | exact rfl
    | with_reducible apply ite_keeps
    | with_reducible refine foldl_keeps ?_ _ _ (fun _ _ _ => ?_)
    | with_reducible refine foldl_snd_keeps _ ?_ _ _ (fun _ _ _ => ?_)
    | with_reducible apply State.modTel_keeps
    | with_reducible apply State.refresh_keeps
    | split

theorem State.job5On_keeps {b s : State} (h : Keeps b s) (srcs : List (List Byte × Bool)) (tels : List Tel) : Keeps b (State.job5On s srcs tels) := by
  unfold State.job5On
  repeat' first
    | with_reducible assumption
    | ((try lift_lets); intro x; refine (fun (_ : Keeps b x) => ?_) ?_; (on_goal 2 => subst x); clear_value x)
    | ((try lift_lets); intro x; clear_value x)
    | intro _
    | exact rfl
    | with_reducible apply ite_keeps
    | with_reducible refine foldl_keeps ?_ _ _ (fun _ _ _ => ?_)
    | with_reducible refine foldl_snd_keeps _ ?_ _ _ (fun _ _ _ => ?_)
    | with_reducible apply State.bindCopies_keeps
    | with_reducible apply State.gwEval_keeps
    | with_reducible apply State.set_keeps

theorem State.job5_keeps {b s : State} (h : Keeps b s) : Keeps b (State.job5 s) := by
  unfold State.job5
  repeat' first
    | with_reducible assumption
    | intro _
    | exact rfl
    | with_reducible apply ite_keeps
    | with_reducible apply State.job5On_keeps

theorem State.pdSend_keeps {b s : State} (h : Keeps b s) (vid prio dst etype : Nat) (data : List Byte) : Keeps b (State.pdSend s vid prio dst etype data) := by
  unfold State.pdSend
  repeat' first
    | with_reducible assumption
    | intro _
    | exact rfl
    | with_reducible apply ite_keeps
    | with_reducible apply State.bridge_keeps
    | with_reducible apply State.take_keeps
    | split

theorem State.ipPacket_keeps {b s : State} (h : Keeps b s) (ttl proto dst : Nat) (opts body : List Byte) : Keeps b (State.ipPacket s ttl proto dst opts body).2 := by
  unfold State.ipPacket
  repeat' first
    | with_reducible assumption
    | intro _
    | exact rfl
    | with_reducible apply ite_keeps
    | with_reducible apply ite_snd_keeps
    | with_reducible apply State.take_keeps

theorem State.pdPublish_keeps {b s : State} (h : Keeps b s) (i : Nat) : Keeps b (State.pdPublish s i) := by
  unfold State.pdPublish
  repeat' first
    | with_reducible assumption
    | ((try lift_lets); intro x; clear_value x)
    | intro _
    | exact rfl
    | with_reducible apply ite_keeps
    | with_reducible apply State.inc_keeps
    | with_reducible apply State.ipPacket_keeps
    | with_reducible apply State.modTel_keeps
    | with_reducible apply State.pdSend_keeps
    | with_reducible apply State.take_keeps

theorem State.pdTick_keeps {b s : State} (h : Keeps b s) : Keeps b (State.pdTick s) := by
  unfold State.pdTick
  repeat' first
    | with_reducible assumption
    | intro _
    | exact rfl
    | with_reducible apply ite_keeps
    | with_reducible apply State.modCon_keeps

theorem State.cpLeave_keeps {b s : State} (h : Keeps b s) (n st : Nat) : Keeps b (State.cpLeave s n st) := by
  unfold State.cpLeave
  repeat' first
    | with_reducible assumption
    | ((try lift_lets); intro x; refine (fun (_ : Keeps b x) => ?_) ?_; (on_goal 2 => subst x); clear_value x)
    | ((try lift_lets); intro x; clear_value x)
    | intro _
    | exact rfl
    | with_reducible apply ite_keeps
    | with_reducible refine foldl_keeps ?_ _ _ (fun _ _ _ => ?_)
    | with_reducible refine foldl_snd_keeps _ ?_ _ _ (fun _ _ _ => ?_)
    | with_reducible apply State.gptpLeave_keeps
    | with_reducible apply State.inc_keeps
    | with_reducible apply State.modCon_keeps
    | with_reducible apply State.recordS_keeps
    | with_reducible apply State.sendDone_keeps
    | with_reducible apply State.set_keeps

theorem State.cpSettle_keeps {b s : State} (h : Keeps b s) (n : Nat) : Keeps b (State.cpSettle s n) := by
  unfold State.cpSettle
  repeat' first
    | with_reducible assumption
    | intro _
    | exact rfl
    | with_reducible apply ite_keeps
    | with_reducible apply State.cpLeave_keeps
    | with_reducible apply State.set_keeps

theorem State.mdioGo_keeps {b s : State} (h : Keeps b s) : Keeps b (State.mdioGo s) := by
  unfold State.mdioGo
  repeat' first
    | with_reducible assumption
    | ((try lift_lets); intro x; refine (fun (_ : Keeps b x) => ?_) ?_; (on_goal 2 => subst x); clear_value x)
    | ((try lift_lets); intro x; clear_value x)
    | intro _
    | exact rfl
    | with_reducible apply ite_keeps
    | with_reducible apply State.emit_keeps
    | with_reducible apply State.modCon_keeps
    | with_reducible apply State.set_keeps

theorem execConsistFrameIngress_keeps {b s s1 : State} (h : State.Keeps b s) (n : Fin 12) (f : EthFrame) (time : Nat) (e : execConsistFrameIngress n f time s = .next s1) : State.Keeps b s1 := by
  unfold execConsistFrameIngress at e
  cases e
  repeat' first
    | with_reducible assumption
    | ((try lift_lets); intro x; clear_value x)
    | intro _
    | exact rfl
    | with_reducible apply ite_keeps
    | with_reducible apply State.gptpFrame_keeps
    | with_reducible apply State.inc_keeps
    | with_reducible apply State.ingest_keeps
    | with_reducible apply State.modCon_keeps
    | split

theorem execConsistPortUp_keeps {b s s1 : State} (h : State.Keeps b s) (n : Fin 12) (rate : Fin 5) (plca : Bool) (e : execConsistPortUp n rate plca s = .next s1) : State.Keeps b s1 := by
  unfold execConsistPortUp at e
  cases e
  repeat' first
    | with_reducible assumption
    | ((try lift_lets); intro x; refine (fun (_ : Keeps b x) => ?_) ?_; (on_goal 2 => subst x); clear_value x)
    | intro _
    | exact rfl
    | with_reducible apply ite_keeps
    | with_reducible apply State.flag_keeps
    | with_reducible apply State.recordS_keeps
    | with_reducible apply State.set_keeps

theorem execConsistPortDown_keeps {b s s1 : State} (h : State.Keeps b s) (n : Fin 12) (e : execConsistPortDown n s = .next s1) : State.Keeps b s1 := by
  unfold execConsistPortDown at e
  cases e
  repeat' first
    | with_reducible assumption
    | intro _
    | exact rfl
    | with_reducible apply ite_keeps
    | with_reducible apply State.cpLeave_keeps

theorem execFdbAgeing_keeps {b s s1 : State} (h : State.Keeps b s) (mac vid : Nat) (e : execFdbAgeing mac vid s = .next s1) : State.Keeps b s1 := by
  unfold execFdbAgeing at e
  cases e
  repeat' first
    | with_reducible assumption
    | intro _
    | exact rfl
    | with_reducible apply ite_keeps
    | with_reducible apply State.modCon_keeps

theorem execForeignBeacon_keeps {b s s1 : State} (h : State.Keeps b s) (n : Fin 12) (e : execForeignBeacon n s = .next s1) : State.Keeps b s1 := by
  unfold execForeignBeacon at e
  cases e
  repeat' first
    | with_reducible assumption
    | intro _
    | exact rfl
    | with_reducible apply ite_keeps
    | with_reducible apply State.recordS_keeps

theorem execMdioFrame_keeps {b s s1 : State} (h : State.Keeps b s) (c45 : Bool) (op : Fin 4) (phy reg : Fin 32) (e : execMdioFrame c45 op phy reg s = .next s1) : State.Keeps b s1 := by
  unfold execMdioFrame at e
  cases e
  repeat' first
    | with_reducible assumption
    | ((try lift_lets); intro x; refine (fun (_ : Keeps b x) => ?_) ?_; (on_goal 2 => subst x); clear_value x)
    | intro _
    | exact rfl
    | with_reducible apply ite_keeps
    | with_reducible apply State.flag_keeps
    | with_reducible apply State.mdioGo_keeps
    | with_reducible apply State.set_keeps

theorem execMdioFrameDone_keeps {b s s1 : State} (h : State.Keeps b s) (data : Fin 65536) (e : execMdioFrameDone data s = .next s1) : State.Keeps b s1 := by
  unfold execMdioFrameDone at e
  cases e
  repeat' first
    | with_reducible assumption
    | ((try lift_lets); intro x; refine (fun (_ : Keeps b x) => ?_) ?_; (on_goal 2 => subst x); clear_value x)
    | intro _
    | exact rfl
    | with_reducible apply ite_keeps
    | with_reducible apply State.modCon_keeps
    | with_reducible apply State.set_keeps
    | split

theorem execTrdpPublish_keeps {b s s1 : State} (h : State.Keeps b s) (i : Fin 1024) (e : execTrdpPublish i s = .next s1) : State.Keeps b s1 := by
  unfold execTrdpPublish at e
  cases e
  repeat' first
    | with_reducible assumption
    | intro _
    | exact rfl
    | with_reducible apply ite_keeps
    | with_reducible apply State.pdPublish_keeps

theorem execTrdpTelegramReceive_keeps {b s s1 : State} (h : State.Keeps b s) (src dst port vid : Nat) (d : List Byte) (e : execTrdpTelegramReceive src dst port vid d s = .next s1) : State.Keeps b s1 := by
  unfold execTrdpTelegramReceive at e
  cases e
  repeat' first
    | with_reducible assumption
    | ((try lift_lets); intro x; clear_value x)
    | intro _
    | exact rfl
    | with_reducible apply ite_keeps
    | with_reducible refine foldl_keeps ?_ _ _ (fun _ _ _ => ?_)
    | with_reducible refine foldl_snd_keeps _ ?_ _ _ (fun _ _ _ => ?_)
    | with_reducible apply State.inc_keeps
    | with_reducible apply State.modTel_keeps

theorem execTrdpSubscriberTimeout_keeps {b s s1 : State} (h : State.Keeps b s) (i : Fin 1024) (e : execTrdpSubscriberTimeout i s = .next s1) : State.Keeps b s1 := by
  unfold execTrdpSubscriberTimeout at e
  cases e
  repeat' first
    | with_reducible assumption
    | intro _
    | exact rfl
    | with_reducible apply ite_keeps
    | with_reducible apply State.modTel_keeps
    | with_reducible apply State.recordS_keeps

theorem execArpRequest_keeps {b s s1 : State} (h : State.Keeps b s) (mac ip target : Nat) (e : execArpRequest mac ip target s = .next s1) : State.Keeps b s1 := by
  unfold execArpRequest at e
  cases e
  repeat' first
    | with_reducible assumption
    | intro _
    | exact rfl
    | with_reducible apply ite_keeps
    | with_reducible apply State.pdSend_keeps
    | with_reducible apply State.take_keeps

theorem execIgmpReport_keeps {b s s1 : State} (h : State.Keeps b s) (e : execIgmpReport s = .next s1) : State.Keeps b s1 := by
  unfold execIgmpReport at e
  cases e
  repeat' first
    | with_reducible assumption
    | ((try lift_lets); intro x; refine (fun (_ : Keeps b x) => ?_) ?_; (on_goal 2 => subst x); clear_value x)
    | ((try lift_lets); intro x; clear_value x)
    | intro _
    | exact rfl
    | with_reducible apply ite_keeps
    | with_reducible refine foldl_keeps ?_ _ _ (fun _ _ _ => ?_)
    | with_reducible refine foldl_snd_keeps _ ?_ _ _ (fun _ _ _ => ?_)
    | with_reducible apply State.ipPacket_keeps
    | with_reducible apply State.modCon_keeps
    | with_reducible apply State.pdSend_keeps
    | with_reducible apply State.take_keeps

theorem State.setEpoch_keeps {b s : State} (h : Keeps b s) (e : Nat) : Keeps b (State.setEpoch s e) := by
  unfold State.setEpoch
  repeat' first
    | with_reducible assumption
    | ((try lift_lets); intro x; clear_value x)
    | intro _
    | exact rfl
    | with_reducible apply ite_keeps
    | with_reducible apply State.mramWrite_keeps
    | with_reducible apply State.set_keeps

theorem State.setRole_keeps {b s : State} (h : Keeps b s) (r : Nat) : Keeps b (State.setRole s r) := by
  unfold State.setRole
  repeat' first
    | with_reducible assumption
    | ((try lift_lets); intro x; refine (fun (_ : Keeps b x) => ?_) ?_; (on_goal 2 => subst x); clear_value x)
    | intro _
    | exact rfl
    | with_reducible apply ite_keeps
    | with_reducible apply State.bulkStart_keeps
    | with_reducible apply State.modRed_keeps
    | with_reducible apply State.set_keeps
    | split

theorem State.lead_keeps {b s : State} (h : Keeps b s) (e from_ : Nat) : Keeps b (State.lead s e from_) := by
  unfold State.lead
  repeat' first
    | with_reducible assumption
    | intro _
    | exact rfl
    | with_reducible apply ite_keeps
    | with_reducible apply State.modRed_keeps
    | with_reducible apply State.setEpoch_keeps
    | with_reducible apply State.setRole_keeps

theorem State.roleWork_keeps {b s : State} (h : Keeps b s) (led : Bool) : Keeps b (State.roleWork s led) := by
  unfold State.roleWork
  repeat' first
    | with_reducible assumption
    | ((try lift_lets); intro x; refine (fun (hx : ∀ s, Keeps b s → Keeps b (x s)) => ?_) ?_; (on_goal 2 => subst x); clear_value x)
    | ((try lift_lets); intro x; refine (fun (_ : Keeps b x) => ?_) ?_; (on_goal 2 => subst x); clear_value x)
    | ((try lift_lets); intro x; clear_value x)
    | intro _
    | exact rfl
    | with_reducible apply ite_keeps
    | with_reducible refine foldl_keeps ?_ _ _ (fun _ _ _ => ?_)
    | with_reducible refine foldl_snd_keeps _ ?_ _ _ (fun _ _ _ => ?_)
    | with_reducible apply State.canUnpend_keeps
    | with_reducible apply State.complete_keeps
    | with_reducible apply State.modBuf_keeps
    | with_reducible apply State.modCtl_keeps
    | with_reducible apply State.modPort_keeps
    | split
    | refine Keeps.ofSnd ?_ (by assumption)
    | refine Keeps.ofThird ?_ (by assumption)
    | refine Keeps.ofFourth ?_ (by assumption)
    | with_reducible apply hx

theorem State.seeClaim_keeps {b s : State} (h : Keeps b s) (e : Nat) (wins : Bool) : Keeps b (State.seeClaim s e wins) := by
  unfold State.seeClaim
  repeat' first
    | with_reducible assumption
    | intro _
    | exact rfl
    | with_reducible apply ite_keeps
    | with_reducible apply State.modRed_keeps

theorem State.settled_keeps {b s : State} (h : Keeps b s) : Keeps b (State.settled s) := by
  unfold State.settled
  repeat' first
    | with_reducible assumption
    | intro _
    | exact rfl
    | with_reducible apply ite_keeps
    | with_reducible apply State.recordS_keeps

theorem State.carDefaults_keeps {b s : State} (h : Keeps b s) : Keeps b (State.carDefaults s) := by
  unfold State.carDefaults
  repeat' first
    | with_reducible assumption
    | ((try lift_lets); intro x; refine (fun (_ : Keeps b x) => ?_) ?_; (on_goal 2 => subst x); clear_value x)
    | intro _
    | exact rfl
    | with_reducible apply ite_keeps
    | with_reducible apply State.modCon_keeps
    | with_reducible apply State.modMill_keeps

theorem State.settleRole_keeps {b s : State} (h : Keeps b s) (p : PairState) : Keeps b (State.settleRole s p) := by
  unfold State.settleRole
  repeat' first
    | with_reducible assumption
    | ((try lift_lets); intro x; clear_value x)
    | intro _
    | exact rfl
    | with_reducible apply ite_keeps
    | with_reducible apply State.carDefaults_keeps
    | with_reducible apply State.lead_keeps
    | with_reducible apply State.modRed_keeps
    | with_reducible apply State.setEpoch_keeps
    | with_reducible apply State.setRole_keeps
    | with_reducible apply State.settled_keeps

theorem State.takeCans_keeps {b s : State} (h : Keeps b s) (l : List (Nat × List Byte)) : Keeps b (State.takeCans s l) := by
  unfold State.takeCans
  repeat' first
    | with_reducible assumption
    | ((try lift_lets); intro x; clear_value x)
    | intro _
    | exact rfl
    | with_reducible apply ite_keeps
    | with_reducible refine foldl_keeps ?_ _ _ (fun _ _ _ => ?_)
    | with_reducible refine foldl_snd_keeps _ ?_ _ _ (fun _ _ _ => ?_)
    | with_reducible apply State.canQueue_keeps
    | with_reducible apply State.complete_keeps
    | split

theorem State.takeReports_keeps {b s : State} (h : Keeps b s) (l : List SentReport) : Keeps b (State.takeReports s l) := by
  unfold State.takeReports
  repeat' first
    | with_reducible assumption
    | intro _
    | exact rfl
    | with_reducible apply ite_keeps
    | with_reducible refine foldl_keeps ?_ _ _ (fun _ _ _ => ?_)
    | with_reducible refine foldl_snd_keeps _ ?_ _ _ (fun _ _ _ => ?_)
    | with_reducible apply State.complete_keeps

theorem State.partnerSays_keeps {b s : State} (h : Keeps b s) (p : PairState) (d : Int) : Keeps b (State.partnerSays s p d) := by
  unfold State.partnerSays
  repeat' first
    | with_reducible assumption
    | ((try lift_lets); intro x; refine (fun (_ : Keeps b x) => ?_) ?_; (on_goal 2 => subst x); clear_value x)
    | intro _
    | exact rfl
    | with_reducible apply ite_keeps
    | with_reducible refine foldl_keeps ?_ _ _ (fun _ _ _ => ?_)
    | with_reducible refine foldl_snd_keeps _ ?_ _ _ (fun _ _ _ => ?_)
    | with_reducible apply State.actTrigger_keeps
    | with_reducible apply State.modInaug_keeps
    | with_reducible apply State.modStart_keeps
    | with_reducible apply State.pend_keeps

theorem State.partnerClock_keeps {b s : State} (h : Keeps b s) (p : PairState) (d : Int) : Keeps b (State.partnerClock s p d) := by
  unfold State.partnerClock
  repeat' first
    | with_reducible assumption
    | intro _
    | exact rfl
    | with_reducible apply ite_keeps
    | with_reducible apply State.modClock_keeps
    | with_reducible apply State.set_keeps

theorem State.followPartner_keeps {b s : State} (h : Keeps b s) (p : PairState) (d : Int) : Keeps b (State.followPartner s p d) := by
  unfold State.followPartner
  repeat' first
    | with_reducible assumption
    | ((try lift_lets); intro x; refine (fun (_ : Keeps b x) => ?_) ?_; (on_goal 2 => subst x); clear_value x)
    | ((try lift_lets); intro x; clear_value x)
    | intro _
    | exact rfl
    | with_reducible apply ite_keeps
    | with_reducible apply State.enterSolo_keeps
    | with_reducible apply State.leaveSolo_keeps
    | with_reducible apply State.lineLayout_keeps
    | with_reducible apply State.loseLine_keeps
    | with_reducible apply State.modClock_keeps
    | with_reducible apply State.modStart_keeps
    | with_reducible apply State.partnerClock_keeps
    | with_reducible apply State.record_keeps
    | with_reducible apply State.set_keeps
    | with_reducible apply State.toLine_keeps

theorem State.sendEpoch_keeps {b s : State} (h : Keeps b s) (num : Nat) (swap : Bool) (e : EpochImage) : Keeps b (State.sendEpoch s num swap e) := by
  unfold State.sendEpoch
  repeat' first
    | with_reducible assumption
    | ((try lift_lets); intro x; refine (fun (_ : Keeps b x) => ?_) ?_; (on_goal 2 => subst x); clear_value x)
    | ((try lift_lets); intro x; clear_value x)
    | intro _
    | exact rfl
    | with_reducible apply ite_keeps
    | with_reducible refine foldl_keeps ?_ _ _ (fun _ _ _ => ?_)
    | with_reducible refine foldl_snd_keeps _ ?_ _ _ (fun _ _ _ => ?_)
    | with_reducible apply State.pairSend_keeps

theorem State.dropShadow_keeps {b s : State} (h : Keeps b s) : Keeps b (State.dropShadow s) := by
  unfold State.dropShadow
  repeat' first
    | with_reducible assumption
    | intro _
    | exact rfl
    | with_reducible apply ite_keeps
    | with_reducible apply State.inc_keeps
    | with_reducible apply State.modRed_keeps
    | with_reducible apply State.recordS_keeps
    | split

theorem State.restore_keeps {b s : State} (h : Keeps b s) (e : EpochImage) (at_ a : Nat) : Keeps b (State.restore s e at_ a) := by
  unfold State.restore
  repeat' first
    | with_reducible assumption
    | ((try lift_lets); intro x; refine (fun (_ : Keeps b x) => ?_) ?_; (on_goal 2 => subst x); clear_value x)
    | intro _
    | exact rfl
    | with_reducible apply ite_keeps
    | with_reducible refine foldl_keeps ?_ _ _ (fun _ _ _ => ?_)
    | with_reducible refine foldl_snd_keeps _ ?_ _ _ (fun _ _ _ => ?_)
    | with_reducible apply State.canPend_keeps
    | with_reducible apply State.modBuf_keeps
    | with_reducible apply State.modCon_keeps
    | with_reducible apply State.pend_keeps
    | with_reducible apply State.set_keeps

theorem State.commitEpoch_keeps {b s : State} (h : Keeps b s) (num : Nat) (data : List Byte) : Keeps b (State.commitEpoch s num data) := by
  unfold State.commitEpoch
  repeat' first
    | with_reducible assumption
    | ((try lift_lets); intro x; refine (fun (_ : Keeps b x) => ?_) ?_; (on_goal 2 => subst x); clear_value x)
    | ((try lift_lets); intro x; clear_value x)
    | intro _
    | exact rfl
    | with_reducible apply ite_keeps
    | with_reducible apply State.bulkStart_keeps
    | with_reducible apply State.inc_keeps
    | with_reducible apply State.modRed_keeps
    | with_reducible apply State.set_keeps

theorem State.swapJobs_keeps {b s : State} (h : Keeps b s) : Keeps b (State.swapJobs s) := by
  unfold State.swapJobs
  repeat' first
    | with_reducible assumption
    | intro _
    | exact rfl
    | with_reducible apply ite_keeps
    | with_reducible apply State.job5_keeps
    | with_reducible apply State.modCan_keeps

theorem State.takeOver_keeps {b s : State} (h : Keeps b s) (code : Nat) : Keeps b (State.takeOver s code) := by
  unfold State.takeOver
  repeat' first
    | with_reducible assumption
    | ((try lift_lets); intro x; refine (fun (_ : Keeps b x) => ?_) ?_; (on_goal 2 => subst x); clear_value x)
    | intro _
    | exact rfl
    | with_reducible apply ite_keeps
    | with_reducible apply State.carDefaults_keeps
    | with_reducible apply State.dropShadow_keeps
    | with_reducible apply State.inc_keeps
    | with_reducible apply State.lead_keeps
    | with_reducible apply State.recordS_keeps
    | with_reducible apply State.restore_keeps
    | with_reducible apply State.roleWork_keeps
    | with_reducible apply State.set_keeps
    | split
    | refine Keeps.ofSnd ?_ (by assumption)
    | refine Keeps.ofThird ?_ (by assumption)
    | refine Keeps.ofFourth ?_ (by assumption)
    | dsimp only

theorem State.sendSwap_keeps {b s : State} (h : Keeps b s) (w : Nat) : Keeps b (State.sendSwap s w) := by
  unfold State.sendSwap
  repeat' first
    | with_reducible assumption
    | intro _
    | exact rfl
    | with_reducible apply ite_keeps
    | with_reducible apply State.pairSend_keeps
    | with_reducible apply State.take_keeps

theorem State.beginSwap_keeps {b s : State} (h : Keeps b s) (w : Nat) (desc : Option (Nat × Nat × Nat)) : Keeps b (State.beginSwap s w desc) := by
  unfold State.beginSwap
  repeat' first
    | with_reducible assumption
    | intro _
    | exact rfl
    | with_reducible apply ite_keeps
    | with_reducible apply State.modRed_keeps
    | with_reducible apply State.set_keeps

theorem State.endSwap_keeps {b s : State} (h : Keeps b s) (x : Swap) (status rval : Nat) : Keeps b (State.endSwap s x status rval) := by
  unfold State.endSwap
  repeat' first
    | with_reducible assumption
    | ((try lift_lets); intro x; refine (fun (_ : Keeps b x) => ?_) ?_; (on_goal 2 => subst x); clear_value x)
    | intro _
    | exact rfl
    | with_reducible apply ite_keeps
    | with_reducible refine foldl_keeps ?_ _ _ (fun _ _ _ => ?_)
    | with_reducible refine foldl_snd_keeps _ ?_ _ _ (fun _ _ _ => ?_)
    | with_reducible apply State.canUnpark_keeps
    | with_reducible apply State.complete_keeps
    | with_reducible apply State.modRed_keeps
    | with_reducible apply State.set_keeps
    | split

theorem execPairStateSend_keeps {b s s1 : State} (h : State.Keeps b s) (e : execPairStateSend s = .next s1) : State.Keeps b s1 := by
  unfold execPairStateSend at e
  cases e
  repeat' first
    | with_reducible assumption
    | intro _
    | exact rfl
    | with_reducible apply ite_keeps
    | with_reducible apply State.emit_keeps
    | with_reducible apply State.modInaug_keeps
    | with_reducible apply State.modRed_keeps

theorem execPairStateReceive_keeps {b s s1 : State} (h : State.Keeps b s) (p : PairState) (pubs : List (Nat × List Byte)) (cans : List (Nat × List Byte)) (done : List SentReport) (e : execPairStateReceive p pubs cans done s = .next s1) : State.Keeps b s1 := by
  unfold execPairStateReceive at e
  cases e
  repeat' first
    | with_reducible assumption
    | ((try lift_lets); intro x; refine (fun (_ : Keeps b x) => ?_) ?_; (on_goal 2 => subst x); clear_value x)
    | intro _
    | exact rfl
    | with_reducible apply ite_keeps
    | with_reducible apply State.followPartner_keeps
    | with_reducible apply State.leaveSolo_keeps
    | with_reducible apply State.modRed_keeps
    | with_reducible apply State.partnerSays_keeps
    | with_reducible apply State.seeClaim_keeps
    | with_reducible apply State.set_keeps
    | with_reducible apply State.settleRole_keeps
    | with_reducible apply State.showEnds_keeps
    | with_reducible apply State.splitsFrom_keeps
    | with_reducible apply State.takeCans_keeps
    | with_reducible apply State.takePublished_keeps
    | with_reducible apply State.takeReports_keeps

theorem execRoleTimeout_keeps {b s s1 : State} (h : State.Keeps b s) (e : execRoleTimeout s = .next s1) : State.Keeps b s1 := by
  unfold execRoleTimeout at e
  cases e
  repeat' first
    | with_reducible assumption
    | intro _
    | exact rfl
    | with_reducible apply ite_keeps
    | with_reducible apply State.carDefaults_keeps
    | with_reducible apply State.lead_keeps
    | with_reducible apply State.settled_keeps
    | split

theorem execEpochSnapshot_keeps {b s s1 : State} (h : State.Keeps b s) (e : execEpochSnapshot s = .next s1) : State.Keeps b s1 := by
  unfold execEpochSnapshot at e
  cases e
  repeat' first
    | with_reducible assumption
    | intro _
    | exact rfl
    | with_reducible apply ite_keeps
    | with_reducible apply State.modRed_keeps
    | with_reducible apply State.sendEpoch_keeps
    | split

theorem execEpochChunkReceive_keeps {b s s1 : State} (h : State.Keeps b s) (num index count ccrc : Nat) (data : List Byte) (e : execEpochChunkReceive num index count ccrc data s = .next s1) : State.Keeps b s1 := by
  unfold execEpochChunkReceive at e
  cases e
  repeat' first
    | with_reducible assumption
    | ((try lift_lets); intro x; refine (fun (_ : Keeps b x) => ?_) ?_; (on_goal 2 => subst x); clear_value x)
    | intro _
    | exact rfl
    | with_reducible apply ite_keeps
    | with_reducible apply State.dropShadow_keeps
    | with_reducible apply State.inc_keeps
    | with_reducible apply State.modRed_keeps
    | split

theorem execEpochEndMarkerReceive_keeps {b s s1 : State} (h : State.Keeps b s) (num count dlen ecrc : Nat) (swap : Bool) (e : execEpochEndMarkerReceive num count dlen ecrc swap s = .next s1) : State.Keeps b s1 := by
  unfold execEpochEndMarkerReceive at e
  cases e
  repeat' first
    | with_reducible assumption
    | ((try lift_lets); intro x; refine (fun (_ : Keeps b x) => ?_) ?_; (on_goal 2 => subst x); clear_value x)
    | ((try lift_lets); intro x; clear_value x)
    | intro _
    | exact rfl
    | with_reducible apply ite_keeps
    | with_reducible apply State.commitEpoch_keeps
    | with_reducible apply State.dropShadow_keeps
    | with_reducible apply State.modRed_keeps
    | with_reducible apply State.restore_keeps
    | with_reducible apply State.swapJobs_keeps
    | with_reducible apply State.take_keeps
    | split

theorem execWitnessReceive_keeps {b s s1 : State} (h : State.Keeps b s) (sender : Nat) (body : List Byte) (e : execWitnessReceive sender body s = .next s1) : State.Keeps b s1 := by
  unfold execWitnessReceive at e
  cases e
  repeat' first
    | with_reducible assumption
    | ((try lift_lets); intro x; refine (fun (_ : Keeps b x) => ?_) ?_; (on_goal 2 => subst x); clear_value x)
    | intro _
    | exact rfl
    | with_reducible apply ite_keeps
    | with_reducible apply State.modRed_keeps
    | with_reducible apply State.seeClaim_keeps

theorem execTakeover_keeps {b s s1 : State} (h : State.Keeps b s) (e : execTakeover s = .next s1) : State.Keeps b s1 := by
  unfold execTakeover at e
  cases e
  repeat' first
    | with_reducible assumption
    | intro _
    | exact rfl
    | with_reducible apply ite_keeps
    | with_reducible apply State.takeOver_keeps
    | split

theorem execLeaderYield_keeps {b s s1 : State} (h : State.Keeps b s) (e : execLeaderYield s = .next s1) : State.Keeps b s1 := by
  unfold execLeaderYield at e
  cases e
  repeat' first
    | with_reducible assumption
    | ((try lift_lets); intro x; refine (fun (_ : Keeps b x) => ?_) ?_; (on_goal 2 => subst x); clear_value x)
    | ((try lift_lets); intro x; clear_value x)
    | intro _
    | exact rfl
    | with_reducible apply ite_keeps
    | with_reducible apply State.inc_keeps
    | with_reducible apply State.modFar_keeps
    | with_reducible apply State.modRed_keeps
    | with_reducible apply State.recordS_keeps
    | with_reducible apply State.roleWork_keeps
    | with_reducible apply State.setEpoch_keeps
    | with_reducible apply State.setRole_keeps
    | with_reducible apply State.showFar_keeps
    | split

theorem execSwapMessageReceive_keeps {b s s1 : State} (h : State.Keeps b s) (w : Nat) (e : execSwapMessageReceive w s = .next s1) : State.Keeps b s1 := by
  unfold execSwapMessageReceive at e
  cases e
  repeat' first
    | with_reducible assumption
    | intro _
    | exact rfl
    | with_reducible apply ite_keeps
    | with_reducible apply State.beginSwap_keeps

theorem execSwapEpochSnapshot_keeps {b s s1 : State} (h : State.Keeps b s) (e : execSwapEpochSnapshot s = .next s1) : State.Keeps b s1 := by
  unfold execSwapEpochSnapshot at e
  cases e
  repeat' first
    | with_reducible assumption
    | ((try lift_lets); intro x; refine (fun (_ : Keeps b x) => ?_) ?_; (on_goal 2 => subst x); clear_value x)
    | intro _
    | exact rfl
    | with_reducible apply ite_keeps
    | with_reducible refine foldl_keeps ?_ _ _ (fun _ _ _ => ?_)
    | with_reducible refine foldl_snd_keeps _ ?_ _ _ (fun _ _ _ => ?_)
    | with_reducible apply State.canPark_keeps
    | with_reducible apply State.modRed_keeps
    | with_reducible apply State.sendEpoch_keeps
    | split

theorem execSwapCommitDeadline_keeps {b s s1 : State} (h : State.Keeps b s) (committed : Bool) (e : execSwapCommitDeadline committed s = .next s1) : State.Keeps b s1 := by
  unfold execSwapCommitDeadline at e
  cases e
  repeat' first
    | with_reducible assumption
    | intro _
    | exact rfl
    | with_reducible apply ite_keeps
    | with_reducible apply State.endSwap_keeps
    | with_reducible apply State.recordS_keeps
    | with_reducible apply State.swapJobs_keeps
    | with_reducible apply State.take_keeps
    | split

theorem execSwapRoleExchange_keeps {b s s1 : State} (h : State.Keeps b s) (e : execSwapRoleExchange s = .next s1) : State.Keeps b s1 := by
  unfold execSwapRoleExchange at e
  cases e
  repeat' first
    | with_reducible assumption
    | ((try lift_lets); intro x; refine (fun (_ : Keeps b x) => ?_) ?_; (on_goal 2 => subst x); clear_value x)
    | ((try lift_lets); intro x; clear_value x)
    | intro _
    | exact rfl
    | with_reducible apply ite_keeps
    | with_reducible apply State.endSwap_keeps
    | with_reducible apply State.inc_keeps
    | with_reducible apply State.lead_keeps
    | with_reducible apply State.modFar_keeps
    | with_reducible apply State.recordS_keeps
    | with_reducible apply State.roleWork_keeps
    | with_reducible apply State.setEpoch_keeps
    | with_reducible apply State.setRole_keeps
    | with_reducible apply State.showFar_keeps
    | split

theorem State.enableQueue_keeps {b s : State} (h : Keeps b s) (t q : Nat) : Keeps b (State.enableQueue s t q) := by
  unfold State.enableQueue
  repeat' first
    | with_reducible assumption
    | ((try lift_lets); intro x; refine (fun (_ : Keeps b x) => ?_) ?_; (on_goal 2 => subst x); clear_value x)
    | ((try lift_lets); intro x; clear_value x)
    | intro _
    | exact rfl
    | with_reducible apply ite_keeps
    | with_reducible apply State.hold_keeps
    | with_reducible apply State.modQueue_keeps
    | with_reducible apply State.set_keeps
    | with_reducible apply State.showFlight_keeps
    | with_reducible apply State.showQen_keeps
    | with_reducible apply State.tnErr_keeps

theorem State.disableQueue_keeps {b s : State} (h : Keeps b s) (t q : Nat) : Keeps b (State.disableQueue s t q) := by
  unfold State.disableQueue
  repeat' first
    | with_reducible assumption
    | ((try lift_lets); intro x; refine (fun (_ : Keeps b x) => ?_) ?_; (on_goal 2 => subst x); clear_value x)
    | intro _
    | exact rfl
    | with_reducible apply ite_keeps
    | with_reducible apply State.discardQueue_keeps
    | with_reducible apply State.set_keeps
    | with_reducible apply State.showQen_keeps

theorem State.doorbell_keeps {b s : State} (h : Keeps b s) (t w : Nat) : Keeps b (State.doorbell s t w) := by
  unfold State.doorbell
  repeat' first
    | with_reducible assumption
    | ((try lift_lets); intro x; refine (fun (_ : Keeps b x) => ?_) ?_; (on_goal 2 => subst x); clear_value x)
    | ((try lift_lets); intro x; clear_value x)
    | intro _
    | exact rfl
    | with_reducible apply ite_keeps
    | with_reducible apply State.recordS_keeps
    | with_reducible apply State.set_keeps
    | with_reducible apply State.tnErr_keeps

theorem State.passTurn_keeps {b s : State} (h : Keeps b s) (t q : Nat) : Keeps b (State.passTurn s t q) := by
  unfold State.passTurn
  repeat' first
    | with_reducible assumption
    | intro _
    | exact rfl
    | with_reducible apply ite_keeps
    | with_reducible apply State.modHost_keeps

theorem State.fetchDesc_keeps {b s : State} (h : Keeps b s) (t q : Nat) (given : List Byte) : Keeps b (State.fetchDesc s t q given) := by
  unfold State.fetchDesc
  repeat' first
    | with_reducible assumption
    | ((try lift_lets); intro x; refine (fun (_ : Keeps b x) => ?_) ?_; (on_goal 2 => subst x); clear_value x)
    | ((try lift_lets); intro x; clear_value x)
    | intro _
    | exact rfl
    | with_reducible apply ite_keeps
    | with_reducible apply State.complete_keeps
    | with_reducible apply State.emit_keeps
    | with_reducible apply State.failCheck_keeps
    | with_reducible apply State.modQueue_keeps
    | with_reducible apply State.passTurn_keeps
    | with_reducible apply State.showFlight_keeps

theorem State.readStall_keeps {b s : State} (h : Keeps b s) : Keeps b (State.readStall s) := by
  unfold State.readStall
  repeat' first
    | with_reducible assumption
    | intro _
    | exact rfl
    | with_reducible apply ite_keeps
    | with_reducible apply State.inc_keeps

theorem State.takeBuf_keeps {b s : State} (h : Keeps b s) (t : Nat) (d : Desc) (given : List Byte) : Keeps b (State.takeBuf s t d given).2 := by
  unfold State.takeBuf
  repeat' first
    | with_reducible assumption
    | intro _
    | exact rfl
    | with_reducible apply ite_keeps
    | with_reducible apply ite_snd_keeps
    | with_reducible apply State.emit_keeps

theorem State.lineSend_keeps {b s : State} (h : Keeps b s) (t q i : Nat) (d : Desc) (given : List Byte) : Keeps b (State.lineSend s t q i d given) := by
  unfold State.lineSend
  repeat' first
    | with_reducible assumption
    | ((try lift_lets); intro x; clear_value x)
    | intro _
    | exact rfl
    | with_reducible apply ite_keeps
    | with_reducible apply State.complete_keeps
    | with_reducible apply State.deliverOwn_keeps
    | with_reducible apply State.failCheck_keeps
    | with_reducible apply State.lineOut_keeps
    | with_reducible apply State.makeDyn_keeps
    | with_reducible apply State.queueOwn_keeps
    | with_reducible apply State.readStall_keeps
    | with_reducible apply State.sendX_keeps
    | with_reducible apply State.startWork_keeps
    | with_reducible apply State.take_keeps
    | with_reducible apply State.takeBuf_keeps
    | split

theorem State.consistSend_keeps {b s : State} (h : Keeps b s) (t q i : Nat) (d : Desc) (given : List Byte) : Keeps b (State.consistSend s t q i d given) := by
  unfold State.consistSend
  repeat' first
    | with_reducible assumption
    | ((try lift_lets); intro x; refine (fun (_ : Keeps b x) => ?_) ?_; (on_goal 2 => subst x); clear_value x)
    | ((try lift_lets); intro x; clear_value x)
    | intro _
    | exact rfl
    | with_reducible apply ite_keeps
    | with_reducible apply State.bridge_keeps
    | with_reducible apply State.complete_keeps
    | with_reducible apply State.cpSend_keeps
    | with_reducible apply State.failCheck_keeps
    | with_reducible apply State.readStall_keeps
    | with_reducible apply State.startWork_keeps
    | with_reducible apply State.take_keeps
    | with_reducible apply State.takeBuf_keeps
    | with_reducible apply State.up_keeps
    | split

theorem State.passCan_keeps {z s : State} (h : Keeps z s) (g : Nat) (b : List Byte) : Keeps z (State.passCan s g b) := by
  unfold State.passCan
  repeat' first
    | with_reducible assumption
    | intro _
    | exact rfl
    | with_reducible apply ite_keeps
    | with_reducible apply State.emit_keeps

theorem State.canSend_keeps {b s : State} (h : Keeps b s) (t q i : Nat) (d : Desc) (given : List Byte) : Keeps b (State.canSend s t q i d given) := by
  unfold State.canSend
  repeat' first
    | with_reducible assumption
    | ((try lift_lets); intro x; refine (fun (_ : Keeps b x) => ?_) ?_; (on_goal 2 => subst x); clear_value x)
    | ((try lift_lets); intro x; clear_value x)
    | intro _
    | exact rfl
    | with_reducible apply ite_keeps
    | with_reducible apply State.canQueue_keeps
    | with_reducible apply State.complete_keeps
    | with_reducible apply State.failCheck_keeps
    | with_reducible apply State.passCan_keeps
    | with_reducible apply State.readStall_keeps
    | with_reducible apply State.startWork_keeps
    | with_reducible apply State.takeBuf_keeps
    | split
    | refine Keeps.ofSnd ?_ (by assumption)

theorem State.answer_keeps {b s : State} (h : Keeps b s) (t q i : Nat) (d : Desc) (l : List Byte) : Keeps b (State.answer s t q i d l) := by
  unfold State.answer
  repeat' first
    | with_reducible assumption
    | intro _
    | exact rfl
    | with_reducible apply ite_keeps
    | with_reducible apply State.complete_keeps
    | with_reducible apply State.memWrite_keeps

theorem State.directoryRead_keeps {b s : State} (h : Keeps b s) (t q i : Nat) (d : Desc) (l : List Byte) : Keeps b (State.directoryRead s t q i d l) := by
  unfold State.directoryRead
  repeat' first
    | with_reducible assumption
    | intro _
    | exact rfl
    | with_reducible apply ite_keeps
    | with_reducible apply State.answer_keeps
    | with_reducible apply State.failCheck_keeps

theorem execQueueEnable_keeps {b s s1 : State} (h : State.Keeps b s) (t : Fin 17) (q : Fin 16) (e : execQueueEnable t q s = .next s1) : State.Keeps b s1 := by
  unfold execQueueEnable at e
  cases e
  repeat' first
    | with_reducible assumption
    | intro _
    | exact rfl
    | with_reducible apply ite_keeps
    | with_reducible apply State.enableQueue_keeps

theorem execQueueDisable_keeps {b s s1 : State} (h : State.Keeps b s) (t : Fin 17) (q : Fin 16) (e : execQueueDisable t q s = .next s1) : State.Keeps b s1 := by
  unfold execQueueDisable at e
  cases e
  repeat' first
    | with_reducible assumption
    | intro _
    | exact rfl
    | with_reducible apply ite_keeps
    | with_reducible apply State.disableQueue_keeps

theorem execQueueStopped_keeps {b s s1 : State} (h : State.Keeps b s) (t : Fin 17) (q : Fin 16) (e : execQueueStopped t q s = .next s1) : State.Keeps b s1 := by
  unfold execQueueStopped at e
  cases e
  repeat' first
    | with_reducible assumption
    | intro _
    | exact rfl
    | with_reducible apply ite_keeps
    | with_reducible apply State.set_keeps

theorem execDoorbell_keeps {b s s1 : State} (h : State.Keeps b s) (t : Fin 17) (w : Word) (e : execDoorbell t w s = .next s1) : State.Keeps b s1 := by
  unfold execDoorbell at e
  cases e
  repeat' first
    | with_reducible assumption
    | intro _
    | exact rfl
    | with_reducible apply ite_keeps
    | with_reducible apply State.doorbell_keeps

theorem execDescriptorFetch_keeps {b s s1 : State} (h : State.Keeps b s) (t : Fin 17) (q : Fin 16) (tag : Bool) (given : List Byte) (e : execDescriptorFetch t q tag given s = .next s1) : State.Keeps b s1 := by
  unfold execDescriptorFetch at e
  cases e
  repeat' first
    | with_reducible assumption
    | intro _
    | exact rfl
    | with_reducible apply ite_keeps
    | with_reducible apply State.fetchDesc_keeps
    | with_reducible apply State.inc_keeps
    | with_reducible apply State.passTurn_keeps
    | with_reducible apply State.readStall_keeps

theorem execModerationTimer_keeps {b s s1 : State} (h : State.Keeps b s) (t : Fin 17) (q : Fin 16) (e : execModerationTimer t q s = .next s1) : State.Keeps b s1 := by
  unfold execModerationTimer at e
  cases e
  repeat' first
    | with_reducible assumption
    | ((try lift_lets); intro x; refine (fun (_ : Keeps b x) => ?_) ?_; (on_goal 2 => subst x); clear_value x)
    | intro _
    | exact rfl
    | with_reducible apply ite_keeps
    | with_reducible apply State.modQueue_keeps
    | with_reducible apply State.signal_keeps

theorem execNop_keeps {b s s1 : State} (h : State.Keeps b s) (t : Fin 17) (q : Fin 16) (i : Nat) (e : execNop t q i s = .next s1) : State.Keeps b s1 := by
  unfold execNop at e
  cases e
  repeat' first
    | with_reducible assumption
    | intro _
    | exact rfl
    | with_reducible apply ite_keeps
    | with_reducible apply State.complete_keeps
    | split

theorem execLineSend_keeps {b s s1 : State} (h : State.Keeps b s) (t : Fin 17) (q : Fin 16) (i : Nat) (data : List Byte) (e : execLineSend t q i data s = .next s1) : State.Keeps b s1 := by
  unfold execLineSend at e
  cases e
  repeat' first
    | with_reducible assumption
    | intro _
    | exact rfl
    | with_reducible apply ite_keeps
    | with_reducible apply State.lineSend_keeps
    | split

theorem execLineRecvPost_keeps {b s s1 : State} (h : State.Keeps b s) (t : Fin 17) (q : Fin 16) (i : Nat) (e : execLineRecvPost t q i s = .next s1) : State.Keeps b s1 := by
  unfold execLineRecvPost at e
  cases e
  repeat' first
    | with_reducible assumption
    | intro _
    | exact rfl
    | with_reducible apply ite_keeps
    | with_reducible apply State.failCheck_keeps
    | with_reducible apply State.fillBuffers_keeps
    | with_reducible apply State.startWork_keeps
    | split

theorem execConsistSend_keeps {b s s1 : State} (h : State.Keeps b s) (t : Fin 17) (q : Fin 16) (i : Nat) (data : List Byte) (e : execConsistSend t q i data s = .next s1) : State.Keeps b s1 := by
  unfold execConsistSend at e
  cases e
  repeat' first
    | with_reducible assumption
    | intro _
    | exact rfl
    | with_reducible apply ite_keeps
    | with_reducible apply State.consistSend_keeps
    | split

theorem execConsistRecvPost_keeps {b s s1 : State} (h : State.Keeps b s) (t : Fin 17) (q : Fin 16) (i : Nat) (e : execConsistRecvPost t q i s = .next s1) : State.Keeps b s1 := by
  unfold execConsistRecvPost at e
  cases e
  repeat' first
    | with_reducible assumption
    | intro _
    | exact rfl
    | with_reducible apply ite_keeps
    | with_reducible apply State.failCheck_keeps
    | with_reducible apply State.fillConsist_keeps
    | with_reducible apply State.startWork_keeps
    | split

theorem execCanSend_keeps {b s s1 : State} (h : State.Keeps b s) (t : Fin 17) (q : Fin 16) (i : Nat) (data : List Byte) (e : execCanSend t q i data s = .next s1) : State.Keeps b s1 := by
  unfold execCanSend at e
  cases e
  repeat' first
    | with_reducible assumption
    | intro _
    | exact rfl
    | with_reducible apply ite_keeps
    | with_reducible apply State.canSend_keeps
    | split

theorem execDirectoryRead_keeps {b s s1 : State} (h : State.Keeps b s) (t : Fin 17) (q : Fin 16) (i : Nat) (e : execDirectoryRead t q i s = .next s1) : State.Keeps b s1 := by
  unfold execDirectoryRead at e
  cases e
  repeat' first
    | with_reducible assumption
    | intro _
    | exact rfl
    | with_reducible apply ite_keeps
    | with_reducible apply State.directoryRead_keeps
    | split

theorem execUnsatisfiedRead_keeps {b s s1 : State} (h : State.Keeps b s) (t : Fin 17) (q : Fin 16) (i : Nat) (e : execUnsatisfiedRead t q i s = .next s1) : State.Keeps b s1 := by
  unfold execUnsatisfiedRead at e
  cases e
  repeat' first
    | with_reducible assumption
    | intro _
    | exact rfl
    | with_reducible apply ite_keeps
    | with_reducible apply State.directoryRead_keeps
    | split

theorem execInaugRequest_keeps {b s s1 : State} (h : State.Keeps b s) (t : Fin 17) (q : Fin 16) (i : Nat) (e : execInaugRequest t q i s = .next s1) : State.Keeps b s1 := by
  unfold execInaugRequest at e
  cases e
  repeat' first
    | with_reducible assumption
    | ((try lift_lets); intro x; refine (fun (_ : Keeps b x) => ?_) ?_; (on_goal 2 => subst x); clear_value x)
    | intro _
    | exact rfl
    | with_reducible apply ite_keeps
    | with_reducible apply State.modInaug_keeps
    | with_reducible apply State.raise_keeps
    | with_reducible apply State.releaseFallback_keeps
    | with_reducible apply State.startWork_keeps
    | split

theorem execRoleSwap_keeps {b s s1 : State} (h : State.Keeps b s) (t : Fin 17) (q : Fin 16) (i : Nat) (e : execRoleSwap t q i s = .next s1) : State.Keeps b s1 := by
  unfold execRoleSwap at e
  cases e
  repeat' first
    | with_reducible assumption
    | ((try lift_lets); intro x; clear_value x)
    | intro _
    | exact rfl
    | with_reducible apply ite_keeps
    | with_reducible apply State.beginSwap_keeps
    | with_reducible apply State.complete_keeps
    | with_reducible apply State.sendSwap_keeps
    | with_reducible apply State.startWork_keeps
    | split

end Sys2Proof.Machine
end

