-- ==== Sys2Proof/Laws/KeepsTally.lean ====
section
/-!
SUPPORT. One lemma for each operation and each command: what it keeps (State.Keeps). Here: far access, the tally book, resets, host ports and memory.
-/

namespace Sys2Proof.Machine

open State

theorem State.pfTake_keeps {b s : State} (h : Keeps b s) (uid func off len : Nat) : Keeps b (State.pfTake s uid func off len).2.2.2 := by
  unfold State.pfTake
  repeat' first
    | with_reducible assumption
    | ((try lift_lets); intro x; refine (fun (_ : Keeps b x) => ?_) ?_; (on_goal 2 => subst x); clear_value x)
    | ((try lift_lets); intro x; clear_value x)
    | intro _
    | exact rfl
    | with_reducible apply ite_keeps
    | with_reducible apply ite_snd_keeps
    | with_reducible refine foldl_keeps ?_ _ _ (fun _ _ _ => ?_)
    | with_reducible refine foldl_snd_keeps _ ?_ _ _ (fun _ _ _ => ?_)
    | with_reducible apply State.modFar_keeps
    | with_reducible apply State.pfDiscard_keeps
    | with_reducible apply State.take_keeps
    | split

theorem State.noteRead_keeps {b s : State} (h : Keeps b s) (uid func end_ : Nat) : Keeps b (State.noteRead s uid func end_) := by
  unfold State.noteRead
  repeat' first
    | with_reducible assumption
    | intro _
    | exact rfl
    | with_reducible apply ite_keeps
    | with_reducible apply State.modFar_keeps

theorem State.farRead_keeps {b s : State} (h : Keeps b s) (t q i : Nat) (d : Desc) : Keeps b (State.farRead s t q i d) := by
  unfold State.farRead
  repeat' first
    | with_reducible assumption
    | ((try lift_lets); intro x; refine (fun (_ : Keeps b x) => ?_) ?_; (on_goal 2 => subst x); clear_value x)
    | ((try lift_lets); intro x; clear_value x)
    | intro _
    | exact rfl
    | with_reducible apply ite_keeps
    | with_reducible apply State.complete_keeps
    | with_reducible apply State.failCheck_keeps
    | with_reducible apply State.memWrite_keeps
    | with_reducible apply State.modFar_keeps
    | with_reducible apply State.noteAnswered_keeps
    | with_reducible apply State.noteRead_keeps
    | with_reducible apply State.pfTake_keeps
    | with_reducible apply State.showFar_keeps
    | with_reducible apply State.startWork_keeps
    | split
    | refine Keeps.ofSnd ?_ (by assumption)
    | refine Keeps.ofThird ?_ (by assumption)
    | refine Keeps.ofFourth ?_ (by assumption)

theorem State.farWrite_keeps {b s : State} (h : Keeps b s) (t q i : Nat) (d : Desc) (given : List Byte) : Keeps b (State.farWrite s t q i d given) := by
  unfold State.farWrite
  repeat' first
    | with_reducible assumption
    | ((try lift_lets); intro x; clear_value x)
    | intro _
    | exact rfl
    | with_reducible apply ite_keeps
    | with_reducible apply State.complete_keeps
    | with_reducible apply State.failCheck_keeps
    | with_reducible apply State.modFar_keeps
    | with_reducible apply State.pfDiscardIf_keeps
    | with_reducible apply State.readStall_keeps
    | with_reducible apply State.showFar_keeps
    | with_reducible apply State.startWork_keeps
    | with_reducible apply State.takeBuf_keeps
    | split

theorem State.takeTag_keeps {b s : State} (h : Keeps b s) : Keeps b (State.takeTag s).2 := by
  unfold State.takeTag
  repeat' first
    | with_reducible assumption
    | ((try lift_lets); intro x; clear_value x)
    | intro _
    | exact rfl
    | with_reducible apply ite_keeps
    | with_reducible apply ite_snd_keeps
    | with_reducible apply State.take_keeps
    | split

theorem State.farSend_keeps {b s : State} (h : Keeps b s) (dest sel : Nat) (body : List Byte) : Keeps b (State.farSend s dest sel body) := by
  unfold State.farSend
  repeat' first
    | with_reducible assumption
    | intro _
    | exact rfl
    | with_reducible apply ite_keeps
    | with_reducible apply State.lineOut_keeps

theorem State.farEnqueue_keeps {b s : State} (h : Keeps b s) (r : FarReq) (answer : State → State) (hanswer : ∀ s, Keeps b s → Keeps b (answer s)) : Keeps b (State.farEnqueue s r answer) := by
  unfold State.farEnqueue
  repeat' first
    | with_reducible assumption
    | intro _
    | exact rfl
    | with_reducible apply ite_keeps
    | with_reducible apply State.answer_keeps
    | with_reducible apply State.inc_keeps
    | with_reducible apply State.modFar_keeps
    | with_reducible apply State.showFar_keeps
    | split
    | refine Keeps.ofSnd ?_ (by assumption)
    | refine Keeps.ofThird ?_ (by assumption)
    | refine Keeps.ofFourth ?_ (by assumption)
    | with_reducible apply hanswer

theorem State.farAnswer_keeps {b s : State} (h : Keeps b s) (x : Transfer) (m : FarMsg) (sender : Nat) : Keeps b (State.farAnswer s x m sender) := by
  unfold State.farAnswer
  repeat' first
    | with_reducible assumption
    | ((try lift_lets); intro x; refine (fun (_ : Keeps b x) => ?_) ?_; (on_goal 2 => subst x); clear_value x)
    | intro _
    | exact rfl
    | with_reducible apply ite_keeps
    | with_reducible apply State.farEnd_keeps
    | with_reducible apply State.inc_keeps
    | with_reducible apply State.memWrite_keeps
    | with_reducible apply State.noteAnswered_keeps
    | with_reducible apply State.pfKeep_keeps
    | with_reducible apply State.take_keeps
    | split

theorem State.farStart_keeps {b s : State} (h : Keeps b s) (k : Nat) : Keeps b (State.farStart s k) := by
  unfold State.farStart
  repeat' first
    | with_reducible assumption
    | ((try lift_lets); intro x; refine (fun (_ : Keeps b x) => ?_) ?_; (on_goal 2 => subst x); clear_value x)
    | ((try lift_lets); intro x; clear_value x)
    | intro _
    | exact rfl
    | with_reducible apply ite_keeps
    | with_reducible apply State.farAnswer_keeps
    | with_reducible apply State.farEnqueue_keeps
    | with_reducible apply State.farSend_keeps
    | with_reducible apply State.inc_keeps
    | with_reducible apply State.setTransfer_keeps
    | with_reducible apply State.showFar_keeps
    | with_reducible apply State.takeTag_keeps
    | split
    | refine Keeps.ofSnd ?_ (by assumption)

theorem State.farResponse_keeps {b s : State} (h : Keeps b s) (sender : Nat) (m : FarMsg) : Keeps b (State.farResponse s sender m) := by
  unfold State.farResponse
  repeat' first
    | with_reducible assumption
    | intro _
    | exact rfl
    | with_reducible apply ite_keeps
    | with_reducible apply State.farAnswer_keeps
    | with_reducible apply State.inc_keeps
    | with_reducible apply State.recordS_keeps
    | split

theorem State.exportLo_keeps {b s : State} (h : Keeps b s) (t w v : Nat) : Keeps b (State.exportLo s t w v) := by
  unfold State.exportLo
  repeat' first
    | with_reducible assumption
    | intro _
    | exact rfl
    | with_reducible apply ite_keeps
    | with_reducible apply State.set_keeps

theorem State.apWriteTlp_keeps {b s : State} (h : Keeps b s) (port off : Nat) (data : List Byte) (whole : Bool) : Keeps b (State.apWriteTlp s port off data whole) := by
  unfold State.apWriteTlp
  repeat' first
    | with_reducible assumption
    | ((try lift_lets); intro x; refine (fun (_ : Keeps b x) => ?_) ?_; (on_goal 2 => subst x); clear_value x)
    | ((try lift_lets); intro x; clear_value x)
    | intro _
    | exact rfl
    | with_reducible apply ite_keeps
    | with_reducible apply State.apDone_keeps
    | with_reducible apply State.apError_keeps
    | with_reducible apply State.modFar_keeps
    | with_reducible apply State.pfDiscardIf_keeps
    | with_reducible apply State.set_keeps
    | with_reducible apply State.showFar_keeps
    | split
    | refine Keeps.ofSnd ?_ (by assumption)
    | refine Keeps.ofThird ?_ (by assumption)
    | refine Keeps.ofFourth ?_ (by assumption)
    | dsimp only

theorem State.apReadTlp_keeps {b s : State} (h : Keeps b s) (port off len : Nat) : Keeps b (State.apReadTlp s port off len) := by
  unfold State.apReadTlp
  repeat' first
    | with_reducible assumption
    | ((try lift_lets); intro x; clear_value x)
    | intro _
    | exact rfl
    | with_reducible apply ite_keeps
    | with_reducible apply State.apError_keeps
    | with_reducible apply State.emit_keeps
    | with_reducible apply State.modFar_keeps
    | with_reducible apply State.noteAnswered_keeps
    | with_reducible apply State.noteRead_keeps
    | with_reducible apply State.pfTake_keeps
    | with_reducible apply State.showFar_keeps
    | with_reducible apply State.up_keeps
    | split
    | refine Keeps.ofSnd ?_ (by assumption)
    | refine Keeps.ofThird ?_ (by assumption)
    | refine Keeps.ofFourth ?_ (by assumption)
    | dsimp only

theorem State.apPop_keeps {b s : State} (h : Keeps b s) (port : Nat) : Keeps b (State.apPop s port).2 := by
  unfold State.apPop
  repeat' first
    | with_reducible assumption
    | ((try lift_lets); intro x; refine (fun (_ : Keeps b x) => ?_) ?_; (on_goal 2 => subst x); clear_value x)
    | ((try lift_lets); intro x; clear_value x)
    | intro _
    | exact rfl
    | with_reducible apply ite_keeps
    | with_reducible apply ite_snd_keeps
    | with_reducible apply State.modFar_keeps
    | with_reducible apply State.showApErr_keeps
    | split

theorem execFarRead_keeps {b s s1 : State} (h : State.Keeps b s) (t : Fin 17) (q : Fin 16) (i : Nat) (e : execFarRead t q i s = .next s1) : State.Keeps b s1 := by
  unfold execFarRead at e
  cases e
  repeat' first
    | with_reducible assumption
    | intro _
    | exact rfl
    | with_reducible apply ite_keeps
    | with_reducible apply State.farRead_keeps
    | split

theorem execFarWrite_keeps {b s s1 : State} (h : State.Keeps b s) (t : Fin 17) (q : Fin 16) (i : Nat) (data : List Byte) (e : execFarWrite t q i data s = .next s1) : State.Keeps b s1 := by
  unfold execFarWrite at e
  cases e
  repeat' first
    | with_reducible assumption
    | intro _
    | exact rfl
    | with_reducible apply ite_keeps
    | with_reducible apply State.farWrite_keeps
    | split

theorem execFarTransferStart_keeps {b s s1 : State} (h : State.Keeps b s) (k : Nat) (e : execFarTransferStart k s = .next s1) : State.Keeps b s1 := by
  unfold execFarTransferStart at e
  cases e
  repeat' first
    | with_reducible assumption
    | intro _
    | exact rfl
    | with_reducible apply ite_keeps
    | with_reducible apply State.farStart_keeps

theorem execFarRequestReceive_keeps {b s s1 : State} (h : State.Keeps b s) (sender : Nat) (body : List Byte) (e : execFarRequestReceive sender body s = .next s1) : State.Keeps b s1 := by
  unfold execFarRequestReceive at e
  cases e
  repeat' first
    | with_reducible assumption
    | intro _
    | exact rfl
    | with_reducible apply ite_keeps
    | with_reducible apply State.farEnqueue_keeps
    | with_reducible apply State.farSend_keeps

theorem execFarResponseReceive_keeps {b s s1 : State} (h : State.Keeps b s) (sender : Nat) (body : List Byte) (e : execFarResponseReceive sender body s = .next s1) : State.Keeps b s1 := by
  unfold execFarResponseReceive at e
  cases e
  repeat' first
    | with_reducible assumption
    | intro _
    | exact rfl
    | with_reducible apply ite_keeps
    | with_reducible apply State.farResponse_keeps

theorem execFarTransferTimeout_keeps {b s s1 : State} (h : State.Keeps b s) (k : Nat) (e : execFarTransferTimeout k s = .next s1) : State.Keeps b s1 := by
  unfold execFarTransferTimeout at e
  cases e
  repeat' first
    | with_reducible assumption
    | ((try lift_lets); intro x; refine (fun (_ : Keeps b x) => ?_) ?_; (on_goal 2 => subst x); clear_value x)
    | intro _
    | exact rfl
    | with_reducible apply ite_keeps
    | with_reducible apply State.farEnd_keeps
    | with_reducible apply State.inc_keeps
    | with_reducible apply State.recordS_keeps
    | split

theorem execPrefetchExpiry_keeps {b s s1 : State} (h : State.Keeps b s) (i : Fin 16) (e : execPrefetchExpiry i s = .next s1) : State.Keeps b s1 := by
  unfold execPrefetchExpiry at e
  cases e
  repeat' first
    | with_reducible assumption
    | intro _
    | exact rfl
    | with_reducible apply ite_keeps
    | with_reducible apply State.pfDiscard_keeps
    | split

theorem execExportRegion_keeps {b s s1 : State} (h : State.Keeps b s) (t : Fin 17) (w : Fin 16) (v : Word) (e : execExportRegion t w v s = .next s1) : State.Keeps b s1 := by
  unfold execExportRegion at e
  cases e
  repeat' first
    | with_reducible assumption
    | intro _
    | exact rfl
    | with_reducible apply ite_keeps
    | with_reducible apply State.exportLo_keeps

theorem execApertureWrite_keeps {b s s1 : State} (h : State.Keeps b s) (port : Fin 2) (off : Nat) (data : List Byte) (whole : Bool) (e : execApertureWrite port off data whole s = .next s1) : State.Keeps b s1 := by
  unfold execApertureWrite at e
  cases e
  repeat' first
    | with_reducible assumption
    | intro _
    | exact rfl
    | with_reducible apply ite_keeps
    | with_reducible apply State.apWriteTlp_keeps

theorem execApertureRead_keeps {b s s1 : State} (h : State.Keeps b s) (port : Fin 2) (off : Nat) (len : Fin 513) (e : execApertureRead port off len s = .next s1) : State.Keeps b s1 := by
  unfold execApertureRead at e
  cases e
  repeat' first
    | with_reducible assumption
    | intro _
    | exact rfl
    | with_reducible apply ite_keeps
    | with_reducible apply State.apReadTlp_keeps

theorem execApertureReadTimeout_keeps {b s s1 : State} (h : State.Keeps b s) (k : Nat) (e : execApertureReadTimeout k s = .next s1) : State.Keeps b s1 := by
  unfold execApertureReadTimeout at e
  cases e
  repeat' first
    | with_reducible assumption
    | intro _
    | exact rfl
    | with_reducible apply ite_keeps
    | with_reducible apply State.farEnd_keeps
    | split

theorem execApertureErrorPop_keeps {b s s1 : State} (h : State.Keeps b s) (port : Fin 2) (e : execApertureErrorPop port s = .next s1) : State.Keeps b s1 := by
  unfold execApertureErrorPop at e
  cases e
  repeat' first
    | with_reducible assumption
    | intro _
    | exact rfl
    | with_reducible apply ite_keeps
    | with_reducible apply State.apPop_keeps
    | with_reducible apply State.emit_keeps

theorem State.overflowRecords_keeps {b s : State} (h : Keeps b s) : Keeps b (State.overflowRecords s) := by
  unfold State.overflowRecords
  repeat' first
    | with_reducible assumption
    | intro _
    | exact rfl
    | with_reducible apply ite_keeps
    | with_reducible refine foldl_keeps ?_ _ _ (fun _ _ _ => ?_)
    | with_reducible refine foldl_snd_keeps _ ?_ _ _ (fun _ _ _ => ?_)
    | ((with_reducible apply State.modTally_keeps); on_goal 2 => exact fun _ h => h)
    | with_reducible apply State.modTally_keeps
    | with_reducible apply State.recordT_keeps

theorem State.sluiceGain_keeps {b s : State} (h : Keeps b s) (k : Nat) : Keeps b (State.sluiceGain s k) := by
  unfold State.sluiceGain
  repeat' first
    | with_reducible assumption
    | ((try lift_lets); intro x; refine (fun (hx : ∀ s y0, Keeps b s → Keeps b (x s y0)) => ?_) ?_; (on_goal 2 => subst x); clear_value x)
    | ((try lift_lets); intro x; refine (fun (_ : Keeps b x) => ?_) ?_; (on_goal 2 => subst x); clear_value x)
    | ((try lift_lets); intro x; clear_value x)
    | intro _
    | exact rfl
    | with_reducible apply ite_keeps
    | with_reducible apply State.enqueue_keeps
    | ((with_reducible apply State.modTally_keeps); on_goal 2 => exact fun _ h => h)
    | with_reducible apply State.modTally_keeps
    | with_reducible apply State.set_keeps
    | split
    | refine Keeps.ofSnd ?_ (by assumption)
    | refine Keeps.ofThird ?_ (by assumption)
    | refine Keeps.ofFourth ?_ (by assumption)
    | with_reducible apply hx

theorem State.sluiceTick_keeps {b s : State} (h : Keeps b s) : Keeps b (State.sluiceTick s) := by
  unfold State.sluiceTick
  repeat' first
    | with_reducible assumption
    | intro _
    | exact rfl
    | with_reducible apply ite_keeps
    | with_reducible refine foldl_keeps ?_ _ _ (fun _ _ _ => ?_)
    | with_reducible refine foldl_snd_keeps _ ?_ _ _ (fun _ _ _ => ?_)
    | with_reducible apply State.sluiceGain_keeps

theorem State.anchorTick_keeps {b s : State} (h : Keeps b s) : Keeps b (State.anchorTick s) := by
  unfold State.anchorTick
  repeat' first
    | with_reducible assumption
    | ((try lift_lets); intro x; clear_value x)
    | intro _
    | exact rfl
    | with_reducible apply ite_keeps
    | with_reducible apply State.anchor_keeps
    | ((with_reducible apply State.modTally_keeps); on_goal 2 => exact fun _ h => h)

theorem State.writeUtc_keeps {b s : State} (h : Keeps b s) (valid : Bool) (offset : Nat) : Keeps b (State.writeUtc s valid offset) := by
  unfold State.writeUtc
  repeat' first
    | with_reducible assumption
    | ((try lift_lets); intro x; refine (fun (_ : Keeps b x) => ?_) ?_; (on_goal 2 => subst x); clear_value x)
    | intro _
    | exact rfl
    | with_reducible apply ite_keeps
    | with_reducible apply State.anchor_keeps
    | with_reducible apply State.flag_keeps
    | ((with_reducible apply State.modTally_keeps); on_goal 2 => exact fun _ h => h)
    | with_reducible apply State.modTally_keeps
    | with_reducible apply State.set_keeps

theorem State.tallyRead_keeps {b s : State} (h : Keeps b s) (t q i : Nat) (d : Desc) (bad : List (Nat × Nat)) : Keeps b (State.tallyRead s t q i d bad) := by
  unfold State.tallyRead
  repeat' first
    | with_reducible assumption
    | ((try lift_lets); intro x; refine (fun (_ : Keeps b x) => ?_) ?_; (on_goal 2 => subst x); clear_value x)
    | ((try lift_lets); intro x; clear_value x)
    | intro _
    | exact rfl
    | with_reducible apply ite_keeps
    | with_reducible apply State.complete_keeps
    | with_reducible apply State.degrade_keeps
    | with_reducible apply State.failCheck_keeps
    | with_reducible apply State.memWrite_keeps
    | with_reducible apply State.take_keeps
    | split
    | refine Keeps.ofSnd ?_ (by assumption)

theorem State.tallyMark_keeps {b s : State} (h : Keeps b s) (t q i : Nat) (d : Desc) : Keeps b (State.tallyMark s t q i d) := by
  unfold State.tallyMark
  repeat' first
    | with_reducible assumption
    | ((try lift_lets); intro x; refine (fun (_ : Keeps b x) => ?_) ?_; (on_goal 2 => subst x); clear_value x)
    | ((try lift_lets); intro x; clear_value x)
    | intro _
    | exact rfl
    | with_reducible apply ite_keeps
    | with_reducible apply State.complete_keeps
    | with_reducible apply State.failCheck_keeps
    | with_reducible apply State.sluiced_keeps

theorem State.dropNonce_keeps {b s : State} (h : Keeps b s) (t : Nat) : Keeps b (State.dropNonce s t) := by
  unfold State.dropNonce
  repeat' first
    | with_reducible assumption
    | intro _
    | exact rfl
    | with_reducible apply ite_keeps
    | ((with_reducible apply State.modTally_keeps); on_goal 2 => exact fun _ h => h)
    | with_reducible apply State.modTally_keeps
    | with_reducible apply State.set_keeps

theorem State.newNonce_keeps {b s : State} (h : Keeps b s) (t : Nat) : Keeps b (State.newNonce s t) := by
  unfold State.newNonce
  repeat' first
    | with_reducible assumption
    | intro _
    | exact rfl
    | with_reducible apply ite_keeps
    | with_reducible refine foldl_keeps ?_ _ _ (fun _ _ _ => ?_)
    | with_reducible refine foldl_snd_keeps _ ?_ _ _ (fun _ _ _ => ?_)
    | ((with_reducible apply State.modTally_keeps); on_goal 2 => exact fun _ h => h)
    | with_reducible apply State.modTally_keeps
    | with_reducible apply State.set_keeps
    | with_reducible apply State.takeRandom_keeps

theorem State.tallyClear_keeps {b s : State} (h : Keeps b s) (t q i : Nat) (d : Desc) (data : List Byte) (sig : Bool) : Keeps b (State.tallyClear s t q i d data sig) := by
  unfold State.tallyClear
  repeat' first
    | with_reducible assumption
    | ((try lift_lets); intro x; refine (fun (_ : Keeps b x) => ?_) ?_; (on_goal 2 => subst x); clear_value x)
    | ((try lift_lets); intro x; clear_value x)
    | intro _
    | exact rfl
    | with_reducible apply ite_keeps
    | with_reducible apply State.complete_keeps
    | with_reducible apply State.dropNonce_keeps
    | with_reducible apply State.failCheck_keeps
    | with_reducible apply State.inc_keeps
    | ((with_reducible apply State.modTally_keeps); on_goal 2 => exact fun _ h => h)
    | with_reducible apply State.modTally_keeps
    | with_reducible apply State.readStall_keeps
    | with_reducible apply State.recordT_keeps
    | with_reducible apply State.startWork_keeps
    | with_reducible apply State.takeBuf_keeps
    | split
    | refine Keeps.ofSnd ?_ (by assumption)

theorem State.eraseRetired_keeps {b s : State} (h : Keeps b s) : Keeps b (State.eraseRetired s) := by
  unfold State.eraseRetired
  repeat' first
    | with_reducible assumption
    | ((try lift_lets); intro x; refine (fun (_ : Keeps b x) => ?_) ?_; (on_goal 2 => subst x); clear_value x)
    | ((try lift_lets); intro x; clear_value x)
    | intro _
    | exact rfl
    | with_reducible apply ite_keeps
    | ((with_reducible apply State.modTally_keeps); on_goal 2 => exact fun x hx => ⟨Nat.le_trans (List.length_filter_le _ _) hx.1, hx.2.1, hx.2.2⟩)
    | with_reducible apply State.modTally_keeps
    | with_reducible apply State.recordT_keeps
    | with_reducible apply State.set_keeps
    | with_reducible apply State.showPerm_keeps
    | with_reducible apply State.showTally_keeps
    | with_reducible apply State.writePtr_keeps

theorem execPointerPersist_keeps {b s s1 : State} (h : State.Keeps b s) (fail : Option Nat) (e : execPointerPersist fail s = .next s1) : State.Keeps b s1 := by
  unfold execPointerPersist at e
  cases e
  repeat' first
    | with_reducible assumption
    | intro _
    | exact rfl
    | with_reducible apply ite_keeps
    | ((with_reducible apply State.modTally_keeps); on_goal 2 => exact fun _ h => h)
    | with_reducible apply State.modTally_keeps
    | with_reducible apply State.mramWrite_keeps

theorem execAnchorPeriodic_keeps {b s s1 : State} (h : State.Keeps b s) (e : execAnchorPeriodic s = .next s1) : State.Keeps b s1 := by
  unfold execAnchorPeriodic at e
  cases e
  repeat' first
    | with_reducible assumption
    | intro _
    | exact rfl
    | with_reducible apply ite_keeps
    | with_reducible apply State.anchorTick_keeps

theorem execTallyRead_keeps {b s s1 : State} (h : State.Keeps b s) (t : Fin 17) (q : Fin 16) (i : Nat) (bad : List (Nat × Nat)) (e : execTallyRead t q i bad s = .next s1) : State.Keeps b s1 := by
  unfold execTallyRead at e
  cases e
  repeat' first
    | with_reducible assumption
    | intro _
    | exact rfl
    | with_reducible apply ite_keeps
    | with_reducible apply State.tallyRead_keeps
    | split

theorem execTallyMark_keeps {b s s1 : State} (h : State.Keeps b s) (t : Fin 17) (q : Fin 16) (i : Nat) (e : execTallyMark t q i s = .next s1) : State.Keeps b s1 := by
  unfold execTallyMark at e
  cases e
  repeat' first
    | with_reducible assumption
    | intro _
    | exact rfl
    | with_reducible apply ite_keeps
    | with_reducible apply State.tallyMark_keeps
    | split

theorem execTallyClear_keeps {b s s1 : State} (h : State.Keeps b s) (t : Fin 17) (q : Fin 16) (i : Nat) (data : List Byte) (sig : Bool) (e : execTallyClear t q i data sig s = .next s1) : State.Keeps b s1 := by
  unfold execTallyClear at e
  cases e
  repeat' first
    | with_reducible assumption
    | intro _
    | exact rfl
    | with_reducible apply ite_keeps
    | with_reducible apply State.tallyClear_keeps
    | split

theorem execOverflowRecord_keeps {b s s1 : State} (h : State.Keeps b s) (e : execOverflowRecord s = .next s1) : State.Keeps b s1 := by
  unfold execOverflowRecord at e
  cases e
  repeat' first
    | with_reducible assumption
    | intro _
    | exact rfl
    | with_reducible apply ite_keeps
    | with_reducible apply State.overflowRecords_keeps

theorem execUtcWrite_keeps {b s s1 : State} (h : State.Keeps b s) (port : Fin 2) (valid : Bool) (offset : Fin 65536) (e : execUtcWrite port valid offset s = .next s1) : State.Keeps b s1 := by
  unfold execUtcWrite at e
  cases e
  repeat' first
    | with_reducible assumption
    | intro _
    | exact rfl
    | with_reducible apply ite_keeps
    | with_reducible apply State.writeUtc_keeps

theorem execClearNonceNew_keeps {b s s1 : State} (h : State.Keeps b s) (t : Fin 17) (e : execClearNonceNew t s = .next s1) : State.Keeps b s1 := by
  unfold execClearNonceNew at e
  cases e
  repeat' first
    | with_reducible assumption
    | intro _
    | exact rfl
    | with_reducible apply ite_keeps
    | with_reducible apply State.newNonce_keeps

theorem execClearNonceExpiry_keeps {b s s1 : State} (h : State.Keeps b s) (t : Fin 17) (e : execClearNonceExpiry t s = .next s1) : State.Keeps b s1 := by
  unfold execClearNonceExpiry at e
  cases e
  repeat' first
    | with_reducible assumption
    | intro _
    | exact rfl
    | with_reducible apply ite_keeps
    | with_reducible apply State.dropNonce_keeps
    | split

theorem State.reset_sorted : Sparse.sorted State.reset.regs = true := by decide +kernel

theorem State.partsReset_keeps {b o : State} (h : Keeps b o) : Keeps b o.partsReset :=
  h.trans ⟨rfl, ⟨[], rfl⟩, fun _ => State.reset_sorted, fun _ => rfl,
    fun x => ⟨Nat.zero_le _, x.2.1, x.2.2⟩, Nat.le_refl _, Nat.le_refl _⟩

theorem State.afterReset_keeps {b o : State} (h : Keeps b o) : Keeps b (State.afterReset o) := by
  unfold State.afterReset
  repeat' first
    | with_reducible assumption
    | ((try lift_lets); intro x; refine (fun (_ : Keeps b x) => ?_) ?_; (on_goal 2 => subst x); clear_value x)
    | ((try lift_lets); intro x; clear_value x)
    | intro _
    | exact rfl
    | with_reducible apply ite_keeps
    | with_reducible refine foldl_keeps ?_ _ _ (fun _ _ _ => ?_)
    | with_reducible refine foldl_snd_keeps _ ?_ _ _ (fun _ _ _ => ?_)
    | with_reducible apply State.flag_keeps
    | with_reducible apply State.nextSeq_keeps
    | with_reducible apply State.partsReset_keeps
    | with_reducible apply State.set_keeps
    | with_reducible apply State.showLuid_keeps
    | with_reducible apply State.showPerm_keeps
    | split

theorem State.fullReset_keeps {b s : State} (h : Keeps b s) (cause : List Fld) : Keeps b (State.fullReset s cause) := by
  unfold State.fullReset
  repeat' first
    | with_reducible assumption
    | ((try lift_lets); intro x; refine (fun (_ : Keeps b x) => ?_) ?_; (on_goal 2 => subst x); clear_value x)
    | intro _
    | exact rfl
    | with_reducible apply ite_keeps
    | with_reducible refine foldl_keeps ?_ _ _ (fun _ _ _ => ?_)
    | with_reducible refine foldl_snd_keeps _ ?_ _ _ (fun _ _ _ => ?_)
    | with_reducible apply State.afterReset_keeps
    | with_reducible apply State.cutFrames_keeps
    | with_reducible apply State.set_keeps
    | split
    | refine Keeps.ofSnd ?_ (by assumption)
    | refine Keeps.ofThird ?_ (by assumption)
    | refine Keeps.ofFourth ?_ (by assumption)
    | (apply Keeps.other (by assumption) <;> rfl)

theorem State.flushCut_keeps {b s : State} (h : Keeps b s) : Keeps b (State.flushCut s) := by
  unfold State.flushCut
  repeat' first
    | with_reducible assumption
    | intro _
    | exact rfl
    | with_reducible apply ite_keeps
    | with_reducible apply State.modJob_keeps
    | ((with_reducible apply State.modTally_keeps); on_goal 2 => exact fun _ h => h)

theorem State.fwRestart_keeps {b s : State} (h : Keeps b s) (cause : FwCause) (bank : Option Nat) : Keeps b (State.fwRestart s cause bank) := by
  unfold State.fwRestart
  repeat' first
    | with_reducible assumption
    | ((try lift_lets); intro x; refine (fun (_ : Keeps b x) => ?_) ?_; (on_goal 2 => subst x); clear_value x)
    | intro _
    | exact rfl
    | with_reducible apply ite_keeps
    | with_reducible apply State.flushCut_keeps
    | with_reducible apply State.fullReset_keeps
    | with_reducible apply State.inc_keeps
    | with_reducible apply State.modBoot_keeps
    | with_reducible apply State.modConf_keeps
    | with_reducible apply State.set_keeps

theorem State.lockstep_keeps {b s : State} (h : Keeps b s) (i : Nat) : Keeps b (State.lockstep s i) := by
  unfold State.lockstep
  repeat' first
    | with_reducible assumption
    | ((try lift_lets); intro x; refine (fun (_ : Keeps b x) => ?_) ?_; (on_goal 2 => subst x); clear_value x)
    | intro _
    | exact rfl
    | with_reducible apply ite_keeps
    | with_reducible apply State.flushCut_keeps
    | with_reducible apply State.fwRestart_keeps
    | with_reducible apply State.inc_keeps
    | with_reducible apply State.modBoot_keeps
    | with_reducible apply State.recordT_keeps
    | with_reducible apply State.set_keeps
    | with_reducible apply State.when_keeps

theorem execResetNLow_keeps {b s s1 : State} (h : State.Keeps b s) (e : execResetNLow s = .next s1) : State.Keeps b s1 := by
  unfold execResetNLow at e
  cases e
  repeat' first
    | with_reducible assumption
    | intro _
    | exact rfl
    | with_reducible apply ite_keeps
    | with_reducible apply State.fullReset_keeps

theorem execNodeRefLost_keeps {b s s1 : State} (h : State.Keeps b s) (e : execNodeRefLost s = .next s1) : State.Keeps b s1 := by
  unfold execNodeRefLost at e
  cases e
  repeat' first
    | with_reducible assumption
    | intro _
    | exact rfl
    | with_reducible apply ite_keeps
    | with_reducible apply State.fullReset_keeps

theorem execFatalFault_keeps {b s s1 : State} (h : State.Keeps b s) (e : execFatalFault s = .next s1) : State.Keeps b s1 := by
  unfold execFatalFault at e
  cases e
  repeat' first
    | with_reducible assumption
    | intro _
    | exact rfl
    | with_reducible apply ite_keeps
    | with_reducible apply State.fullReset_keeps

theorem execResetEscalation_keeps {b s s1 : State} (h : State.Keeps b s) (e : execResetEscalation s = .next s1) : State.Keeps b s1 := by
  unfold execResetEscalation at e
  cases e
  repeat' first
    | with_reducible assumption
    | intro _
    | exact rfl
    | with_reducible apply ite_keeps
    | with_reducible apply State.fullReset_keeps

theorem execRstCmdFullReset_keeps {b s s1 : State} (h : State.Keeps b s) (port : Fin 2) (e : execRstCmdFullReset port s = .next s1) : State.Keeps b s1 := by
  unfold execRstCmdFullReset at e
  cases e
  repeat' first
    | with_reducible assumption
    | intro _
    | exact rfl
    | with_reducible apply ite_keeps
    | with_reducible apply State.fullReset_keeps

theorem execRstCmdFwRestart_keeps {b s s1 : State} (h : State.Keeps b s) (port : Fin 2) (e : execRstCmdFwRestart port s = .next s1) : State.Keeps b s1 := by
  unfold execRstCmdFwRestart at e
  cases e
  repeat' first
    | with_reducible assumption
    | intro _
    | exact rfl
    | with_reducible apply ite_keeps
    | with_reducible apply State.fwRestart_keeps

theorem execFwWatchdogExpiry_keeps {b s s1 : State} (h : State.Keeps b s) (e : execFwWatchdogExpiry s = .next s1) : State.Keeps b s1 := by
  unfold execFwWatchdogExpiry at e
  cases e
  repeat' first
    | with_reducible assumption
    | intro _
    | exact rfl
    | with_reducible apply ite_keeps
    | with_reducible apply State.fwRestart_keeps

theorem execFwException_keeps {b s s1 : State} (h : State.Keeps b s) (e : execFwException s = .next s1) : State.Keeps b s1 := by
  unfold execFwException at e
  cases e
  repeat' first
    | with_reducible assumption
    | intro _
    | exact rfl
    | with_reducible apply ite_keeps
    | with_reducible apply State.fwRestart_keeps

theorem execLockstepMismatch_keeps {b s s1 : State} (h : State.Keeps b s) (i : Fin 2) (e : execLockstepMismatch i s = .next s1) : State.Keeps b s1 := by
  unfold execLockstepMismatch at e
  cases e
  repeat' first
    | with_reducible assumption
    | intro _
    | exact rfl
    | with_reducible apply ite_keeps
    | with_reducible apply State.lockstep_keeps

theorem execLockstepRestartDone_keeps {b s s1 : State} (h : State.Keeps b s) (i : Fin 2) (e : execLockstepRestartDone i s = .next s1) : State.Keeps b s1 := by
  unfold execLockstepRestartDone at e
  cases e
  repeat' first
    | with_reducible assumption
    | intro _
    | exact rfl
    | with_reducible apply ite_keeps
    | with_reducible apply State.modBoot_keeps

theorem execResetOutRelease_keeps {b s s1 : State} (h : State.Keeps b s) (e : execResetOutRelease s = .next s1) : State.Keeps b s1 := by
  unfold execResetOutRelease at e
  cases e
  repeat' first
    | with_reducible assumption
    | intro _
    | exact rfl
    | with_reducible apply ite_keeps
    | with_reducible apply State.modPins_keeps

theorem execLineKeepaliveLoss_keeps {b s s1 : State} (h : State.Keeps b s) (e : execLineKeepaliveLoss s = .next s1) : State.Keeps b s1 := by
  unfold execLineKeepaliveLoss at e
  cases e
  repeat' first
    | with_reducible assumption
    | intro _
    | exact rfl
    | with_reducible apply ite_keeps
    | with_reducible apply State.modPins_keeps
    | with_reducible apply State.relays_keeps

theorem State.clearRegs_keeps {b s : State} (h : Keeps b s) (from_ to_ : Nat) (keep : Nat → Bool) : Keeps b (State.clearRegs s from_ to_ keep) :=
  h.trans ⟨rfl, ⟨[], rfl⟩, Sparse.sorted_filter _, id, id, Nat.le_refl _, Nat.le_refl _⟩

theorem State.resetAperture_keeps {b s : State} (h : Keeps b s) (port : Nat) : Keeps b (State.resetAperture s port) := by
  unfold State.resetAperture
  repeat' first
    | with_reducible assumption
    | ((try lift_lets); intro x; refine (fun (_ : Keeps b x) => ?_) ?_; (on_goal 2 => subst x); clear_value x)
    | intro _
    | exact rfl
    | with_reducible apply ite_keeps
    | with_reducible apply State.clearRegs_keeps
    | with_reducible apply State.modFar_keeps
    | with_reducible apply State.showFar_keeps

theorem State.clearTenant_keeps {b s : State} (h : Keeps b s) (t : Nat) : Keeps b (State.clearTenant s t) := by
  unfold State.clearTenant
  repeat' first
    | with_reducible assumption
    | ((try lift_lets); intro x; refine (fun (_ : Keeps b x) => ?_) ?_; (on_goal 2 => subst x); clear_value x)
    | intro _
    | exact rfl
    | with_reducible apply ite_keeps
    | with_reducible refine foldl_keeps ?_ _ _ (fun _ _ _ => ?_)
    | with_reducible refine foldl_snd_keeps _ ?_ _ _ (fun _ _ _ => ?_)
    | with_reducible apply State.clearRegs_keeps
    | with_reducible apply State.discardQueue_keeps
    | with_reducible apply State.dropNonce_keeps
    | with_reducible apply State.flag_keeps
    | with_reducible apply State.modHost_keeps
    | with_reducible apply State.resetAperture_keeps
    | with_reducible apply State.set_keeps
    | with_reducible apply State.showReads_keeps

theorem State.tenantReset_keeps {b s : State} (h : Keeps b s) (t why : Nat) : Keeps b (State.tenantReset s t why) := by
  unfold State.tenantReset
  repeat' first
    | with_reducible assumption
    | intro _
    | exact rfl
    | with_reducible apply ite_keeps
    | with_reducible apply State.clearTenant_keeps
    | with_reducible apply State.recordS_keeps

theorem State.setVfs_keeps {b s : State} (h : Keeps b s) (port n why : Nat) : Keeps b (State.setVfs s port n why) := by
  unfold State.setVfs
  repeat' first
    | with_reducible assumption
    | ((try lift_lets); intro x; refine (fun (_ : Keeps b x) => ?_) ?_; (on_goal 2 => subst x); clear_value x)
    | ((try lift_lets); intro x; clear_value x)
    | intro _
    | exact rfl
    | with_reducible apply ite_keeps
    | with_reducible refine foldl_keeps ?_ _ _ (fun _ _ _ => ?_)
    | with_reducible refine foldl_snd_keeps _ ?_ _ _ (fun _ _ _ => ?_)
    | with_reducible apply State.set_keeps
    | with_reducible apply State.tenantReset_keeps

theorem State.portDown_keeps {b s : State} (h : Keeps b s) (port why : Nat) : Keeps b (State.portDown s port why) := by
  unfold State.portDown
  repeat' first
    | with_reducible assumption
    | ((try lift_lets); intro x; refine (fun (_ : Keeps b x) => ?_) ?_; (on_goal 2 => subst x); clear_value x)
    | intro _
    | exact rfl
    | with_reducible apply ite_keeps
    | with_reducible apply State.modHost_keeps
    | with_reducible apply State.modJob_keeps
    | with_reducible apply State.recordS_keeps
    | with_reducible apply State.set_keeps
    | with_reducible apply State.setVfs_keeps
    | with_reducible apply State.tenantReset_keeps
    | split
    | refine Keeps.ofSnd ?_ (by assumption)
    | refine Keeps.ofThird ?_ (by assumption)
    | refine Keeps.ofFourth ?_ (by assumption)
    | (apply Keeps.other (by assumption) <;> rfl)

theorem State.flr_keeps {b s : State} (h : Keeps b s) (t why : Nat) : Keeps b (State.flr s t why) := by
  unfold State.flr
  repeat' first
    | with_reducible assumption
    | intro _
    | exact rfl
    | with_reducible apply ite_keeps
    | with_reducible apply State.setVfs_keeps
    | with_reducible apply State.tenantReset_keeps

theorem State.writeVfs_keeps {b s : State} (h : Keeps b s) (port n : Nat) : Keeps b (State.writeVfs s port n) := by
  unfold State.writeVfs
  repeat' first
    | with_reducible assumption
    | intro _
    | exact rfl
    | with_reducible apply ite_keeps
    | with_reducible apply State.modHost_keeps
    | with_reducible apply State.setVfs_keeps

theorem State.applyVfs_keeps {b s : State} (h : Keeps b s) : Keeps b (State.applyVfs s) := by
  unfold State.applyVfs
  repeat' first
    | with_reducible assumption
    | ((try lift_lets); intro x; clear_value x)
    | intro _
    | exact rfl
    | with_reducible apply ite_keeps
    | with_reducible refine foldl_keeps ?_ _ _ (fun _ _ _ => ?_)
    | with_reducible refine foldl_snd_keeps _ ?_ _ _ (fun _ _ _ => ?_)
    | with_reducible apply State.modHost_keeps
    | with_reducible apply State.setVfs_keeps

theorem State.queueError_keeps {b s : State} (h : Keeps b s) (t q kind : Nat) : Keeps b (State.queueError s t q kind) := by
  unfold State.queueError
  repeat' first
    | with_reducible assumption
    | ((try lift_lets); intro x; refine (fun (_ : Keeps b x) => ?_) ?_; (on_goal 2 => subst x); clear_value x)
    | intro _
    | exact rfl
    | with_reducible apply ite_keeps
    | with_reducible apply State.discardQueue_keeps
    | with_reducible apply State.recordS_keeps
    | with_reducible apply State.set_keeps
    | with_reducible apply State.tnErr_keeps

theorem State.hostsOff_keeps {b s : State} (h : Keeps b s) : Keeps b (State.hostsOff s) := by
  unfold State.hostsOff
  repeat' first
    | with_reducible assumption
    | ((try lift_lets); intro x; refine (fun (_ : Keeps b x) => ?_) ?_; (on_goal 2 => subst x); clear_value x)
    | intro _
    | exact rfl
    | with_reducible apply ite_keeps
    | with_reducible refine foldl_keeps ?_ _ _ (fun _ _ _ => ?_)
    | with_reducible refine foldl_snd_keeps _ ?_ _ _ (fun _ _ _ => ?_)
    | with_reducible apply State.disableQueue_keeps
    | with_reducible apply State.dropNonce_keeps
    | with_reducible apply State.modImage_keeps
    | with_reducible apply State.set_keeps

theorem execPcieConfigRequest_keeps {b s s1 : State} (h : State.Keeps b s) (port : Fin 2) (vfs : Option (Fin 8)) (e : execPcieConfigRequest port vfs s = .next s1) : State.Keeps b s1 := by
  unfold execPcieConfigRequest at e
  cases e
  repeat' first
    | with_reducible assumption
    | ((try lift_lets); intro x; refine (fun (_ : Keeps b x) => ?_) ?_; (on_goal 2 => subst x); clear_value x)
    | intro _
    | exact rfl
    | with_reducible apply ite_keeps
    | with_reducible apply State.emit_keeps
    | with_reducible apply State.writeVfs_keeps
    | split

theorem execPerstAssert_keeps {b s s1 : State} (h : State.Keeps b s) (port : Fin 2) (e : execPerstAssert port s = .next s1) : State.Keeps b s1 := by
  unfold execPerstAssert at e
  cases e
  repeat' first
    | with_reducible assumption
    | intro _
    | exact rfl
    | with_reducible apply ite_keeps
    | with_reducible apply State.modPins_keeps
    | with_reducible apply State.portDown_keeps
    | with_reducible apply State.set_keeps

theorem execPerstRelease_keeps {b s s1 : State} (h : State.Keeps b s) (port : Fin 2) (e : execPerstRelease port s = .next s1) : State.Keeps b s1 := by
  unfold execPerstRelease at e
  cases e
  repeat' first
    | with_reducible assumption
    | intro _
    | exact rfl
    | with_reducible apply ite_keeps
    | with_reducible apply State.modPins_keeps
    | with_reducible apply State.set_keeps

theorem execPcieLinkUp_keeps {b s s1 : State} (h : State.Keeps b s) (port : Fin 2) (speed : Fin 5) (width : Fin 3) (e : execPcieLinkUp port speed width s = .next s1) : State.Keeps b s1 := by
  unfold execPcieLinkUp at e
  cases e
  repeat' first
    | with_reducible assumption
    | ((try lift_lets); intro x; refine (fun (_ : Keeps b x) => ?_) ?_; (on_goal 2 => subst x); clear_value x)
    | intro _
    | exact rfl
    | with_reducible apply ite_keeps
    | with_reducible apply State.recordS_keeps
    | with_reducible apply State.set_keeps

theorem execPcieLinkDown_keeps {b s s1 : State} (h : State.Keeps b s) (port : Fin 2) (hot : Bool) (e : execPcieLinkDown port hot s = .next s1) : State.Keeps b s1 := by
  unfold execPcieLinkDown at e
  cases e
  repeat' first
    | with_reducible assumption
    | intro _
    | exact rfl
    | with_reducible apply ite_keeps
    | with_reducible apply State.portDown_keeps
    | with_reducible apply State.setVfs_keeps
    | with_reducible apply State.tenantReset_keeps

theorem execPcieError_keeps {b s s1 : State} (h : State.Keeps b s) (t : Fin 17) (q : Option (Fin 16)) (kind : Fin 4) (e : execPcieError t q kind s = .next s1) : State.Keeps b s1 := by
  unfold execPcieError at e
  cases e
  repeat' first
    | with_reducible assumption
    | ((try lift_lets); intro x; refine (fun (_ : Keeps b x) => ?_) ?_; (on_goal 2 => subst x); clear_value x)
    | intro _
    | exact rfl
    | with_reducible apply ite_keeps
    | with_reducible apply State.modImage_keeps
    | with_reducible apply State.queueError_keeps
    | with_reducible apply State.showReads_keeps
    | with_reducible apply State.tnErr_keeps
    | split

theorem execFunctionLevelReset_keeps {b s s1 : State} (h : State.Keeps b s) (t : Fin 17) (vfDisable : Bool) (e : execFunctionLevelReset t vfDisable s = .next s1) : State.Keeps b s1 := by
  unfold execFunctionLevelReset at e
  cases e
  repeat' first
    | with_reducible assumption
    | intro _
    | exact rfl
    | with_reducible apply ite_keeps
    | with_reducible apply State.flr_keeps
    | with_reducible apply State.writeVfs_keeps

theorem execBusMasterEnableChange_keeps {z s s1 : State} (h : State.Keeps z s) (t : Fin 17) (b : Bool) (e : execBusMasterEnableChange t b s = .next s1) : State.Keeps z s1 := by
  unfold execBusMasterEnableChange at e
  cases e
  repeat' first
    | with_reducible assumption
    | ((try lift_lets); intro x; refine (fun (_ : Keeps z x) => ?_) ?_; (on_goal 2 => subst x); clear_value x)
    | intro _
    | exact rfl
    | with_reducible apply ite_keeps
    | with_reducible refine foldl_keeps ?_ _ _ (fun _ _ _ => ?_)
    | with_reducible refine foldl_snd_keeps _ ?_ _ _ (fun _ _ _ => ?_)
    | with_reducible apply State.flag_keeps
    | with_reducible apply State.flushQueue_keeps

theorem execReadStatus_keeps {b s s1 : State} (h : State.Keeps b s) (e : execReadStatus s = .next s1) : State.Keeps b s1 := by
  unfold execReadStatus at e
  cases e
  repeat' first
    | with_reducible assumption
    | intro _
    | exact rfl
    | with_reducible apply ite_keeps
    | with_reducible apply State.emit_keeps

theorem execReadWin_keeps {b s s1 : State} (h : State.Keeps b s) (addr : Fin 262144) (n : Nat) (e : execReadWin addr n s = .next s1) : State.Keeps b s1 := by
  unfold execReadWin at e
  cases e
  repeat' first
    | with_reducible assumption
    | intro _
    | exact rfl
    | with_reducible apply ite_keeps
    | with_reducible apply State.emit_keeps

theorem execWriteWin_keeps {b s s1 : State} (h : State.Keeps b s) (addr : Fin 262144) (data : List Byte) (e : execWriteWin addr data s = .next s1) : State.Keeps b s1 := by
  unfold execWriteWin at e
  cases e
  repeat' first
    | with_reducible assumption
    | intro _
    | exact rfl
    | with_reducible apply ite_keeps
    | with_reducible apply State.winWrite_keeps

theorem execTenantReset_keeps {b s s1 : State} (h : State.Keeps b s) (key : Byte) (e : execTenantReset key s = .next s1) : State.Keeps b s1 := by
  unfold execTenantReset at e
  cases e
  repeat' first
    | with_reducible assumption
    | with_reducible apply ite_keeps
    | with_reducible apply State.tnErr_keeps
    | with_reducible apply State.tenantReset_keeps
    | refine Keeps.trans (State.tenantReset_keeps h 16 4) ⟨rfl, ⟨[], rfl⟩, id, fun _ => rfl, id, Nat.le_refl _, Nat.le_refl _⟩

theorem execQspiInvalidCommand_keeps {b s s1 : State} (h : State.Keeps b s) (e : execQspiInvalidCommand s = .next s1) : State.Keeps b s1 := by
  unfold execQspiInvalidCommand at e
  cases e
  repeat' first
    | with_reducible assumption
    | intro _
    | exact rfl
    | with_reducible apply ite_keeps
    | with_reducible apply State.tnErr_keeps

theorem State.extend_keeps {b s : State} (h : Keeps b s) (k : Nat) (m : List Byte) : Keeps b (State.extend s k m) := by
  unfold State.extend
  repeat' first
    | with_reducible assumption
    | intro _
    | exact rfl
    | with_reducible apply ite_keeps
    | ((with_reducible apply State.modSec_keeps); on_goal 2 => exact fun _ => ⟨Nat.le_refl _, Nat.le_refl _⟩)

theorem State.zeroMeas_keeps {b s : State} (h : Keeps b s) (k : Nat) : Keeps b (State.zeroMeas s k) := by
  unfold State.zeroMeas
  repeat' first
    | with_reducible assumption
    | intro _
    | exact rfl
    | with_reducible apply ite_keeps
    | ((with_reducible apply State.modSec_keeps); on_goal 2 => exact fun _ => ⟨Nat.le_refl _, Nat.le_refl _⟩)

theorem State.measConfig_keeps {b s : State} (h : Keeps b s) : Keeps b (State.measConfig s) := by
  unfold State.measConfig
  repeat' first
    | with_reducible assumption
    | intro _
    | exact rfl
    | with_reducible apply ite_keeps
    | with_reducible apply State.extend_keeps
    | split

theorem State.measRules_keeps {b s : State} (h : Keeps b s) : Keeps b (State.measRules s) := by
  unfold State.measRules
  repeat' first
    | with_reducible assumption
    | intro _
    | exact rfl
    | with_reducible apply ite_keeps
    | with_reducible apply State.extend_keeps
    | split

theorem State.measCycle_keeps {b s : State} (h : Keeps b s) : Keeps b (State.measCycle s) := by
  unfold State.measCycle
  repeat' first
    | with_reducible assumption
    | intro _
    | exact rfl
    | with_reducible apply ite_keeps
    | with_reducible apply State.extend_keeps

theorem State.measKeys_keeps {b s : State} (h : Keeps b s) : Keeps b (State.measKeys s) := by
  unfold State.measKeys
  repeat' first
    | with_reducible assumption
    | intro _
    | exact rfl
    | with_reducible apply ite_keeps
    | with_reducible apply State.extend_keeps

theorem State.certify_keeps {b s : State} (h : Keeps b s) : Keeps b (State.certify s) := by
  unfold State.certify
  repeat' first
    | with_reducible assumption
    | ((try lift_lets); intro x; refine (fun (_ : Keeps b x) => ?_) ?_; (on_goal 2 => subst x); clear_value x)
    | ((try lift_lets); intro x; clear_value x)
    | intro _
    | exact rfl
    | with_reducible apply ite_keeps
    | with_reducible apply State.flag_keeps
    | with_reducible apply State.recordT_keeps
    | with_reducible apply State.set_keeps

theorem State.lineOff_keeps {b s : State} (h : Keeps b s) : Keeps b (State.lineOff s) := by
  unfold State.lineOff
  repeat' first
    | with_reducible assumption
    | ((try lift_lets); intro x; refine (fun (_ : Keeps b x) => ?_) ?_; (on_goal 2 => subst x); clear_value x)
    | intro _
    | exact rfl
    | with_reducible apply ite_keeps
    | with_reducible refine foldl_keeps ?_ _ _ (fun _ _ _ => ?_)
    | with_reducible refine foldl_snd_keeps _ ?_ _ _ (fun _ _ _ => ?_)
    | with_reducible apply State.cancelRoll_keeps
    | with_reducible apply State.modInaug_keeps
    | with_reducible apply State.stopPort_keeps
    | with_reducible apply State.stopWork_keeps
    | with_reducible apply State.toLine_keeps
    | with_reducible apply State.toPhase_keeps

theorem State.lineStart_keeps {b s : State} (h : Keeps b s) : Keeps b (State.lineStart s) := by
  unfold State.lineStart
  repeat' first
    | with_reducible assumption
    | ((try lift_lets); intro x; refine (fun (_ : Keeps b x) => ?_) ?_; (on_goal 2 => subst x); clear_value x)
    | intro _
    | exact rfl
    | with_reducible apply ite_keeps
    | with_reducible apply State.delayLimits_keeps
    | with_reducible apply State.set_keeps
    | with_reducible apply State.settlePorts_keeps
    | with_reducible apply State.showHops_keeps
    | with_reducible apply State.stopLayout_keeps
    | with_reducible apply State.toLine_keeps

theorem State.settleLine_keeps {b s : State} (h : Keeps b s) : Keeps b (State.settleLine s) := by
  unfold State.settleLine
  repeat' first
    | with_reducible assumption
    | intro _
    | exact rfl
    | with_reducible apply ite_keeps
    | with_reducible apply State.lineOff_keeps
    | with_reducible apply State.lineStart_keeps

theorem State.showKeys_keeps {b s : State} (h : Keeps b s) : Keeps b (State.showKeys s) := by
  unfold State.showKeys
  repeat' first
    | with_reducible assumption
    | ((try lift_lets); intro x; refine (fun (_ : Keeps b x) => ?_) ?_; (on_goal 2 => subst x); clear_value x)
    | intro _
    | exact rfl
    | with_reducible apply ite_keeps
    | with_reducible apply State.flag_keeps

theorem State.dropFleet_keeps {b s : State} (h : Keeps b s) : Keeps b (State.dropFleet s) := by
  unfold State.dropFleet
  repeat' first
    | with_reducible assumption
    | ((try lift_lets); intro x; refine (fun (_ : Keeps b x) => ?_) ?_; (on_goal 2 => subst x); clear_value x)
    | intro _
    | exact rfl
    | with_reducible apply ite_keeps
    | with_reducible apply State.cancelRoll_keeps
    | with_reducible apply State.certify_keeps
    | with_reducible apply State.measKeys_keeps
    | with_reducible apply State.modKeys_keeps
    | with_reducible apply State.relays_keeps
    | with_reducible apply State.set_keeps
    | with_reducible apply State.settleLine_keeps
    | with_reducible apply State.showKeys_keeps

theorem State.eraseShare_keeps {b s : State} (h : Keeps b s) : Keeps b (State.eraseShare s) := by
  unfold State.eraseShare
  repeat' first
    | with_reducible assumption
    | intro _
    | exact rfl
    | with_reducible apply ite_keeps
    | with_reducible apply State.dropFleet_keeps
    | ((with_reducible apply State.modSec_keeps); on_goal 2 => exact fun _ => ⟨Nat.le_refl _, Nat.le_refl _⟩)

theorem State.lockKeys_keeps {b s : State} (h : Keeps b s) : Keeps b (State.lockKeys s) := by
  unfold State.lockKeys
  repeat' first
    | with_reducible assumption
    | intro _
    | exact rfl
    | with_reducible apply ite_keeps
    | with_reducible apply State.dropFleet_keeps
    | ((with_reducible apply State.modSec_keeps); on_goal 2 => exact fun _ => ⟨Nat.le_refl _, Nat.le_refl _⟩)

theorem State.loadKeys_keeps {b s : State} (h : Keeps b s) (bad : Nat) : Keeps b (State.loadKeys s bad) := by
  unfold State.loadKeys
  repeat' first
    | with_reducible assumption
    | ((try lift_lets); intro x; refine (fun (_ : Keeps b x) => ?_) ?_; (on_goal 2 => subst x); clear_value x)
    | ((try lift_lets); intro x; clear_value x)
    | intro _
    | exact rfl
    | with_reducible apply ite_keeps
    | with_reducible apply State.modKeys_keeps
    | ((with_reducible apply State.modSec_keeps); on_goal 2 => exact fun _ => ⟨Nat.le_refl _, Nat.le_refl _⟩)
    | with_reducible apply State.set_keeps
    | with_reducible apply State.showKeys_keeps

theorem State.startWipe_keeps {b s : State} (h : Keeps b s) (cause : Nat) : Keeps b (State.startWipe s cause) := by
  unfold State.startWipe
  repeat' first
    | with_reducible assumption
    | intro _
    | exact rfl
    | with_reducible apply ite_keeps
    | ((with_reducible apply State.modSec_keeps); on_goal 2 => exact fun _ => ⟨Nat.le_refl _, Nat.le_refl _⟩)
    | with_reducible apply State.set_keeps
    | split

theorem State.wipeRecords_keeps {b s : State} (h : Keeps b s) (us : Nat) : Keeps b (State.wipeRecords s us) := by
  unfold State.wipeRecords
  repeat' first
    | with_reducible assumption
    | intro _
    | exact rfl
    | with_reducible apply ite_keeps
    | with_reducible refine foldl_keeps ?_ _ _ (fun _ _ _ => ?_)
    | with_reducible refine foldl_snd_keeps _ ?_ _ _ (fun _ _ _ => ?_)
    | ((with_reducible apply State.modSec_keeps); on_goal 2 => exact fun _ => ⟨Nat.le_refl _, Nat.le_refl _⟩)
    | with_reducible apply State.recordT_keeps

theorem State.wipeEnd_keeps {b s : State} (h : Keeps b s) (us bad : Nat) : Keeps b (State.wipeEnd s us bad) := by
  unfold State.wipeEnd
  repeat' first
    | with_reducible assumption
    | ((try lift_lets); intro x; refine (fun (_ : Keeps b x) => ?_) ?_; (on_goal 2 => subst x); clear_value x)
    | ((try lift_lets); intro x; clear_value x)
    | intro _
    | exact rfl
    | with_reducible apply ite_keeps
    | with_reducible apply State.lockKeys_keeps
    | ((with_reducible apply State.modSec_keeps); on_goal 2 => exact fun _ => ⟨Nat.le_refl _, Nat.le_refl _⟩)
    | with_reducible apply State.recordS_keeps
    | with_reducible apply State.set_keeps
    | with_reducible apply State.wipeRecords_keeps
    | split
    | refine Keeps.ofSnd ?_ (by assumption)
    | refine Keeps.ofThird ?_ (by assumption)
    | refine Keeps.ofFourth ?_ (by assumption)
    | dsimp only

theorem State.eccEffect_keeps {b s : State} (h : Keeps b s) (a : Nat) (r : EccReader) : Keeps b (State.eccEffect s a r) := by
  unfold State.eccEffect
  repeat' first
    | with_reducible assumption
    | ((try lift_lets); intro x; refine (fun (_ : Keeps b x) => ?_) ?_; (on_goal 2 => subst x); clear_value x)
    | ((try lift_lets); intro x; clear_value x)
    | intro _
    | exact rfl
    | with_reducible apply ite_keeps
    | ((with_reducible apply State.modTally_keeps); on_goal 2 => exact fun x hx => ⟨Nat.le_trans (by dsimp only; rw [List.length_tail]; omega) hx.1, hx.2.1, hx.2.2⟩)
    | with_reducible apply State.canEnd_keeps
    | with_reducible apply State.canUnpend_keeps
    | with_reducible apply State.fwRestart_keeps
    | with_reducible apply State.inc_keeps
    | with_reducible apply State.modCon_keeps
    | with_reducible apply State.modImage_keeps
    | with_reducible apply State.modMap_keeps
    | with_reducible apply State.modMem_keeps
    | with_reducible apply State.modMill_keeps
    | with_reducible apply State.modPort_keeps
    | with_reducible apply State.modTally_keeps
    | with_reducible apply State.queueError_keeps
    | with_reducible apply State.showTally_keeps
    | with_reducible apply State.startWipe_keeps
    | with_reducible apply State.take_keeps
    | split

theorem State.eccError_keeps {b s : State} (h : Keeps b s) (a : Nat) (ue : Bool) (r : EccReader) : Keeps b (State.eccError s a ue r) := by
  unfold State.eccError
  repeat' first
    | with_reducible assumption
    | ((try lift_lets); intro x; clear_value x)
    | intro _
    | exact rfl
    | with_reducible apply ite_keeps
    | with_reducible apply State.eccEffect_keeps
    | with_reducible apply State.flag_keeps
    | with_reducible apply State.inc_keeps
    | with_reducible apply State.recordS_keeps
    | with_reducible apply State.set_keeps
    | with_reducible apply State.take_keeps
    | split

theorem State.lineRead_keeps {b s : State} (h : Keeps b s) (x : LineRead) : Keeps b (State.lineRead s x) := by
  unfold State.lineRead
  repeat' first
    | with_reducible assumption
    | ((try lift_lets); intro x; refine (fun (_ : Keeps b x) => ?_) ?_; (on_goal 2 => subst x); clear_value x)
    | ((try lift_lets); intro x; clear_value x)
    | intro _
    | exact rfl
    | with_reducible apply ite_keeps
    | with_reducible refine foldl_keeps ?_ _ _ (fun _ _ _ => ?_)
    | with_reducible refine foldl_snd_keeps _ ?_ _ _ (fun _ _ _ => ?_)
    | with_reducible apply State.eccError_keeps
    | with_reducible apply State.inc_keeps
    | with_reducible apply State.modMem_keeps
    | split

theorem State.bankCycle_keeps {b s : State} (h : Keeps b s) (bank : Nat) : Keeps b (State.bankCycle s bank) := by
  unfold State.bankCycle
  repeat' first
    | with_reducible assumption
    | ((try lift_lets); intro x; refine (fun (_ : Keeps b x) => ?_) ?_; (on_goal 2 => subst x); clear_value x)
    | ((try lift_lets); intro x; clear_value x)
    | intro _
    | exact rfl
    | with_reducible apply ite_keeps
    | with_reducible refine foldl_keeps ?_ _ _ (fun _ _ _ => ?_)
    | with_reducible refine foldl_snd_keeps _ ?_ _ _ (fun _ _ _ => ?_)
    | with_reducible apply State.lineRead_keeps
    | with_reducible apply State.memGrant_keeps
    | with_reducible apply State.memLose_keeps
    | with_reducible apply State.modMem_keeps
    | split

theorem State.memCycle_keeps {b s : State} (h : Keeps b s) : Keeps b (State.memCycle s) := by
  unfold State.memCycle
  repeat' first
    | with_reducible assumption
    | ((try lift_lets); intro x; clear_value x)
    | intro _
    | exact rfl
    | with_reducible apply ite_keeps
    | with_reducible refine foldl_keeps ?_ _ _ (fun _ _ _ => ?_)
    | with_reducible refine foldl_snd_keeps _ ?_ _ _ (fun _ _ _ => ?_)
    | with_reducible apply State.bankCycle_keeps
    | with_reducible apply State.modMem_keeps

theorem State.memCounters_keeps {b s : State} (h : Keeps b s) (mask : Nat) (run : Bool) : Keeps b (State.memCounters s mask run) := by
  unfold State.memCounters
  repeat' first
    | with_reducible assumption
    | intro _
    | exact rfl
    | with_reducible apply ite_keeps
    | with_reducible refine foldl_keeps ?_ _ _ (fun _ _ _ => ?_)
    | with_reducible refine foldl_snd_keeps _ ?_ _ _ (fun _ _ _ => ?_)
    | with_reducible apply State.flag_keeps
    | with_reducible apply State.set_keeps

theorem execScrubLine_keeps {b s s1 : State} (h : State.Keeps b s) (line : Fin 524288) (err : Option (Fin 8 × Bool)) (r : EccReader) (last : Bool) (e : execScrubLine line err r last s = .next s1) : State.Keeps b s1 := by
  unfold execScrubLine at e
  cases e
  repeat' first
    | with_reducible assumption
    | intro _
    | exact rfl
    | with_reducible apply ite_keeps
    | with_reducible apply State.lineRead_keeps
    | with_reducible apply State.memGrant_keeps
    | with_reducible apply State.memWait_keeps
    | with_reducible apply State.secRefuse_keeps

theorem execSecureAccessRefused_keeps {b s s1 : State} (h : State.Keeps b s) (m : Fin 12) (off : Fin 2097152) (e : execSecureAccessRefused m off s = .next s1) : State.Keeps b s1 := by
  unfold execSecureAccessRefused at e
  cases e
  repeat' first
    | with_reducible assumption
    | intro _
    | exact rfl
    | with_reducible apply ite_keeps
    | with_reducible apply State.secRefuse_keeps

theorem execSecureWipe_keeps {b s s1 : State} (h : State.Keeps b s) (cause : Fin 4) (e : execSecureWipe cause s = .next s1) : State.Keeps b s1 := by
  unfold execSecureWipe at e
  cases e
  repeat' first
    | with_reducible assumption
    | intro _
    | exact rfl
    | with_reducible apply ite_keeps
    | with_reducible apply State.startWipe_keeps

theorem execWipeComplete_keeps {b s s1 : State} (h : State.Keeps b s) (us bad : Nat) (e : execWipeComplete us bad s = .next s1) : State.Keeps b s1 := by
  unfold execWipeComplete at e
  cases e
  repeat' first
    | with_reducible assumption
    | intro _
    | exact rfl
    | with_reducible apply ite_keeps
    | with_reducible apply State.wipeEnd_keeps

theorem execMemCounterClear_keeps {b s s1 : State} (h : State.Keeps b s) (mask : Fin 4096) (run : Bool) (e : execMemCounterClear mask run s = .next s1) : State.Keeps b s1 := by
  unfold execMemCounterClear at e
  cases e
  repeat' first
    | with_reducible assumption
    | intro _
    | exact rfl
    | with_reducible apply ite_keeps
    | with_reducible apply State.memCounters_keeps

end Sys2Proof.Machine
end

