-- ==== Sys2Proof/Laws/KeepsPower.lean ====
section
/-!
SUPPORT. One lemma for each operation and each command: what it keeps (State.Keeps). Here: security, configuration, debug, power and boot.
-/

namespace Sys2Proof.Machine

open State

theorem State.makeReport_keeps {b s : State} (h : Keeps b s) (nonce : List Byte) (who : Nat) : Keeps b (State.makeReport s nonce who).2 := by
  unfold State.makeReport
  repeat' first
    | with_reducible assumption
    | ((try lift_lets); intro x; refine (fun (_ : Keeps b x) => ?_) ?_; (on_goal 2 => subst x); clear_value x)
    | ((try lift_lets); intro x; clear_value x)
    | intro _
    | exact rfl
    | with_reducible apply ite_keeps
    | with_reducible apply ite_snd_keeps
    | with_reducible apply State.recordS_keeps
    | with_reducible apply State.set_keeps

theorem State.attestDone_keeps {b s : State} (h : Keeps b s) (t q i : Nat) (d : Desc) (f : Nat) (l : List Byte) : Keeps b (State.attestDone s t q i d f l) := by
  unfold State.attestDone
  repeat' first
    | with_reducible assumption
    | intro _
    | exact rfl
    | with_reducible apply ite_keeps
    | with_reducible apply State.complete_keeps
    | with_reducible apply State.memWrite_keeps

theorem State.attSend_keeps {b s : State} (h : Keeps b s) (k : Nat) : Keeps b (State.attSend s k) := by
  induction k generalizing s with
  | zero => exact h
  | succ k ih =>
    unfold State.attSend
    repeat' first
      | with_reducible assumption
      | with_reducible apply ih
      | ((try lift_lets); intro x; clear_value x)
      | intro _
      | exact rfl
      | with_reducible apply ite_keeps
      | with_reducible apply State.lineOut_keeps
      | ((with_reducible apply State.modSec_keeps); on_goal 2 => exact fun _ => ⟨Nat.le_refl _, Nat.le_refl _⟩)
      | with_reducible apply State.take_keeps
      | split

theorem State.attEnd_keeps {b s : State} (h : Keeps b s) (r : AttReq) (f : State → State) (hf : ∀ s, Keeps b s → Keeps b (f s)) : Keeps b (State.attEnd s r f) := by
  unfold State.attEnd
  repeat' first
    | with_reducible assumption
    | intro _
    | exact rfl
    | with_reducible apply ite_keeps
    | with_reducible apply State.attSend_keeps
    | ((with_reducible apply State.modSec_keeps); on_goal 2 => exact fun _ => ⟨Nat.le_refl _, Nat.le_refl _⟩)
    | split
    | refine Keeps.ofSnd ?_ (by assumption)
    | refine Keeps.ofThird ?_ (by assumption)
    | refine Keeps.ofFourth ?_ (by assumption)
    | with_reducible apply hf

theorem State.attStart_keeps {b s : State} (h : Keeps b s) (t q i : Nat) (d : Desc) (f : Nat) (nonce : List Byte) : Keeps b (State.attStart s t q i d f nonce) := by
  unfold State.attStart
  repeat' first
    | with_reducible assumption
    | ((try lift_lets); intro x; clear_value x)
    | intro _
    | exact rfl
    | with_reducible apply ite_keeps
    | with_reducible apply State.attSend_keeps
    | with_reducible apply State.complete_keeps
    | ((with_reducible apply State.modSec_keeps); on_goal 2 => exact fun _ => ⟨Nat.le_refl _, Nat.le_refl _⟩)
    | with_reducible apply State.startWork_keeps
    | split

theorem State.attest_keeps {b s : State} (h : Keeps b s) (t q i : Nat) (d : Desc) (f : Nat) (given : List Byte) : Keeps b (State.attest s t q i d f given) := by
  unfold State.attest
  repeat' first
    | with_reducible assumption
    | intro _
    | exact rfl
    | with_reducible apply ite_keeps
    | with_reducible apply State.attStart_keeps
    | with_reducible apply State.attestDone_keeps
    | with_reducible apply State.emit_keeps
    | with_reducible apply State.failCheck_keeps
    | with_reducible apply State.makeReport_keeps
    | with_reducible apply State.readStall_keeps
    | split

theorem State.attAnswer_keeps {b s : State} (h : Keeps b s) (dest f tag astat rturn : Nat) (data : List Byte) : Keeps b (State.attAnswer s dest f tag astat rturn data) := by
  unfold State.attAnswer
  repeat' first
    | with_reducible assumption
    | ((try lift_lets); intro x; clear_value x)
    | intro _
    | exact rfl
    | with_reducible apply ite_keeps
    | with_reducible refine foldl_keeps ?_ _ _ (fun _ _ _ => ?_)
    | with_reducible refine foldl_snd_keeps _ ?_ _ _ (fun _ _ _ => ?_)
    | with_reducible apply State.lineOut_keeps

theorem State.attRequest_keeps {b s : State} (h : Keeps b s) (sender waiting : Nat) (body : List Byte) : Keeps b (State.attRequest s sender waiting body) := by
  unfold State.attRequest
  repeat' first
    | with_reducible assumption
    | ((try lift_lets); intro x; clear_value x)
    | intro _
    | exact rfl
    | with_reducible apply ite_keeps
    | with_reducible apply State.attAnswer_keeps
    | with_reducible apply State.attest_keeps
    | with_reducible apply State.emit_keeps
    | with_reducible apply State.makeReport_keeps

theorem State.attResponse_keeps {b s : State} (h : Keeps b s) (sender : Nat) (body : List Byte) : Keeps b (State.attResponse s sender body) := by
  unfold State.attResponse
  repeat' first
    | with_reducible assumption
    | ((try lift_lets); intro x; clear_value x)
    | intro _
    | exact rfl
    | with_reducible apply ite_keeps
    | with_reducible apply State.attEnd_keeps
    | with_reducible apply State.attestDone_keeps
    | with_reducible apply State.complete_keeps
    | ((with_reducible apply State.modSec_keeps); on_goal 2 => exact fun _ => ⟨Nat.le_refl _, Nat.le_refl _⟩)
    | with_reducible apply State.take_keeps
    | split
    | refine Keeps.ofSnd ?_ (by assumption)
    | refine Keeps.ofThird ?_ (by assumption)
    | refine Keeps.ofFourth ?_ (by assumption)
    | (apply Keeps.other (by assumption) <;> rfl)

theorem State.attServe_keeps {b s : State} (h : Keeps b s) : Keeps b (State.attServe s) := by
  unfold State.attServe
  repeat' first
    | with_reducible assumption
    | intro _
    | exact rfl
    | with_reducible apply ite_keeps
    | with_reducible apply State.attRequest_keeps
    | ((with_reducible apply State.modSec_keeps); on_goal 2 => exact fun _ => ⟨Nat.le_refl _, Nat.le_refl _⟩)
    | split

theorem State.refuse_keeps {b s : State} (h : Keeps b s) (t cause : Nat) : Keeps b (State.refuse s t cause) := by
  unfold State.refuse
  repeat' first
    | with_reducible assumption
    | intro _
    | exact rfl
    | with_reducible apply ite_keeps
    | with_reducible apply State.inc_keeps
    | with_reducible apply State.recordT_keeps

theorem State.takeKey_keeps {b s : State} (h : Keeps b s) (kind id : Nat) (key : BitVec 256) : Keeps b (State.takeKey s kind id key) := by
  unfold State.takeKey
  repeat' first
    | with_reducible assumption
    | ((try lift_lets); intro x; refine (fun (_ : Keeps b x) => ?_) ?_; (on_goal 2 => subst x); clear_value x)
    | intro _
    | exact rfl
    | with_reducible apply ite_keeps
    | with_reducible apply State.certify_keeps
    | with_reducible apply State.measKeys_keeps
    | with_reducible apply State.modKeys_keeps
    | ((with_reducible apply State.modSec_keeps); on_goal 2 => exact fun _ => ⟨Nat.le_refl _, Nat.le_refl _⟩)
    | with_reducible apply State.mramWrite_keeps
    | with_reducible apply State.relays_keeps
    | with_reducible apply State.set_keeps
    | with_reducible apply State.settleLine_keeps
    | with_reducible apply State.showKeys_keeps

theorem State.attestImport_keeps {b s : State} (h : Keeps b s) (t q i : Nat) (d : Desc) (given : List Byte) (sig gcm : Bool) (key : BitVec 256) : Keeps b (State.attestImport s t q i d given sig gcm key) := by
  unfold State.attestImport
  repeat' first
    | with_reducible assumption
    | intro _
    | exact rfl
    | with_reducible apply ite_keeps
    | with_reducible apply State.complete_keeps
    | with_reducible apply State.failCheck_keeps
    | with_reducible apply State.readStall_keeps
    | with_reducible apply State.recordT_keeps
    | with_reducible apply State.refuse_keeps
    | with_reducible apply State.takeBuf_keeps
    | with_reducible apply State.takeKey_keeps
    | split
    | refine Keeps.ofSnd ?_ (by assumption)

/-- The life-cycle state alone moves on. -/
theorem State.modSec_lifecycle {b s : State} (h : Keeps b s) (n : Nat) (hn : b.sec.lifecycle ≤ n) :
    Keeps b (s.modSec fun x => { x with lifecycle := n }) :=
  ⟨h.pending, h.out, h.regs, h.window, h.tally, h.fuses, hn⟩

/-- A token without a fault names a later state (R552). -/
theorem State.tokenFault_target {s : State} {p : List Byte} {sig : Bool} (h : s.tokenFault p sig = none) :
    s.sec.lifecycle ≤ beAt p 0 1 := by
  unfold State.tokenFault at h
  dsimp only at h
  split at h
  · cases h
  · split at h
    · cases h
    · next hc =>
      simp only [Bool.or_eq_true, Bool.not_eq_true', Bool.and_eq_true, beq_iff_eq, decide_eq_true_eq, not_or, Bool.not_eq_false] at hc
      rcases hc.1 with ⟨h1, _⟩ | ⟨h1, h2⟩ <;> omega

/-- A transition keeps it, where its target is no earlier state (R552). -/
theorem State.transition_keeps {b s : State} (h : Keeps b s) (target : Nat) (hl : s.sec.lifecycle ≤ target) : Keeps b (s.transition target) := by
  unfold State.transition
  lift_lets
  intro old s1 s2 s3 s4 s5 s6
  have h2 : Keeps b s2 := State.recordT_keeps (State.inc_keeps h _ _ _) _ _ _ _ _
  have h3 : Keeps b s3 := State.modSec_lifecycle (State.startWipe_keeps h2 2) target (Nat.le_trans h.lifecycle hl)
  have h4 : Keeps b s4 := State.set_keeps h3 _ _ _
  have h5 : Keeps b s5 := ite_keeps (State.eraseShare_keeps h4) h4
  have h6 : Keeps b s6 :=
    ite_keeps (State.eraseRetired_keeps (State.showKeys_keeps (State.modSec_keeps h5 _ fun _ => ⟨Nat.le_refl _, Nat.le_refl _⟩))) h5
  exact State.fullReset_keeps h6 _

theorem State.attestCycle_keeps {b s : State} (h : Keeps b s) (t q i : Nat) (d : Desc) (given : List Byte) (sig : Bool) :
    Keeps b (s.attestCycle t q i d given sig) := by
  unfold State.attestCycle
  split
  · exact State.failCheck_keeps h _ _ _ _
  · split
    · exact State.readStall_keeps h
    split
    next p s' e =>
    have hs := Keeps.ofSnd (State.takeBuf_keeps h t d given) e
    split
    · exact State.complete_keeps (State.refuse_keeps hs _ _) _ _ _ _ _ _
    · next hn => exact State.transition_keeps hs _ (State.tokenFault_target hn)

theorem State.tamper_keeps {b s : State} (h : Keeps b s) (src now : Nat) : Keeps b (State.tamper s src now) := by
  unfold State.tamper
  repeat' first
    | with_reducible assumption
    | ((try lift_lets); intro x; refine (fun (_ : Keeps b x) => ?_) ?_; (on_goal 2 => subst x); clear_value x)
    | ((try lift_lets); intro x; clear_value x)
    | intro _
    | exact rfl
    | with_reducible apply ite_keeps
    | with_reducible apply State.eraseShare_keeps
    | with_reducible apply State.inc_keeps
    | ((with_reducible apply State.modSec_keeps); on_goal 2 => exact fun _ => ⟨Nat.le_refl _, Nat.le_refl _⟩)
    | with_reducible apply State.recordT_keeps
    | with_reducible apply State.set_keeps
    | with_reducible apply State.setBits_keeps
    | with_reducible apply State.startWipe_keeps

theorem execAttestReport_keeps {b s s1 : State} (h : State.Keeps b s) (t : Fin 17) (q : Fin 16) (i : Nat) (nonce : List Byte) (e : execAttestReport t q i nonce s = .next s1) : State.Keeps b s1 := by
  unfold execAttestReport at e
  cases e
  repeat' first
    | with_reducible assumption
    | intro _
    | exact rfl
    | with_reducible apply ite_keeps
    | with_reducible apply State.attest_keeps
    | split

theorem execAttestChain_keeps {b s s1 : State} (h : State.Keeps b s) (t : Fin 17) (q : Fin 16) (i : Nat) (e : execAttestChain t q i s = .next s1) : State.Keeps b s1 := by
  unfold execAttestChain at e
  cases e
  repeat' first
    | with_reducible assumption
    | intro _
    | exact rfl
    | with_reducible apply ite_keeps
    | with_reducible apply State.attest_keeps
    | split

theorem execAttestImport_keeps {b s s1 : State} (h : State.Keeps b s) (t : Fin 17) (q : Fin 16) (i : Nat) (data : List Byte) (sig gcm : Bool) (key : BitVec 256) (e : execAttestImport t q i data sig gcm key s = .next s1) : State.Keeps b s1 := by
  unfold execAttestImport at e
  cases e
  repeat' first
    | with_reducible assumption
    | intro _
    | exact rfl
    | with_reducible apply ite_keeps
    | with_reducible apply State.attestImport_keeps
    | with_reducible apply State.failCheck_keeps
    | split

theorem execAttestLifecycle_keeps {b s s1 : State} (h : State.Keeps b s) (t : Fin 17) (q : Fin 16) (i : Nat) (token : List Byte) (sig : Bool) (e : execAttestLifecycle t q i token sig s = .next s1) : State.Keeps b s1 := by
  unfold execAttestLifecycle at e
  cases e
  repeat' first
    | with_reducible assumption
    | intro _
    | exact rfl
    | with_reducible apply ite_keeps
    | with_reducible apply State.attestCycle_keeps
    | split

theorem execAttestRequestReceive_keeps {b s s1 : State} (h : State.Keeps b s) (sender : Nat) (waiting : Fin 5) (body : List Byte) (e : execAttestRequestReceive sender waiting body s = .next s1) : State.Keeps b s1 := by
  unfold execAttestRequestReceive at e
  cases e
  repeat' first
    | with_reducible assumption
    | intro _
    | exact rfl
    | with_reducible apply ite_keeps
    | with_reducible apply State.attAnswer_keeps
    | with_reducible apply State.attRequest_keeps
    | ((with_reducible apply State.modSec_keeps); on_goal 2 => exact fun _ => ⟨Nat.le_refl _, Nat.le_refl _⟩)

theorem execAttestResponseReceive_keeps {b s s1 : State} (h : State.Keeps b s) (sender : Nat) (body : List Byte) (e : execAttestResponseReceive sender body s = .next s1) : State.Keeps b s1 := by
  unfold execAttestResponseReceive at e
  cases e
  repeat' first
    | with_reducible assumption
    | intro _
    | exact rfl
    | with_reducible apply ite_keeps
    | with_reducible apply State.attResponse_keeps

theorem execAttestTimeout_keeps {b s s1 : State} (h : State.Keeps b s) (k : Nat) (e : execAttestTimeout k s = .next s1) : State.Keeps b s1 := by
  unfold execAttestTimeout at e
  cases e
  repeat' first
    | with_reducible assumption
    | intro _
    | exact rfl
    | with_reducible apply ite_keeps
    | with_reducible apply State.attEnd_keeps
    | with_reducible apply State.complete_keeps
    | split

theorem execTamperEvent_keeps {b s s1 : State} (h : State.Keeps b s) (src : Fin 6) (now : Fin 64) (e : execTamperEvent src now s = .next s1) : State.Keeps b s1 := by
  unfold execTamperEvent at e
  cases e
  repeat' first
    | with_reducible assumption
    | intro _
    | exact rfl
    | with_reducible apply ite_keeps
    | ((with_reducible apply State.modSec_keeps); on_goal 2 => exact fun _ => ⟨Nat.le_refl _, Nat.le_refl _⟩)
    | with_reducible apply State.set_keeps
    | with_reducible apply State.setBits_keeps
    | with_reducible apply State.tamper_keeps

theorem execVbackRangeChange_keeps {b s s1 : State} (h : State.Keeps b s) (inRange : Bool) (e : execVbackRangeChange inRange s = .next s1) : State.Keeps b s1 := by
  unfold execVbackRangeChange at e
  cases e
  repeat' first
    | with_reducible assumption
    | ((try lift_lets); intro x; refine (fun (_ : Keeps b x) => ?_) ?_; (on_goal 2 => subst x); clear_value x)
    | intro _
    | exact rfl
    | with_reducible apply ite_keeps
    | with_reducible apply State.certify_keeps
    | with_reducible apply State.flag_keeps

theorem execFleetKeySwitch_keeps {b s s1 : State} (h : State.Keeps b s) (e : execFleetKeySwitch s = .next s1) : State.Keeps b s1 := by
  unfold execFleetKeySwitch at e
  cases e
  repeat' first
    | with_reducible assumption
    | ((try lift_lets); intro x; refine (fun (_ : Keeps b x) => ?_) ?_; (on_goal 2 => subst x); clear_value x)
    | ((try lift_lets); intro x; clear_value x)
    | intro _
    | exact rfl
    | with_reducible apply ite_keeps
    | with_reducible apply State.certify_keeps
    | with_reducible apply State.measKeys_keeps
    | with_reducible apply State.modKeys_keeps
    | with_reducible apply State.mramWrite_keeps
    | with_reducible apply State.recordT_keeps
    | with_reducible apply State.set_keeps
    | with_reducible apply State.showKeys_keeps
    | split

theorem execRetiredKeyErase_keeps {b s s1 : State} (h : State.Keeps b s) (e : execRetiredKeyErase s = .next s1) : State.Keeps b s1 := by
  unfold execRetiredKeyErase at e
  cases e
  repeat' first
    | with_reducible assumption
    | intro _
    | exact rfl
    | with_reducible apply ite_keeps
    | with_reducible apply State.modKeys_keeps
    | split

theorem State.portsChanged_keeps {b s : State} (h : Keeps b s) (modes : List Nat) : Keeps b (State.portsChanged s modes) := by
  unfold State.portsChanged
  repeat' first
    | with_reducible assumption
    | ((try lift_lets); intro x; refine (fun (_ : Keeps b x) => ?_) ?_; (on_goal 2 => subst x); clear_value x)
    | intro _
    | exact rfl
    | with_reducible apply ite_keeps
    | with_reducible refine foldl_keeps ?_ _ _ (fun _ _ _ => ?_)
    | with_reducible refine foldl_snd_keeps _ ?_ _ _ (fun _ _ _ => ?_)
    | with_reducible apply State.cpSettle_keeps
    | with_reducible apply State.freshCeil_keeps
    | with_reducible apply State.hold_keeps
    | with_reducible apply State.probe_keeps
    | with_reducible apply State.settlePorts_keeps
    | split

theorem State.loadPorts_keeps {b s : State} (h : Keeps b s) (c : CfgImage) : Keeps b (State.loadPorts s c) := by
  unfold State.loadPorts
  repeat' first
    | with_reducible assumption
    | intro _
    | exact rfl
    | with_reducible apply ite_keeps
    | with_reducible apply State.applyRegs_keeps
    | with_reducible apply State.portsChanged_keeps

theorem State.loadBufs_keeps {b s : State} (h : Keeps b s) (c : CfgImage) : Keeps b (State.loadBufs s c) := by
  unfold State.loadBufs
  repeat' first
    | with_reducible assumption
    | intro _
    | exact rfl
    | with_reducible apply ite_keeps
    | with_reducible refine foldl_keeps ?_ _ _ (fun _ _ _ => ?_)
    | with_reducible refine foldl_snd_keeps _ ?_ _ _ (fun _ _ _ => ?_)
    | with_reducible apply State.modBuf_keeps

theorem State.cansChanged_keeps {b s : State} (h : Keeps b s) (old : List (List Nat)) : Keeps b (State.cansChanged s old) := by
  unfold State.cansChanged
  repeat' first
    | with_reducible assumption
    | ((try lift_lets); intro x; refine (fun (_ : Keeps b x) => ?_) ?_; (on_goal 2 => subst x); clear_value x)
    | intro _
    | exact rfl
    | with_reducible apply ite_keeps
    | with_reducible refine foldl_keeps ?_ _ _ (fun _ _ _ => ?_)
    | with_reducible refine foldl_snd_keeps _ ?_ _ _ (fun _ _ _ => ?_)
    | with_reducible apply State.canInit_keeps
    | with_reducible apply State.canSettle_keeps

theorem State.loadCan_keeps {b s : State} (h : Keeps b s) (c : CfgImage) : Keeps b (State.loadCan s c) := by
  unfold State.loadCan
  repeat' first
    | with_reducible assumption
    | ((try lift_lets); intro x; refine (fun (_ : Keeps b x) => ?_) ?_; (on_goal 2 => subst x); clear_value x)
    | ((try lift_lets); intro x; clear_value x)
    | intro _
    | exact rfl
    | with_reducible apply ite_keeps
    | with_reducible apply State.applyRegs_keeps
    | with_reducible apply State.cansChanged_keeps
    | with_reducible apply State.loadBufs_keeps

theorem State.loadMaps_keeps {b s : State} (h : Keeps b s) (c : CfgImage) : Keeps b (State.loadMaps s c) := by
  unfold State.loadMaps
  repeat' first
    | with_reducible assumption
    | ((try lift_lets); intro x; refine (fun (_ : Keeps b x) => ?_) ?_; (on_goal 2 => subst x); clear_value x)
    | intro _
    | exact rfl
    | with_reducible apply ite_keeps
    | with_reducible apply State.applyRegs_keeps
    | with_reducible apply State.gwRestart_keeps
    | with_reducible apply State.modCon_keeps
    | with_reducible apply State.set_keeps
    | split

theorem State.sluiceChanged_keeps {b s : State} (h : Keeps b s) (old : List (List Nat)) : Keeps b (State.sluiceChanged s old) := by
  unfold State.sluiceChanged
  repeat' first
    | with_reducible assumption
    | intro _
    | exact rfl
    | with_reducible apply ite_keeps
    | with_reducible refine foldl_keeps ?_ _ _ (fun _ _ _ => ?_)
    | with_reducible refine foldl_snd_keeps _ ?_ _ _ (fun _ _ _ => ?_)
    | ((with_reducible apply State.modTally_keeps); on_goal 2 => exact fun _ h => h)
    | with_reducible apply State.modTally_keeps
    | with_reducible apply State.set_keeps

theorem State.loadSluice_keeps {b s : State} (h : Keeps b s) (c : CfgImage) : Keeps b (State.loadSluice s c) := by
  unfold State.loadSluice
  repeat' first
    | with_reducible assumption
    | intro _
    | exact rfl
    | with_reducible apply ite_keeps
    | with_reducible apply State.applyRegs_keeps
    | with_reducible apply State.sluiceChanged_keeps

theorem State.loadRights_keeps {b s : State} (h : Keeps b s) (c : CfgImage) : Keeps b (State.loadRights s c) := by
  unfold State.loadRights
  repeat' first
    | with_reducible assumption
    | ((try lift_lets); intro x; refine (fun (_ : Keeps b x) => ?_) ?_; (on_goal 2 => subst x); clear_value x)
    | intro _
    | exact rfl
    | with_reducible apply ite_keeps
    | with_reducible refine foldl_keeps ?_ _ _ (fun _ _ _ => ?_)
    | with_reducible refine foldl_snd_keeps _ ?_ _ _ (fun _ _ _ => ?_)
    | with_reducible apply State.applyRegs_keeps
    | with_reducible apply State.disableQueue_keeps
    | with_reducible apply State.setWord_keeps

theorem State.defaultRights_keeps {b s : State} (h : Keeps b s) : Keeps b (State.defaultRights s) := by
  unfold State.defaultRights
  repeat' first
    | with_reducible assumption
    | intro _
    | exact rfl
    | with_reducible apply ite_keeps
    | with_reducible refine foldl_keeps ?_ _ _ (fun _ _ _ => ?_)
    | with_reducible refine foldl_snd_keeps _ ?_ _ _ (fun _ _ _ => ?_)
    | with_reducible apply State.set_keeps

theorem State.loadPubs_keeps {b s : State} (h : Keeps b s) (c : CfgImage) : Keeps b (State.loadPubs s c) := by
  unfold State.loadPubs
  repeat' first
    | with_reducible assumption
    | ((try lift_lets); intro x; clear_value x)
    | intro _
    | exact rfl
    | with_reducible apply ite_keeps
    | with_reducible apply State.modMill_keeps

theorem State.showPlacement_keeps {b s : State} (h : Keeps b s) : Keeps b (State.showPlacement s) := by
  unfold State.showPlacement
  repeat' first
    | with_reducible assumption
    | intro _
    | exact rfl
    | with_reducible apply ite_keeps
    | with_reducible apply State.flag_keeps

theorem State.loadPlatform_keeps {b s : State} (h : Keeps b s) (c : CfgImage) (boot : Bool) : Keeps b (State.loadPlatform s c boot) := by
  unfold State.loadPlatform
  repeat' first
    | with_reducible assumption
    | ((try lift_lets); intro x; refine (fun (_ : Keeps b x) => ?_) ?_; (on_goal 2 => subst x); clear_value x)
    | intro _
    | exact rfl
    | with_reducible apply ite_keeps
    | with_reducible apply State.applyRegs_keeps
    | ((with_reducible apply State.modSec_keeps); on_goal 2 => exact fun _ => ⟨Nat.le_refl _, Nat.le_refl _⟩)
    | with_reducible apply State.showPlacement_keeps

theorem State.loadRules_keeps {b s : State} (h : Keeps b s) (c : CfgImage) : Keeps b (State.loadRules s c) := by
  unfold State.loadRules
  repeat' first
    | with_reducible assumption
    | intro _
    | exact rfl
    | with_reducible apply ite_keeps
    | with_reducible apply State.applyRegs_keeps
    | with_reducible apply State.modConf_keeps

theorem State.loadImage_keeps {b s : State} (h : Keeps b s) (c : CfgImage) (boot rules first : Bool) : Keeps b (State.loadImage s c boot rules first) := by
  unfold State.loadImage
  repeat' first
    | with_reducible assumption
    | ((try lift_lets); intro x; refine (fun (_ : Keeps b x) => ?_) ?_; (on_goal 2 => subst x); clear_value x)
    | intro _
    | exact rfl
    | with_reducible apply ite_keeps
    | with_reducible apply State.applyRegs_keeps
    | with_reducible apply State.loadCan_keeps
    | with_reducible apply State.loadMaps_keeps
    | with_reducible apply State.loadPlatform_keeps
    | with_reducible apply State.loadPorts_keeps
    | with_reducible apply State.loadPubs_keeps
    | with_reducible apply State.loadRights_keeps
    | with_reducible apply State.loadRules_keeps
    | with_reducible apply State.loadSluice_keeps
    | with_reducible apply State.modConf_keeps
    | with_reducible apply State.set_keeps
    | with_reducible apply State.takeIdentity_keeps

theorem State.canStart_keeps {b s : State} (h : Keeps b s) : Keeps b (State.canStart s) := by
  unfold State.canStart
  repeat' first
    | with_reducible assumption
    | ((try lift_lets); intro x; refine (fun (_ : Keeps b x) => ?_) ?_; (on_goal 2 => subst x); clear_value x)
    | intro _
    | exact rfl
    | with_reducible apply ite_keeps
    | with_reducible refine foldl_keeps ?_ _ _ (fun _ _ _ => ?_)
    | with_reducible refine foldl_snd_keeps _ ?_ _ _ (fun _ _ _ => ?_)
    | with_reducible apply State.canIrq_keeps
    | with_reducible apply State.canSettle_keeps
    | with_reducible apply State.modCtl_keeps
    | with_reducible apply State.set_keeps

theorem State.domainUp_keeps {b s : State} (h : Keeps b s) (n : Nat) : Keeps b (State.domainUp s n) := by
  unfold State.domainUp
  repeat' first
    | with_reducible assumption
    | ((try lift_lets); intro x; refine (fun (_ : Keeps b x) => ?_) ?_; (on_goal 2 => subst x); clear_value x)
    | intro _
    | exact rfl
    | with_reducible apply ite_keeps
    | with_reducible refine foldl_keeps ?_ _ _ (fun _ _ _ => ?_)
    | with_reducible refine foldl_snd_keeps _ ?_ _ _ (fun _ _ _ => ?_)
    | with_reducible apply State.applyRegs_keeps
    | with_reducible apply State.canStart_keeps
    | with_reducible apply State.cpSettle_keeps
    | with_reducible apply State.loadBufs_keeps
    | with_reducible apply State.modPower_keeps
    | with_reducible apply State.setBits_keeps
    | with_reducible apply State.settlePorts_keeps
    | split

theorem State.domainDown_keeps {b s : State} (h : Keeps b s) (n : Nat) : Keeps b (State.domainDown s n) := by
  unfold State.domainDown
  repeat' first
    | with_reducible assumption
    | ((try lift_lets); intro x; refine (fun (_ : Keeps b x) => ?_) ?_; (on_goal 2 => subst x); clear_value x)
    | ((try lift_lets); intro x; clear_value x)
    | intro _
    | exact rfl
    | with_reducible apply ite_keeps
    | with_reducible refine foldl_keeps ?_ _ _ (fun _ _ _ => ?_)
    | with_reducible refine foldl_snd_keeps _ ?_ _ _ (fun _ _ _ => ?_)
    | with_reducible apply State.canOff_keeps
    | with_reducible apply State.clrBits_keeps
    | with_reducible apply State.complete_keeps
    | with_reducible apply State.cpSettle_keeps
    | with_reducible apply State.hostsOff_keeps
    | with_reducible apply State.settlePorts_keeps

theorem State.showSlots_keeps {b s : State} (h : Keeps b s) : Keeps b (State.showSlots s) := by
  unfold State.showSlots
  repeat' first
    | with_reducible assumption
    | ((try lift_lets); intro x; refine (fun (_ : Keeps b x) => ?_) ?_; (on_goal 2 => subst x); clear_value x)
    | ((try lift_lets); intro x; clear_value x)
    | intro _
    | exact rfl
    | with_reducible apply ite_keeps
    | with_reducible apply State.flag_keeps
    | with_reducible apply State.modConf_keeps
    | with_reducible apply State.set_keeps

theorem State.showWait_keeps {b s : State} (h : Keeps b s) : Keeps b (State.showWait s) := by
  unfold State.showWait
  repeat' first
    | with_reducible assumption
    | ((try lift_lets); intro x; refine (fun (_ : Keeps b x) => ?_) ?_; (on_goal 2 => subst x); clear_value x)
    | ((try lift_lets); intro x; clear_value x)
    | intro _
    | exact rfl
    | with_reducible apply ite_keeps
    | with_reducible apply State.flag_keeps
    | with_reducible apply State.modConf_keeps

theorem State.setWait_keeps {b s : State} (h : Keeps b s) (w : Option CfgWait) : Keeps b (State.setWait s w) := by
  unfold State.setWait
  repeat' first
    | with_reducible assumption
    | intro _
    | exact rfl
    | with_reducible apply ite_keeps
    | with_reducible apply State.modConf_keeps
    | with_reducible apply State.showWait_keeps

theorem State.endWait_keeps {b s : State} (h : Keeps b s) (status rval : Nat) : Keeps b (State.endWait s status rval) := by
  unfold State.endWait
  repeat' first
    | with_reducible assumption
    | intro _
    | exact rfl
    | with_reducible apply ite_keeps
    | with_reducible apply State.complete_keeps
    | split

theorem State.bringUp_keeps {b s : State} (h : Keeps b s) : Keeps b (State.bringUp s) := by
  unfold State.bringUp
  repeat' first
    | with_reducible assumption
    | ((try lift_lets); intro x; refine (fun (_ : Keeps b x) => ?_) ?_; (on_goal 2 => subst x); clear_value x)
    | intro _
    | exact rfl
    | with_reducible apply ite_keeps
    | with_reducible refine foldl_keeps ?_ _ _ (fun _ _ _ => ?_)
    | with_reducible refine foldl_snd_keeps _ ?_ _ _ (fun _ _ _ => ?_)
    | with_reducible apply State.domainUp_keeps
    | with_reducible apply State.set_keeps

theorem State.takeImage_keeps {b s : State} (h : Keeps b s) (rules first : Bool) : Keeps b (State.takeImage s rules first) := by
  unfold State.takeImage
  repeat' first
    | with_reducible assumption
    | ((try lift_lets); intro x; refine (fun (_ : Keeps b x) => ?_) ?_; (on_goal 2 => subst x); clear_value x)
    | intro _
    | exact rfl
    | with_reducible apply ite_keeps
    | with_reducible apply State.bringUp_keeps
    | with_reducible apply State.certify_keeps
    | with_reducible apply State.loadImage_keeps
    | with_reducible apply State.measConfig_keeps
    | with_reducible apply State.relays_keeps
    | with_reducible apply State.releaseFallback_keeps
    | with_reducible apply State.settleLine_keeps
    | with_reducible apply State.showSlots_keeps
    | split

theorem State.activate_keeps {b s : State} (h : Keeps b s) (rules : Bool) : Keeps b (State.activate s rules) := by
  unfold State.activate
  repeat' first
    | with_reducible assumption
    | ((try lift_lets); intro x; refine (fun (_ : Keeps b x) => ?_) ?_; (on_goal 2 => subst x); clear_value x)
    | ((try lift_lets); intro x; clear_value x)
    | intro _
    | exact rfl
    | with_reducible apply ite_keeps
    | with_reducible apply State.endWait_keeps
    | with_reducible apply State.inc_keeps
    | with_reducible apply State.modConf_keeps
    | with_reducible apply State.record_keeps
    | with_reducible apply State.set_keeps
    | with_reducible apply State.setWait_keeps
    | with_reducible apply State.takeImage_keeps
    | with_reducible apply State.writeSlots_keeps
    | split

theorem State.rollbackDone_keeps {b s : State} (h : Keeps b s) (tenant : Nat) (cause : Option Nat) : Keeps b (State.rollbackDone s tenant cause) := by
  unfold State.rollbackDone
  repeat' first
    | with_reducible assumption
    | ((try lift_lets); intro x; clear_value x)
    | intro _
    | exact rfl
    | with_reducible apply ite_keeps
    | with_reducible apply State.inc_keeps
    | with_reducible apply State.record_keeps
    | with_reducible apply State.set_keeps
    | split

theorem State.dropTrial_keeps {b s : State} (h : Keeps b s) : Keeps b (State.dropTrial s) := by
  unfold State.dropTrial
  repeat' first
    | with_reducible assumption
    | intro _
    | exact rfl
    | with_reducible apply ite_keeps
    | with_reducible apply State.modConf_keeps
    | with_reducible apply State.set_keeps

theorem State.rollTo_keeps {b s : State} (h : Keeps b s) (c : CfgImage) (rules : Bool) (tenant : Nat) (cause : Option Nat) : Keeps b (State.rollTo s c rules tenant cause) := by
  unfold State.rollTo
  repeat' first
    | with_reducible assumption
    | ((try lift_lets); intro x; refine (fun (_ : Keeps b x) => ?_) ?_; (on_goal 2 => subst x); clear_value x)
    | intro _
    | exact rfl
    | with_reducible apply ite_keeps
    | with_reducible apply State.dropTrial_keeps
    | with_reducible apply State.endWait_keeps
    | with_reducible apply State.modConf_keeps
    | with_reducible apply State.rollbackDone_keeps
    | with_reducible apply State.setWait_keeps
    | with_reducible apply State.takeImage_keeps
    | with_reducible apply State.writeSlots_keeps

theorem State.holdRollback_keeps {b s : State} (h : Keeps b s) (c : CfgImage) (w : CfgWait) : Keeps b (State.holdRollback s c w) := by
  unfold State.holdRollback
  repeat' first
    | with_reducible assumption
    | ((try lift_lets); intro x; refine (fun (_ : Keeps b x) => ?_) ?_; (on_goal 2 => subst x); clear_value x)
    | intro _
    | exact rfl
    | with_reducible apply ite_keeps
    | with_reducible apply State.dropTrial_keeps
    | with_reducible apply State.modConf_keeps
    | with_reducible apply State.record_keeps
    | with_reducible apply State.setWait_keeps
    | with_reducible apply State.showSlots_keeps
    | with_reducible apply State.writeSlots_keeps

theorem State.rollback_keeps {b s : State} (h : Keeps b s) (w : CfgWait) : Keeps b (State.rollback s w) := by
  unfold State.rollback
  repeat' first
    | with_reducible assumption
    | intro _
    | exact rfl
    | with_reducible apply ite_keeps
    | with_reducible apply State.dropTrial_keeps
    | with_reducible apply State.endWait_keeps
    | with_reducible apply State.holdRollback_keeps
    | with_reducible apply State.rollTo_keeps
    | with_reducible apply State.rollbackDone_keeps
    | with_reducible apply State.setWait_keeps
    | with_reducible apply State.writeSlots_keeps
    | split

theorem State.adoptRules_keeps {b s : State} (h : Keeps b s) : Keeps b (State.adoptRules s) := by
  unfold State.adoptRules
  repeat' first
    | with_reducible assumption
    | intro _
    | exact rfl
    | with_reducible apply ite_keeps
    | with_reducible apply State.activate_keeps
    | with_reducible apply State.rollTo_keeps
    | split

theorem State.showBanks_keeps {b s : State} (h : Keeps b s) : Keeps b (State.showBanks s) := by
  unfold State.showBanks
  repeat' first
    | with_reducible assumption
    | ((try lift_lets); intro x; refine (fun (_ : Keeps b x) => ?_) ?_; (on_goal 2 => subst x); clear_value x)
    | ((try lift_lets); intro x; clear_value x)
    | intro _
    | exact rfl
    | with_reducible apply ite_keeps
    | with_reducible apply State.flag_keeps
    | with_reducible apply State.set_keeps

theorem State.endStaging_keeps {b s : State} (h : Keeps b s) (t q i : Nat) (g : Staging) (sig : Bool) : Keeps b (State.endStaging s t q i g sig) := by
  unfold State.endStaging
  repeat' first
    | with_reducible assumption
    | ((try lift_lets); intro x; refine (fun (_ : Keeps b x) => ?_) ?_; (on_goal 2 => subst x); clear_value x)
    | intro _
    | exact rfl
    | with_reducible apply ite_keeps
    | with_reducible apply State.complete_keeps
    | with_reducible apply State.modBoot_keeps
    | with_reducible apply State.modConf_keeps
    | with_reducible apply State.modHost_keeps
    | with_reducible apply State.record_keeps
    | with_reducible apply State.showBanks_keeps
    | with_reducible apply State.showSlots_keeps
    | with_reducible apply State.writeSlots_keeps
    | split

theorem State.pieceWritten_keeps {b s : State} (h : Keeps b s) (t q i : Nat) : Keeps b (State.pieceWritten s t q i) := by
  unfold State.pieceWritten
  repeat' first
    | with_reducible assumption
    | intro _
    | exact rfl
    | with_reducible apply ite_keeps
    | with_reducible apply State.complete_keeps
    | with_reducible apply State.endStaging_keeps
    | split

theorem State.abandon_keeps {b s : State} (h : Keeps b s) (t : Nat) : Keeps b (State.abandon s t) := by
  unfold State.abandon
  repeat' first
    | with_reducible assumption
    | ((try lift_lets); intro x; clear_value x)
    | intro _
    | exact rfl
    | with_reducible apply ite_keeps
    | with_reducible apply State.modHost_keeps
    | with_reducible apply State.modPower_keeps

theorem State.beginStaging_keeps {b s : State} (h : Keeps b s) (t kind total : Nat) : Keeps b (State.beginStaging s t kind total) := by
  unfold State.beginStaging
  repeat' first
    | with_reducible assumption
    | ((try lift_lets); intro x; refine (fun (_ : Keeps b x) => ?_) ?_; (on_goal 2 => subst x); clear_value x)
    | intro _
    | exact rfl
    | with_reducible apply ite_keeps
    | with_reducible apply State.modBoot_keeps
    | with_reducible apply State.modConf_keeps
    | with_reducible apply State.modHost_keeps
    | with_reducible apply State.showBanks_keeps
    | with_reducible apply State.showSlots_keeps

theorem State.configStage_keeps {b s : State} (h : Keeps b s) (t q i : Nat) (d : Desc) (given : List Byte) (sig : Bool) : Keeps b (State.configStage s t q i d given sig) := by
  unfold State.configStage
  repeat' first
    | with_reducible assumption
    | ((try lift_lets); intro x; clear_value x)
    | intro _
    | exact rfl
    | with_reducible apply ite_keeps
    | with_reducible apply State.abandon_keeps
    | with_reducible apply State.beginStaging_keeps
    | with_reducible apply State.bulkStart_keeps
    | with_reducible apply State.complete_keeps
    | with_reducible apply State.failCheck_keeps
    | with_reducible apply State.modHost_keeps
    | with_reducible apply State.readStall_keeps
    | with_reducible apply State.startWork_keeps
    | with_reducible apply State.takeBuf_keeps

theorem State.activateConfig_keeps {b s : State} (h : Keeps b s) (t q i partner : Nat) : Keeps b (State.activateConfig s t q i partner) := by
  unfold State.activateConfig
  repeat' first
    | with_reducible assumption
    | ((try lift_lets); intro x; refine (fun (hx : ∀ y0, Keeps b (x y0)) => ?_) ?_; (on_goal 2 => subst x); clear_value x)
    | intro _
    | exact rfl
    | with_reducible apply ite_keeps
    | with_reducible apply State.activate_keeps
    | with_reducible apply State.complete_keeps
    | with_reducible apply State.setWait_keeps
    | with_reducible apply State.startWork_keeps
    | split
    | refine Keeps.ofSnd ?_ (by assumption)
    | refine Keeps.ofThird ?_ (by assumption)
    | refine Keeps.ofFourth ?_ (by assumption)
    | with_reducible apply hx

theorem State.activateFirmware_keeps {b s : State} (h : Keeps b s) (t q i : Nat) (measured : Bool) : Keeps b (State.activateFirmware s t q i measured) := by
  unfold State.activateFirmware
  repeat' first
    | with_reducible assumption
    | ((try lift_lets); intro x; clear_value x)
    | intro _
    | exact rfl
    | with_reducible apply ite_keeps
    | with_reducible apply State.complete_keeps
    | with_reducible apply State.modBoot_keeps
    | with_reducible apply State.startWork_keeps

theorem State.confirmTrial_keeps {b s : State} (h : Keeps b s) (t q i kind : Nat) : Keeps b (State.confirmTrial s t q i kind) := by
  unfold State.confirmTrial
  repeat' first
    | with_reducible assumption
    | ((try lift_lets); intro x; refine (fun (_ : Keeps b x) => ?_) ?_; (on_goal 2 => subst x); clear_value x)
    | intro _
    | exact rfl
    | with_reducible apply ite_keeps
    | with_reducible apply State.complete_keeps
    | with_reducible apply State.modBoot_keeps
    | with_reducible apply State.modConf_keeps
    | with_reducible apply State.set_keeps

theorem State.cancelArmed_keeps {b s : State} (h : Keeps b s) (t q i : Nat) : Keeps b (State.cancelArmed s t q i) := by
  unfold State.cancelArmed
  repeat' first
    | with_reducible assumption
    | intro _
    | exact rfl
    | with_reducible apply ite_keeps
    | with_reducible apply State.complete_keeps
    | with_reducible apply State.endWait_keeps
    | with_reducible apply State.setWait_keeps
    | split

theorem State.configRollback_keeps {b s : State} (h : Keeps b s) (t q i kind : Nat) : Keeps b (State.configRollback s t q i kind) := by
  unfold State.configRollback
  repeat' first
    | with_reducible assumption
    | intro _
    | exact rfl
    | with_reducible apply ite_keeps
    | with_reducible apply State.complete_keeps
    | with_reducible apply State.failCheck_keeps
    | with_reducible apply State.rollback_keeps
    | with_reducible apply State.setWait_keeps
    | with_reducible apply State.startWork_keeps

theorem State.checkTrial_keeps {b s : State} (h : Keeps b s) : Keeps b (State.checkTrial s) := by
  unfold State.checkTrial
  repeat' first
    | with_reducible assumption
    | ((try lift_lets); intro x; clear_value x)
    | intro _
    | exact rfl
    | with_reducible apply ite_keeps
    | with_reducible apply State.modConf_keeps

theorem execConfigStage_keeps {b s s1 : State} (h : State.Keeps b s) (t : Fin 17) (q : Fin 16) (i : Nat) (data : List Byte) (sig : Bool) (e : execConfigStage t q i data sig s = .next s1) : State.Keeps b s1 := by
  unfold execConfigStage at e
  cases e
  repeat' first
    | with_reducible assumption
    | intro _
    | exact rfl
    | with_reducible apply ite_keeps
    | with_reducible apply State.configStage_keeps
    | split

theorem execConfigActivate_keeps {b s s1 : State} (h : State.Keeps b s) (t : Fin 17) (q : Fin 16) (i : Nat) (partner : Nat) (measured : Bool) (e : execConfigActivate t q i partner measured s = .next s1) : State.Keeps b s1 := by
  unfold execConfigActivate at e
  cases e
  repeat' first
    | with_reducible assumption
    | intro _
    | exact rfl
    | with_reducible apply ite_keeps
    | with_reducible apply State.activateConfig_keeps
    | with_reducible apply State.activateFirmware_keeps
    | with_reducible apply State.failCheck_keeps
    | split

theorem execConfigConfirm_keeps {b s s1 : State} (h : State.Keeps b s) (t : Fin 17) (q : Fin 16) (i : Nat) (e : execConfigConfirm t q i s = .next s1) : State.Keeps b s1 := by
  unfold execConfigConfirm at e
  cases e
  repeat' first
    | with_reducible assumption
    | intro _
    | exact rfl
    | with_reducible apply ite_keeps
    | with_reducible apply State.confirmTrial_keeps
    | with_reducible apply State.failCheck_keeps
    | split

theorem execConfigCancel_keeps {b s s1 : State} (h : State.Keeps b s) (t : Fin 17) (q : Fin 16) (i : Nat) (e : execConfigCancel t q i s = .next s1) : State.Keeps b s1 := by
  unfold execConfigCancel at e
  cases e
  repeat' first
    | with_reducible assumption
    | intro _
    | exact rfl
    | with_reducible apply ite_keeps
    | with_reducible apply State.cancelArmed_keeps
    | with_reducible apply State.failCheck_keeps
    | split

theorem execConfigRollback_keeps {b s s1 : State} (h : State.Keeps b s) (t : Fin 17) (q : Fin 16) (i : Nat) (e : execConfigRollback t q i s = .next s1) : State.Keeps b s1 := by
  unfold execConfigRollback at e
  cases e
  repeat' first
    | with_reducible assumption
    | intro _
    | exact rfl
    | with_reducible apply ite_keeps
    | with_reducible apply State.configRollback_keeps
    | split

theorem execConfigActivationTick_keeps {b s s1 : State} (h : State.Keeps b s) (e : execConfigActivationTick s = .next s1) : State.Keeps b s1 := by
  unfold execConfigActivationTick at e
  cases e
  repeat' first
    | with_reducible assumption
    | intro _
    | exact rfl
    | with_reducible apply ite_keeps
    | with_reducible apply State.activate_keeps

theorem execConfigTrialEnd_keeps {b s s1 : State} (h : State.Keeps b s) (e : execConfigTrialEnd s = .next s1) : State.Keeps b s1 := by
  unfold execConfigTrialEnd at e
  cases e
  repeat' first
    | with_reducible assumption
    | ((try lift_lets); intro x; refine (fun (_ : Keeps b x) => ?_) ?_; (on_goal 2 => subst x); clear_value x)
    | intro _
    | exact rfl
    | with_reducible apply ite_keeps
    | with_reducible apply State.checkTrial_keeps
    | with_reducible apply State.dropTrial_keeps
    | with_reducible apply State.record_keeps
    | with_reducible apply State.writeSlots_keeps

theorem execConfigRollbackTick_keeps {b s s1 : State} (h : State.Keeps b s) (e : execConfigRollbackTick s = .next s1) : State.Keeps b s1 := by
  unfold execConfigRollbackTick at e
  cases e
  repeat' first
    | with_reducible assumption
    | intro _
    | exact rfl
    | with_reducible apply ite_keeps
    | with_reducible apply State.rollback_keeps
    | split

theorem State.cellOf_keeps {b s : State} (h : Keeps b s) (l : Level) : Keeps b (State.cellOf l s).2 := by
  unfold State.cellOf
  repeat' first
    | with_reducible assumption
    | intro _
    | exact rfl
    | with_reducible apply ite_keeps
    | with_reducible apply ite_snd_keeps
    | with_reducible apply State.signal_keeps
    | with_reducible apply State.take_keeps
    | split

theorem State.freeze_keeps {b s : State} (h : Keeps b s) (cause : Nat) (tear : Bool) : Keeps b (State.freeze s cause tear) := by
  unfold State.freeze
  repeat' first
    | with_reducible assumption
    | ((try lift_lets); intro x; refine (fun (_ : Keeps b x) => ?_) ?_; (on_goal 2 => subst x); clear_value x)
    | ((try lift_lets); intro x; clear_value x)
    | intro _
    | exact rfl
    | with_reducible apply ite_keeps
    | with_reducible apply State.cutFrames_keeps
    | with_reducible apply State.measCycle_keeps
    | with_reducible apply State.modDebug_keeps
    | with_reducible apply State.modPins_keeps
    | with_reducible apply State.relays_keeps
    | with_reducible apply State.set_keeps
    | with_reducible apply State.storeRecs_keeps

theorem State.brakeRefused_keeps {b s : State} (h : Keeps b s) (what : Nat) : Keeps b (State.brakeRefused s what) := by
  unfold State.brakeRefused
  repeat' first
    | with_reducible assumption
    | intro _
    | exact rfl
    | with_reducible apply ite_keeps
    | with_reducible apply State.inc_keeps
    | with_reducible apply State.recordT_keeps

theorem State.brakeRequest_keeps {b s : State} (h : Keeps b s) (cause : Nat) (tear : Bool) : Keeps b (State.brakeRequest s cause tear) := by
  unfold State.brakeRequest
  repeat' first
    | with_reducible assumption
    | intro _
    | exact rfl
    | with_reducible apply ite_keeps
    | with_reducible apply State.brakeRefused_keeps
    | with_reducible apply State.freeze_keeps

theorem State.allowFreeze_keeps {b s : State} (h : Keeps b s) (tear : Bool) : Keeps b (State.allowFreeze s tear) := by
  unfold State.allowFreeze
  repeat' first
    | with_reducible assumption
    | ((try lift_lets); intro x; refine (fun (_ : Keeps b x) => ?_) ?_; (on_goal 2 => subst x); clear_value x)
    | ((try lift_lets); intro x; clear_value x)
    | intro _
    | exact rfl
    | with_reducible apply ite_keeps
    | with_reducible apply State.freeze_keeps
    | with_reducible apply State.set_keeps

theorem State.checkToken_keeps {b s : State} (h : Keeps b s) (tok : List Byte) (sig freezeLow tear : Bool) : Keeps b (State.checkToken s tok sig freezeLow tear) := by
  unfold State.checkToken
  repeat' first
    | with_reducible assumption
    | ((try lift_lets); intro x; refine (fun (_ : Keeps b x) => ?_) ?_; (on_goal 2 => subst x); clear_value x)
    | ((try lift_lets); intro x; clear_value x)
    | intro _
    | exact rfl
    | with_reducible apply ite_keeps
    | with_reducible apply State.allowFreeze_keeps
    | with_reducible apply State.brakeRefused_keeps
    | with_reducible apply State.measCycle_keeps
    | with_reducible apply State.modDebug_keeps
    | with_reducible apply State.modPins_keeps
    | ((with_reducible apply State.modSec_keeps); on_goal 2 => exact fun _ => ⟨Nat.le_refl _, Nat.le_refl _⟩)
    | with_reducible apply State.recordT_keeps
    | with_reducible apply State.set_keeps

theorem State.loadIr_keeps {b s : State} (h : Keeps b s) (code : Nat) : Keeps b (State.loadIr s code) := by
  unfold State.loadIr
  repeat' first
    | with_reducible assumption
    | intro _
    | exact rfl
    | with_reducible apply ite_keeps
    | with_reducible apply State.modDebug_keeps

theorem State.pinBytes_keeps {b s : State} (h : Keeps b s) : Keeps b (State.pinBytes s).2 := by
  unfold State.pinBytes
  repeat' first
    | with_reducible assumption
    | ((try lift_lets); intro x; clear_value x)
    | intro _
    | exact rfl
    | with_reducible apply ite_keeps
    | with_reducible apply ite_snd_keeps
    | with_reducible refine foldl_keeps ?_ _ _ (fun _ _ _ => ?_)
    | with_reducible refine foldl_snd_keeps _ ?_ _ _ (fun _ _ _ => ?_)
    | with_reducible apply State.cellOf_keeps

theorem State.captureBalls_keeps {b s : State} (h : Keeps b s) (cells : List Byte) : Keeps b (State.captureBalls s cells) := by
  unfold State.captureBalls
  repeat' first
    | with_reducible assumption
    | intro _
    | exact rfl
    | with_reducible apply ite_keeps
    | with_reducible apply State.emit_keeps
    | with_reducible apply State.modDebug_keeps
    | with_reducible apply State.pinBytes_keeps

theorem execFreezeNLow_keeps {b s s1 : State} (h : State.Keeps b s) (held tear : Bool) (e : execFreezeNLow held tear s = .next s1) : State.Keeps b s1 := by
  unfold execFreezeNLow at e
  cases e
  repeat' first
    | with_reducible assumption
    | intro _
    | exact rfl
    | with_reducible apply ite_keeps
    | with_reducible apply State.brakeRequest_keeps
    | with_reducible apply State.modPins_keeps

theorem execDebugTokenLapse_keeps {b s s1 : State} (h : State.Keeps b s) (e : execDebugTokenLapse s = .next s1) : State.Keeps b s1 := by
  unfold execDebugTokenLapse at e
  cases e
  repeat' first
    | with_reducible assumption
    | ((try lift_lets); intro x; refine (fun (_ : Keeps b x) => ?_) ?_; (on_goal 2 => subst x); clear_value x)
    | intro _
    | exact rfl
    | with_reducible apply ite_keeps
    | with_reducible apply State.flag_keeps
    | with_reducible apply State.modDebug_keeps
    | with_reducible apply State.set_keeps

theorem execBypass_keeps {b s s1 : State} (h : State.Keeps b s) (tdi : List Byte) (e : execBypass tdi s = .next s1) : State.Keeps b s1 := by
  unfold execBypass at e
  cases e
  repeat' first
    | with_reducible assumption
    | intro _
    | exact rfl
    | with_reducible apply ite_keeps
    | with_reducible apply State.emit_keeps
    | with_reducible apply State.loadIr_keeps

theorem execIdcode_keeps {b s s1 : State} (h : State.Keeps b s) (e : execIdcode s = .next s1) : State.Keeps b s1 := by
  unfold execIdcode at e
  cases e
  repeat' first
    | with_reducible assumption
    | intro _
    | exact rfl
    | with_reducible apply ite_keeps
    | with_reducible apply State.emit_keeps
    | with_reducible apply State.loadIr_keeps

theorem execSamplePreload_keeps {b s s1 : State} (h : State.Keeps b s) (cells : List Byte) (e : execSamplePreload cells s = .next s1) : State.Keeps b s1 := by
  unfold execSamplePreload at e
  cases e
  repeat' first
    | with_reducible assumption
    | intro _
    | exact rfl
    | with_reducible apply ite_keeps
    | with_reducible apply State.captureBalls_keeps
    | with_reducible apply State.loadIr_keeps

theorem execExtest_keeps {b s s1 : State} (h : State.Keeps b s) (cells : List Byte) (e : execExtest cells s = .next s1) : State.Keeps b s1 := by
  unfold execExtest at e
  cases e
  repeat' first
    | with_reducible assumption
    | intro _
    | exact rfl
    | with_reducible apply ite_keeps
    | with_reducible apply State.captureBalls_keeps
    | with_reducible apply State.emit_keeps
    | with_reducible apply State.loadIr_keeps

theorem execNonce_keeps {b s s1 : State} (h : State.Keeps b s) (e : execNonce s = .next s1) : State.Keeps b s1 := by
  unfold execNonce at e
  cases e
  repeat' first
    | with_reducible assumption
    | intro _
    | exact rfl
    | with_reducible apply ite_keeps
    | with_reducible apply State.emit_keeps
    | with_reducible apply State.loadIr_keeps
    | with_reducible apply State.modDebug_keeps
    | with_reducible apply State.takeRandom_keeps

theorem execToken_keeps {b s s1 : State} (h : State.Keeps b s) (tok : List Byte) (sig freezeLow tear : Bool) (e : execToken tok sig freezeLow tear s = .next s1) : State.Keeps b s1 := by
  unfold execToken at e
  cases e
  repeat' first
    | with_reducible assumption
    | intro _
    | exact rfl
    | with_reducible apply ite_keeps
    | with_reducible apply State.checkToken_keeps
    | with_reducible apply State.loadIr_keeps

theorem execDiagStatus_keeps {b s s1 : State} (h : State.Keeps b s) (e : execDiagStatus s = .next s1) : State.Keeps b s1 := by
  unfold execDiagStatus at e
  cases e
  repeat' first
    | with_reducible assumption
    | intro _
    | exact rfl
    | with_reducible apply ite_keeps
    | with_reducible apply State.emit_keeps
    | with_reducible apply State.loadIr_keeps

theorem execFreeze_keeps {b s s1 : State} (h : State.Keeps b s) (tear : Bool) (e : execFreeze tear s = .next s1) : State.Keeps b s1 := by
  unfold execFreeze at e
  cases e
  repeat' first
    | with_reducible assumption
    | intro _
    | exact rfl
    | with_reducible apply ite_keeps
    | with_reducible apply State.brakeRequest_keeps
    | with_reducible apply State.loadIr_keeps

theorem execRoAddr_keeps {b s s1 : State} (h : State.Keeps b s) (addr : Word) (e : execRoAddr addr s = .next s1) : State.Keeps b s1 := by
  unfold execRoAddr at e
  cases e
  repeat' first
    | with_reducible assumption
    | intro _
    | exact rfl
    | with_reducible apply ite_keeps
    | with_reducible apply State.loadIr_keeps
    | with_reducible apply State.modDebug_keeps

theorem State.measureVin_keeps {b s : State} (h : Keeps b s) (vin low : Nat) : Keeps b (State.measureVin s vin low) := by
  unfold State.measureVin
  repeat' first
    | with_reducible assumption
    | intro _
    | exact rfl
    | with_reducible apply ite_keeps
    | with_reducible apply State.set_keeps

theorem State.askOff_keeps {b s : State} (h : Keeps b s) (n : Nat) : Keeps b (State.askOff s n).2 := by
  unfold State.askOff
  repeat' first
    | with_reducible assumption
    | intro _
    | exact rfl
    | with_reducible apply ite_keeps
    | with_reducible apply ite_snd_keeps
    | with_reducible apply State.domainDown_keeps
    | with_reducible apply State.setBits_keeps

theorem State.askOn_keeps {b s : State} (h : Keeps b s) (n : Nat) : Keeps b (State.askOn s n) := by
  unfold State.askOn
  repeat' first
    | with_reducible assumption
    | intro _
    | exact rfl
    | with_reducible apply ite_keeps
    | with_reducible apply State.modPower_keeps

theorem State.writeSw_keeps {b s : State} (h : Keeps b s) (v : Nat) : Keeps b (State.writeSw s v) := by
  unfold State.writeSw
  repeat' first
    | with_reducible assumption
    | ((try lift_lets); intro x; refine (fun (_ : Keeps b x) => ?_) ?_; (on_goal 2 => subst x); clear_value x)
    | intro _
    | exact rfl
    | with_reducible apply ite_keeps
    | with_reducible refine foldl_keeps ?_ _ _ (fun _ _ _ => ?_)
    | with_reducible refine foldl_snd_keeps _ ?_ _ _ (fun _ _ _ => ?_)
    | with_reducible apply State.askOff_keeps
    | with_reducible apply State.askOn_keeps
    | with_reducible apply State.modPower_keeps
    | with_reducible apply State.set_keeps

theorem State.enterSlack_keeps {b s : State} (h : Keeps b s) (vin : Nat) : Keeps b (State.enterSlack s vin) := by
  unfold State.enterSlack
  repeat' first
    | with_reducible assumption
    | ((try lift_lets); intro x; refine (fun (_ : Keeps b x) => ?_) ?_; (on_goal 2 => subst x); clear_value x)
    | intro _
    | exact rfl
    | with_reducible apply ite_keeps
    | with_reducible apply State.inc_keeps
    | with_reducible apply State.measureVin_keeps
    | with_reducible apply State.modPower_keeps
    | ((with_reducible apply State.modTally_keeps); on_goal 2 => exact fun _ h => h)
    | with_reducible apply State.modTally_keeps
    | with_reducible apply State.set_keeps

theorem State.shed_keeps {b s : State} (h : Keeps b s) : Keeps b (State.shed s) := by
  unfold State.shed
  repeat' first
    | with_reducible assumption
    | ((try lift_lets); intro x; refine (fun (_ : Keeps b x) => ?_) ?_; (on_goal 2 => subst x); clear_value x)
    | intro _
    | exact rfl
    | with_reducible apply ite_keeps
    | with_reducible refine foldl_keeps ?_ _ _ (fun _ _ _ => ?_)
    | with_reducible refine foldl_snd_keeps _ ?_ _ _ (fun _ _ _ => ?_)
    | with_reducible apply State.askOff_keeps
    | with_reducible apply State.flag_keeps
    | with_reducible apply State.modPower_keeps

theorem State.leaveSlack_keeps {b s : State} (h : Keeps b s) (low dur : Nat) : Keeps b (State.leaveSlack s low dur) := by
  unfold State.leaveSlack
  repeat' first
    | with_reducible assumption
    | ((try lift_lets); intro x; refine (fun (_ : Keeps b x) => ?_) ?_; (on_goal 2 => subst x); clear_value x)
    | ((try lift_lets); intro x; clear_value x)
    | intro _
    | exact rfl
    | with_reducible apply ite_keeps
    | with_reducible refine foldl_keeps ?_ _ _ (fun _ _ _ => ?_)
    | with_reducible refine foldl_snd_keeps _ ?_ _ _ (fun _ _ _ => ?_)
    | with_reducible apply State.askOn_keeps
    | with_reducible apply State.inc_keeps
    | with_reducible apply State.modPower_keeps
    | with_reducible apply State.recordT_keeps
    | with_reducible apply State.set_keeps

theorem State.deferredHead_keeps {b s : State} (h : Keeps b s) (fail : Option Nat) : Keeps b (State.deferredHead s fail) := by
  unfold State.deferredHead
  repeat' first
    | with_reducible assumption
    | intro _
    | exact rfl
    | with_reducible apply ite_keeps
    | with_reducible apply State.modPower_keeps
    | with_reducible apply State.mramApply_keeps
    | split

theorem State.bulkDone_keeps {b s : State} (h : Keeps b s) (d : BulkData) : Keeps b (State.bulkDone s d) := by
  unfold State.bulkDone
  repeat' first
    | with_reducible assumption
    | intro _
    | exact rfl
    | with_reducible apply ite_keeps
    | with_reducible apply State.modRed_keeps
    | with_reducible apply State.pieceWritten_keeps
    | split

theorem State.bulkUnit_keeps {b s : State} (h : Keeps b s) : Keeps b (State.bulkUnit s) := by
  unfold State.bulkUnit
  repeat' first
    | with_reducible assumption
    | intro _
    | exact rfl
    | with_reducible apply ite_keeps
    | with_reducible apply State.bulkDone_keeps
    | with_reducible apply State.modPower_keeps
    | split

theorem State.trickle_keeps {b s : State} (h : Keeps b s) (vin : Nat) (fail : Option Nat) : Keeps b (State.trickle s vin fail) := by
  unfold State.trickle
  repeat' first
    | with_reducible assumption
    | ((try lift_lets); intro x; refine (fun (_ : Keeps b x) => ?_) ?_; (on_goal 2 => subst x); clear_value x)
    | intro _
    | exact rfl
    | with_reducible apply ite_keeps
    | with_reducible apply State.deferredHead_keeps
    | with_reducible apply State.measureVin_keeps
    | with_reducible apply State.modPower_keeps
    | with_reducible apply State.set_keeps
    | with_reducible apply State.up_keeps
    | with_reducible apply State.writeUnit_keeps

theorem State.flushDone_keeps {b s : State} (h : Keeps b s) : Keeps b (State.flushDone s) := by
  unfold State.flushDone
  repeat' first
    | with_reducible assumption
    | intro _
    | exact rfl
    | with_reducible apply ite_keeps
    | with_reducible apply State.ran_keeps

theorem State.unitDone_keeps {b s : State} (h : Keeps b s) (fail : Option Nat) : Keeps b (State.unitDone s fail) := by
  unfold State.unitDone
  repeat' first
    | with_reducible assumption
    | intro _
    | exact rfl
    | with_reducible apply ite_keeps
    | with_reducible apply State.bulkUnit_keeps
    | with_reducible apply State.deferredHead_keeps
    | with_reducible apply State.flushDone_keeps
    | ((with_reducible apply State.modTally_keeps); on_goal 2 => exact fun _ h => h)
    | with_reducible apply State.modTally_keeps
    | with_reducible apply State.writeUnit_keeps
    | split

theorem State.sense_keeps {b s : State} (h : Keeps b s) (m : Sensed) : Keeps b (State.sense s m) := by
  unfold State.sense
  repeat' first
    | with_reducible assumption
    | ((try lift_lets); intro x; refine (fun (_ : Keeps b x) => ?_) ?_; (on_goal 2 => subst x); clear_value x)
    | intro _
    | exact rfl
    | with_reducible apply ite_keeps
    | with_reducible refine foldl_keeps ?_ _ _ (fun _ _ _ => ?_)
    | with_reducible refine foldl_snd_keeps _ ?_ _ _ (fun _ _ _ => ?_)
    | with_reducible apply State.flag_keeps
    | with_reducible apply State.measureVin_keeps
    | with_reducible apply State.memAccess_keeps
    | with_reducible apply State.setInt_keeps
    | split

theorem State.countTime_keeps {b s : State} (h : Keeps b s) : Keeps b (State.countTime s) := by
  unfold State.countTime
  repeat' first
    | with_reducible assumption
    | ((try lift_lets); intro x; clear_value x)
    | intro _
    | exact rfl
    | with_reducible apply ite_keeps
    | with_reducible apply State.modClock_keeps

theorem State.weirsFail_keeps {b s : State} (h : Keeps b s) (why : Nat) : Keeps b (State.weirsFail s why) := by
  unfold State.weirsFail
  repeat' first
    | with_reducible assumption
    | intro _
    | exact rfl
    | with_reducible apply ite_keeps
    | with_reducible apply State.relays_keeps
    | with_reducible apply State.weirFail_keeps

theorem State.gpioPut_keeps {b s : State} (h : Keeps b s) (i : Nat) (rise : Bool) : Keeps b (State.gpioPut s i rise) := by
  unfold State.gpioPut
  repeat' first
    | with_reducible assumption
    | intro _
    | exact rfl
    | with_reducible apply ite_keeps
    | with_reducible apply State.gpioSettle_keeps
    | with_reducible apply State.modPins_keeps

theorem State.turnOn_keeps {b s : State} (h : Keeps b s) : Keeps b (State.turnOn s) := by
  unfold State.turnOn
  repeat' first
    | with_reducible assumption
    | intro _
    | exact rfl
    | with_reducible apply ite_keeps
    | with_reducible apply State.relays_keeps
    | with_reducible apply State.set_keeps
    | with_reducible apply State.settleLine_keeps

theorem State.clearPeak_keeps {b s : State} (h : Keeps b s) : Keeps b (State.clearPeak s) := by
  unfold State.clearPeak
  repeat' first
    | with_reducible assumption
    | intro _
    | exact rfl
    | with_reducible apply ite_keeps
    | with_reducible apply State.modClock_keeps

theorem State.creditBack_keeps {b s : State} (h : Keeps b s) (c : CreditQueue) : Keeps b (State.creditBack s c) := by
  unfold State.creditBack
  repeat' first
    | with_reducible assumption
    | intro _
    | exact rfl
    | with_reducible apply ite_keeps
    | with_reducible refine foldl_keeps ?_ _ _ (fun _ _ _ => ?_)
    | with_reducible refine foldl_snd_keeps _ ?_ _ _ (fun _ _ _ => ?_)
    | with_reducible apply State.canFeed_keeps
    | with_reducible apply State.consistCredit_keeps
    | with_reducible apply State.farStart_keeps
    | with_reducible apply State.flushQueue_keeps
    | with_reducible apply State.overflowRecords_keeps
    | split

theorem execSlackEntry_keeps {b s s1 : State} (h : State.Keeps b s) (vin : Nat) (e : execSlackEntry vin s = .next s1) : State.Keeps b s1 := by
  unfold execSlackEntry at e
  cases e
  repeat' first
    | with_reducible assumption
    | intro _
    | exact rfl
    | with_reducible apply ite_keeps
    | with_reducible apply State.enterSlack_keeps
    | with_reducible apply State.set_keeps

theorem execSlackPersist_keeps {b s s1 : State} (h : State.Keeps b s) (fail : Option Nat) (e : execSlackPersist fail s = .next s1) : State.Keeps b s1 := by
  unfold execSlackPersist at e
  cases e
  repeat' first
    | with_reducible assumption
    | ((try lift_lets); intro x; refine (fun (_ : Keeps b x) => ?_) ?_; (on_goal 2 => subst x); clear_value x)
    | intro _
    | exact rfl
    | with_reducible apply ite_keeps
    | with_reducible apply State.deferUnits_keeps
    | with_reducible apply State.flushDone_keeps
    | with_reducible apply State.modPower_keeps
    | ((with_reducible apply State.modTally_keeps); on_goal 2 => exact fun _ h => h)
    | with_reducible apply State.modTally_keeps
    | with_reducible apply State.persistPtr_keeps

theorem execSlackShed_keeps {b s s1 : State} (h : State.Keeps b s) (e : execSlackShed s = .next s1) : State.Keeps b s1 := by
  unfold execSlackShed at e
  cases e
  repeat' first
    | with_reducible assumption
    | intro _
    | exact rfl
    | with_reducible apply ite_keeps
    | with_reducible apply State.shed_keeps

theorem execSlackExit_keeps {b s s1 : State} (h : State.Keeps b s) (vin low dur : Nat) (e : execSlackExit vin low dur s = .next s1) : State.Keeps b s1 := by
  unfold execSlackExit at e
  cases e
  repeat' first
    | with_reducible assumption
    | intro _
    | exact rfl
    | with_reducible apply ite_keeps
    | with_reducible apply State.leaveSlack_keeps
    | with_reducible apply State.set_keeps

theorem execDeferredTrickleUnit_keeps {b s s1 : State} (h : State.Keeps b s) (vin : Nat) (fail : Option Nat) (e : execDeferredTrickleUnit vin fail s = .next s1) : State.Keeps b s1 := by
  unfold execDeferredTrickleUnit at e
  cases e
  repeat' first
    | with_reducible assumption
    | intro _
    | exact rfl
    | with_reducible apply ite_keeps
    | with_reducible apply State.trickle_keeps

theorem execWriteUnitDone_keeps {b s s1 : State} (h : State.Keeps b s) (fail : Option Nat) (e : execWriteUnitDone fail s = .next s1) : State.Keeps b s1 := by
  unfold execWriteUnitDone at e
  cases e
  repeat' first
    | with_reducible assumption
    | intro _
    | exact rfl
    | with_reducible apply ite_keeps
    | with_reducible apply State.unitDone_keeps

theorem execVoutOverload_keeps {b s s1 : State} (h : State.Keeps b s) (vin : Nat) (e : execVoutOverload vin s = .next s1) : State.Keeps b s1 := by
  unfold execVoutOverload at e
  cases e
  repeat' first
    | with_reducible assumption
    | intro _
    | exact rfl
    | with_reducible apply ite_keeps
    | with_reducible apply State.measureVin_keeps
    | with_reducible apply State.recordT_keeps
    | with_reducible apply State.set_keeps

theorem execPwrSwRequest_keeps {b s s1 : State} (h : State.Keeps b s) (off : Fin 64) (e : execPwrSwRequest off s = .next s1) : State.Keeps b s1 := by
  unfold execPwrSwRequest at e
  cases e
  repeat' first
    | with_reducible assumption
    | intro _
    | exact rfl
    | with_reducible apply ite_keeps
    | with_reducible apply State.writeSw_keeps

theorem execDomainPowered_keeps {b s s1 : State} (h : State.Keeps b s) (n : Fin 12) (e : execDomainPowered n s = .next s1) : State.Keeps b s1 := by
  unfold execDomainPowered at e
  cases e
  repeat' first
    | with_reducible assumption
    | intro _
    | exact rfl
    | with_reducible apply ite_keeps
    | with_reducible apply State.domainUp_keeps

theorem execGxCrystalLost_keeps {b s s1 : State} (h : State.Keeps b s) (e : execGxCrystalLost s = .next s1) : State.Keeps b s1 := by
  unfold execGxCrystalLost at e
  cases e
  repeat' first
    | with_reducible assumption
    | intro _
    | exact rfl
    | with_reducible apply ite_keeps
    | with_reducible apply State.set_keeps
    | with_reducible apply State.weirsFail_keeps

theorem execGxPpmFault_keeps {b s s1 : State} (h : State.Keeps b s) (diff : Int) (e : execGxPpmFault diff s = .next s1) : State.Keeps b s1 := by
  unfold execGxPpmFault at e
  cases e
  repeat' first
    | with_reducible assumption
    | intro _
    | exact rfl
    | with_reducible apply ite_keeps
    | with_reducible apply State.modClock_keeps
    | with_reducible apply State.setInt_keeps
    | with_reducible apply State.weirsFail_keeps

theorem execXt32Lost_keeps {b s s1 : State} (h : State.Keeps b s) (e : execXt32Lost s = .next s1) : State.Keeps b s1 := by
  unfold execXt32Lost at e
  cases e
  repeat' first
    | with_reducible assumption
    | ((try lift_lets); intro x; refine (fun (_ : Keeps b x) => ?_) ?_; (on_goal 2 => subst x); clear_value x)
    | intro _
    | exact rfl
    | with_reducible apply ite_keeps
    | with_reducible refine foldl_keeps ?_ _ _ (fun _ _ _ => ?_)
    | with_reducible refine foldl_snd_keeps _ ?_ _ _ (fun _ _ _ => ?_)
    | with_reducible apply State.recordT_keeps
    | with_reducible apply State.set_keeps

theorem execOptimeIncrement_keeps {b s s1 : State} (h : State.Keeps b s) (m : Sensed) (e : execOptimeIncrement m s = .next s1) : State.Keeps b s1 := by
  unfold execOptimeIncrement at e
  cases e
  repeat' first
    | with_reducible assumption
    | intro _
    | exact rfl
    | with_reducible apply ite_keeps
    | with_reducible apply State.countTime_keeps
    | with_reducible apply State.sense_keeps
    | with_reducible apply State.sluiceTick_keeps

theorem execCreditReturn_keeps {b s s1 : State} (h : State.Keeps b s) (c : CreditQueue) (e : execCreditReturn c s = .next s1) : State.Keeps b s1 := by
  unfold execCreditReturn at e
  cases e
  repeat' first
    | with_reducible assumption
    | intro _
    | exact rfl
    | with_reducible apply ite_keeps
    | with_reducible apply State.creditBack_keeps

theorem execTurnEnable_keeps {b s s1 : State} (h : State.Keeps b s) (e : execTurnEnable s = .next s1) : State.Keeps b s1 := by
  unfold execTurnEnable at e
  cases e
  repeat' first
    | with_reducible assumption
    | intro _
    | exact rfl
    | with_reducible apply ite_keeps
    | with_reducible apply State.turnOn_keeps

theorem execTurnLoadPeakClear_keeps {b s s1 : State} (h : State.Keeps b s) (e : execTurnLoadPeakClear s = .next s1) : State.Keeps b s1 := by
  unfold execTurnLoadPeakClear at e
  cases e
  repeat' first
    | with_reducible assumption
    | intro _
    | exact rfl
    | with_reducible apply ite_keeps
    | with_reducible apply State.clearPeak_keeps

theorem execGpioEdge_keeps {b s s1 : State} (h : State.Keeps b s) (i : Fin 16) (rise : Bool) (e : execGpioEdge i rise s = .next s1) : State.Keeps b s1 := by
  unfold execGpioEdge at e
  cases e
  repeat' first
    | with_reducible assumption
    | intro _
    | exact rfl
    | with_reducible apply ite_keeps
    | with_reducible apply State.gpioPut_keeps

theorem State.latchStraps_keeps {b s : State} (h : Keeps b s) (pair chanB pref : Bool) : Keeps b (State.latchStraps s pair chanB pref) := by
  unfold State.latchStraps
  repeat' first
    | with_reducible assumption
    | ((try lift_lets); intro x; refine (fun (_ : Keeps b x) => ?_) ?_; (on_goal 2 => subst x); clear_value x)
    | intro _
    | exact rfl
    | with_reducible apply ite_keeps
    | with_reducible apply State.flag_keeps
    | with_reducible apply State.modPins_keeps
    | with_reducible apply State.set_keeps

theorem State.loseAlwaysOn_keeps {b s : State} (h : Keeps b s) : Keeps b (State.loseAlwaysOn s) := by
  unfold State.loseAlwaysOn
  repeat' first
    | with_reducible assumption
    | ((try lift_lets); intro x; refine (fun (_ : Keeps b x) => ?_) ?_; (on_goal 2 => subst x); clear_value x)
    | ((try lift_lets); intro x; clear_value x)
    | intro _
    | exact rfl
    | with_reducible apply ite_keeps
    | with_reducible refine foldl_keeps ?_ _ _ (fun _ _ _ => ?_)
    | with_reducible refine foldl_snd_keeps _ ?_ _ _ (fun _ _ _ => ?_)
    | with_reducible apply State.modDebug_keeps
    | ((with_reducible apply State.modSec_keeps); on_goal 2 => exact fun _ => ⟨Nat.le_refl _, Nat.le_refl _⟩)
    | with_reducible apply State.set_keeps

theorem State.unpoweredEvents_keeps {b s : State} (h : Keeps b s) : Keeps b (State.unpoweredEvents s) := by
  unfold State.unpoweredEvents
  repeat' first
    | with_reducible assumption
    | ((try lift_lets); intro x; refine (fun (_ : Keeps b x) => ?_) ?_; (on_goal 2 => subst x); clear_value x)
    | ((try lift_lets); intro x; clear_value x)
    | intro _
    | exact rfl
    | with_reducible apply ite_keeps
    | with_reducible refine foldl_keeps ?_ _ _ (fun _ _ _ => ?_)
    | with_reducible refine foldl_snd_keeps _ ?_ _ _ (fun _ _ _ => ?_)
    | with_reducible apply State.eraseShare_keeps
    | with_reducible apply State.inc_keeps
    | ((with_reducible apply State.modSec_keeps); on_goal 2 => exact fun _ => ⟨Nat.le_refl _, Nat.le_refl _⟩)
    | with_reducible apply State.recordT_keeps
    | with_reducible apply State.set_keeps
    | with_reducible apply State.startWipe_keeps

theorem State.continueTime_keeps {b s : State} (h : Keeps b s) : Keeps b (State.continueTime s) := by
  unfold State.continueTime
  repeat' first
    | with_reducible assumption
    | ((try lift_lets); intro x; clear_value x)
    | intro _
    | exact rfl
    | with_reducible apply ite_keeps
    | with_reducible apply State.flag_keeps
    | with_reducible apply State.modClock_keeps

theorem State.powerOn_keeps {b s : State} (h : Keeps b s) (pair chanB pref refclk aoLost vback : Bool) : Keeps b (State.powerOn s pair chanB pref refclk aoLost vback) := by
  unfold State.powerOn
  repeat' first
    | with_reducible assumption
    | ((try lift_lets); intro x; refine (fun (_ : Keeps b x) => ?_) ?_; (on_goal 2 => subst x); clear_value x)
    | intro _
    | exact rfl
    | with_reducible apply ite_keeps
    | with_reducible apply State.continueTime_keeps
    | with_reducible apply State.flag_keeps
    | with_reducible apply State.latchStraps_keeps
    | with_reducible apply State.loseAlwaysOn_keeps
    | with_reducible apply State.modClock_keeps
    | with_reducible apply State.modInaug_keeps
    | with_reducible apply State.modPins_keeps
    | with_reducible apply State.modPower_keeps
    | ((with_reducible apply State.modSec_keeps); on_goal 2 => exact fun _ => ⟨Nat.le_refl _, Nat.le_refl _⟩)
    | with_reducible apply State.recordT_keeps
    | with_reducible apply State.set_keeps
    | with_reducible apply State.startWipe_keeps
    | with_reducible apply State.unpoweredEvents_keeps
    | split

theorem State.romRecovery_keeps {b s : State} (h : Keeps b s) : Keeps b (State.romRecovery s) := by
  unfold State.romRecovery
  repeat' first
    | with_reducible assumption
    | intro _
    | exact rfl
    | with_reducible apply ite_keeps
    | with_reducible apply State.lineOff_keeps
    | with_reducible apply State.modBoot_keeps
    | with_reducible apply State.relays_keeps
    | with_reducible apply State.set_keeps

theorem State.bootRom_keeps {z s : State} (h : Keeps z s) (b : BootSeen) : Keeps z (State.bootRom s b) := by
  unfold State.bootRom
  repeat' first
    | with_reducible assumption
    | ((try lift_lets); intro x; refine (fun (_ : Keeps z x) => ?_) ?_; (on_goal 2 => subst x); clear_value x)
    | intro _
    | exact rfl
    | with_reducible apply ite_keeps
    | with_reducible refine foldl_keeps ?_ _ _ (fun _ _ _ => ?_)
    | with_reducible refine foldl_snd_keeps _ ?_ _ _ (fun _ _ _ => ?_)
    | with_reducible apply State.allowFreeze_keeps
    | with_reducible apply State.extend_keeps
    | with_reducible apply State.modPins_keeps
    | with_reducible apply State.set_keeps
    | with_reducible apply State.weirFail_keeps
    | with_reducible apply State.weirsFail_keeps

theorem State.checkStore_keeps {b s : State} (h : Keeps b s) (bad : Nat) : Keeps b (State.checkStore s bad) := by
  unfold State.checkStore
  repeat' first
    | with_reducible assumption
    | ((try lift_lets); intro x; refine (fun (_ : Keeps b x) => ?_) ?_; (on_goal 2 => subst x); clear_value x)
    | ((try lift_lets); intro x; clear_value x)
    | intro _
    | exact rfl
    | with_reducible apply ite_keeps
    | with_reducible refine foldl_keeps ?_ _ _ (fun _ _ _ => ?_)
    | with_reducible refine foldl_snd_keeps _ ?_ _ _ (fun _ _ _ => ?_)
    | with_reducible apply State.flag_keeps
    | with_reducible apply State.loadKeys_keeps
    | ((with_reducible apply State.modSec_keeps); on_goal 2 => exact fun _ => ⟨Nat.le_refl _, Nat.le_refl _⟩)
    | with_reducible apply State.recordT_keeps

theorem State.bootLoader_keeps {z s : State} (h : Keeps z s) (b : BootSeen) : Keeps z (State.bootLoader s b) := by
  unfold State.bootLoader
  repeat' first
    | with_reducible assumption
    | ((try lift_lets); intro x; refine (fun (hx : ∀ s y0, Keeps z s → Keeps z (x s y0)) => ?_) ?_; (on_goal 2 => subst x); clear_value x)
    | intro _
    | exact rfl
    | with_reducible apply ite_keeps
    | with_reducible apply State.checkStore_keeps
    | with_reducible apply State.extend_keeps
    | with_reducible apply State.romRecovery_keeps
    | with_reducible apply State.set_keeps
    | with_reducible apply State.take_keeps
    | split
    | refine Keeps.ofSnd ?_ (by assumption)
    | refine Keeps.ofThird ?_ (by assumption)
    | refine Keeps.ofFourth ?_ (by assumption)
    | with_reducible apply hx

theorem State.measBank_keeps {b s : State} (h : Keeps b s) (k : Nat) : Keeps b (State.measBank s k) := by
  unfold State.measBank
  repeat' first
    | with_reducible assumption
    | intro _
    | exact rfl
    | with_reducible apply ite_keeps
    | with_reducible apply State.extend_keeps

theorem State.bootBank_keeps {b s : State} (h : Keeps b s) : Keeps b (State.bootBank s) := by
  unfold State.bootBank
  repeat' first
    | with_reducible assumption
    | ((try lift_lets); intro x; refine (fun (_ : Keeps b x) => ?_) ?_; (on_goal 2 => subst x); clear_value x)
    | ((try lift_lets); intro x; clear_value x)
    | intro _
    | exact rfl
    | with_reducible apply ite_keeps
    | with_reducible apply State.flag_keeps
    | with_reducible apply State.measBank_keeps
    | with_reducible apply State.recordT_keeps
    | with_reducible apply State.romRecovery_keeps
    | with_reducible apply State.set_keeps
    | with_reducible apply State.showBanks_keeps

theorem State.recoverTally_keeps {b s : State} (h : Keeps b s) (ptrFail : Option Nat) : Keeps b (State.recoverTally s ptrFail) := by
  unfold State.recoverTally
  repeat' first
    | with_reducible assumption
    | ((try lift_lets); intro x; refine (fun (_ : Keeps b x) => ?_) ?_; (on_goal 2 => subst x); clear_value x)
    | ((try lift_lets); intro x; clear_value x)
    | intro _
    | exact rfl
    | with_reducible apply ite_keeps
    | with_reducible refine foldl_keeps ?_ _ _ (fun _ _ _ => ?_)
    | with_reducible refine foldl_snd_keeps _ ?_ _ _ (fun _ _ _ => ?_)
    | with_reducible apply State.degrade_keeps
    | ((with_reducible apply State.modTally_keeps); on_goal 2 => exact fun _ h => h)
    | with_reducible apply State.modTally_keeps
    | with_reducible apply State.recordT_keeps
    | with_reducible apply State.set_keeps
    | with_reducible apply State.writePtr_keeps
    | split

theorem State.trialAtBoot_keeps {b s : State} (h : Keeps b s) : Keeps b (State.trialAtBoot s) := by
  unfold State.trialAtBoot
  repeat' first
    | with_reducible assumption
    | ((try lift_lets); intro x; refine (fun (_ : Keeps b x) => ?_) ?_; (on_goal 2 => subst x); clear_value x)
    | intro _
    | exact rfl
    | with_reducible apply ite_keeps
    | with_reducible apply State.dropTrial_keeps
    | with_reducible apply State.modConf_keeps
    | with_reducible apply State.rollbackDone_keeps
    | with_reducible apply State.showSlots_keeps
    | with_reducible apply State.writeSlots_keeps
    | split

theorem State.lockAll_keeps {b s : State} (h : Keeps b s) : Keeps b (State.lockAll s) := by
  unfold State.lockAll
  repeat' first
    | with_reducible assumption
    | intro _
    | exact rfl
    | with_reducible apply ite_keeps
    | with_reducible refine foldl_keeps ?_ _ _ (fun _ _ _ => ?_)
    | with_reducible refine foldl_snd_keeps _ ?_ _ _ (fun _ _ _ => ?_)
    | with_reducible apply State.set_keeps

theorem State.loadActive_keeps {b s : State} (h : Keeps b s) : Keeps b (State.loadActive s) := by
  unfold State.loadActive
  repeat' first
    | with_reducible assumption
    | ((try lift_lets); intro x; refine (fun (_ : Keeps b x) => ?_) ?_; (on_goal 2 => subst x); clear_value x)
    | intro _
    | exact rfl
    | with_reducible apply ite_keeps
    | with_reducible refine foldl_keeps ?_ _ _ (fun _ _ _ => ?_)
    | with_reducible refine foldl_snd_keeps _ ?_ _ _ (fun _ _ _ => ?_)
    | with_reducible apply State.defaultRights_keeps
    | with_reducible apply State.domainUp_keeps
    | with_reducible apply State.freshCeil_keeps
    | with_reducible apply State.gpioSettle_keeps
    | with_reducible apply State.loadImage_keeps
    | with_reducible apply State.modPins_keeps
    | with_reducible apply State.showSlots_keeps
    | split

theorem State.bootFirmware_keeps {z s : State} (h : Keeps z s) (b : BootSeen) : Keeps z (State.bootFirmware s b) := by
  unfold State.bootFirmware
  repeat' first
    | with_reducible assumption
    | ((try lift_lets); intro x; refine (fun (_ : Keeps z x) => ?_) ?_; (on_goal 2 => subst x); clear_value x)
    | intro _
    | exact rfl
    | with_reducible apply ite_keeps
    | with_reducible apply State.certify_keeps
    | with_reducible apply State.loadActive_keeps
    | with_reducible apply State.lockAll_keeps
    | with_reducible apply State.measConfig_keeps
    | with_reducible apply State.measCycle_keeps
    | with_reducible apply State.measKeys_keeps
    | with_reducible apply State.measRules_keeps
    | with_reducible apply State.modDebug_keeps
    | with_reducible apply State.recordT_keeps
    | with_reducible apply State.recoverTally_keeps
    | with_reducible apply State.set_keeps
    | with_reducible apply State.showBanks_keeps
    | with_reducible apply State.trialAtBoot_keeps
    | split

theorem State.bootStep_keeps {z s : State} (h : Keeps z s) (b : BootSeen) : Keeps z (State.bootStep s b) := by
  unfold State.bootStep
  repeat' first
    | with_reducible assumption
    | ((try lift_lets); intro x; refine (fun (_ : Keeps z x) => ?_) ?_; (on_goal 2 => subst x); clear_value x)
    | intro _
    | exact rfl
    | with_reducible apply ite_keeps
    | with_reducible apply State.bootBank_keeps
    | with_reducible apply State.bootFirmware_keeps
    | with_reducible apply State.bootLoader_keeps
    | with_reducible apply State.bootRom_keeps
    | with_reducible apply State.relays_keeps
    | with_reducible apply State.set_keeps
    | with_reducible apply State.settleLine_keeps
    | split

theorem State.switchBank_keeps {b s : State} (h : Keeps b s) (k : Nat) : Keeps b (State.switchBank s k) := by
  unfold State.switchBank
  repeat' first
    | with_reducible assumption
    | ((try lift_lets); intro x; refine (fun (_ : Keeps b x) => ?_) ?_; (on_goal 2 => subst x); clear_value x)
    | intro _
    | exact rfl
    | with_reducible apply ite_keeps
    | with_reducible refine foldl_keeps ?_ _ _ (fun _ _ _ => ?_)
    | with_reducible refine foldl_snd_keeps _ ?_ _ _ (fun _ _ _ => ?_)
    | with_reducible apply State.measBank_keeps
    | with_reducible apply State.measConfig_keeps
    | with_reducible apply State.measCycle_keeps
    | with_reducible apply State.measKeys_keeps
    | with_reducible apply State.measRules_keeps
    | with_reducible apply State.modBoot_keeps
    | with_reducible apply State.recordT_keeps
    | with_reducible apply State.set_keeps
    | with_reducible apply State.zeroMeas_keeps

theorem State.updateDone_keeps {b s : State} (h : Keeps b s) : Keeps b (State.updateDone s) := by
  unfold State.updateDone
  repeat' first
    | with_reducible assumption
    | ((try lift_lets); intro x; refine (fun (_ : Keeps b x) => ?_) ?_; (on_goal 2 => subst x); clear_value x)
    | intro _
    | exact rfl
    | with_reducible apply ite_keeps
    | with_reducible apply State.complete_keeps
    | with_reducible apply State.modBoot_keeps
    | split

theorem State.restartDone_keeps {b s : State} (h : Keeps b s) : Keeps b (State.restartDone s) := by
  unfold State.restartDone
  repeat' first
    | with_reducible assumption
    | ((try lift_lets); intro x; refine (fun (_ : Keeps b x) => ?_) ?_; (on_goal 2 => subst x); clear_value x)
    | intro _
    | exact rfl
    | with_reducible apply ite_keeps
    | with_reducible apply State.applyVfs_keeps
    | with_reducible apply State.certify_keeps
    | with_reducible apply State.modBoot_keeps
    | with_reducible apply State.recordT_keeps
    | with_reducible apply State.romRecovery_keeps
    | with_reducible apply State.set_keeps
    | with_reducible apply State.switchBank_keeps
    | with_reducible apply State.updateDone_keeps
    | split

theorem State.endTrial_keeps {b s : State} (h : Keeps b s) : Keeps b (State.endTrial s) := by
  unfold State.endTrial
  repeat' first
    | with_reducible assumption
    | ((try lift_lets); intro x; refine (fun (_ : Keeps b x) => ?_) ?_; (on_goal 2 => subst x); clear_value x)
    | ((try lift_lets); intro x; clear_value x)
    | intro _
    | exact rfl
    | with_reducible apply ite_keeps
    | ((with_reducible apply State.modSec_keeps); on_goal 2 => exact fun _ => ⟨Nat.le_max_left _ _, Nat.le_refl _⟩)
    | with_reducible apply State.certify_keeps
    | with_reducible apply State.fwRestart_keeps
    | with_reducible apply State.modBoot_keeps
    | with_reducible apply State.record_keeps
    | with_reducible apply State.set_keeps
    | with_reducible apply State.showBanks_keeps
    | split

theorem State.recoverImages_keeps {b s : State} (h : Keeps b s) (n : Nat) (sb sf : Bool) : Keeps b (State.recoverImages s n sb sf) := by
  unfold State.recoverImages
  repeat' first
    | with_reducible assumption
    | ((try lift_lets); intro x; refine (fun (_ : Keeps b x) => ?_) ?_; (on_goal 2 => subst x); clear_value x)
    | ((try lift_lets); intro x; clear_value x)
    | intro _
    | exact rfl
    | with_reducible apply ite_keeps
    | with_reducible apply State.fullReset_keeps
    | with_reducible apply State.modBoot_keeps
    | with_reducible apply State.showBanks_keeps

theorem execPowerOnReset_keeps {b s s1 : State} (h : State.Keeps b s) (pair chanB pref refclk xt32 aoLost vback : Bool) (e : execPowerOnReset pair chanB pref refclk xt32 aoLost vback s = .next s1) : State.Keeps b s1 := by
  unfold execPowerOnReset at e
  cases e
  repeat' first
    | with_reducible assumption
    | intro _
    | exact rfl
    | with_reducible apply ite_keeps
    | with_reducible apply State.powerOn_keeps

theorem execVinRstReached_keeps {b s s1 : State} (h : State.Keeps b s) (vin : Nat) (torn : Fin 3) (e : execVinRstReached vin torn s = .next s1) : State.Keeps b s1 := by
  unfold execVinRstReached at e
  cases e
  repeat' first
    | with_reducible assumption
    | ((try lift_lets); intro x; refine (fun (_ : Keeps b x) => ?_) ?_; (on_goal 2 => subst x); clear_value x)
    | ((try lift_lets); intro x; clear_value x)
    | intro _
    | exact rfl
    | with_reducible apply ite_keeps
    | with_reducible apply State.flag_keeps
    | with_reducible apply State.fullReset_keeps
    | with_reducible apply State.modPins_keeps
    | with_reducible apply State.modPower_keeps
    | ((with_reducible apply State.modTally_keeps); on_goal 2 => exact fun _ h => h)

theorem execBootStageComplete_keeps {z s s1 : State} (h : State.Keeps z s) (b : BootSeen) (e : execBootStageComplete b s = .next s1) : State.Keeps z s1 := by
  unfold execBootStageComplete at e
  cases e
  repeat' first
    | with_reducible assumption
    | intro _
    | exact rfl
    | with_reducible apply ite_keeps
    | with_reducible apply State.bootStep_keeps

theorem execFwRestartComplete_keeps {b s s1 : State} (h : State.Keeps b s) (e : execFwRestartComplete s = .next s1) : State.Keeps b s1 := by
  unfold execFwRestartComplete at e
  cases e
  repeat' first
    | with_reducible assumption
    | intro _
    | exact rfl
    | with_reducible apply ite_keeps
    | with_reducible apply State.restartDone_keeps

theorem execUpdateRestart_keeps {b s s1 : State} (h : State.Keeps b s) (e : execUpdateRestart s = .next s1) : State.Keeps b s1 := by
  unfold execUpdateRestart at e
  cases e
  repeat' first
    | with_reducible assumption
    | intro _
    | exact rfl
    | with_reducible apply ite_keeps
    | with_reducible apply State.fwRestart_keeps

theorem execFwTrialEnd_keeps {b s s1 : State} (h : State.Keeps b s) (e : execFwTrialEnd s = .next s1) : State.Keeps b s1 := by
  unfold execFwTrialEnd at e
  cases e
  repeat' first
    | with_reducible assumption
    | intro _
    | exact rfl
    | with_reducible apply ite_keeps
    | with_reducible apply State.endTrial_keeps

theorem execRecoveryFrame_keeps {b s s1 : State} (h : State.Keeps b s) (l : List Byte) (whole : Option (Nat × Bool × Bool)) (e : execRecoveryFrame l whole s = .next s1) : State.Keeps b s1 := by
  unfold execRecoveryFrame at e
  cases e
  repeat' first
    | with_reducible assumption
    | ((try lift_lets); intro x; refine (fun (_ : Keeps b x) => ?_) ?_; (on_goal 2 => subst x); clear_value x)
    | intro _
    | exact rfl
    | with_reducible apply ite_keeps
    | with_reducible apply State.emit_keeps
    | with_reducible apply State.modBoot_keeps
    | with_reducible apply State.recoverImages_keeps
    | split

end Sys2Proof.Machine
end

