-- ==== Sys2Proof/Laws/KeepsTick.lean ====
section
/-!
SUPPORT. One lemma for each operation and each command: what it keeps (State.Keeps). Here: time commands, the per-turn jobs, the tick, register access, far serving, read-out and the idle cycle.
-/

namespace Sys2Proof.Machine

open State

theorem State.armTai_keeps {b s : State} (h : Keeps b s) : Keeps b (State.armTai s) := by
  unfold State.armTai
  repeat' first
    | with_reducible assumption
    | intro _
    | exact rfl
    | with_reducible apply ite_keeps
    | with_reducible apply State.modSync_keeps
    | with_reducible apply State.set_keeps

theorem State.hearTime_keeps {b s : State} (h : Keeps b s) (sender k t o : Nat) : Keeps b (State.hearTime s sender k t o) := by
  unfold State.hearTime
  repeat' first
    | with_reducible assumption
    | ((try lift_lets); intro x; clear_value x)
    | intro _
    | exact rfl
    | with_reducible apply ite_keeps
    | with_reducible apply State.modSync_keeps

theorem execSelfSilentExit_keeps {b s s1 : State} (h : State.Keeps b s) (e : execSelfSilentExit s = .next s1) : State.Keeps b s1 := by
  unfold execSelfSilentExit at e
  cases e
  repeat' first
    | with_reducible assumption
    | ((try lift_lets); intro x; refine (fun (_ : Keeps b x) => ?_) ?_; (on_goal 2 => subst x); clear_value x)
    | intro _
    | exact rfl
    | with_reducible apply ite_keeps
    | with_reducible apply State.record_keeps
    | with_reducible apply State.set_keeps
    | with_reducible apply State.toLine_keeps

theorem execWideningEnd_keeps {b s s1 : State} (h : State.Keeps b s) (e : execWideningEnd s = .next s1) : State.Keeps b s1 := by
  unfold execWideningEnd at e
  cases e
  repeat' first
    | with_reducible assumption
    | intro _
    | exact rfl
    | with_reducible apply ite_keeps
    | with_reducible apply State.set_keeps

theorem execRatePersist_keeps {b s s1 : State} (h : State.Keeps b s) (e : execRatePersist s = .next s1) : State.Keeps b s1 := by
  unfold execRatePersist at e
  cases e
  repeat' first
    | with_reducible assumption
    | intro _
    | exact rfl
    | with_reducible apply ite_keeps
    | with_reducible apply State.modSync_keeps
    | with_reducible apply State.mramWrite_keeps

theorem execPpsOutPulse_keeps {b s s1 : State} (h : State.Keeps b s) (e : execPpsOutPulse s = .next s1) : State.Keeps b s1 := by
  unfold execPpsOutPulse at e
  cases e
  repeat' first
    | with_reducible assumption
    | intro _
    | exact rfl
    | with_reducible apply ite_keeps
    | with_reducible apply State.modPins_keeps
    | with_reducible apply State.modSync_keeps
    | with_reducible apply State.ppsSettle_keeps

theorem execTaiArm_keeps {b s s1 : State} (h : State.Keeps b s) (e : execTaiArm s = .next s1) : State.Keeps b s1 := by
  unfold execTaiArm at e
  cases e
  repeat' first
    | with_reducible assumption
    | intro _
    | exact rfl
    | with_reducible apply ite_keeps
    | with_reducible apply State.armTai_keeps

theorem execPpsInEdge_keeps {b s s1 : State} (h : State.Keeps b s) (e : execPpsInEdge s = .next s1) : State.Keeps b s1 := by
  unfold execPpsInEdge at e
  cases e
  repeat' first
    | with_reducible assumption
    | ((try lift_lets); intro x; refine (fun (_ : Keeps b x) => ?_) ?_; (on_goal 2 => subst x); clear_value x)
    | intro _
    | exact rfl
    | with_reducible apply ite_keeps
    | with_reducible apply State.alignTime_keeps
    | with_reducible apply State.modSync_keeps
    | with_reducible apply State.set_keeps

theorem execTaiArmMissed_keeps {b s s1 : State} (h : State.Keeps b s) (e : execTaiArmMissed s = .next s1) : State.Keeps b s1 := by
  unfold execTaiArmMissed at e
  cases e
  repeat' first
    | with_reducible assumption
    | intro _
    | exact rfl
    | with_reducible apply ite_keeps
    | with_reducible apply State.modSync_keeps
    | with_reducible apply State.set_keeps

theorem execGptpAlign_keeps {b s s1 : State} (h : State.Keeps b s) (ns : Nat) (e : execGptpAlign ns s = .next s1) : State.Keeps b s1 := by
  unfold execGptpAlign at e
  cases e
  repeat' first
    | with_reducible assumption
    | intro _
    | exact rfl
    | with_reducible apply ite_keeps
    | with_reducible apply State.alignTime_keeps
    | with_reducible apply State.modSync_keeps

theorem execTimeMessageSend_keeps {b s s1 : State} (h : State.Keeps b s) (e : execTimeMessageSend s = .next s1) : State.Keeps b s1 := by
  unfold execTimeMessageSend at e
  cases e
  repeat' first
    | with_reducible assumption
    | ((try lift_lets); intro x; refine (fun (_ : Keeps b x) => ?_) ?_; (on_goal 2 => subst x); clear_value x)
    | intro _
    | exact rfl
    | with_reducible apply ite_keeps
    | with_reducible apply State.lineOut_keeps
    | with_reducible apply State.modSync_keeps
    | with_reducible apply State.take_keeps

theorem execTimeMessageReceive_keeps {b s s1 : State} (h : State.Keeps b s) (sender : Nat) (body : List Byte) (e : execTimeMessageReceive sender body s = .next s1) : State.Keeps b s1 := by
  unfold execTimeMessageReceive at e
  cases e
  repeat' first
    | with_reducible assumption
    | intro _
    | exact rfl
    | with_reducible apply ite_keeps
    | with_reducible apply State.hearTime_keeps

theorem execTaiAlignAtTick_keeps {b s s1 : State} (h : State.Keeps b s) (e : execTaiAlignAtTick s = .next s1) : State.Keeps b s1 := by
  unfold execTaiAlignAtTick at e
  cases e
  repeat' first
    | with_reducible assumption
    | ((try lift_lets); intro x; refine (fun (_ : Keeps b x) => ?_) ?_; (on_goal 2 => subst x); clear_value x)
    | intro _
    | exact rfl
    | with_reducible apply ite_keeps
    | with_reducible apply State.alignTime_keeps
    | with_reducible apply State.modSync_keeps
    | split

theorem State.overrun_keeps {b s : State} (h : Keeps b s) (u : Nat) (still stepped : Bool) : Keeps b (State.overrun s u still stepped) := by
  unfold State.overrun
  repeat' first
    | with_reducible assumption
    | ((try lift_lets); intro x; refine (fun (_ : Keeps b x) => ?_) ?_; (on_goal 2 => subst x); clear_value x)
    | intro _
    | exact rfl
    | with_reducible apply ite_keeps
    | with_reducible apply State.inc_keeps
    | with_reducible apply State.modBoot_keeps
    | with_reducible apply State.modJob_keeps
    | with_reducible apply State.record_keeps
    | with_reducible apply State.setBits_keeps
    | with_reducible apply State.showLoad_keeps
    | with_reducible apply State.when_keeps

theorem State.judge_keeps {b s : State} (h : Keeps b s) (u t : Nat) (still stepped : Bool) : Keeps b (State.judge s u t still stepped).2 := by
  unfold State.judge
  repeat' first
    | with_reducible assumption
    | intro _
    | exact rfl
    | with_reducible apply ite_keeps
    | with_reducible apply ite_snd_keeps
    | with_reducible apply State.modJob_keeps
    | with_reducible apply State.overrun_keeps

theorem State.portImages_keeps {b s : State} (h : Keeps b s) (p turn : Nat) (cells : List Cell) : Keeps b (State.portImages s p turn cells) := by
  unfold State.portImages
  repeat' first
    | with_reducible assumption
    | ((try lift_lets); intro x; refine (fun (_ : Keeps b x) => ?_) ?_; (on_goal 2 => subst x); clear_value x)
    | intro _
    | exact rfl
    | with_reducible apply ite_keeps
    | with_reducible refine foldl_keeps ?_ _ _ (fun _ _ _ => ?_)
    | with_reducible refine foldl_snd_keeps _ ?_ _ _ (fun _ _ _ => ?_)
    | with_reducible apply State.modClock_keeps
    | with_reducible apply State.modMill_keeps
    | with_reducible apply State.writeImage_keeps

theorem State.jobWork_keeps {b s : State} (hh : Keeps b s) (u : Nat) (h : Held) (done : Nat) : Keeps b (State.jobWork s u h done) := by
  unfold State.jobWork
  repeat' first
    | with_reducible assumption
    | ((try lift_lets); intro x; refine (fun (_ : Keeps b x) => ?_) ?_; (on_goal 2 => subst x); clear_value x)
    | intro _
    | exact rfl
    | with_reducible apply ite_keeps
    | with_reducible apply State.canLate_keeps
    | with_reducible apply State.job5On_keeps
    | with_reducible apply State.modCan_keeps
    | with_reducible apply State.modClock_keeps
    | with_reducible apply State.modWeir_keeps
    | with_reducible apply State.portImages_keeps

theorem State.startFlush_keeps {b s : State} (h : Keeps b s) (load : Nat) : Keeps b (State.startFlush s load) := by
  unfold State.startFlush
  repeat' first
    | with_reducible assumption
    | ((try lift_lets); intro x; refine (fun (_ : Keeps b x) => ?_) ?_; (on_goal 2 => subst x); clear_value x)
    | intro _
    | exact rfl
    | with_reducible apply ite_keeps
    | with_reducible apply State.job6_keeps
    | with_reducible apply State.modJob_keeps
    | with_reducible apply State.ran_keeps

theorem State.startJob_keeps {b s : State} (h : Keeps b s) (u : Nat) (load : Option Nat) : Keeps b (State.startJob s u load) := by
  unfold State.startJob
  repeat' first
    | with_reducible assumption
    | intro _
    | exact rfl
    | with_reducible apply ite_keeps
    | with_reducible apply State.jobWork_keeps
    | with_reducible apply State.modJob_keeps
    | with_reducible apply State.ran_keeps
    | with_reducible apply State.startFlush_keeps
    | split
    | refine Keeps.ofSnd ?_ (by assumption)
    | refine Keeps.ofThird ?_ (by assumption)
    | refine Keeps.ofFourth ?_ (by assumption)
    | (apply Keeps.other (by assumption) <;> rfl)

theorem State.startReload_keeps {b s : State} (h : Keeps b s) (load : Option Nat) (crcBad parityBad : Nat) : Keeps b (State.startReload s load crcBad parityBad) := by
  unfold State.startReload
  repeat' first
    | with_reducible assumption
    | ((try lift_lets); intro x; clear_value x)
    | intro _
    | exact rfl
    | with_reducible apply ite_keeps
    | with_reducible apply State.modJob_keeps
    | with_reducible apply State.ran_keeps
    | with_reducible apply State.reloadWeir_keeps
    | with_reducible apply State.startJob_keeps
    | split

theorem State.flushRest_keeps {b s : State} (h : Keeps b s) (k : Nat) : Keeps b (State.flushRest s k) := by
  induction k generalizing s with
  | zero => exact h
  | succ k ih =>
    unfold State.flushRest
    repeat' first
      | with_reducible assumption
      | intro _
      | with_reducible apply ih
      | exact rfl
      | with_reducible apply ite_keeps
      | with_reducible apply State.writeUnit_keeps

theorem State.finishJob_keeps {b s : State} (h : Keeps b s) (u l : Nat) : Keeps b (State.finishJob s u l) := by
  unfold State.finishJob
  split
  · have hf := State.flushRest_keeps h 64
    exact ite_keeps (State.ran_keeps hf _ _) hf
  · split
    · exact h
    · rename_i x _
      have k : Keeps b ({ s.jobWork u x (s.loadUs l) with held := Sparse.del u s.held } : State) :=
        Keeps.other (State.jobWork_keeps h _ _ _) rfl rfl rfl rfl rfl rfl
      exact State.ran_keeps k _ _

theorem State.showDegraded_keeps {b s : State} (h : Keeps b s) (u : Nat) (on : Bool) : Keeps b (State.showDegraded s u on) := by
  unfold State.showDegraded
  repeat' first
    | with_reducible assumption
    | ((try lift_lets); intro x; refine (fun (hx : ∀ s y0 y1, Keeps b s → Keeps b (x s y0 y1)) => ?_) ?_; (on_goal 2 => subst x); clear_value x)
    | intro _
    | exact rfl
    | with_reducible apply ite_keeps
    | with_reducible apply State.clrBits_keeps
    | with_reducible apply State.setBits_keeps
    | split
    | refine Keeps.ofSnd ?_ (by assumption)
    | refine Keeps.ofThird ?_ (by assumption)
    | refine Keeps.ofFourth ?_ (by assumption)
    | with_reducible apply hx

theorem execJobDegraded_keeps {b s s1 : State} (h : State.Keeps b s) (u : Fin 10) (e : execJobDegraded u s = .next s1) : State.Keeps b s1 := by
  unfold execJobDegraded at e
  cases e
  repeat' first
    | with_reducible assumption
    | ((try lift_lets); intro x; refine (fun (_ : Keeps b x) => ?_) ?_; (on_goal 2 => subst x); clear_value x)
    | intro _
    | exact rfl
    | with_reducible apply ite_keeps
    | with_reducible apply State.modJob_keeps
    | with_reducible apply State.record_keeps
    | with_reducible apply State.showDegraded_keeps

theorem execJobRestored_keeps {b s s1 : State} (h : State.Keeps b s) (u : Fin 10) (e : execJobRestored u s = .next s1) : State.Keeps b s1 := by
  unfold execJobRestored at e
  cases e
  repeat' first
    | with_reducible assumption
    | ((try lift_lets); intro x; refine (fun (_ : Keeps b x) => ?_) ?_; (on_goal 2 => subst x); clear_value x)
    | ((try lift_lets); intro x; clear_value x)
    | intro _
    | exact rfl
    | with_reducible apply ite_keeps
    | with_reducible apply State.modJob_keeps
    | with_reducible apply State.record_keeps
    | with_reducible apply State.showDegraded_keeps

theorem execJobLateCompletion_keeps {b s s1 : State} (h : State.Keeps b s) (u : Fin 10) (load : Fin 1000) (e : execJobLateCompletion u load s = .next s1) : State.Keeps b s1 := by
  unfold execJobLateCompletion at e
  cases e
  repeat' first
    | with_reducible assumption
    | intro _
    | exact rfl
    | with_reducible apply ite_keeps
    | with_reducible apply State.finishJob_keeps

theorem State.turnOver_keeps {b s : State} (h : Keeps b s) : Keeps b (State.turnOver s) := by
  unfold State.turnOver
  repeat' first
    | with_reducible assumption
    | ((try lift_lets); intro x; refine (fun (_ : Keeps b x) => ?_) ?_; (on_goal 2 => subst x); clear_value x)
    | ((try lift_lets); intro x; clear_value x)
    | intro _
    | exact rfl
    | with_reducible apply ite_keeps
    | with_reducible apply State.modClock_keeps
    | with_reducible apply State.modPins_keeps
    | with_reducible apply State.modSync_keeps
    | with_reducible apply State.pass_keeps

theorem State.tickSync_keeps {b s : State} (h : Keeps b s) : Keeps b (State.tickSync s) := by
  unfold State.tickSync
  repeat' first
    | with_reducible assumption
    | ((try lift_lets); intro x; refine (fun (_ : Keeps b x) => ?_) ?_; (on_goal 2 => subst x); clear_value x)
    | intro _
    | exact rfl
    | with_reducible apply ite_keeps
    | with_reducible apply State.modSync_keeps
    | with_reducible apply State.setInt_keeps
    | split

theorem State.tickStart_keeps {b s : State} (h : Keeps b s) : Keeps b (State.tickStart s) := by
  unfold State.tickStart
  repeat' first
    | with_reducible assumption
    | ((try lift_lets); intro x; refine (fun (_ : Keeps b x) => ?_) ?_; (on_goal 2 => subst x); clear_value x)
    | intro _
    | exact rfl
    | with_reducible apply ite_keeps
    | with_reducible apply State.hold_keeps
    | with_reducible apply State.inc_keeps
    | with_reducible apply State.modStart_keeps

theorem State.enterSynced_keeps {b s : State} (h : Keeps b s) : Keeps b (State.enterSynced s) := by
  unfold State.enterSynced
  repeat' first
    | with_reducible assumption
    | ((try lift_lets); intro x; refine (fun (_ : Keeps b x) => ?_) ?_; (on_goal 2 => subst x); clear_value x)
    | intro _
    | exact rfl
    | with_reducible apply ite_keeps
    | with_reducible apply State.set_keeps
    | with_reducible apply State.toLine_keeps

theorem State.tickInaug_keeps {b s : State} (h : Keeps b s) : Keeps b (State.tickInaug s) := by
  unfold State.tickInaug
  repeat' first
    | with_reducible assumption
    | ((try lift_lets); intro x; refine (fun (_ : Keeps b x) => ?_) ?_; (on_goal 2 => subst x); clear_value x)
    | ((try lift_lets); intro x; clear_value x)
    | intro _
    | exact rfl
    | with_reducible apply ite_keeps
    | with_reducible refine foldl_keeps ?_ _ _ (fun _ _ _ => ?_)
    | with_reducible refine foldl_snd_keeps _ ?_ _ _ (fun _ _ _ => ?_)
    | with_reducible apply State.inc_keeps
    | with_reducible apply State.modInaug_keeps
    | with_reducible apply State.raise_keeps
    | with_reducible apply State.record_keeps

theorem State.tickFallback_keeps {b s : State} (h : Keeps b s) : Keeps b (State.tickFallback s) := by
  unfold State.tickFallback
  repeat' first
    | with_reducible assumption
    | intro _
    | exact rfl
    | with_reducible apply ite_keeps
    | with_reducible apply State.set_keeps

theorem State.tickCouplers_keeps {b s : State} (h : Keeps b s) : Keeps b (State.tickCouplers s) := by
  unfold State.tickCouplers
  repeat' first
    | with_reducible assumption
    | ((try lift_lets); intro x; refine (fun (_ : Keeps b x) => ?_) ?_; (on_goal 2 => subst x); clear_value x)
    | ((try lift_lets); intro x; clear_value x)
    | intro _
    | exact rfl
    | with_reducible apply ite_keeps
    | with_reducible refine foldl_keeps ?_ _ _ (fun _ _ _ => ?_)
    | with_reducible refine foldl_snd_keeps _ ?_ _ _ (fun _ _ _ => ?_)
    | with_reducible apply State.hold_keeps
    | with_reducible apply State.modStart_keeps

theorem State.tickPorts_keeps {b s : State} (h : Keeps b s) : Keeps b (State.tickPorts s) := by
  unfold State.tickPorts
  repeat' first
    | with_reducible assumption
    | intro _
    | exact rfl
    | with_reducible apply ite_keeps
    | split
    | refine Keeps.ofSnd ?_ (by assumption)
    | refine Keeps.ofThird ?_ (by assumption)
    | refine Keeps.ofFourth ?_ (by assumption)
    | (apply Keeps.other (by assumption) <;> rfl)

theorem State.tickKeys_keeps {b s : State} (h : Keeps b s) (t : Nat) : Keeps b (State.tickKeys s t) := by
  unfold State.tickKeys
  repeat' first
    | with_reducible assumption
    | ((try lift_lets); intro x; refine (fun (_ : Keeps b x) => ?_) ?_; (on_goal 2 => subst x); clear_value x)
    | ((try lift_lets); intro x; clear_value x)
    | intro _
    | exact rfl
    | with_reducible apply ite_keeps
    | with_reducible refine foldl_keeps ?_ _ _ (fun _ _ _ => ?_)
    | with_reducible refine foldl_snd_keeps _ ?_ _ _ (fun _ _ _ => ?_)
    | with_reducible apply State.modKeys_keeps
    | with_reducible apply State.recordT_keeps
    | with_reducible apply State.set_keeps

theorem State.tickSynth_keeps {b s : State} (h : Keeps b s) (t : Nat) : Keeps b (State.tickSynth s t) := by
  unfold State.tickSynth
  repeat' first
    | with_reducible assumption
    | intro _
    | exact rfl
    | with_reducible apply ite_keeps
    | with_reducible apply State.modSynth_keeps

theorem State.tickRed_keeps {b s : State} (h : Keeps b s) (t : Nat) : Keeps b (State.tickRed s t) := by
  unfold State.tickRed
  repeat' first
    | with_reducible assumption
    | ((try lift_lets); intro x; refine (fun (_ : Keeps b x) => ?_) ?_; (on_goal 2 => subst x); clear_value x)
    | intro _
    | exact rfl
    | with_reducible apply ite_keeps
    | with_reducible apply State.dropShadow_keeps
    | with_reducible apply State.flag_keeps
    | with_reducible apply State.inc_keeps
    | with_reducible apply State.modRed_keeps
    | with_reducible apply State.sluiced_keeps

theorem State.tickLine_keeps {b s : State} (h : Keeps b s) (t : Nat) : Keeps b (State.tickLine s t) := by
  unfold State.tickLine
  repeat' first
    | with_reducible assumption
    | intro _
    | exact rfl
    | with_reducible apply ite_keeps
    | with_reducible apply State.enterSynced_keeps
    | with_reducible apply State.tickCouplers_keeps
    | with_reducible apply State.tickFallback_keeps
    | with_reducible apply State.tickInaug_keeps
    | with_reducible apply State.tickKeys_keeps
    | with_reducible apply State.tickPorts_keeps
    | with_reducible apply State.tickRed_keeps
    | with_reducible apply State.tickStart_keeps
    | with_reducible apply State.tickSynth_keeps

theorem State.countSkipped_keeps {b s : State} (h : Keeps b s) (t : Nat) : Keeps b (State.countSkipped s t) := by
  unfold State.countSkipped
  repeat' first
    | with_reducible assumption
    | intro _
    | exact rfl
    | with_reducible apply ite_keeps
    | with_reducible refine foldl_keeps ?_ _ _ (fun _ _ _ => ?_)
    | with_reducible refine foldl_snd_keeps _ ?_ _ _ (fun _ _ _ => ?_)
    | with_reducible apply State.inc_keeps

theorem State.judgeAll_keeps {b s : State} (h : Keeps b s) (t : Nat) (still stepped : Bool) : Keeps b (State.judgeAll s t still stepped).2.2 := by
  unfold State.judgeAll
  repeat' first
    | with_reducible assumption
    | intro _
    | exact rfl
    | with_reducible apply ite_keeps
    | with_reducible refine foldl_third_keeps _ ?_ _ _ (fun _ _ _ => ?_)
    | with_reducible apply ite_snd_keeps
    | with_reducible refine foldl_keeps ?_ _ _ (fun _ _ _ => ?_)
    | with_reducible refine foldl_snd_keeps _ ?_ _ _ (fun _ _ _ => ?_)
    | with_reducible apply State.judge_keeps

theorem State.tickJobs_keeps {b s : State} (h : Keeps b s) (t : Nat) (still stepped : Bool) (loads : List (Option Nat)) (armed : Nat) (crcBad parityBad : Fin 4) : Keeps b (State.tickJobs s t still stepped loads armed crcBad parityBad) := by
  unfold State.tickJobs
  repeat' first
    | with_reducible assumption
    | ((try lift_lets); intro x; clear_value x)
    | intro _
    | exact rfl
    | with_reducible apply ite_keeps
    | with_reducible refine foldl_keeps ?_ _ _ (fun _ _ _ => ?_)
    | with_reducible refine foldl_snd_keeps _ ?_ _ _ (fun _ _ _ => ?_)
    | with_reducible apply State.canLate_keeps
    | with_reducible apply State.canTick_keeps
    | with_reducible apply State.countSkipped_keeps
    | with_reducible apply State.judgeAll_keeps
    | with_reducible apply State.modCan_keeps
    | with_reducible apply State.modClock_keeps
    | with_reducible apply State.modJob_keeps
    | with_reducible apply State.ran_keeps
    | with_reducible apply State.startJob_keeps
    | with_reducible apply State.startReload_keeps
    | with_reducible apply State.swapCells_keeps
    | with_reducible apply State.takeTable_keeps
    | with_reducible apply State.weirTick_keeps
    | with_reducible apply State.weirsFollow_keeps
    | with_reducible apply State.when_keeps

theorem State.tickMill_keeps {b s : State} (h : Keeps b s) : Keeps b (State.tickMill s) := by
  unfold State.tickMill
  repeat' first
    | with_reducible assumption
    | intro _
    | exact rfl
    | with_reducible apply ite_keeps
    | with_reducible apply State.modMill_keeps

theorem State.nitCounts_keeps {b s : State} (h : Keeps b s) : Keeps b (State.nitCounts s) := by
  unfold State.nitCounts
  repeat' first
    | with_reducible assumption
    | ((try lift_lets); intro x; clear_value x)
    | intro _
    | exact rfl
    | with_reducible apply ite_keeps
    | with_reducible apply State.modRed_keeps

theorem State.nitRed_keeps {b s : State} (h : Keeps b s) : Keeps b (State.nitRed s) := by
  unfold State.nitRed
  repeat' first
    | with_reducible assumption
    | ((try lift_lets); intro x; refine (fun (_ : Keeps b x) => ?_) ?_; (on_goal 2 => subst x); clear_value x)
    | intro _
    | exact rfl
    | with_reducible apply ite_keeps
    | with_reducible apply State.dropShadow_keeps
    | with_reducible apply State.modRed_keeps
    | with_reducible apply State.nitCounts_keeps
    | split

theorem State.nitLine_keeps {b s : State} (h : Keeps b s) : Keeps b (State.nitLine s) := by
  unfold State.nitLine
  repeat' first
    | with_reducible assumption
    | intro _
    | exact rfl
    | with_reducible apply ite_keeps
    | with_reducible apply State.nitSync_keeps

theorem execTick_keeps {b s s1 : State} (h : State.Keeps b s) (loads : List (Option Nat)) (armed : Nat) (crcBad parityBad : Fin 4) (e : execTick loads armed crcBad parityBad s = .next s1) : State.Keeps b s1 := by
  unfold execTick at e
  cases e
  repeat' first
    | with_reducible assumption
    | ((try lift_lets); intro x; refine (fun (_ : Keeps b x) => ?_) ?_; (on_goal 2 => subst x); clear_value x)
    | ((try lift_lets); intro x; clear_value x)
    | intro _
    | exact rfl
    | with_reducible apply ite_keeps
    | ((with_reducible apply State.modTally_keeps); on_goal 2 => exact fun _ h => h)
    | with_reducible apply State.modTally_keeps
    | with_reducible apply State.pdTick_keeps
    | with_reducible apply State.tickJobs_keeps
    | with_reducible apply State.tickLine_keeps
    | with_reducible apply State.tickMill_keeps
    | with_reducible apply State.tickSync_keeps
    | with_reducible apply State.turnOver_keeps

theorem execNitCorrection_keeps {b s s1 : State} (h : State.Keeps b s) (e : execNitCorrection s = .next s1) : State.Keeps b s1 := by
  unfold execNitCorrection at e
  cases e
  repeat' first
    | with_reducible assumption
    | intro _
    | exact rfl
    | with_reducible apply ite_keeps
    | with_reducible apply State.checkTrial_keeps
    | with_reducible apply State.modSync_keeps
    | with_reducible apply State.nitLine_keeps
    | with_reducible apply State.nitRed_keeps
    | with_reducible apply State.passTo_keeps

theorem execAdoption_keeps {b s s1 : State} (h : State.Keeps b s) (e : execAdoption s = .next s1) : State.Keeps b s1 := by
  unfold execAdoption at e
  cases e
  repeat' first
    | with_reducible assumption
    | ((try lift_lets); intro x; refine (fun (_ : Keeps b x) => ?_) ?_; (on_goal 2 => subst x); clear_value x)
    | ((try lift_lets); intro x; clear_value x)
    | intro _
    | exact rfl
    | with_reducible apply ite_keeps
    | with_reducible apply State.adoptLine_keeps
    | with_reducible apply State.adoptRules_keeps
    | with_reducible apply State.flushLine_keeps
    | with_reducible apply State.gwRestart_keeps
    | with_reducible apply State.measRules_keeps
    | with_reducible apply State.releaseHeld_keeps
    | split

theorem State.accessError_keeps {b s : State} (h : Keeps b s) (r : Requester) : Keeps b (State.accessError s r) := by
  unfold State.accessError
  repeat' first
    | with_reducible assumption
    | ((try lift_lets); intro x; refine (fun (_ : Keeps b x) => ?_) ?_; (on_goal 2 => subst x); clear_value x)
    | intro _
    | exact rfl
    | with_reducible apply ite_keeps
    | with_reducible apply State.recordS_keeps
    | with_reducible apply State.tnErr_keeps
    | split

theorem State.readField_keeps {b s : State} (h : Keeps b s) (x : Fld × List Nat) : Keeps b (State.readField s x) := by
  unfold State.readField
  repeat' first
    | with_reducible assumption
    | intro _
    | exact rfl
    | with_reducible apply ite_keeps
    | with_reducible apply State.apPop_keeps
    | with_reducible apply State.modFar_keeps
    | with_reducible apply State.set_keeps
    | split
    | refine Keeps.ofSnd ?_ (by assumption)
    | refine Keeps.ofThird ?_ (by assumption)
    | refine Keeps.ofFourth ?_ (by assumption)
    | (apply Keeps.other (by assumption) <;> rfl)

theorem State.latchHigh_keeps {b s : State} (h : Keeps b s) (c off : Nat) : Keeps b (State.latchHigh s c off) := by
  unfold State.latchHigh
  repeat' first
    | with_reducible assumption
    | ((try lift_lets); intro x; clear_value x)
    | intro _
    | exact rfl
    | with_reducible apply ite_keeps
    | with_reducible apply State.modClock_keeps
    | split

theorem State.readReg_keeps {b s : State} (h : Keeps b s) (r : Requester) (off : Nat) : Keeps b (State.readReg s r off).2 := by
  unfold State.readReg
  repeat' first
    | with_reducible assumption
    | ((try lift_lets); intro x; clear_value x)
    | intro _
    | exact rfl
    | with_reducible apply ite_keeps
    | with_reducible apply ite_snd_keeps
    | with_reducible refine foldl_keeps ?_ _ _ (fun _ _ _ => ?_)
    | with_reducible refine foldl_snd_keeps _ ?_ _ _ (fun _ _ _ => ?_)
    | with_reducible apply State.latchHigh_keeps
    | with_reducible apply State.readField_keeps

theorem State.readOwn_keeps {b s : State} (h : Keeps b s) (t off : Nat) : Keeps b (State.readOwn s t off).2 := by
  unfold State.readOwn
  repeat' first
    | with_reducible assumption
    | intro _
    | exact rfl
    | with_reducible apply ite_keeps
    | with_reducible apply ite_snd_keeps
    | with_reducible apply State.readReg_keeps
    | split

theorem State.readAccess_keeps {b s : State} (h : Keeps b s) (r : Requester) (bar2 : Bool) (off size : Nat) : Keeps b (State.readAccess s r bar2 off size).2 := by
  unfold State.readAccess
  repeat' first
    | with_reducible assumption
    | intro _
    | exact rfl
    | with_reducible apply ite_keeps
    | with_reducible apply ite_snd_keeps
    | with_reducible apply State.accessError_keeps
    | with_reducible apply State.readOwn_keeps
    | with_reducible apply State.readReg_keeps
    | split

theorem State.setLock_keeps {b s : State} (h : Keeps b s) (f : Fld) (v : Nat) : Keeps b (State.setLock s f v) := by
  unfold State.setLock
  repeat' first
    | with_reducible assumption
    | intro _
    | exact rfl
    | with_reducible apply ite_keeps
    | with_reducible apply State.set_keeps

theorem State.bufConfig_keeps {z s : State} (h : Keeps z s) (n b k v : Nat) : Keeps z (State.bufConfig s n b k v) := by
  unfold State.bufConfig
  repeat' first
    | with_reducible assumption
    | ((try lift_lets); intro x; clear_value x)
    | intro _
    | exact rfl
    | with_reducible apply ite_keeps
    | with_reducible apply State.modBuf_keeps

theorem State.bufWrite_keeps {z s : State} (h : Keeps z s) (n b k v : Nat) : Keeps z (State.bufWrite s n b k v) := by
  unfold State.bufWrite
  repeat' first
    | with_reducible assumption
    | ((try lift_lets); intro x; refine (fun (_ : Keeps z x) => ?_) ?_; (on_goal 2 => subst x); clear_value x)
    | intro _
    | exact rfl
    | with_reducible apply ite_keeps
    | with_reducible apply State.bufConfig_keeps
    | with_reducible apply State.canUpdate_keeps
    | with_reducible apply State.modBuf_keeps

theorem State.writeField_keeps {b s : State} (h : Keeps b s) (r : Requester) (off v : Nat) (x : Fld × List Nat) : Keeps b (State.writeField r off v s x) := by
  unfold State.writeField
  repeat' first
    | with_reducible assumption
    | intro _
    | exact rfl
    | with_reducible apply ite_keeps
    | with_reducible apply State.clrBits_keeps
    | with_reducible apply State.set_keeps
    | split

theorem State.actTurnCtl_keeps {b s : State} (h : Keeps b s) (r : Requester) (v : Nat) : Keeps b (State.actTurnCtl s r v) := by
  unfold State.actTurnCtl
  repeat' first
    | with_reducible assumption
    | intro _
    | exact rfl
    | with_reducible apply ite_keeps
    | with_reducible apply State.lineOff_keeps
    | with_reducible apply State.relays_keeps
    | with_reducible apply State.set_keeps
    | with_reducible apply State.turnOn_keeps
    | split

theorem State.actRstCmd_keeps {b s : State} (h : Keeps b s) (r : Requester) (v : Nat) : Keeps b (State.actRstCmd s r v) := by
  unfold State.actRstCmd
  repeat' first
    | with_reducible assumption
    | intro _
    | exact rfl
    | with_reducible apply ite_keeps
    | with_reducible apply State.fullReset_keeps
    | with_reducible apply State.fwRestart_keeps
    | split

theorem State.actTaiCtl_keeps {b s : State} (h : Keeps b s) (v : Nat) : Keeps b (State.actTaiCtl s v) := by
  unfold State.actTaiCtl
  repeat' first
    | with_reducible assumption
    | intro _
    | exact rfl
    | with_reducible apply ite_keeps
    | with_reducible apply State.armTai_keeps
    | with_reducible apply State.modSync_keeps
    | with_reducible apply State.set_keeps

theorem State.actTiCtl_keeps {b s : State} (h : Keeps b s) (t v : Nat) (list : List Byte) : Keeps b (State.actTiCtl s t v list) := by
  unfold State.actTiCtl
  repeat' first
    | with_reducible assumption
    | intro _
    | exact rfl
    | with_reducible apply ite_keeps
    | with_reducible apply State.enableImage_keeps
    | with_reducible apply State.modImage_keeps
    | with_reducible apply State.set_keeps
    | with_reducible apply State.showReads_keeps

theorem State.actQueueCtl_keeps {b s : State} (h : Keeps b s) (t q v : Nat) : Keeps b (State.actQueueCtl s t q v) := by
  unfold State.actQueueCtl
  repeat' first
    | with_reducible assumption
    | intro _
    | exact rfl
    | with_reducible apply ite_keeps
    | with_reducible apply State.disableQueue_keeps
    | with_reducible apply State.enableQueue_keeps

theorem State.actCanCmd_keeps {b s : State} (h : Keeps b s) (n v : Nat) : Keeps b (State.actCanCmd s n v) := by
  unfold State.actCanCmd
  repeat' first
    | with_reducible assumption
    | ((try lift_lets); intro x; refine (fun (_ : Keeps b x) => ?_) ?_; (on_goal 2 => subst x); clear_value x)
    | intro _
    | exact rfl
    | with_reducible apply ite_keeps
    | with_reducible apply State.canRecover_keeps
    | with_reducible apply State.canSleepCmd_keeps
    | with_reducible apply State.canWake_keeps

/-- Every act of a register write keeps it. -/
theorem State.actions_keeps {b : State} {a : Fld × (State → Requester → List Nat → Nat → List Byte → State)} (ha : a ∈ State.actions)
    {s : State} (h : Keeps b s) (r : Requester) (ix : List Nat) (v : Nat) (g : List Byte) : Keeps b (a.2 s r ix v g) := by
  simp only [State.actions, List.mem_append, List.mem_cons, List.mem_map, List.not_mem_nil, or_false] at ha
  rcases ha with ((rfl | rfl | rfl | rfl | rfl | rfl | rfl | rfl | rfl) | (rfl | rfl | rfl | rfl | rfl | rfl | rfl | rfl)) | ⟨l, _, rfl⟩
  all_goals
    dsimp only
    repeat' first
      | with_reducible assumption
      | with_reducible apply ite_keeps
      | with_reducible apply State.actTurnCtl_keeps
      | with_reducible apply State.writeSw_keeps
      | with_reducible apply State.clearPeak_keeps
      | with_reducible apply State.actRstCmd_keeps
      | with_reducible apply State.lpRetry_keeps
      | with_reducible apply State.actTaiCtl_keeps
      | with_reducible apply State.gpioSettle_keeps
      | with_reducible apply State.actTiCtl_keeps
      | with_reducible apply State.actQueueCtl_keeps
      | with_reducible apply State.mdioGo_keeps
      | with_reducible apply State.actCanCmd_keeps
      | with_reducible apply State.modCan_keeps
      | with_reducible apply State.bufWrite_keeps
      | with_reducible apply State.memCounters_keeps
      | with_reducible apply State.writeUtc_keeps
      | with_reducible apply State.newNonce_keeps
      | with_reducible apply State.flag_keeps
      | with_reducible apply State.setLock_keeps

theorem State.ppsChanged_keeps {b s : State} (h : Keeps b s) : Keeps b (State.ppsChanged s old) := by
  unfold State.ppsChanged
  repeat' first
    | with_reducible assumption
    | intro _
    | exact rfl
    | with_reducible apply ite_keeps
    | with_reducible apply State.modSync_keeps
    | with_reducible apply State.ppsSettle_keeps

theorem State.settle_keeps {b s : State} (h : Keeps b s) (off : Nat) : Keeps b (State.settle s old off) := by
  unfold State.settle
  repeat' first
    | with_reducible assumption
    | ((try lift_lets); intro x; refine (fun (_ : Keeps b x) => ?_) ?_; (on_goal 2 => subst x); clear_value x)
    | intro _
    | exact rfl
    | with_reducible apply ite_keeps
    | with_reducible apply State.cansChanged_keeps
    | with_reducible apply State.certify_keeps
    | with_reducible apply State.gpioSettle_keeps
    | with_reducible apply State.portsChanged_keeps
    | with_reducible apply State.ppsChanged_keeps
    | with_reducible apply State.showPlacement_keeps
    | with_reducible apply State.sluiceChanged_keeps

theorem State.writeReg_keeps {b s : State} (h : Keeps b s) (r : Requester) (off v : Nat) (given : List Byte) : Keeps b (State.writeReg s r off v given) := by
  unfold State.writeReg
  repeat' first
    | with_reducible assumption
    | ((try lift_lets); intro x; refine (fun (_ : Keeps b x) => ?_) ?_; (on_goal 2 => subst x); clear_value x)
    | ((try lift_lets); intro x; clear_value x)
    | intro _
    | exact rfl
    | with_reducible apply ite_keeps
    | exact State.actions_keeps (List.mem_of_find?_eq_some (by assumption)) (by assumption) _ _ _ _
    | with_reducible refine foldl_keeps ?_ _ _ (fun _ _ _ => ?_)
    | with_reducible refine foldl_snd_keeps _ ?_ _ _ (fun _ _ _ => ?_)
    | with_reducible apply State.settle_keeps
    | with_reducible apply State.writeField_keeps
    | split

theorem State.msixWrite_keeps {b s : State} (h : Keeps b s) (t off v : Nat) : Keeps b (State.msixWrite s t off v) := by
  unfold State.msixWrite
  repeat' first
    | with_reducible assumption
    | ((try lift_lets); intro x; refine (fun (_ : Keeps b x) => ?_) ?_; (on_goal 2 => subst x); clear_value x)
    | ((try lift_lets); intro x; clear_value x)
    | intro _
    | exact rfl
    | with_reducible apply ite_keeps
    | with_reducible apply State.modHost_keeps
    | with_reducible apply State.msix_keeps

theorem State.writeOwn_keeps {b s : State} (h : Keeps b s) (t off v : Nat) (given : List Byte) : Keeps b (State.writeOwn s t off v given) := by
  unfold State.writeOwn
  repeat' first
    | with_reducible assumption
    | intro _
    | exact rfl
    | with_reducible apply ite_keeps
    | with_reducible apply State.doorbell_keeps
    | with_reducible apply State.msixWrite_keeps
    | with_reducible apply State.writeReg_keeps
    | split

theorem State.writeAccess_keeps {b s : State} (h : Keeps b s) (r : Requester) (bar2 : Bool) (off size v : Nat) (given : List Byte) : Keeps b (State.writeAccess s r bar2 off size v given) := by
  unfold State.writeAccess
  repeat' first
    | with_reducible assumption
    | intro _
    | exact rfl
    | with_reducible apply ite_keeps
    | with_reducible apply State.accessError_keeps
    | with_reducible apply State.writeOwn_keeps
    | with_reducible apply State.writeReg_keeps
    | split

theorem State.qspiRead_keeps {b s : State} (h : Keeps b s) (off : Nat) (k : Nat) : Keeps b (State.qspiRead off k s).2 := by
  induction k generalizing s off with
  | zero => exact h
  | succ k ih =>
    unfold State.qspiRead
    repeat' first
      | with_reducible assumption
      | with_reducible apply ih
      | intro _
      | exact rfl
      | with_reducible apply ite_keeps
      | with_reducible apply ite_snd_keeps
      | with_reducible apply State.readOwn_keeps

theorem State.qspiWrite_keeps {b s : State} (h : Keeps b s) (data : List Byte) (off : Nat) (k : Nat) : Keeps b (State.qspiWrite data off k s) := by
  induction k generalizing s data off with
  | zero => exact h
  | succ k ih =>
    unfold State.qspiWrite
    repeat' first
      | with_reducible assumption
      | intro _
      | with_reducible apply ih
      | exact rfl
      | with_reducible apply ite_keeps
      | with_reducible apply State.writeOwn_keeps

theorem execRegisterWrite_keeps {b s s1 : State} (h : State.Keeps b s) (r : Requester) (bar2 : Bool) (off size : Nat) (v : Word) (given : List Byte) (e : execRegisterWrite r bar2 off size v given s = .next s1) : State.Keeps b s1 := by
  unfold execRegisterWrite at e
  cases e
  repeat' first
    | with_reducible assumption
    | intro _
    | exact rfl
    | with_reducible apply ite_keeps
    | with_reducible apply State.writeAccess_keeps

theorem execReadClear_keeps {b s s1 : State} (h : State.Keeps b s) (r : Requester) (bar2 : Bool) (off size : Nat) (e : execReadClear r bar2 off size s = .next s1) : State.Keeps b s1 := by
  unfold execReadClear at e
  cases e
  repeat' first
    | with_reducible assumption
    | intro _
    | exact rfl
    | with_reducible apply ite_keeps
    | with_reducible apply State.emit_keeps
    | with_reducible apply State.readAccess_keeps

theorem execLatchedLowRead_keeps {b s s1 : State} (h : State.Keeps b s) (r : Requester) (bar2 : Bool) (off : Nat) (e : execLatchedLowRead r bar2 off s = .next s1) : State.Keeps b s1 := by
  unfold execLatchedLowRead at e
  cases e
  repeat' first
    | with_reducible assumption
    | intro _
    | exact rfl
    | with_reducible apply ite_keeps
    | with_reducible apply State.emit_keeps
    | with_reducible apply State.readAccess_keeps

theorem execLockSet_keeps {b s s1 : State} (h : State.Keeps b s) (r : Requester) (k : Fin 12) (e : execLockSet r k s = .next s1) : State.Keeps b s1 := by
  unfold execLockSet at e
  cases e
  repeat' first
    | with_reducible assumption
    | intro _
    | exact rfl
    | with_reducible apply ite_keeps
    | with_reducible apply State.setLock_keeps
    | split

theorem execReadReg_keeps {b s s1 : State} (h : State.Keeps b s) (off n : Nat) (e : execReadReg off n s = .next s1) : State.Keeps b s1 := by
  unfold execReadReg at e
  cases e
  repeat' first
    | with_reducible assumption
    | intro _
    | exact rfl
    | with_reducible apply ite_keeps
    | with_reducible apply State.accessError_keeps
    | with_reducible apply State.emit_keeps
    | with_reducible apply State.qspiRead_keeps

theorem execWriteReg_keeps {b s s1 : State} (h : State.Keeps b s) (off : Nat) (data : List Byte) (e : execWriteReg off data s = .next s1) : State.Keeps b s1 := by
  unfold execWriteReg at e
  cases e
  repeat' first
    | with_reducible assumption
    | intro _
    | exact rfl
    | with_reducible apply ite_keeps
    | with_reducible apply State.accessError_keeps
    | with_reducible apply State.qspiWrite_keeps

theorem State.farReads_keeps {b s : State} (h : Keeps b s) (w off len : Nat) : Keeps b (State.farReads s w off len) := by
  unfold State.farReads
  repeat' first
    | with_reducible assumption
    | ((try lift_lets); intro x; clear_value x)
    | intro _
    | exact rfl
    | with_reducible apply ite_keeps
    | with_reducible refine foldl_keeps ?_ _ _ (fun _ _ _ => ?_)
    | with_reducible refine foldl_snd_keeps _ ?_ _ _ (fun _ _ _ => ?_)
    | with_reducible apply State.emit_keeps

theorem State.farWrites_keeps {b s : State} (h : Keeps b s) (w off : Nat) (d : List Byte) : Keeps b (State.farWrites s w off d) := by
  unfold State.farWrites
  repeat' first
    | with_reducible assumption
    | ((try lift_lets); intro x; refine (fun (_ : Keeps b x) => ?_) ?_; (on_goal 2 => subst x); clear_value x)
    | ((try lift_lets); intro x; clear_value x)
    | intro _
    | exact rfl
    | with_reducible apply ite_keeps
    | with_reducible refine foldl_keeps ?_ _ _ (fun _ _ _ => ?_)
    | with_reducible refine foldl_snd_keeps _ ?_ _ _ (fun _ _ _ => ?_)
    | with_reducible apply State.emit_keeps
    | with_reducible apply State.memWrite_keeps

theorem State.farPerform_keeps {b s : State} (h : Keeps b s) (w : Nat) (r : FarReq) (ok : Nat) (given : List Byte) : Keeps b (State.farPerform s w r ok given).2.2.2 := by
  unfold State.farPerform
  repeat' first
    | with_reducible assumption
    | ((try lift_lets); intro x; refine (fun (_ : Keeps b x) => ?_) ?_; (on_goal 2 => subst x); clear_value x)
    | ((try lift_lets); intro x; clear_value x)
    | intro _
    | exact rfl
    | with_reducible apply ite_keeps
    | with_reducible apply ite_snd_keeps
    | with_reducible apply State.farReads_keeps
    | with_reducible apply State.farWrites_keeps
    | with_reducible apply State.take_keeps
    | with_reducible apply State.winWrite_keeps
    | split

theorem State.farReply_keeps {b s : State} (h : Keeps b s) (r : FarReq) (fstat wnum pieces bytes extra : Nat) (data : List Byte) : Keeps b (State.farReply s r fstat wnum pieces bytes extra data) := by
  unfold State.farReply
  repeat' first
    | with_reducible assumption
    | ((try lift_lets); intro x; clear_value x)
    | intro _
    | exact rfl
    | with_reducible apply ite_keeps
    | with_reducible apply State.farAnswer_keeps
    | with_reducible apply State.farSend_keeps
    | split

theorem State.farRefused_keeps {b s : State} (h : Keeps b s) (r : FarReq) (w fstat off : Nat) : Keeps b (State.farRefused s r w fstat off) := by
  unfold State.farRefused
  repeat' first
    | with_reducible assumption
    | ((try lift_lets); intro x; refine (fun (_ : Keeps b x) => ?_) ?_; (on_goal 2 => subst x); clear_value x)
    | intro _
    | exact rfl
    | with_reducible apply ite_keeps
    | with_reducible apply State.inc_keeps
    | with_reducible apply State.recordS_keeps

theorem State.farServe_keeps {b s : State} (h : Keeps b s) (r : FarReq) (ok : Nat) (given : List Byte) : Keeps b (State.farServe s r ok given) := by
  unfold State.farServe
  repeat' first
    | with_reducible assumption
    | ((try lift_lets); intro x; clear_value x)
    | intro _
    | exact rfl
    | with_reducible apply ite_keeps
    | with_reducible apply State.farPerform_keeps
    | with_reducible apply State.farRefused_keeps
    | with_reducible apply State.farReply_keeps
    | with_reducible apply State.inc_keeps
    | split

theorem execFarRequestServe_keeps {b s s1 : State} (h : State.Keeps b s) (ok : Nat) (given : List Byte) (e : execFarRequestServe ok given s = .next s1) : State.Keeps b s1 := by
  unfold execFarRequestServe at e
  cases e
  repeat' first
    | with_reducible assumption
    | intro _
    | exact rfl
    | with_reducible apply ite_keeps
    | with_reducible apply State.farServe_keeps
    | with_reducible apply State.modFar_keeps
    | with_reducible apply State.readStall_keeps
    | with_reducible apply State.showFar_keeps
    | split

theorem State.readOut_keeps {b s : State} (h : Keeps b s) (k : Nat) : Keeps b (State.readOut k s).2 := by
  induction k generalizing s with
  | zero => exact h
  | succ k ih =>
    unfold State.readOut
    repeat' first
      | with_reducible assumption
      | with_reducible apply ih
      | intro _
      | exact rfl
      | with_reducible apply ite_keeps
      | with_reducible apply ite_snd_keeps
      | with_reducible apply State.modDebug_keeps

theorem execRoData_keeps {b s s1 : State} (h : State.Keeps b s) (n : Nat) (e : execRoData n s = .next s1) : State.Keeps b s1 := by
  unfold execRoData at e
  cases e
  repeat' first
    | with_reducible assumption
    | intro _
    | exact rfl
    | with_reducible apply ite_keeps
    | with_reducible apply State.emit_keeps
    | with_reducible apply State.loadIr_keeps
    | with_reducible apply State.readOut_keeps

theorem State.idleTime_keeps {b s : State} (h : Keeps b s) : Keeps b (State.idleTime s) := by
  unfold State.idleTime
  repeat' first
    | with_reducible assumption
    | intro _
    | exact rfl
    | with_reducible apply ite_keeps
    | with_reducible apply State.modClock_keeps
    | with_reducible apply State.pass_keeps

theorem State.idle_keeps {b s : State} (h : Keeps b s) : Keeps b (State.idle s) := by
  unfold State.idle
  repeat' first
    | with_reducible assumption
    | intro _
    | exact rfl
    | with_reducible apply ite_keeps
    | with_reducible apply State.attServe_keeps
    | with_reducible apply State.consistStep_keeps
    | with_reducible apply State.gptpTick_keeps
    | with_reducible apply State.idleTime_keeps
    | with_reducible apply State.memCycle_keeps

end Sys2Proof.Machine
end

