-- ==== Sys2Proof/Laws/Records.lean ====
section
/-!
SUPPORT. What putting a record into the tally book's queue can change: the register fields of the book and of the console, the book itself,
the console's busy time and what has been put out; everything else stays.
-/

namespace Sys2Proof.Machine

/-- The places of the register fields that a record may change: those of the tally book and the console's count of dropped lines. -/
def recordKey (k : Nat) : Bool := (decide (32 * 0xE0000 ≤ k) && decide (k < 32 * 0xE1000)) || k == 32 * 0x110008 + 16

namespace State


section queueRec
variable (s : State) (r : Rec)

@[simp] theorem queueRec_pending : (s.queueRec r).pending = s.pending := rfl
@[simp] theorem queueRec_pins : (s.queueRec r).pins = s.pins := rfl
@[simp] theorem queueRec_power : (s.queueRec r).power = s.power := rfl
@[simp] theorem queueRec_boot : (s.queueRec r).boot = s.boot := rfl
@[simp] theorem queueRec_ports : (s.queueRec r).ports = s.ports := rfl
@[simp] theorem queueRec_sync : (s.queueRec r).sync = s.sync := rfl
@[simp] theorem queueRec_start : (s.queueRec r).start = s.start := rfl
@[simp] theorem queueRec_inaug : (s.queueRec r).inaug = s.inaug := rfl
@[simp] theorem queueRec_synth : (s.queueRec r).synth = s.synth := rfl
@[simp] theorem queueRec_weirs : (s.queueRec r).weirs = s.weirs := rfl
@[simp] theorem queueRec_red : (s.queueRec r).red = s.red := rfl
@[simp] theorem queueRec_mill : (s.queueRec r).mill = s.mill := rfl
@[simp] theorem queueRec_host : (s.queueRec r).host = s.host := rfl
@[simp] theorem queueRec_far : (s.queueRec r).far = s.far := rfl
@[simp] theorem queueRec_con : (s.queueRec r).con = s.con := rfl
@[simp] theorem queueRec_can : (s.queueRec r).can = s.can := rfl
@[simp] theorem queueRec_keys : (s.queueRec r).keys = s.keys := rfl
@[simp] theorem queueRec_conf : (s.queueRec r).conf = s.conf := rfl
@[simp] theorem queueRec_sec : (s.queueRec r).sec = s.sec := rfl
@[simp] theorem queueRec_mem : (s.queueRec r).mem = s.mem := rfl
@[simp] theorem queueRec_debug : (s.queueRec r).dbg = s.dbg := rfl
@[simp] theorem queueRec_held : (s.queueRec r).held = s.held := rfl
@[simp] theorem queueRec_free : (s.queueRec r).free = s.free := rfl
@[simp] theorem queueRec_clock_ntime : (s.queueRec r).clock.ntime = s.clock.ntime := rfl
@[simp] theorem queueRec_clock_phase : (s.queueRec r).clock.phase = s.clock.phase := rfl
@[simp] theorem queueRec_clock_pre : (s.queueRec r).clock.pre = s.clock.pre := rfl
@[simp] theorem queueRec_clock_turn : (s.queueRec r).clock.turn = s.clock.turn := rfl
@[simp] theorem queueRec_clock_optime : (s.queueRec r).clock.optime = s.clock.optime := rfl
@[simp] theorem queueRec_clock_optFrac : (s.queueRec r).clock.optFrac = s.clock.optFrac := rfl
@[simp] theorem queueRec_clock_pcycle : (s.queueRec r).clock.pcycle = s.clock.pcycle := rfl
@[simp] theorem queueRec_clock_jobs : (s.queueRec r).clock.jobs = s.clock.jobs := rfl
@[simp] theorem queueRec_clock_load : (s.queueRec r).clock.load = s.clock.load := rfl
@[simp] theorem queueRec_clock_stepped : (s.queueRec r).clock.stepped = s.clock.stepped := rfl
@[simp] theorem queueRec_clock_latches : (s.queueRec r).clock.latches = s.clock.latches := rfl
@[simp] theorem queueRec_clock_snap : (s.queueRec r).clock.snap = s.clock.snap := rfl
@[simp] theorem queueRec_clock_snapTurn : (s.queueRec r).clock.snapTurn = s.clock.snapTurn := rfl
@[simp] theorem queueRec_clock_armed : (s.queueRec r).clock.armed = s.clock.armed := rfl
@[simp] theorem queueRec_clock_up : (s.queueRec r).clock.up = s.clock.up := rfl
@[simp] theorem queueRec_clock_once : (s.queueRec r).clock.once = s.clock.once := rfl
@[simp] theorem queueRec_clock_gxBad : (s.queueRec r).clock.gxBad = s.clock.gxBad := rfl
/-- Register fields outside the tally book and the console's count read as before. -/
@[simp] theorem queueRec_get (g : Fld) (jx : List Nat) (h : recordKey (g.key jx) = false) : (s.queueRec r).get g jx = s.get g jx := (get_set_other _ _ _ _ _ _ (by rintro e; rw [e] at h; exact absurd h (by decide))).trans
    (get_set_other _ _ _ _ _ _ (by rintro e; rw [e] at h; exact absurd h (by decide)))

@[simp] theorem queueRec_on (g : Fld) (jx : List Nat) (h : recordKey (g.key jx) = false) : (s.queueRec r).on g jx = s.on g jx := by
  simp only [on, queueRec_get _ _ _ _ h]

/-- What a record leaves alone. -/
theorem queueRec_frame : let t := s.queueRec r
    { t with regs := s.regs, tally := s.tally, clock := s.clock, out := s.out } = s := by
  simp

end queueRec

section emerCopy
variable (s : State) (r : Rec)

@[simp] theorem emerCopy_pending : (s.emerCopy r).pending = s.pending := by
  unfold emerCopy
  split
  · rfl
  · split <;> rfl
@[simp] theorem emerCopy_pins : (s.emerCopy r).pins = s.pins := by
  unfold emerCopy
  split
  · rfl
  · split <;> rfl
@[simp] theorem emerCopy_power : (s.emerCopy r).power = s.power := by
  unfold emerCopy
  split
  · rfl
  · split <;> rfl
@[simp] theorem emerCopy_boot : (s.emerCopy r).boot = s.boot := by
  unfold emerCopy
  split
  · rfl
  · split <;> rfl
@[simp] theorem emerCopy_ports : (s.emerCopy r).ports = s.ports := by
  unfold emerCopy
  split
  · rfl
  · split <;> rfl
@[simp] theorem emerCopy_sync : (s.emerCopy r).sync = s.sync := by
  unfold emerCopy
  split
  · rfl
  · split <;> rfl
@[simp] theorem emerCopy_start : (s.emerCopy r).start = s.start := by
  unfold emerCopy
  split
  · rfl
  · split <;> rfl
@[simp] theorem emerCopy_inaug : (s.emerCopy r).inaug = s.inaug := by
  unfold emerCopy
  split
  · rfl
  · split <;> rfl
@[simp] theorem emerCopy_synth : (s.emerCopy r).synth = s.synth := by
  unfold emerCopy
  split
  · rfl
  · split <;> rfl
@[simp] theorem emerCopy_weirs : (s.emerCopy r).weirs = s.weirs := by
  unfold emerCopy
  split
  · rfl
  · split <;> rfl
@[simp] theorem emerCopy_red : (s.emerCopy r).red = s.red := by
  unfold emerCopy
  split
  · rfl
  · split <;> rfl
@[simp] theorem emerCopy_mill : (s.emerCopy r).mill = s.mill := by
  unfold emerCopy
  split
  · rfl
  · split <;> rfl
@[simp] theorem emerCopy_host : (s.emerCopy r).host = s.host := by
  unfold emerCopy
  split
  · rfl
  · split <;> rfl
@[simp] theorem emerCopy_far : (s.emerCopy r).far = s.far := by
  unfold emerCopy
  split
  · rfl
  · split <;> rfl
@[simp] theorem emerCopy_con : (s.emerCopy r).con = s.con := by
  unfold emerCopy
  split
  · rfl
  · split <;> rfl
@[simp] theorem emerCopy_can : (s.emerCopy r).can = s.can := by
  unfold emerCopy
  split
  · rfl
  · split <;> rfl
@[simp] theorem emerCopy_keys : (s.emerCopy r).keys = s.keys := by
  unfold emerCopy
  split
  · rfl
  · split <;> rfl
@[simp] theorem emerCopy_conf : (s.emerCopy r).conf = s.conf := by
  unfold emerCopy
  split
  · rfl
  · split <;> rfl
@[simp] theorem emerCopy_sec : (s.emerCopy r).sec = s.sec := by
  unfold emerCopy
  split
  · rfl
  · split <;> rfl
@[simp] theorem emerCopy_mem : (s.emerCopy r).mem = s.mem := by
  unfold emerCopy
  split
  · rfl
  · split <;> rfl
@[simp] theorem emerCopy_debug : (s.emerCopy r).dbg = s.dbg := by
  unfold emerCopy
  split
  · rfl
  · split <;> rfl
@[simp] theorem emerCopy_held : (s.emerCopy r).held = s.held := by
  unfold emerCopy
  split
  · rfl
  · split <;> rfl
@[simp] theorem emerCopy_free : (s.emerCopy r).free = s.free := by
  unfold emerCopy
  split
  · rfl
  · split <;> rfl
@[simp] theorem emerCopy_clock_ntime : (s.emerCopy r).clock.ntime = s.clock.ntime := by
  unfold emerCopy
  split
  · rfl
  · split <;> rfl
@[simp] theorem emerCopy_clock_phase : (s.emerCopy r).clock.phase = s.clock.phase := by
  unfold emerCopy
  split
  · rfl
  · split <;> rfl
@[simp] theorem emerCopy_clock_pre : (s.emerCopy r).clock.pre = s.clock.pre := by
  unfold emerCopy
  split
  · rfl
  · split <;> rfl
@[simp] theorem emerCopy_clock_turn : (s.emerCopy r).clock.turn = s.clock.turn := by
  unfold emerCopy
  split
  · rfl
  · split <;> rfl
@[simp] theorem emerCopy_clock_optime : (s.emerCopy r).clock.optime = s.clock.optime := by
  unfold emerCopy
  split
  · rfl
  · split <;> rfl
@[simp] theorem emerCopy_clock_optFrac : (s.emerCopy r).clock.optFrac = s.clock.optFrac := by
  unfold emerCopy
  split
  · rfl
  · split <;> rfl
@[simp] theorem emerCopy_clock_pcycle : (s.emerCopy r).clock.pcycle = s.clock.pcycle := by
  unfold emerCopy
  split
  · rfl
  · split <;> rfl
@[simp] theorem emerCopy_clock_jobs : (s.emerCopy r).clock.jobs = s.clock.jobs := by
  unfold emerCopy
  split
  · rfl
  · split <;> rfl
@[simp] theorem emerCopy_clock_load : (s.emerCopy r).clock.load = s.clock.load := by
  unfold emerCopy
  split
  · rfl
  · split <;> rfl
@[simp] theorem emerCopy_clock_stepped : (s.emerCopy r).clock.stepped = s.clock.stepped := by
  unfold emerCopy
  split
  · rfl
  · split <;> rfl
@[simp] theorem emerCopy_clock_latches : (s.emerCopy r).clock.latches = s.clock.latches := by
  unfold emerCopy
  split
  · rfl
  · split <;> rfl
@[simp] theorem emerCopy_clock_snap : (s.emerCopy r).clock.snap = s.clock.snap := by
  unfold emerCopy
  split
  · rfl
  · split <;> rfl
@[simp] theorem emerCopy_clock_snapTurn : (s.emerCopy r).clock.snapTurn = s.clock.snapTurn := by
  unfold emerCopy
  split
  · rfl
  · split <;> rfl
@[simp] theorem emerCopy_clock_armed : (s.emerCopy r).clock.armed = s.clock.armed := by
  unfold emerCopy
  split
  · rfl
  · split <;> rfl
@[simp] theorem emerCopy_clock_up : (s.emerCopy r).clock.up = s.clock.up := by
  unfold emerCopy
  split
  · rfl
  · split <;> rfl
@[simp] theorem emerCopy_clock_once : (s.emerCopy r).clock.once = s.clock.once := by
  unfold emerCopy
  split
  · rfl
  · split <;> rfl
@[simp] theorem emerCopy_clock_gxBad : (s.emerCopy r).clock.gxBad = s.clock.gxBad := by
  unfold emerCopy
  split
  · rfl
  · split <;> rfl
/-- Register fields outside the tally book and the console's count read as before. -/
@[simp] theorem emerCopy_get (g : Fld) (jx : List Nat) (h : recordKey (g.key jx) = false) : (s.emerCopy r).get g jx = s.get g jx := by
  unfold emerCopy
  split
  · rfl
  · split <;> exact get_set_other _ _ _ _ _ _ (by rintro e; rw [e] at h; exact absurd h (by decide))

@[simp] theorem emerCopy_on (g : Fld) (jx : List Nat) (h : recordKey (g.key jx) = false) : (s.emerCopy r).on g jx = s.on g jx := by
  simp only [on, emerCopy_get _ _ _ _ h]

/-- What a record leaves alone. -/
theorem emerCopy_frame : let t := s.emerCopy r
    { t with regs := s.regs, tally := s.tally, clock := s.clock, out := s.out } = s := by
  simp

end emerCopy

section consoleLine
variable (s : State) (r : Rec)

@[simp] theorem consoleLine_pending : (s.consoleLine r).pending = s.pending := by
  unfold consoleLine
  split
  · split <;> rfl
  · rfl
@[simp] theorem consoleLine_pins : (s.consoleLine r).pins = s.pins := by
  unfold consoleLine
  split
  · split <;> rfl
  · rfl
@[simp] theorem consoleLine_power : (s.consoleLine r).power = s.power := by
  unfold consoleLine
  split
  · split <;> rfl
  · rfl
@[simp] theorem consoleLine_boot : (s.consoleLine r).boot = s.boot := by
  unfold consoleLine
  split
  · split <;> rfl
  · rfl
@[simp] theorem consoleLine_ports : (s.consoleLine r).ports = s.ports := by
  unfold consoleLine
  split
  · split <;> rfl
  · rfl
@[simp] theorem consoleLine_sync : (s.consoleLine r).sync = s.sync := by
  unfold consoleLine
  split
  · split <;> rfl
  · rfl
@[simp] theorem consoleLine_start : (s.consoleLine r).start = s.start := by
  unfold consoleLine
  split
  · split <;> rfl
  · rfl
@[simp] theorem consoleLine_inaug : (s.consoleLine r).inaug = s.inaug := by
  unfold consoleLine
  split
  · split <;> rfl
  · rfl
@[simp] theorem consoleLine_synth : (s.consoleLine r).synth = s.synth := by
  unfold consoleLine
  split
  · split <;> rfl
  · rfl
@[simp] theorem consoleLine_weirs : (s.consoleLine r).weirs = s.weirs := by
  unfold consoleLine
  split
  · split <;> rfl
  · rfl
@[simp] theorem consoleLine_red : (s.consoleLine r).red = s.red := by
  unfold consoleLine
  split
  · split <;> rfl
  · rfl
@[simp] theorem consoleLine_mill : (s.consoleLine r).mill = s.mill := by
  unfold consoleLine
  split
  · split <;> rfl
  · rfl
@[simp] theorem consoleLine_host : (s.consoleLine r).host = s.host := by
  unfold consoleLine
  split
  · split <;> rfl
  · rfl
@[simp] theorem consoleLine_far : (s.consoleLine r).far = s.far := by
  unfold consoleLine
  split
  · split <;> rfl
  · rfl
@[simp] theorem consoleLine_con : (s.consoleLine r).con = s.con := by
  unfold consoleLine
  split
  · split <;> rfl
  · rfl
@[simp] theorem consoleLine_can : (s.consoleLine r).can = s.can := by
  unfold consoleLine
  split
  · split <;> rfl
  · rfl
@[simp] theorem consoleLine_keys : (s.consoleLine r).keys = s.keys := by
  unfold consoleLine
  split
  · split <;> rfl
  · rfl
@[simp] theorem consoleLine_conf : (s.consoleLine r).conf = s.conf := by
  unfold consoleLine
  split
  · split <;> rfl
  · rfl
@[simp] theorem consoleLine_sec : (s.consoleLine r).sec = s.sec := by
  unfold consoleLine
  split
  · split <;> rfl
  · rfl
@[simp] theorem consoleLine_mem : (s.consoleLine r).mem = s.mem := by
  unfold consoleLine
  split
  · split <;> rfl
  · rfl
@[simp] theorem consoleLine_debug : (s.consoleLine r).dbg = s.dbg := by
  unfold consoleLine
  split
  · split <;> rfl
  · rfl
@[simp] theorem consoleLine_held : (s.consoleLine r).held = s.held := by
  unfold consoleLine
  split
  · split <;> rfl
  · rfl
@[simp] theorem consoleLine_free : (s.consoleLine r).free = s.free := by
  unfold consoleLine
  split
  · split <;> rfl
  · rfl
@[simp] theorem consoleLine_clock_ntime : (s.consoleLine r).clock.ntime = s.clock.ntime := by
  unfold consoleLine
  split
  · split <;> rfl
  · rfl
@[simp] theorem consoleLine_clock_phase : (s.consoleLine r).clock.phase = s.clock.phase := by
  unfold consoleLine
  split
  · split <;> rfl
  · rfl
@[simp] theorem consoleLine_clock_pre : (s.consoleLine r).clock.pre = s.clock.pre := by
  unfold consoleLine
  split
  · split <;> rfl
  · rfl
@[simp] theorem consoleLine_clock_turn : (s.consoleLine r).clock.turn = s.clock.turn := by
  unfold consoleLine
  split
  · split <;> rfl
  · rfl
@[simp] theorem consoleLine_clock_optime : (s.consoleLine r).clock.optime = s.clock.optime := by
  unfold consoleLine
  split
  · split <;> rfl
  · rfl
@[simp] theorem consoleLine_clock_optFrac : (s.consoleLine r).clock.optFrac = s.clock.optFrac := by
  unfold consoleLine
  split
  · split <;> rfl
  · rfl
@[simp] theorem consoleLine_clock_pcycle : (s.consoleLine r).clock.pcycle = s.clock.pcycle := by
  unfold consoleLine
  split
  · split <;> rfl
  · rfl
@[simp] theorem consoleLine_clock_jobs : (s.consoleLine r).clock.jobs = s.clock.jobs := by
  unfold consoleLine
  split
  · split <;> rfl
  · rfl
@[simp] theorem consoleLine_clock_load : (s.consoleLine r).clock.load = s.clock.load := by
  unfold consoleLine
  split
  · split <;> rfl
  · rfl
@[simp] theorem consoleLine_clock_stepped : (s.consoleLine r).clock.stepped = s.clock.stepped := by
  unfold consoleLine
  split
  · split <;> rfl
  · rfl
@[simp] theorem consoleLine_clock_latches : (s.consoleLine r).clock.latches = s.clock.latches := by
  unfold consoleLine
  split
  · split <;> rfl
  · rfl
@[simp] theorem consoleLine_clock_snap : (s.consoleLine r).clock.snap = s.clock.snap := by
  unfold consoleLine
  split
  · split <;> rfl
  · rfl
@[simp] theorem consoleLine_clock_snapTurn : (s.consoleLine r).clock.snapTurn = s.clock.snapTurn := by
  unfold consoleLine
  split
  · split <;> rfl
  · rfl
@[simp] theorem consoleLine_clock_armed : (s.consoleLine r).clock.armed = s.clock.armed := by
  unfold consoleLine
  split
  · split <;> rfl
  · rfl
@[simp] theorem consoleLine_clock_up : (s.consoleLine r).clock.up = s.clock.up := by
  unfold consoleLine
  split
  · split <;> rfl
  · rfl
@[simp] theorem consoleLine_clock_once : (s.consoleLine r).clock.once = s.clock.once := by
  unfold consoleLine
  split
  · split <;> rfl
  · rfl
@[simp] theorem consoleLine_clock_gxBad : (s.consoleLine r).clock.gxBad = s.clock.gxBad := by
  unfold consoleLine
  split
  · split <;> rfl
  · rfl
/-- Register fields outside the tally book and the console's count read as before. -/
@[simp] theorem consoleLine_get (g : Fld) (jx : List Nat) (h : recordKey (g.key jx) = false) : (s.consoleLine r).get g jx = s.get g jx := by
  unfold consoleLine
  split
  · split
    · exact get_set_other _ _ _ _ _ _ (by rintro e; rw [e] at h; exact absurd h (by decide))
    · rfl
  · rfl

@[simp] theorem consoleLine_on (g : Fld) (jx : List Nat) (h : recordKey (g.key jx) = false) : (s.consoleLine r).on g jx = s.on g jx := by
  simp only [on, consoleLine_get _ _ _ _ h]

/-- What a record leaves alone. -/
theorem consoleLine_frame : let t := s.consoleLine r
    { t with regs := s.regs, tally := s.tally, clock := s.clock, out := s.out } = s := by
  simp

end consoleLine

section enqueue
variable (s : State) (code sev src flags p0 p1 p2 : Nat)

@[simp] theorem enqueue_pending : (s.enqueue code sev src flags p0 p1 p2).pending = s.pending := by
  unfold enqueue
  split
  · exact (consoleLine_pending _ _).trans (emerCopy_pending _ _)
  · rfl
@[simp] theorem enqueue_pins : (s.enqueue code sev src flags p0 p1 p2).pins = s.pins := by
  unfold enqueue
  split
  · exact (consoleLine_pins _ _).trans (emerCopy_pins _ _)
  · rfl
@[simp] theorem enqueue_power : (s.enqueue code sev src flags p0 p1 p2).power = s.power := by
  unfold enqueue
  split
  · exact (consoleLine_power _ _).trans (emerCopy_power _ _)
  · rfl
@[simp] theorem enqueue_boot : (s.enqueue code sev src flags p0 p1 p2).boot = s.boot := by
  unfold enqueue
  split
  · exact (consoleLine_boot _ _).trans (emerCopy_boot _ _)
  · rfl
@[simp] theorem enqueue_ports : (s.enqueue code sev src flags p0 p1 p2).ports = s.ports := by
  unfold enqueue
  split
  · exact (consoleLine_ports _ _).trans (emerCopy_ports _ _)
  · rfl
@[simp] theorem enqueue_sync : (s.enqueue code sev src flags p0 p1 p2).sync = s.sync := by
  unfold enqueue
  split
  · exact (consoleLine_sync _ _).trans (emerCopy_sync _ _)
  · rfl
@[simp] theorem enqueue_start : (s.enqueue code sev src flags p0 p1 p2).start = s.start := by
  unfold enqueue
  split
  · exact (consoleLine_start _ _).trans (emerCopy_start _ _)
  · rfl
@[simp] theorem enqueue_inaug : (s.enqueue code sev src flags p0 p1 p2).inaug = s.inaug := by
  unfold enqueue
  split
  · exact (consoleLine_inaug _ _).trans (emerCopy_inaug _ _)
  · rfl
@[simp] theorem enqueue_synth : (s.enqueue code sev src flags p0 p1 p2).synth = s.synth := by
  unfold enqueue
  split
  · exact (consoleLine_synth _ _).trans (emerCopy_synth _ _)
  · rfl
@[simp] theorem enqueue_weirs : (s.enqueue code sev src flags p0 p1 p2).weirs = s.weirs := by
  unfold enqueue
  split
  · exact (consoleLine_weirs _ _).trans (emerCopy_weirs _ _)
  · rfl
@[simp] theorem enqueue_red : (s.enqueue code sev src flags p0 p1 p2).red = s.red := by
  unfold enqueue
  split
  · exact (consoleLine_red _ _).trans (emerCopy_red _ _)
  · rfl
@[simp] theorem enqueue_mill : (s.enqueue code sev src flags p0 p1 p2).mill = s.mill := by
  unfold enqueue
  split
  · exact (consoleLine_mill _ _).trans (emerCopy_mill _ _)
  · rfl
@[simp] theorem enqueue_host : (s.enqueue code sev src flags p0 p1 p2).host = s.host := by
  unfold enqueue
  split
  · exact (consoleLine_host _ _).trans (emerCopy_host _ _)
  · rfl
@[simp] theorem enqueue_far : (s.enqueue code sev src flags p0 p1 p2).far = s.far := by
  unfold enqueue
  split
  · exact (consoleLine_far _ _).trans (emerCopy_far _ _)
  · rfl
@[simp] theorem enqueue_con : (s.enqueue code sev src flags p0 p1 p2).con = s.con := by
  unfold enqueue
  split
  · exact (consoleLine_con _ _).trans (emerCopy_con _ _)
  · rfl
@[simp] theorem enqueue_can : (s.enqueue code sev src flags p0 p1 p2).can = s.can := by
  unfold enqueue
  split
  · exact (consoleLine_can _ _).trans (emerCopy_can _ _)
  · rfl
@[simp] theorem enqueue_keys : (s.enqueue code sev src flags p0 p1 p2).keys = s.keys := by
  unfold enqueue
  split
  · exact (consoleLine_keys _ _).trans (emerCopy_keys _ _)
  · rfl
@[simp] theorem enqueue_conf : (s.enqueue code sev src flags p0 p1 p2).conf = s.conf := by
  unfold enqueue
  split
  · exact (consoleLine_conf _ _).trans (emerCopy_conf _ _)
  · rfl
@[simp] theorem enqueue_sec : (s.enqueue code sev src flags p0 p1 p2).sec = s.sec := by
  unfold enqueue
  split
  · exact (consoleLine_sec _ _).trans (emerCopy_sec _ _)
  · rfl
@[simp] theorem enqueue_mem : (s.enqueue code sev src flags p0 p1 p2).mem = s.mem := by
  unfold enqueue
  split
  · exact (consoleLine_mem _ _).trans (emerCopy_mem _ _)
  · rfl
@[simp] theorem enqueue_debug : (s.enqueue code sev src flags p0 p1 p2).dbg = s.dbg := by
  unfold enqueue
  split
  · exact (consoleLine_debug _ _).trans (emerCopy_debug _ _)
  · rfl
@[simp] theorem enqueue_held : (s.enqueue code sev src flags p0 p1 p2).held = s.held := by
  unfold enqueue
  split
  · exact (consoleLine_held _ _).trans (emerCopy_held _ _)
  · rfl
@[simp] theorem enqueue_free : (s.enqueue code sev src flags p0 p1 p2).free = s.free := by
  unfold enqueue
  split
  · exact (consoleLine_free _ _).trans (emerCopy_free _ _)
  · rfl
@[simp] theorem enqueue_clock_ntime : (s.enqueue code sev src flags p0 p1 p2).clock.ntime = s.clock.ntime := by
  unfold enqueue
  split
  · exact (consoleLine_clock_ntime _ _).trans (emerCopy_clock_ntime _ _)
  · rfl
@[simp] theorem enqueue_clock_phase : (s.enqueue code sev src flags p0 p1 p2).clock.phase = s.clock.phase := by
  unfold enqueue
  split
  · exact (consoleLine_clock_phase _ _).trans (emerCopy_clock_phase _ _)
  · rfl
@[simp] theorem enqueue_clock_pre : (s.enqueue code sev src flags p0 p1 p2).clock.pre = s.clock.pre := by
  unfold enqueue
  split
  · exact (consoleLine_clock_pre _ _).trans (emerCopy_clock_pre _ _)
  · rfl
@[simp] theorem enqueue_clock_turn : (s.enqueue code sev src flags p0 p1 p2).clock.turn = s.clock.turn := by
  unfold enqueue
  split
  · exact (consoleLine_clock_turn _ _).trans (emerCopy_clock_turn _ _)
  · rfl
@[simp] theorem enqueue_clock_optime : (s.enqueue code sev src flags p0 p1 p2).clock.optime = s.clock.optime := by
  unfold enqueue
  split
  · exact (consoleLine_clock_optime _ _).trans (emerCopy_clock_optime _ _)
  · rfl
@[simp] theorem enqueue_clock_optFrac : (s.enqueue code sev src flags p0 p1 p2).clock.optFrac = s.clock.optFrac := by
  unfold enqueue
  split
  · exact (consoleLine_clock_optFrac _ _).trans (emerCopy_clock_optFrac _ _)
  · rfl
@[simp] theorem enqueue_clock_pcycle : (s.enqueue code sev src flags p0 p1 p2).clock.pcycle = s.clock.pcycle := by
  unfold enqueue
  split
  · exact (consoleLine_clock_pcycle _ _).trans (emerCopy_clock_pcycle _ _)
  · rfl
@[simp] theorem enqueue_clock_jobs : (s.enqueue code sev src flags p0 p1 p2).clock.jobs = s.clock.jobs := by
  unfold enqueue
  split
  · exact (consoleLine_clock_jobs _ _).trans (emerCopy_clock_jobs _ _)
  · rfl
@[simp] theorem enqueue_clock_load : (s.enqueue code sev src flags p0 p1 p2).clock.load = s.clock.load := by
  unfold enqueue
  split
  · exact (consoleLine_clock_load _ _).trans (emerCopy_clock_load _ _)
  · rfl
@[simp] theorem enqueue_clock_stepped : (s.enqueue code sev src flags p0 p1 p2).clock.stepped = s.clock.stepped := by
  unfold enqueue
  split
  · exact (consoleLine_clock_stepped _ _).trans (emerCopy_clock_stepped _ _)
  · rfl
@[simp] theorem enqueue_clock_latches : (s.enqueue code sev src flags p0 p1 p2).clock.latches = s.clock.latches := by
  unfold enqueue
  split
  · exact (consoleLine_clock_latches _ _).trans (emerCopy_clock_latches _ _)
  · rfl
@[simp] theorem enqueue_clock_snap : (s.enqueue code sev src flags p0 p1 p2).clock.snap = s.clock.snap := by
  unfold enqueue
  split
  · exact (consoleLine_clock_snap _ _).trans (emerCopy_clock_snap _ _)
  · rfl
@[simp] theorem enqueue_clock_snapTurn : (s.enqueue code sev src flags p0 p1 p2).clock.snapTurn = s.clock.snapTurn := by
  unfold enqueue
  split
  · exact (consoleLine_clock_snapTurn _ _).trans (emerCopy_clock_snapTurn _ _)
  · rfl
@[simp] theorem enqueue_clock_armed : (s.enqueue code sev src flags p0 p1 p2).clock.armed = s.clock.armed := by
  unfold enqueue
  split
  · exact (consoleLine_clock_armed _ _).trans (emerCopy_clock_armed _ _)
  · rfl
@[simp] theorem enqueue_clock_up : (s.enqueue code sev src flags p0 p1 p2).clock.up = s.clock.up := by
  unfold enqueue
  split
  · exact (consoleLine_clock_up _ _).trans (emerCopy_clock_up _ _)
  · rfl
@[simp] theorem enqueue_clock_once : (s.enqueue code sev src flags p0 p1 p2).clock.once = s.clock.once := by
  unfold enqueue
  split
  · exact (consoleLine_clock_once _ _).trans (emerCopy_clock_once _ _)
  · rfl
@[simp] theorem enqueue_clock_gxBad : (s.enqueue code sev src flags p0 p1 p2).clock.gxBad = s.clock.gxBad := by
  unfold enqueue
  split
  · exact (consoleLine_clock_gxBad _ _).trans (emerCopy_clock_gxBad _ _)
  · rfl
/-- Register fields outside the tally book and the console's count read as before. -/
@[simp] theorem enqueue_get (g : Fld) (jx : List Nat) (h : recordKey (g.key jx) = false) : (s.enqueue code sev src flags p0 p1 p2).get g jx = s.get g jx := by
  unfold enqueue
  split
  · exact (consoleLine_get _ _ _ _ h).trans ((emerCopy_get _ _ _ _ h).trans (queueRec_get _ _ _ _ h))
  · exact get_set_other _ _ _ _ _ _ (by rintro e; rw [e] at h; exact absurd h (by decide))

@[simp] theorem enqueue_on (g : Fld) (jx : List Nat) (h : recordKey (g.key jx) = false) : (s.enqueue code sev src flags p0 p1 p2).on g jx = s.on g jx := by
  simp only [on, enqueue_get _ _ _ _ _ _ _ _ _ _ h]

/-- What a record leaves alone. -/
theorem enqueue_frame : let t := s.enqueue code sev src flags p0 p1 p2
    { t with regs := s.regs, tally := s.tally, clock := s.clock, out := s.out } = s := by
  simp

end enqueue

theorem sluiceFind_lt (s : State) (code : Nat) : ∀ (left k j : Nat), s.sluiceFind code k left = some j → j < k + left
  | 0, _, _, h => by cases h
  | left + 1, k, j, h => by
    unfold sluiceFind at h
    split at h
    · cases h
      omega
    · have := sluiceFind_lt s code left (k + 1) j h
      omega

/-- The sluice has 256 entries (R537). -/
theorem sluiceEntry_lt (s : State) (code k : Nat) (h : s.sluiceEntry code = some k) : k < 256 := by
  unfold sluiceEntry at h
  split at h
  · cases h
  · simpa using sluiceFind_lt s code 256 0 k h

section sluiced
variable (s : State) (code sev src p0 p1 p2 : Nat)

@[simp] theorem sluiced_pending : (s.sluiced code sev src p0 p1 p2).pending = s.pending := by
  unfold sluiced
  split
  · exact enqueue_pending ..
  · split
    · exact enqueue_pending ..
    · rfl
@[simp] theorem sluiced_pins : (s.sluiced code sev src p0 p1 p2).pins = s.pins := by
  unfold sluiced
  split
  · exact enqueue_pins ..
  · split
    · exact enqueue_pins ..
    · rfl
@[simp] theorem sluiced_power : (s.sluiced code sev src p0 p1 p2).power = s.power := by
  unfold sluiced
  split
  · exact enqueue_power ..
  · split
    · exact enqueue_power ..
    · rfl
@[simp] theorem sluiced_boot : (s.sluiced code sev src p0 p1 p2).boot = s.boot := by
  unfold sluiced
  split
  · exact enqueue_boot ..
  · split
    · exact enqueue_boot ..
    · rfl
@[simp] theorem sluiced_ports : (s.sluiced code sev src p0 p1 p2).ports = s.ports := by
  unfold sluiced
  split
  · exact enqueue_ports ..
  · split
    · exact enqueue_ports ..
    · rfl
@[simp] theorem sluiced_sync : (s.sluiced code sev src p0 p1 p2).sync = s.sync := by
  unfold sluiced
  split
  · exact enqueue_sync ..
  · split
    · exact enqueue_sync ..
    · rfl
@[simp] theorem sluiced_start : (s.sluiced code sev src p0 p1 p2).start = s.start := by
  unfold sluiced
  split
  · exact enqueue_start ..
  · split
    · exact enqueue_start ..
    · rfl
@[simp] theorem sluiced_inaug : (s.sluiced code sev src p0 p1 p2).inaug = s.inaug := by
  unfold sluiced
  split
  · exact enqueue_inaug ..
  · split
    · exact enqueue_inaug ..
    · rfl
@[simp] theorem sluiced_synth : (s.sluiced code sev src p0 p1 p2).synth = s.synth := by
  unfold sluiced
  split
  · exact enqueue_synth ..
  · split
    · exact enqueue_synth ..
    · rfl
@[simp] theorem sluiced_weirs : (s.sluiced code sev src p0 p1 p2).weirs = s.weirs := by
  unfold sluiced
  split
  · exact enqueue_weirs ..
  · split
    · exact enqueue_weirs ..
    · rfl
@[simp] theorem sluiced_red : (s.sluiced code sev src p0 p1 p2).red = s.red := by
  unfold sluiced
  split
  · exact enqueue_red ..
  · split
    · exact enqueue_red ..
    · rfl
@[simp] theorem sluiced_mill : (s.sluiced code sev src p0 p1 p2).mill = s.mill := by
  unfold sluiced
  split
  · exact enqueue_mill ..
  · split
    · exact enqueue_mill ..
    · rfl
@[simp] theorem sluiced_host : (s.sluiced code sev src p0 p1 p2).host = s.host := by
  unfold sluiced
  split
  · exact enqueue_host ..
  · split
    · exact enqueue_host ..
    · rfl
@[simp] theorem sluiced_far : (s.sluiced code sev src p0 p1 p2).far = s.far := by
  unfold sluiced
  split
  · exact enqueue_far ..
  · split
    · exact enqueue_far ..
    · rfl
@[simp] theorem sluiced_con : (s.sluiced code sev src p0 p1 p2).con = s.con := by
  unfold sluiced
  split
  · exact enqueue_con ..
  · split
    · exact enqueue_con ..
    · rfl
@[simp] theorem sluiced_can : (s.sluiced code sev src p0 p1 p2).can = s.can := by
  unfold sluiced
  split
  · exact enqueue_can ..
  · split
    · exact enqueue_can ..
    · rfl
@[simp] theorem sluiced_keys : (s.sluiced code sev src p0 p1 p2).keys = s.keys := by
  unfold sluiced
  split
  · exact enqueue_keys ..
  · split
    · exact enqueue_keys ..
    · rfl
@[simp] theorem sluiced_conf : (s.sluiced code sev src p0 p1 p2).conf = s.conf := by
  unfold sluiced
  split
  · exact enqueue_conf ..
  · split
    · exact enqueue_conf ..
    · rfl
@[simp] theorem sluiced_sec : (s.sluiced code sev src p0 p1 p2).sec = s.sec := by
  unfold sluiced
  split
  · exact enqueue_sec ..
  · split
    · exact enqueue_sec ..
    · rfl
@[simp] theorem sluiced_mem : (s.sluiced code sev src p0 p1 p2).mem = s.mem := by
  unfold sluiced
  split
  · exact enqueue_mem ..
  · split
    · exact enqueue_mem ..
    · rfl
@[simp] theorem sluiced_debug : (s.sluiced code sev src p0 p1 p2).dbg = s.dbg := by
  unfold sluiced
  split
  · exact enqueue_debug ..
  · split
    · exact enqueue_debug ..
    · rfl
@[simp] theorem sluiced_held : (s.sluiced code sev src p0 p1 p2).held = s.held := by
  unfold sluiced
  split
  · exact enqueue_held ..
  · split
    · exact enqueue_held ..
    · rfl
@[simp] theorem sluiced_free : (s.sluiced code sev src p0 p1 p2).free = s.free := by
  unfold sluiced
  split
  · exact enqueue_free ..
  · split
    · exact enqueue_free ..
    · rfl
@[simp] theorem sluiced_clock_ntime : (s.sluiced code sev src p0 p1 p2).clock.ntime = s.clock.ntime := by
  unfold sluiced
  split
  · exact enqueue_clock_ntime ..
  · split
    · exact enqueue_clock_ntime ..
    · rfl
@[simp] theorem sluiced_clock_phase : (s.sluiced code sev src p0 p1 p2).clock.phase = s.clock.phase := by
  unfold sluiced
  split
  · exact enqueue_clock_phase ..
  · split
    · exact enqueue_clock_phase ..
    · rfl
@[simp] theorem sluiced_clock_pre : (s.sluiced code sev src p0 p1 p2).clock.pre = s.clock.pre := by
  unfold sluiced
  split
  · exact enqueue_clock_pre ..
  · split
    · exact enqueue_clock_pre ..
    · rfl
@[simp] theorem sluiced_clock_turn : (s.sluiced code sev src p0 p1 p2).clock.turn = s.clock.turn := by
  unfold sluiced
  split
  · exact enqueue_clock_turn ..
  · split
    · exact enqueue_clock_turn ..
    · rfl
@[simp] theorem sluiced_clock_optime : (s.sluiced code sev src p0 p1 p2).clock.optime = s.clock.optime := by
  unfold sluiced
  split
  · exact enqueue_clock_optime ..
  · split
    · exact enqueue_clock_optime ..
    · rfl
@[simp] theorem sluiced_clock_optFrac : (s.sluiced code sev src p0 p1 p2).clock.optFrac = s.clock.optFrac := by
  unfold sluiced
  split
  · exact enqueue_clock_optFrac ..
  · split
    · exact enqueue_clock_optFrac ..
    · rfl
@[simp] theorem sluiced_clock_pcycle : (s.sluiced code sev src p0 p1 p2).clock.pcycle = s.clock.pcycle := by
  unfold sluiced
  split
  · exact enqueue_clock_pcycle ..
  · split
    · exact enqueue_clock_pcycle ..
    · rfl
@[simp] theorem sluiced_clock_jobs : (s.sluiced code sev src p0 p1 p2).clock.jobs = s.clock.jobs := by
  unfold sluiced
  split
  · exact enqueue_clock_jobs ..
  · split
    · exact enqueue_clock_jobs ..
    · rfl
@[simp] theorem sluiced_clock_load : (s.sluiced code sev src p0 p1 p2).clock.load = s.clock.load := by
  unfold sluiced
  split
  · exact enqueue_clock_load ..
  · split
    · exact enqueue_clock_load ..
    · rfl
@[simp] theorem sluiced_clock_stepped : (s.sluiced code sev src p0 p1 p2).clock.stepped = s.clock.stepped := by
  unfold sluiced
  split
  · exact enqueue_clock_stepped ..
  · split
    · exact enqueue_clock_stepped ..
    · rfl
@[simp] theorem sluiced_clock_latches : (s.sluiced code sev src p0 p1 p2).clock.latches = s.clock.latches := by
  unfold sluiced
  split
  · exact enqueue_clock_latches ..
  · split
    · exact enqueue_clock_latches ..
    · rfl
@[simp] theorem sluiced_clock_snap : (s.sluiced code sev src p0 p1 p2).clock.snap = s.clock.snap := by
  unfold sluiced
  split
  · exact enqueue_clock_snap ..
  · split
    · exact enqueue_clock_snap ..
    · rfl
@[simp] theorem sluiced_clock_snapTurn : (s.sluiced code sev src p0 p1 p2).clock.snapTurn = s.clock.snapTurn := by
  unfold sluiced
  split
  · exact enqueue_clock_snapTurn ..
  · split
    · exact enqueue_clock_snapTurn ..
    · rfl
@[simp] theorem sluiced_clock_armed : (s.sluiced code sev src p0 p1 p2).clock.armed = s.clock.armed := by
  unfold sluiced
  split
  · exact enqueue_clock_armed ..
  · split
    · exact enqueue_clock_armed ..
    · rfl
@[simp] theorem sluiced_clock_up : (s.sluiced code sev src p0 p1 p2).clock.up = s.clock.up := by
  unfold sluiced
  split
  · exact enqueue_clock_up ..
  · split
    · exact enqueue_clock_up ..
    · rfl
@[simp] theorem sluiced_clock_once : (s.sluiced code sev src p0 p1 p2).clock.once = s.clock.once := by
  unfold sluiced
  split
  · exact enqueue_clock_once ..
  · split
    · exact enqueue_clock_once ..
    · rfl
@[simp] theorem sluiced_clock_gxBad : (s.sluiced code sev src p0 p1 p2).clock.gxBad = s.clock.gxBad := by
  unfold sluiced
  split
  · exact enqueue_clock_gxBad ..
  · split
    · exact enqueue_clock_gxBad ..
    · rfl
/-- Register fields outside the tally book and the console's count read as before. -/
@[simp] theorem sluiced_get (g : Fld) (jx : List Nat) (h : recordKey (g.key jx) = false) : (s.sluiced code sev src p0 p1 p2).get g jx = s.get g jx := by
  unfold sluiced
  split
  · exact enqueue_get _ _ _ _ _ _ _ _ _ _ h
  · rename_i k hk
    have hk := sluiceEntry_lt _ _ _ hk
    have a (x : State) (f : Fld) (hf : f.dims = Reg.SLUk_CNT_TOKENS.dims ∧ f.base = Reg.SLUk_CNT_TOKENS.base ∧ f.lo < 32) (v : Nat) :
        (x.set f [k] v).get g jx = x.get g jx := by
      refine get_set_other _ _ _ _ _ _ ?_
      rintro e
      rw [e] at h
      simp [recordKey, Fld.key, Fld.off, hf.1, hf.2.1, Reg.SLUk_CNT_TOKENS, dimsOff] at h
      omega
    split
    · exact (enqueue_get _ _ _ _ _ _ _ _ _ _ h).trans (a _ _ (by decide) _)
    · refine (get_set_other _ _ _ _ _ _ ?_).trans (a _ _ (by decide) _)
      rintro e
      rw [e] at h
      exact absurd h (by decide)

@[simp] theorem sluiced_on (g : Fld) (jx : List Nat) (h : recordKey (g.key jx) = false) : (s.sluiced code sev src p0 p1 p2).on g jx = s.on g jx := by
  simp only [on, sluiced_get _ _ _ _ _ _ _ _ _ h]

/-- What a record leaves alone. -/
theorem sluiced_frame : let t := s.sluiced code sev src p0 p1 p2
    { t with regs := s.regs, tally := s.tally, clock := s.clock, out := s.out } = s := by
  simp

end sluiced

section record
variable (s : State) (code sev src p1 p2 : Nat)

@[simp] theorem record_pending : (s.record code sev src p1 p2).pending = s.pending := enqueue_pending ..
@[simp] theorem record_pins : (s.record code sev src p1 p2).pins = s.pins := enqueue_pins ..
@[simp] theorem record_power : (s.record code sev src p1 p2).power = s.power := enqueue_power ..
@[simp] theorem record_boot : (s.record code sev src p1 p2).boot = s.boot := enqueue_boot ..
@[simp] theorem record_ports : (s.record code sev src p1 p2).ports = s.ports := enqueue_ports ..
@[simp] theorem record_sync : (s.record code sev src p1 p2).sync = s.sync := enqueue_sync ..
@[simp] theorem record_start : (s.record code sev src p1 p2).start = s.start := enqueue_start ..
@[simp] theorem record_inaug : (s.record code sev src p1 p2).inaug = s.inaug := enqueue_inaug ..
@[simp] theorem record_synth : (s.record code sev src p1 p2).synth = s.synth := enqueue_synth ..
@[simp] theorem record_weirs : (s.record code sev src p1 p2).weirs = s.weirs := enqueue_weirs ..
@[simp] theorem record_red : (s.record code sev src p1 p2).red = s.red := enqueue_red ..
@[simp] theorem record_mill : (s.record code sev src p1 p2).mill = s.mill := enqueue_mill ..
@[simp] theorem record_host : (s.record code sev src p1 p2).host = s.host := enqueue_host ..
@[simp] theorem record_far : (s.record code sev src p1 p2).far = s.far := enqueue_far ..
@[simp] theorem record_con : (s.record code sev src p1 p2).con = s.con := enqueue_con ..
@[simp] theorem record_can : (s.record code sev src p1 p2).can = s.can := enqueue_can ..
@[simp] theorem record_keys : (s.record code sev src p1 p2).keys = s.keys := enqueue_keys ..
@[simp] theorem record_conf : (s.record code sev src p1 p2).conf = s.conf := enqueue_conf ..
@[simp] theorem record_sec : (s.record code sev src p1 p2).sec = s.sec := enqueue_sec ..
@[simp] theorem record_mem : (s.record code sev src p1 p2).mem = s.mem := enqueue_mem ..
@[simp] theorem record_debug : (s.record code sev src p1 p2).dbg = s.dbg := enqueue_debug ..
@[simp] theorem record_held : (s.record code sev src p1 p2).held = s.held := enqueue_held ..
@[simp] theorem record_free : (s.record code sev src p1 p2).free = s.free := enqueue_free ..
@[simp] theorem record_clock_ntime : (s.record code sev src p1 p2).clock.ntime = s.clock.ntime := enqueue_clock_ntime ..
@[simp] theorem record_clock_phase : (s.record code sev src p1 p2).clock.phase = s.clock.phase := enqueue_clock_phase ..
@[simp] theorem record_clock_pre : (s.record code sev src p1 p2).clock.pre = s.clock.pre := enqueue_clock_pre ..
@[simp] theorem record_clock_turn : (s.record code sev src p1 p2).clock.turn = s.clock.turn := enqueue_clock_turn ..
@[simp] theorem record_clock_optime : (s.record code sev src p1 p2).clock.optime = s.clock.optime := enqueue_clock_optime ..
@[simp] theorem record_clock_optFrac : (s.record code sev src p1 p2).clock.optFrac = s.clock.optFrac := enqueue_clock_optFrac ..
@[simp] theorem record_clock_pcycle : (s.record code sev src p1 p2).clock.pcycle = s.clock.pcycle := enqueue_clock_pcycle ..
@[simp] theorem record_clock_jobs : (s.record code sev src p1 p2).clock.jobs = s.clock.jobs := enqueue_clock_jobs ..
@[simp] theorem record_clock_load : (s.record code sev src p1 p2).clock.load = s.clock.load := enqueue_clock_load ..
@[simp] theorem record_clock_stepped : (s.record code sev src p1 p2).clock.stepped = s.clock.stepped := enqueue_clock_stepped ..
@[simp] theorem record_clock_latches : (s.record code sev src p1 p2).clock.latches = s.clock.latches := enqueue_clock_latches ..
@[simp] theorem record_clock_snap : (s.record code sev src p1 p2).clock.snap = s.clock.snap := enqueue_clock_snap ..
@[simp] theorem record_clock_snapTurn : (s.record code sev src p1 p2).clock.snapTurn = s.clock.snapTurn := enqueue_clock_snapTurn ..
@[simp] theorem record_clock_armed : (s.record code sev src p1 p2).clock.armed = s.clock.armed := enqueue_clock_armed ..
@[simp] theorem record_clock_up : (s.record code sev src p1 p2).clock.up = s.clock.up := enqueue_clock_up ..
@[simp] theorem record_clock_once : (s.record code sev src p1 p2).clock.once = s.clock.once := enqueue_clock_once ..
@[simp] theorem record_clock_gxBad : (s.record code sev src p1 p2).clock.gxBad = s.clock.gxBad := enqueue_clock_gxBad ..
/-- Register fields outside the tally book and the console's count read as before. -/
@[simp] theorem record_get (g : Fld) (jx : List Nat) (h : recordKey (g.key jx) = false) : (s.record code sev src p1 p2).get g jx = s.get g jx := enqueue_get _ _ _ _ _ _ _ _ _ _ h

@[simp] theorem record_on (g : Fld) (jx : List Nat) (h : recordKey (g.key jx) = false) : (s.record code sev src p1 p2).on g jx = s.on g jx := by
  simp only [on, record_get _ _ _ _ _ _ _ _ h]

/-- What a record leaves alone. -/
theorem record_frame : let t := s.record code sev src p1 p2
    { t with regs := s.regs, tally := s.tally, clock := s.clock, out := s.out } = s := by
  simp

end record

section recordS
variable (s : State) (code sev src p1 p2 : Nat)

@[simp] theorem recordS_pending : (s.recordS code sev src p1 p2).pending = s.pending := sluiced_pending ..
@[simp] theorem recordS_pins : (s.recordS code sev src p1 p2).pins = s.pins := sluiced_pins ..
@[simp] theorem recordS_power : (s.recordS code sev src p1 p2).power = s.power := sluiced_power ..
@[simp] theorem recordS_boot : (s.recordS code sev src p1 p2).boot = s.boot := sluiced_boot ..
@[simp] theorem recordS_ports : (s.recordS code sev src p1 p2).ports = s.ports := sluiced_ports ..
@[simp] theorem recordS_sync : (s.recordS code sev src p1 p2).sync = s.sync := sluiced_sync ..
@[simp] theorem recordS_start : (s.recordS code sev src p1 p2).start = s.start := sluiced_start ..
@[simp] theorem recordS_inaug : (s.recordS code sev src p1 p2).inaug = s.inaug := sluiced_inaug ..
@[simp] theorem recordS_synth : (s.recordS code sev src p1 p2).synth = s.synth := sluiced_synth ..
@[simp] theorem recordS_weirs : (s.recordS code sev src p1 p2).weirs = s.weirs := sluiced_weirs ..
@[simp] theorem recordS_red : (s.recordS code sev src p1 p2).red = s.red := sluiced_red ..
@[simp] theorem recordS_mill : (s.recordS code sev src p1 p2).mill = s.mill := sluiced_mill ..
@[simp] theorem recordS_host : (s.recordS code sev src p1 p2).host = s.host := sluiced_host ..
@[simp] theorem recordS_far : (s.recordS code sev src p1 p2).far = s.far := sluiced_far ..
@[simp] theorem recordS_con : (s.recordS code sev src p1 p2).con = s.con := sluiced_con ..
@[simp] theorem recordS_can : (s.recordS code sev src p1 p2).can = s.can := sluiced_can ..
@[simp] theorem recordS_keys : (s.recordS code sev src p1 p2).keys = s.keys := sluiced_keys ..
@[simp] theorem recordS_conf : (s.recordS code sev src p1 p2).conf = s.conf := sluiced_conf ..
@[simp] theorem recordS_sec : (s.recordS code sev src p1 p2).sec = s.sec := sluiced_sec ..
@[simp] theorem recordS_mem : (s.recordS code sev src p1 p2).mem = s.mem := sluiced_mem ..
@[simp] theorem recordS_debug : (s.recordS code sev src p1 p2).dbg = s.dbg := sluiced_debug ..
@[simp] theorem recordS_held : (s.recordS code sev src p1 p2).held = s.held := sluiced_held ..
@[simp] theorem recordS_free : (s.recordS code sev src p1 p2).free = s.free := sluiced_free ..
@[simp] theorem recordS_clock_ntime : (s.recordS code sev src p1 p2).clock.ntime = s.clock.ntime := sluiced_clock_ntime ..
@[simp] theorem recordS_clock_phase : (s.recordS code sev src p1 p2).clock.phase = s.clock.phase := sluiced_clock_phase ..
@[simp] theorem recordS_clock_pre : (s.recordS code sev src p1 p2).clock.pre = s.clock.pre := sluiced_clock_pre ..
@[simp] theorem recordS_clock_turn : (s.recordS code sev src p1 p2).clock.turn = s.clock.turn := sluiced_clock_turn ..
@[simp] theorem recordS_clock_optime : (s.recordS code sev src p1 p2).clock.optime = s.clock.optime := sluiced_clock_optime ..
@[simp] theorem recordS_clock_optFrac : (s.recordS code sev src p1 p2).clock.optFrac = s.clock.optFrac := sluiced_clock_optFrac ..
@[simp] theorem recordS_clock_pcycle : (s.recordS code sev src p1 p2).clock.pcycle = s.clock.pcycle := sluiced_clock_pcycle ..
@[simp] theorem recordS_clock_jobs : (s.recordS code sev src p1 p2).clock.jobs = s.clock.jobs := sluiced_clock_jobs ..
@[simp] theorem recordS_clock_load : (s.recordS code sev src p1 p2).clock.load = s.clock.load := sluiced_clock_load ..
@[simp] theorem recordS_clock_stepped : (s.recordS code sev src p1 p2).clock.stepped = s.clock.stepped := sluiced_clock_stepped ..
@[simp] theorem recordS_clock_latches : (s.recordS code sev src p1 p2).clock.latches = s.clock.latches := sluiced_clock_latches ..
@[simp] theorem recordS_clock_snap : (s.recordS code sev src p1 p2).clock.snap = s.clock.snap := sluiced_clock_snap ..
@[simp] theorem recordS_clock_snapTurn : (s.recordS code sev src p1 p2).clock.snapTurn = s.clock.snapTurn := sluiced_clock_snapTurn ..
@[simp] theorem recordS_clock_armed : (s.recordS code sev src p1 p2).clock.armed = s.clock.armed := sluiced_clock_armed ..
@[simp] theorem recordS_clock_up : (s.recordS code sev src p1 p2).clock.up = s.clock.up := sluiced_clock_up ..
@[simp] theorem recordS_clock_once : (s.recordS code sev src p1 p2).clock.once = s.clock.once := sluiced_clock_once ..
@[simp] theorem recordS_clock_gxBad : (s.recordS code sev src p1 p2).clock.gxBad = s.clock.gxBad := sluiced_clock_gxBad ..
/-- Register fields outside the tally book and the console's count read as before. -/
@[simp] theorem recordS_get (g : Fld) (jx : List Nat) (h : recordKey (g.key jx) = false) : (s.recordS code sev src p1 p2).get g jx = s.get g jx := sluiced_get _ _ _ _ _ _ _ _ _ h

@[simp] theorem recordS_on (g : Fld) (jx : List Nat) (h : recordKey (g.key jx) = false) : (s.recordS code sev src p1 p2).on g jx = s.on g jx := by
  simp only [on, recordS_get _ _ _ _ _ _ _ _ h]

/-- What a record leaves alone. -/
theorem recordS_frame : let t := s.recordS code sev src p1 p2
    { t with regs := s.regs, tally := s.tally, clock := s.clock, out := s.out } = s := by
  simp

end recordS

section recordT
variable (s : State) (code sev src p1 p2 : Nat)

@[simp] theorem recordT_pending : (s.recordT code sev src p1 p2).pending = s.pending := enqueue_pending ..
@[simp] theorem recordT_pins : (s.recordT code sev src p1 p2).pins = s.pins := enqueue_pins ..
@[simp] theorem recordT_power : (s.recordT code sev src p1 p2).power = s.power := enqueue_power ..
@[simp] theorem recordT_boot : (s.recordT code sev src p1 p2).boot = s.boot := enqueue_boot ..
@[simp] theorem recordT_ports : (s.recordT code sev src p1 p2).ports = s.ports := enqueue_ports ..
@[simp] theorem recordT_sync : (s.recordT code sev src p1 p2).sync = s.sync := enqueue_sync ..
@[simp] theorem recordT_start : (s.recordT code sev src p1 p2).start = s.start := enqueue_start ..
@[simp] theorem recordT_inaug : (s.recordT code sev src p1 p2).inaug = s.inaug := enqueue_inaug ..
@[simp] theorem recordT_synth : (s.recordT code sev src p1 p2).synth = s.synth := enqueue_synth ..
@[simp] theorem recordT_weirs : (s.recordT code sev src p1 p2).weirs = s.weirs := enqueue_weirs ..
@[simp] theorem recordT_red : (s.recordT code sev src p1 p2).red = s.red := enqueue_red ..
@[simp] theorem recordT_mill : (s.recordT code sev src p1 p2).mill = s.mill := enqueue_mill ..
@[simp] theorem recordT_host : (s.recordT code sev src p1 p2).host = s.host := enqueue_host ..
@[simp] theorem recordT_far : (s.recordT code sev src p1 p2).far = s.far := enqueue_far ..
@[simp] theorem recordT_con : (s.recordT code sev src p1 p2).con = s.con := enqueue_con ..
@[simp] theorem recordT_can : (s.recordT code sev src p1 p2).can = s.can := enqueue_can ..
@[simp] theorem recordT_keys : (s.recordT code sev src p1 p2).keys = s.keys := enqueue_keys ..
@[simp] theorem recordT_conf : (s.recordT code sev src p1 p2).conf = s.conf := enqueue_conf ..
@[simp] theorem recordT_sec : (s.recordT code sev src p1 p2).sec = s.sec := enqueue_sec ..
@[simp] theorem recordT_mem : (s.recordT code sev src p1 p2).mem = s.mem := enqueue_mem ..
@[simp] theorem recordT_debug : (s.recordT code sev src p1 p2).dbg = s.dbg := enqueue_debug ..
@[simp] theorem recordT_held : (s.recordT code sev src p1 p2).held = s.held := enqueue_held ..
@[simp] theorem recordT_free : (s.recordT code sev src p1 p2).free = s.free := enqueue_free ..
@[simp] theorem recordT_clock_ntime : (s.recordT code sev src p1 p2).clock.ntime = s.clock.ntime := enqueue_clock_ntime ..
@[simp] theorem recordT_clock_phase : (s.recordT code sev src p1 p2).clock.phase = s.clock.phase := enqueue_clock_phase ..
@[simp] theorem recordT_clock_pre : (s.recordT code sev src p1 p2).clock.pre = s.clock.pre := enqueue_clock_pre ..
@[simp] theorem recordT_clock_turn : (s.recordT code sev src p1 p2).clock.turn = s.clock.turn := enqueue_clock_turn ..
@[simp] theorem recordT_clock_optime : (s.recordT code sev src p1 p2).clock.optime = s.clock.optime := enqueue_clock_optime ..
@[simp] theorem recordT_clock_optFrac : (s.recordT code sev src p1 p2).clock.optFrac = s.clock.optFrac := enqueue_clock_optFrac ..
@[simp] theorem recordT_clock_pcycle : (s.recordT code sev src p1 p2).clock.pcycle = s.clock.pcycle := enqueue_clock_pcycle ..
@[simp] theorem recordT_clock_jobs : (s.recordT code sev src p1 p2).clock.jobs = s.clock.jobs := enqueue_clock_jobs ..
@[simp] theorem recordT_clock_load : (s.recordT code sev src p1 p2).clock.load = s.clock.load := enqueue_clock_load ..
@[simp] theorem recordT_clock_stepped : (s.recordT code sev src p1 p2).clock.stepped = s.clock.stepped := enqueue_clock_stepped ..
@[simp] theorem recordT_clock_latches : (s.recordT code sev src p1 p2).clock.latches = s.clock.latches := enqueue_clock_latches ..
@[simp] theorem recordT_clock_snap : (s.recordT code sev src p1 p2).clock.snap = s.clock.snap := enqueue_clock_snap ..
@[simp] theorem recordT_clock_snapTurn : (s.recordT code sev src p1 p2).clock.snapTurn = s.clock.snapTurn := enqueue_clock_snapTurn ..
@[simp] theorem recordT_clock_armed : (s.recordT code sev src p1 p2).clock.armed = s.clock.armed := enqueue_clock_armed ..
@[simp] theorem recordT_clock_up : (s.recordT code sev src p1 p2).clock.up = s.clock.up := enqueue_clock_up ..
@[simp] theorem recordT_clock_once : (s.recordT code sev src p1 p2).clock.once = s.clock.once := enqueue_clock_once ..
@[simp] theorem recordT_clock_gxBad : (s.recordT code sev src p1 p2).clock.gxBad = s.clock.gxBad := enqueue_clock_gxBad ..
/-- Register fields outside the tally book and the console's count read as before. -/
@[simp] theorem recordT_get (g : Fld) (jx : List Nat) (h : recordKey (g.key jx) = false) : (s.recordT code sev src p1 p2).get g jx = s.get g jx := enqueue_get _ _ _ _ _ _ _ _ _ _ h

@[simp] theorem recordT_on (g : Fld) (jx : List Nat) (h : recordKey (g.key jx) = false) : (s.recordT code sev src p1 p2).on g jx = s.on g jx := by
  simp only [on, recordT_get _ _ _ _ _ _ _ _ h]

/-- What a record leaves alone. -/
theorem recordT_frame : let t := s.recordT code sev src p1 p2
    { t with regs := s.regs, tally := s.tally, clock := s.clock, out := s.out } = s := by
  simp

end recordT

end State

end Sys2Proof.Machine
end

