-- ==== Sys2Proof/Laws/Reset.lean ====
section
/-!
SUPPORT. What a full reset leaves outside the register file is what `partsReset` says (R99, R101), and the register fields it keeps are
all different.
-/

namespace Sys2Proof.Machine

namespace State

/-- A state that differs from another in its register file alone. -/
def RegsOnly (a b : State) : Prop := ∃ r, b = { a with regs := r }

theorem RegsOnly.refl (a : State) : RegsOnly a a := ⟨a.regs, rfl⟩

theorem RegsOnly.set {a b : State} (h : RegsOnly a b) (f : Fld) (ix : List Nat) (v : Nat) : RegsOnly a (b.set f ix v) := by
  obtain ⟨r, rfl⟩ := h
  exact ⟨_, rfl⟩

theorem RegsOnly.flag {a b : State} (h : RegsOnly a b) (f : Fld) (ix : List Nat) (v : Bool) : RegsOnly a (b.flag f ix v) := h.set f ix _

theorem RegsOnly.foldl {α : Type} (g : State → α → State) (hg : ∀ a b x, RegsOnly a b → RegsOnly a (g b x)) (l : List α) {a b : State}
    (h : RegsOnly a b) : RegsOnly a (l.foldl g b) := by
  induction l generalizing b with
  | nil => exact h
  | cons x l ih => exact ih (hg _ _ _ h)

theorem RegsOnly.showLuid {a b : State} (h : RegsOnly a b) : RegsOnly a b.showLuid := (h.set _ _ _).set _ _ _

theorem RegsOnly.showPerm {a b : State} (h : RegsOnly a b) (n : Nat) : RegsOnly a (b.showPerm n) := (h.set _ _ _).flag _ _ _

/-- After a reset only the register file differs from the parts that the reset leaves. -/
theorem afterReset_regsOnly (o : State) : RegsOnly o.partsReset o.afterReset := by
  unfold afterReset
  repeat' first
    | with_reducible exact RegsOnly.refl _
    | with_reducible apply RegsOnly.showPerm
    | with_reducible apply RegsOnly.showLuid
    | with_reducible apply RegsOnly.flag
    | with_reducible apply RegsOnly.set
    | with_reducible refine RegsOnly.foldl _ (fun _ _ _ h => h.flag _ _ _) _ ?_
    | with_reducible refine RegsOnly.foldl _ (fun _ _ _ h => h.set _ _ _) _ ?_
    | split

/-- Setting fields of a list leaves every field that is not in it. -/
theorem foldl_set_get_other (l : List (Fld × List Nat)) (v : Fld × List Nat → Nat) (g : Fld) (jx : List Nat)
    (h : ∀ x ∈ l, g.key jx ≠ x.1.key x.2) (s : State) : (l.foldl (fun s x => s.set x.1 x.2 (v x)) s).get g jx = s.get g jx := by
  induction l generalizing s with
  | nil => rfl
  | cons a l ih =>
    rw [List.foldl_cons, ih (fun x hx => h x (List.mem_cons_of_mem _ hx)), get_set_other _ _ _ _ _ _ (h a List.mem_cons_self)]

/-- Setting fields of a list keeps the register file in order. -/
theorem foldl_set_sorted (l : List (Fld × List Nat)) (v : Fld × List Nat → Nat) (s : State) (h : Sparse.sorted s.regs = true) :
    Sparse.sorted (l.foldl (fun s x => s.set x.1 x.2 (v x)) s).regs = true := by
  induction l generalizing s with
  | nil => exact h
  | cons a l ih => exact ih _ (sorted_set _ _ _ _ h)

/-- A field of a list of fields at different places reads what the list gave it, cut to its width. -/
theorem foldl_set_get (l : List (Fld × List Nat)) (v : Fld × List Nat → Nat) (hd : (l.map fun x => x.1.key x.2).Nodup)
    (x : Fld × List Nat) (hx : x ∈ l) (s : State) (h : Sparse.sorted s.regs = true) :
    (l.foldl (fun s x => s.set x.1 x.2 (v x)) s).get x.1 x.2 = v x % 2 ^ x.1.width := by
  induction l generalizing s with
  | nil => cases hx
  | cons a l ih =>
    rw [List.map_cons, List.nodup_cons] at hd
    rw [List.foldl_cons]
    rcases List.mem_cons.mp hx with rfl | hx
    · rw [foldl_set_get_other _ _ _ _ (fun y hy e => hd.1 (e ▸ List.mem_map_of_mem hy)), get_set_same _ _ _ _ h]
    · exact ih hd.2 hx _ (sorted_set _ _ _ _ h)

/-- The fields that a full reset keeps lie at different places. -/
theorem heldFields_nodup : (heldFields.map fun x => x.1.key x.2).Nodup := by decide +kernel

end State

end Sys2Proof.Machine
end

