-- ==== Sys2Proof/WellFormed.lean ====
section
/-!
DEFINITION. What a command of this node may hold: operands that are numbers lie in the ranges of what they stand for. A meaning does not
rest on it: every meaning gives every operand an effect.
-/

namespace Sys2Proof

namespace Machine

/-- The line header's fields fit their widths (Table 7-5). -/
def Hdr.wf (h : Hdr) : Bool :=
  decide (h.flags < 256) && decide (h.sender < 64) && decide (h.turn < 2 ^ 32) && decide (h.icount < 2 ^ 32) && decide (h.slot < 512) &&
  decide (-(2 ^ 31) ≤ h.corr) && decide (h.corr < 2 ^ 31) && decide (h.seqGen < 2 ^ 32) && decide (h.epoch < 2 ^ 32)

/-- A parcel's fields fit their widths (Table 7-8); FUNC 0x0000 is no parcel, it ends the reading (R163). -/
def Parcel.wf (p : Parcel) : Bool :=
  decide (0 < p.func) && decide (p.func < 2 ^ 16) && decide (p.pseq < 2 ^ 16) && decide (p.age < 256) && decide (p.data.length < 2 ^ 16)

/-- The address word's fields fit their widths (Table 7-10). -/
def Dyn.wf (d : Dyn) : Bool :=
  decide (d.dest < 2 ^ 16) && decide (d.dkind < 4) && decide (d.life < 256) && decide (d.sel < 2 ^ 16) && decide (d.prio < 8)

/-- A payload's lists and address word are well formed. -/
def Payload.wf (p : Payload) : Bool :=
  match p with
  | .parcels ps => ps.all Parcel.wf
  | .dyn d => d.wf
  | .kickoff k => decide (k.luid < 2 ^ 64) && decide (k.duid < 2 ^ 64)
  | .confirm r c => decide (r.hops < 64) && decide (c.phase < 8)
  | .claim r c => decide (r.hops < 64) && decide (c.recs.length < 256)
  | .service r s => decide (r.hops < 64) && decide (s.salt < 2 ^ 64)
  | .directory r e => decide (r.hops < 64) && decide (e.luid < 2 ^ 64)
  | .hop q h => decide (q < 2 ^ 32) && decide (h.uid < 2 ^ 64) && h.credit.length == 10

/-- A line frame is well formed. -/
def Frame.wf (f : Frame) : Bool := f.hdr.wf && f.payload.wf && decide (f.tag < 2 ^ 64) && decide (f.src < 2 ^ 40)

/-- A CAN frame is one that ISO 11898-1:2015 knows. -/
def CanFrame.wf (f : CanFrame) : Bool :=
  decide (f.id < 2 ^ 29) && decide (f.dlc < 16) && !(f.rtr && f.fdf) && !(f.brs && !f.fdf) && decide (f.data.length ≤ 64)

/-- An Ethernet frame's fields fit their widths. -/
def EthFrame.wf (f : EthFrame) : Bool :=
  decide (f.dst < 2 ^ 48) && decide (f.src < 2 ^ 48) && decide (f.vid < 4096) && decide (f.pcp < 8) && decide (f.etype < 2 ^ 16)

/-- What a wake detector sees is well formed. -/
def WakeSeen.wf (w : WakeSeen) : Bool :=
  match w with
  | .dominant _ => true
  | .frame f => f.wf
  | .undecodable => true

/-- A pair-state message's fields fit their widths (Table 13-3). -/
def PairState.wf (p : PairState) : Bool := decide (p.uid < 2 ^ 64) && decide (p.role < 4) && p.ports.length == 4

/-- A requester exists (R620): 17 tenants and two CPU pairs. -/
def Requester.wf (r : Requester) : Bool :=
  match r with
  | .tenant t => decide (t < 17)
  | .cpu i => decide (i < 2)

/-- Measured values fit their fields. -/
def Sensed.wf (m : Sensed) : Bool := decide (m.vin < 2 ^ 16) && decide (m.vinMin ≤ m.vin)

end Machine

/-- A command is well formed. -/
def Instr.wf (c : Instr) : Bool :=
  match c with
  | .powerOnReset _ _ _ _ _ _ _ => true
  | .resetNLow => true
  | .vinRstReached vin _ => decide (vin < 2 ^ 16)
  | .nodeRefLost => true
  | .fatalFault => true
  | .resetEscalation => true
  | .rstCmdFullReset _ => true
  | .rstCmdFwRestart _ => true
  | .bootStageComplete _ => true
  | .fwWatchdogExpiry => true
  | .fwException => true
  | .fwRestartComplete => true
  | .lockstepMismatch _ => true
  | .lockstepRestartDone _ => true
  | .updateRestart => true
  | .fwTrialEnd => true
  | .slackEntry vin => decide (vin < 2 ^ 16)
  | .slackPersist fail => (fail.all fun o => decide (o < 2 ^ 27))
  | .slackShed => true
  | .slackExit vin low dur => decide (vin < 2 ^ 16) && decide (low < 2 ^ 16) && decide (dur < 2 ^ 32)
  | .deferredTrickleUnit vin fail => decide (vin < 2 ^ 16) && (fail.all fun o => decide (o < 2 ^ 27))
  | .voutOverload vin => decide (vin < 2 ^ 16)
  | .pwrSwRequest _ => true
  | .domainPowered _ => true
  | .gxCrystalLost => true
  | .gxPpmFault _ => true
  | .xt32Lost => true
  | .optimeIncrement m => m.wf
  | .pointerPersist fail => (fail.all fun o => decide (o < 2 ^ 27))
  | .anchorPeriodic => true
  | .registerWrite r bar2 off size _ _ => r.wf && decide (off < if bar2 then 2 ^ 16 else 2 ^ 21) && (size == 1 || size == 2 || size == 4 || size == 8)
  | .readClear r bar2 off size => r.wf && decide (off < if bar2 then 2 ^ 16 else 2 ^ 21) && (size == 1 || size == 2 || size == 4 || size == 8)
  | .latchedLowRead r bar2 off => r.wf && decide (off < if bar2 then 2 ^ 16 else 2 ^ 21)
  | .lockSet r _ => r.wf
  | .turnLoadPeakClear => true
  | .turnEnable => true
  | .gpioEdge _ _ => true
  | .tick _ armed _ _ => decide (armed < 2 ^ 16)
  | .jobDegraded _ => true
  | .jobRestored _ => true
  | .jobLateCompletion _ _ => true
  | .creditReturn _ => true
  | .nitCorrection => true
  | .selfSilentExit => true
  | .wideningEnd => true
  | .ratePersist => true
  | .ppsOutPulse => true
  | .taiArm => true
  | .ppsInEdge => true
  | .taiArmMissed => true
  | .gptpAlign ns => decide (ns < 2 ^ 64)
  | .timeMessageSend => true
  | .timeMessageReceive sender _ => decide (sender < 64)
  | .taiAlignAtTick => true
  | .probeListenEnd _ => true
  | .probeMasterEnd _ => true
  | .trainingSignalDetect _ _ => true
  | .slaveResponse _ => true
  | .trainingFail _ => true
  | .phyLinkUp _ _ => true
  | .identifyTimeout _ => true
  | .probeCeilingReset _ => true
  | .lpRetry _ => true
  | .linkLoss _ => true
  | .kickoffSend => true
  | .relayOriginate _ _ => true
  | .relayMidOriginate _ _ _ => true
  | .staticSlotTransmit slot _ => decide (slot < 512)
  | .frameBuild slot => decide (slot < 512)
  | .publishFetch _ flip => decide (flip < 2 ^ 32)
  | .publishFetchDone _ _ => true
  | .dynamicSegment => true
  | .hopExtraSend _ => true
  | .hopPeriodicSend _ => true
  | .staticFrameReceive _ f _ => f.wf
  | .staticHandoffReceive _ f _ => f.wf
  | .dynamicFrameReceive _ f _ => f.wf
  | .recoveryStateTimeout => true
  | .dynamicLifetimeExpiry _ => true
  | .hopFrameReceive _ f _ => f.wf
  | .kickoffReceive _ f _ => f.wf
  | .confirmFrameReceive _ f _ => f.wf
  | .claimFrameReceive _ f _ => f.wf
  | .serviceFrameReceive _ f _ => f.wf
  | .directoryFrameReceive _ f _ => f.wf
  | .listenTimeout => true
  | .kickoffFloorPersist => true
  | .integration => true
  | .coldstartIntegrate => true
  | .solitaryEntry => true
  | .solitaryReinaugurate => true
  | .lineLost => true
  | .yieldHoldEnd => true
  | .pendingTriggerAct => true
  | .couplerInputChange _ _ => true
  | .couplerNoLink _ => true
  | .cabActiveChange _ => true
  | .inaugInhibitRise => true
  | .inaugInhibitFall => true
  | .stopEntry => true
  | .inaugPhaseChange => true
  | .stopHoldOut => true
  | .holdOutEnd _ => true
  | .yield => true
  | .adoption => true
  | .tableFragmentReceive _ => true
  | .synthesisStart => true
  | .synthesisComplete us => decide (us < 2 ^ 32)
  | .spareClaim => true
  | .claimResolve => true
  | .spareGrantEffect => true
  | .poolReset => true
  | .weirNitAdjust _ => true
  | .weirStateTimeout _ => true
  | .nodeFenced => true
  | .pairStateSend => true
  | .pairStateReceive p _ _ _ => p.wf
  | .roleTimeout => true
  | .epochSnapshot => true
  | .epochChunkReceive num index count ccrc _ => decide (num < 2 ^ 32) && decide (index < 2 ^ 16) && decide (count < 2 ^ 16) && decide (ccrc < 2 ^ 32)
  | .epochEndMarkerReceive num count dlen ecrc _ => decide (num < 2 ^ 32) && decide (count < 2 ^ 16) && decide (dlen < 2 ^ 32) && decide (ecrc < 2 ^ 32)
  | .witnessReceive sender _ => decide (sender < 64)
  | .takeover => true
  | .leaderYield => true
  | .swapMessageReceive w => decide (w < 2 ^ 64)
  | .swapEpochSnapshot => true
  | .swapCommitDeadline _ => true
  | .swapRoleExchange => true
  | .tiEnable _ _ => true
  | .subscriptionResolve _ => true
  | .queueEnable _ _ => true
  | .queueDisable _ _ => true
  | .queueStopped _ _ => true
  | .doorbell _ _ => true
  | .descriptorFetch _ _ _ _ => true
  | .moderationTimer _ _ => true
  | .nop _ _ i => decide (i < 4096)
  | .lineSend _ _ i _ => decide (i < 4096)
  | .lineRecvPost _ _ i => decide (i < 4096)
  | .consistSend _ _ i _ => decide (i < 4096)
  | .consistRecvPost _ _ i => decide (i < 4096)
  | .canSend _ _ i _ => decide (i < 4096)
  | .farRead _ _ i => decide (i < 4096)
  | .farWrite _ _ i _ => decide (i < 4096)
  | .tallyRead _ _ i _ => decide (i < 4096)
  | .tallyMark _ _ i => decide (i < 4096)
  | .tallyClear _ _ i _ _ => decide (i < 4096)
  | .attestReport _ _ i _ => decide (i < 4096)
  | .attestChain _ _ i => decide (i < 4096)
  | .attestImport _ _ i _ _ _ _ => decide (i < 4096)
  | .attestLifecycle _ _ i _ _ => decide (i < 4096)
  | .attestRequestReceive sender _ _ => decide (sender < 64)
  | .attestResponseReceive sender _ => decide (sender < 64)
  | .attestTimeout _ => true
  | .configStage _ _ i _ _ => decide (i < 4096)
  | .configActivate _ _ i partner _ => decide (i < 4096) && decide (partner < 2 ^ 32)
  | .configConfirm _ _ i => decide (i < 4096)
  | .configCancel _ _ i => decide (i < 4096)
  | .configRollback _ _ i => decide (i < 4096)
  | .directoryRead _ _ i => decide (i < 4096)
  | .unsatisfiedRead _ _ i => decide (i < 4096)
  | .inaugRequest _ _ i => decide (i < 4096)
  | .roleSwap _ _ i => decide (i < 4096)
  | .pcieConfigRequest _ _ => true
  | .perstAssert _ => true
  | .perstRelease _ => true
  | .pcieLinkUp _ _ _ => true
  | .pcieLinkDown _ _ => true
  | .pcieError _ _ _ => true
  | .functionLevelReset _ _ => true
  | .busMasterEnableChange _ _ => true
  | .readStatus => true
  | .readWin _ _ => true
  | .writeWin _ _ => true
  | .readReg off _ => decide (off < 2 ^ 24)
  | .writeReg off _ => decide (off < 2 ^ 24)
  | .tenantReset _ => true
  | .qspiInvalidCommand => true
  | .farTransferStart _ => true
  | .farRequestReceive sender _ => decide (sender < 64)
  | .farRequestServe _ _ => true
  | .farResponseReceive sender _ => decide (sender < 64)
  | .farTransferTimeout _ => true
  | .prefetchExpiry _ => true
  | .exportRegion _ _ _ => true
  | .apertureWrite _ off _ _ => decide (off < 2 ^ 26)
  | .apertureRead _ off _ => decide (off < 2 ^ 26)
  | .apertureReadTimeout _ => true
  | .apertureErrorPop _ => true
  | .consistFrameIngress _ f time => f.wf && decide (time < 2 ^ 64)
  | .consistPortUp _ _ _ => true
  | .consistPortDown _ => true
  | .fdbAgeing mac vid => decide (mac < 2 ^ 48) && decide (vid < 4096)
  | .foreignBeacon _ => true
  | .mdioFrame _ _ _ _ => true
  | .mdioFrameDone _ => true
  | .trdpPublish _ => true
  | .trdpTelegramReceive src dst port vid _ => decide (src < 2 ^ 32) && decide (dst < 2 ^ 32) && decide (port < 2 ^ 16) && decide (vid < 4096)
  | .trdpSubscriberTimeout _ => true
  | .arpRequest mac ip target => decide (mac < 2 ^ 48) && decide (ip < 2 ^ 32) && decide (target < 2 ^ 32)
  | .igmpReport => true
  | .canFrameReceive _ f ns turn => f.wf && decide (ns < 2 ^ 64) && decide (turn < 2 ^ 64)
  | .canTxStart _ => true
  | .canTxSuccess _ ns turn => decide (ns < 2 ^ 64) && decide (turn < 2 ^ 64)
  | .canWindowOpen _ _ => true
  | .canWindowMiss _ _ => true
  | .canBusError _ _ _ _ _ _ => true
  | .canRecoveryDone _ => true
  | .canRecoverCmd _ => true
  | .canAlone _ => true
  | .canBusIntegrated _ => true
  | .canSleepCmd _ => true
  | .canWakeCmd _ => true
  | .canWakeDetect _ w => w.wf
  | .mirrorTwinExpiry _ _ => true
  | .canBufferNewWrite _ _ => true
  | .scrubLine _ _ _ _ => true
  | .secureAccessRefused _ _ => true
  | .secureWipe _ => true
  | .wipeComplete us _ => decide (us < 2 ^ 32)
  | .memCounterClear _ _ => true
  | .overflowRecord => true
  | .writeUnitDone fail => (fail.all fun o => decide (o < 2 ^ 27))
  | .utcWrite _ _ _ => true
  | .clearNonceNew _ => true
  | .clearNonceExpiry _ => true
  | .tamperEvent _ _ => true
  | .fleetKeySwitch => true
  | .retiredKeyErase => true
  | .configActivationTick => true
  | .configTrialEnd => true
  | .configRollbackTick => true
  | .freezeNLow _ _ => true
  | .debugTokenLapse => true
  | .bypass _ => true
  | .idcode => true
  | .samplePreload _ => true
  | .extest _ => true
  | .nonce => true
  | .token _ _ _ _ => true
  | .diagStatus => true
  | .freeze _ => true
  | .roAddr _ => true
  | .roData _ => true
  | .recoveryFrame _ _ => true
  | .vbackRangeChange _ => true
  | .lineKeepaliveLoss => true
  | .resetOutRelease => true

end Sys2Proof
end

