-- ==== Sys2Proof/Tests/Slice0.lean ====
section
/-!
SUPPORT. The model's own tests: known values of the CRCs, an ill-formed command for every check of WellFormed.lean, one step of a few
commands on small states, and for every statement with hypotheses states and operands that meet them (`test_meets_…`, one part for each
clause, at a boundary of a range where there is one).
-/

namespace Sys2Proof.Machine

set_option Elab.async false

/-- The state after reset with the given register fields. -/
def st (l : List (Fld × List Nat × Nat)) : State :=
  { State.reset with regs := regsWith (resetFields ++ l) }

/-- Firmware up, PD9 on, CPU pairs running. -/
def upFields : List (Fld × List Nat × Nat) :=
  [(Reg.GLOBAL_STAT_FW_READY, [], 1), (Reg.PWR_STAT_PD_ON, [], 0xFFF), (Reg.BOOT_STAT_STAGE, [], 6)]

/-- The state after reset with firmware up and the given register fields. -/
def up (l : List (Fld × List Nat × Nat)) : State := st (upFields ++ l)

/-- A piece of work at index 7 of a queue. -/
def work (op len : Nat) (a0 a1 : Nat) : Work := ⟨7, ⟨op, 0, 1, len, 0, a0, a1⟩, false, none⟩

/-- A state in which queue 15 of a tenant runs, with bus mastering on and work at index 7. -/
def ringOf (t op len a0 a1 : Nat) (l : List (Fld × List Nat × Nat)) : State :=
  { up ([(Reg.HQq_CTL_EN, [t, 15], 1), (Reg.HQq_STAT_RUN, [t, 15], 1), (Reg.TN_STAT_BME, [t], 1)] ++ l) with
    host.queues := [(t * 16 + 15, { (default : Queue) with size := 6, works := [work op len a0 a1] })] }

/-- The same for tenant 16, the QSPI host. -/
def ring (op len a0 a1 : Nat) (l : List (Fld × List Nat × Nat)) : State := ringOf 16 op len a0 a1 l

/-- A process-data telegram of ComId 7 without data. -/
def pdTelegram : List Byte :=
  let h := beBytes 4 0 ++ beBytes 2 0x0100 ++ beBytes 2 0x5064 ++ beBytes 4 7 ++ List.replicate 24 0
  h ++ beBytes 4 (crc32 h)

/-- The forms of Canon and a clocked node, as a test. -/
def live (s : State) : Bool :=
  Sparse.sorted s.regs && Memory.wf s.host.window && decide (s.tally.queue.length ≤ 4096) && decide (s.tally.emer.length ≤ 1008) &&
    decide (s.tally.clears.length ≤ 16) && s.alive

theorem live_canon (s : State) (h : live s = true) : s.Canon ∧ s.alive = true := by
  simp only [live, Bool.and_eq_true, decide_eq_true_eq] at h
  obtain ⟨⟨⟨⟨⟨h1, h2⟩, h3⟩, h4⟩, h5⟩, h6⟩ := h
  exact ⟨⟨h1, h2, h3, h4, h5⟩, h6⟩

/-- A frame with the tag that the neighbour on port n gives it under the node's own fleet key and salt. -/
def tagFrom (s : State) (n : Nat) (f : Frame) : Frame :=
  { f with tag := gmac (s.tagKey s.fleetKey (s.keys.salt.getD 0) (s.get Reg.LPn_NBR_LO_UID [n]) f) (f.iv (s.ivTurn f) (n % 2 == 1) false 0) f.aad }

/-- The reception of a whole frame at a turn phase. -/
def heard (f : Frame) (phase : Nat) : RxCheck := { f.sealed false with phase := phase }

/-! Known values -/

/-- The check value of the header CRC's parameters (R159) over the digits 1 to 9. -/
theorem test_crc16_check : crc16 [0x31, 0x32, 0x33, 0x34, 0x35, 0x36, 0x37, 0x38, 0x39] = 0x29B1 := by decide +kernel

/-- The check value of CRC-32C (R328). -/
theorem test_crc32c_check : crc32c [0x31, 0x32, 0x33, 0x34, 0x35, 0x36, 0x37, 0x38, 0x39] = 0xE3069283 := by decide +kernel

/-- The check value of the Ethernet CRC. -/
theorem test_crc32_check : crc32 [0x31, 0x32, 0x33, 0x34, 0x35, 0x36, 0x37, 0x38, 0x39] = 0xCBF43926 := by decide +kernel

/-- The check value of CRC-64/ECMA-182. -/
theorem test_crc64_check : crc64 [0x31, 0x32, 0x33, 0x34, 0x35, 0x36, 0x37, 0x38, 0x39] = 0x6C40DF5F0B497347 := by decide +kernel

/-- The digest of the message abc (FIPS 180-4). -/
theorem test_sha384 : sha384 [0x61, 0x62, 0x63] =
    0xcb00753f45a35e8bb5a03d699ac65007272c32ab0eded1631a8b605a43ff5bed8086072ba1e7cc2358baeca134c825a7 := by
  decide +kernel

/-- The example of AES-256 in FIPS 197. -/
theorem test_aes256 : aes256 ((List.range 32).map fun i => BitVec.ofNat 8 i) ((List.range 16).map fun i => BitVec.ofNat 8 (17 * i)) =
    beBytes 16 0x8ea2b7ca516745bfeafc49904b496089 := by
  decide +kernel

/-- The first product of test case 2 of the GCM specification. -/
theorem test_gcm_product : gcmMul 0x0388dace60b6a392f328c2b971b2fe78 0x66e94bd4ef8a2c3b884cfa59ca342b2e = 0x5e2ec746917062882c85b0685353deb7 := by
  decide +kernel

/-- IDENT of a node right after reset (Table 1-9). -/
theorem test_ident : State.reset.readWord 0 0 = 0x4C4A0880 := by decide +kernel

/-- No word spells a command: the table gives no row any bits. -/
theorem test_decode_none : decodeTableWord 32 0x4C4A0880 = none := rfl

/-! The queue -/

theorem test_step_front : step { State.reset with pending := [.idcode, .roData 1] } = exec .idcode { State.reset with pending := [.roData 1] } := rfl

theorem test_step_idle : step State.reset = .next State.reset.idle := rfl

/-! WellFormed: an ill-formed term for every check -/

/-- A frame with a header. -/
def hdrFrame (h : Hdr) : Frame := ⟨.static, h, .parcels [], 0, 0⟩

/-- A frame with a payload. -/
def bodyFrame (p : Payload) : Frame := ⟨.static, default, p, 0, 0⟩

/-- A frame received at port 0. -/
def rx (f : Frame) : Instr := .dynamicFrameReceive 0 f default

theorem test_wf_header : [({ (default : Hdr) with flags := 256 } : Hdr), { (default : Hdr) with sender := 64 },
    { (default : Hdr) with turn := 2 ^ 32 }, { (default : Hdr) with icount := 2 ^ 32 }, { (default : Hdr) with slot := 512 },
    { (default : Hdr) with corr := 2 ^ 31 }, { (default : Hdr) with corr := -(2 ^ 31) - 1 }, { (default : Hdr) with seqGen := 2 ^ 32 },
    { (default : Hdr) with epoch := 2 ^ 32 }].all (fun h => !(rx (hdrFrame h)).wf) = true ∧
    (rx (hdrFrame ⟨255, 63, 2 ^ 32 - 1, 2 ^ 32 - 1, 511, -(2 ^ 31), 2 ^ 32 - 1, 2 ^ 32 - 1⟩)).wf = true := by
  decide +kernel

theorem test_wf_payload : [Payload.parcels [{ (default : Parcel) with func := 2 ^ 16 }], .parcels [{ (default : Parcel) with pseq := 2 ^ 16 }],
    .parcels [{ (default : Parcel) with age := 256 }], .parcels [{ (default : Parcel) with data := List.replicate (2 ^ 16) 0 }],
    .dyn { (default : Dyn) with dest := 2 ^ 16 }, .dyn { (default : Dyn) with dkind := 4 }, .dyn { (default : Dyn) with life := 256 },
    .dyn { (default : Dyn) with sel := 2 ^ 16 }, .dyn { (default : Dyn) with prio := 8 }, .kickoff { (default : Kickoff) with luid := 2 ^ 64 },
    .kickoff { (default : Kickoff) with duid := 2 ^ 64 }, .confirm { (default : RelayWord) with hops := 64 } default,
    .confirm default { (default : Confirm) with phase := 8 }, .claim { (default : RelayWord) with hops := 64 } default,
    .claim default { (default : Claim) with recs := List.replicate 256 default }, .service { (default : RelayWord) with hops := 64 } default,
    .service default { (default : Service) with salt := 2 ^ 64 }, .directory { (default : RelayWord) with hops := 64 } default,
    .directory default { (default : DirEntry) with luid := 2 ^ 64 }, .hop (2 ^ 32) { (default : Hop) with credit := List.replicate 10 0 },
    .hop 0 { (default : Hop) with uid := 2 ^ 64, credit := List.replicate 10 0 }, .hop 0 default].all
      (fun p => !(rx (bodyFrame p)).wf) = true ∧ (rx { bodyFrame (.parcels []) with tag := 2 ^ 64 }).wf = false ∧
    (rx (bodyFrame (.hop 0 { (default : Hop) with credit := List.replicate 10 0 }))).wf = true := by
  decide +kernel

theorem test_wf_outside_frames : [Instr.canFrameReceive 0 { (default : CanFrame) with id := 2 ^ 29 } 0 0,
    .canFrameReceive 0 { (default : CanFrame) with dlc := 16 } 0 0, .canFrameReceive 0 { (default : CanFrame) with rtr := true, fdf := true } 0 0,
    .canFrameReceive 0 { (default : CanFrame) with brs := true } 0 0, .canFrameReceive 0 { (default : CanFrame) with data := List.replicate 65 0 } 0 0,
    .canFrameReceive 0 default (2 ^ 64) 0, .canFrameReceive 0 default 0 (2 ^ 64), .canTxSuccess 0 (2 ^ 64) 0, .canTxSuccess 0 0 (2 ^ 64),
    .canWakeDetect 0 (.frame { (default : CanFrame) with id := 2 ^ 29 }),
    .consistFrameIngress 0 { (default : EthFrame) with dst := 2 ^ 48 } 0, .consistFrameIngress 0 { (default : EthFrame) with src := 2 ^ 48 } 0,
    .consistFrameIngress 0 { (default : EthFrame) with vid := 4096 } 0, .consistFrameIngress 0 { (default : EthFrame) with pcp := 8 } 0,
    .consistFrameIngress 0 { (default : EthFrame) with etype := 2 ^ 16 } 0, .consistFrameIngress 0 default (2 ^ 64),
    .fdbAgeing (2 ^ 48) 0, .fdbAgeing 0 4096, .trdpTelegramReceive (2 ^ 32) 0 0 0 [], .trdpTelegramReceive 0 (2 ^ 32) 0 0 [],
    .trdpTelegramReceive 0 0 (2 ^ 16) 0 [], .trdpTelegramReceive 0 0 0 4096 [], .arpRequest (2 ^ 48) 0 0, .arpRequest 0 (2 ^ 32) 0,
    .arpRequest 0 0 (2 ^ 32)].all (fun c => !c.wf) = true := by
  decide +kernel

theorem test_wf_partner_and_line : [Instr.pairStateReceive { (default : PairState) with uid := 2 ^ 64, ports := List.replicate 4 default } [] [] [],
    .pairStateReceive { (default : PairState) with role := 4, ports := List.replicate 4 default } [] [] [], .pairStateReceive default [] [] [],
    .epochChunkReceive (2 ^ 32) 0 0 0 [], .epochChunkReceive 0 (2 ^ 16) 0 0 [], .epochChunkReceive 0 0 (2 ^ 16) 0 [], .epochChunkReceive 0 0 0 (2 ^ 32) [],
    .epochEndMarkerReceive (2 ^ 32) 0 0 0 false, .epochEndMarkerReceive 0 (2 ^ 16) 0 0 false, .epochEndMarkerReceive 0 0 (2 ^ 32) 0 false,
    .epochEndMarkerReceive 0 0 0 (2 ^ 32) false, .witnessReceive 64 [], .swapMessageReceive (2 ^ 64), .timeMessageReceive 64 [],
    .staticSlotTransmit 512 0, .frameBuild 512, .publishFetch 0 (2 ^ 32), .tick [] (2 ^ 16) 0 0, .gptpAlign (2 ^ 64), .synthesisComplete (2 ^ 32),
    .attestRequestReceive 64 0 [], .attestResponseReceive 64 [], .farRequestReceive 64 [], .farResponseReceive 64 []].all (fun c => !c.wf) = true ∧
    (Instr.pairStateReceive { (default : PairState) with ports := List.replicate 4 default } [] [] []).wf = true := by
  decide +kernel

theorem test_wf_accesses : [Instr.registerWrite (.tenant 17) false 0 4 0 [], .registerWrite (.cpu 2) false 0 4 0 [],
    .registerWrite (.cpu 0) false (2 ^ 21) 4 0 [], .registerWrite (.tenant 0) true (2 ^ 16) 4 0 [], .registerWrite (.cpu 0) false 0 3 0 [],
    .readClear (.tenant 17) false 0 4, .readClear (.cpu 0) false (2 ^ 21) 4, .readClear (.cpu 0) false 0 5, .latchedLowRead (.cpu 2) false 0,
    .latchedLowRead (.cpu 0) false (2 ^ 21), .lockSet (.cpu 2) 0, .readReg (2 ^ 24) 1, .writeReg (2 ^ 24) [], .apertureWrite 0 (2 ^ 26) [] true,
    .apertureRead 0 (2 ^ 26) 4].all (fun c => !c.wf) = true ∧
    (Instr.registerWrite (.cpu 1) false (2 ^ 21 - 4) 4 0 []).wf = true := by
  decide +kernel

theorem test_wf_supply_and_memory : [Instr.slackEntry (2 ^ 16), .slackPersist (some (2 ^ 27)), .slackExit (2 ^ 16) 0 0, .slackExit 0 (2 ^ 16) 0, .slackExit 0 0 (2 ^ 32), .vinRstReached (2 ^ 16) 0,
    .deferredTrickleUnit (2 ^ 16) none, .deferredTrickleUnit 0 (some (2 ^ 27)), .voutOverload (2 ^ 16),
    .optimeIncrement ⟨2 ^ 16, 0, true, none, []⟩, .optimeIncrement ⟨0, 1, true, none, []⟩, .pointerPersist (some (2 ^ 27)),
    .writeUnitDone (some (2 ^ 27)), .wipeComplete (2 ^ 32) 0].all (fun c => !c.wf) = true := by
  decide +kernel

theorem test_wf_descriptors : [Instr.nop 0 0 4096, .lineSend 0 0 4096 [], .lineRecvPost 0 0 4096, .consistSend 0 0 4096 [], .consistRecvPost 0 0 4096,
    .canSend 0 0 4096 [], .farRead 0 0 4096, .farWrite 0 0 4096 [], .tallyRead 0 0 4096 [], .tallyMark 0 0 4096, .tallyClear 0 0 4096 [] true,
    .attestReport 0 0 4096 [], .attestChain 0 0 4096, .attestImport 0 0 4096 [] true true 0, .attestLifecycle 0 0 4096 [] true,
    .configStage 0 0 4096 [] true, .configActivate 0 0 4096 0 true, .configActivate 0 0 0 (2 ^ 32) true, .configConfirm 0 0 4096,
    .configCancel 0 0 4096, .configRollback 0 0 4096, .directoryRead 0 0 4096, .unsatisfiedRead 0 0 4096, .inaugRequest 0 0 4096,
    .roleSwap 0 0 4096].all (fun c => !c.wf) = true ∧ (Instr.nop 16 15 4095).wf = true := by
  decide +kernel

/-! Single steps -/

/-- The state a command leads to. -/
def after (c : Instr) (s : State) : State :=
  match exec c s with
  | .next t => t
  | _ => s

theorem test_wipe_then_stage_1 : (after (.bootStageComplete ⟨0, 0, false, 0, none⟩) (after (.wipeComplete 9 0) State.reset)).get Reg.BOOT_STAT_STAGE = 1 := by
  decide +kernel

/-- R81: operating time counts units of 10 ms. -/
theorem test_optime : (after (.optimeIncrement ⟨2400, 2400, true, none, []⟩) State.reset).clock.optime = 1 := by decide +kernel

/-- R60 and Table 3-1: the record of a VOUT_3V3 overload carries VIN, and is the recorder's first. -/
theorem test_vout_overload : (after (.voutOverload 1800) (st [])).tally.queue.map (fun r => (r.code, r.seq)) = [(0x4003, 0)] := by decide +kernel

/-- Read-only fields take nothing: a write of IDENT leaves it (R12). -/
theorem test_ident_write : (after (.registerWrite (.cpu 0) false 0 4 0 []) (up [])).readWord 0 0 = 0x4C4A0880 := by decide +kernel

/-- WRITE_WIN wraps at the end of the window (R408). -/
theorem test_window_wrap : (after (.writeWin 0x3FFFF [1, 2]) (up [])).host.window = [(0, 2), (0x3FFFF, 1)] := by decide +kernel

/-- Bytes of zero are not listed. -/
theorem test_window_zero : (after (.writeWin 0 [0, 3, 0]) (up [])).host.window = [(1, 3)] := by decide +kernel

/-- R395: a NOP returns ARG0. -/
theorem test_nop : ((after (.nop 16 15 7) (ring 0 0 5 0 [])).queue 16 15).works = [] := by decide +kernel

/-- IDCODE 0x20880001 (R606), least significant byte first. -/
theorem test_idcode : (after .idcode (st [])).out = [.tdo [0x01, 0x00, 0x88, 0x20]] := by decide +kernel

/-- R608: a refused FREEZE is counted. -/
theorem test_freeze_refused : (after (.freeze false) (st [])).get Reg.DIAG_CNT_REFUSED = 1 ∧ (after (.freeze false) (st [])).alive = true := by
  decide +kernel

/-- R125: a signal at an enabled rate trains the port as slave. -/
theorem test_training_signal : (after (.trainingSignalDetect 0 4) (st [(Reg.LPn_STAT_STATE, [0], 1)])).pst 0 = 2 := by decide +kernel

/-- R491: of equal identifiers the lowest buffer wins. -/
theorem test_can_winner : ({ st [] with can.ctls := List.replicate 8 { (default : CanCtl) with pending := [9, 4] } } : State).canWinner 2 = some 4 := by
  decide +kernel

/-- R499: recovery ends with both counters 0. -/
theorem test_can_recovered : (after (.canRecoveryDone 1) { st [(Reg.CANn_STAT_STATE, [1], 4), (Reg.CANn_ERR_TEC, [1], 256)] with
    can.ctls := List.replicate 8 { (default : CanCtl) with recovering := true } }).get Reg.CANn_ERR_TEC [1] = 0 := by
  decide +kernel

/-- Under the mill brake the tick is no event (R610). -/
theorem test_frozen_tick : (after (.tick [] 0 0 0) { st [(Reg.DIAG_STAT_FROZEN, [], 1), (Reg.TURN_STAT_SRC, [], 1)] with clock.turn := 5 }).clock.turn = 5 := by
  decide +kernel

/-- R79: at the tick the turn number is the next. -/
theorem test_tick : (after (.tick [] 0 0 0) { up [(Reg.TURN_STAT_SRC, [], 1)] with clock.turn := 5 }).clock.turn = 6 := by decide +kernel

/-! Hypotheses: the machine as a whole, records -/

theorem test_meets_IdleStepKeepsToTheTurn :
    (∃ s : State, live s = true ∧ s.pending = [] ∧ s.mem.waiting = [] ∧ s.sec.asked = [] ∧ s.con.fabric = [] ∧ s.con.egress = [] ∧
      s.con.ingress = [] ∧ s.sync.nit = 0 ∧ s.sync.slew = 0 ∧ s.ticking = false ∧ s.clock.phase = s.turnNs * State.nsUnit) ∧
    (∃ s : State, s.pending = [] ∧ s.alive = false) :=
  ⟨⟨{ st [] with clock.phase := 1000000 * State.nsUnit }, by decide +kernel⟩,
   ⟨st [(Reg.DIAG_STAT_FROZEN, [], 1)], by decide +kernel⟩⟩

theorem test_meets_RecordEntersQueue :
    (∃ s : State, live s = true ∧ s.on Reg.TALLY_STAT_DEGRADED = false ∧ s.hasPlace 0x1001 0 = true) ∧
    (∃ s : State, live s = true ∧ s.on Reg.TALLY_STAT_DEGRADED = false ∧ s.hasPlace 0x4003 0 = true) :=
  ⟨⟨{ st [] with tally.queue := List.replicate 4095 default }, by decide +kernel⟩,
   ⟨{ st [] with tally.queue := List.replicate 4063 default }, by decide +kernel⟩⟩

theorem test_meets_PlacesOfTheTallyQueue :
    (∃ s : State, live s = true ∧ s.on Reg.TALLY_STAT_DEGRADED = false ∧ s.hasPlace 0x4003 0 = false) ∧
    (∃ s : State, live s = true ∧ s.on Reg.TALLY_STAT_DEGRADED = false ∧ s.tally.queue.length < 4064 ∧ s.tally.queue.length +
      s.tally.overflow.length = 4096) ∧
    (∃ (s : State) (d : Desc), live s = true ∧ s.ready 16 15 7 0x21 = some d ∧ d.arg0 / 2 ^ 16 % 8 = 3 ∧ s.sluiceEntry (0x8000 + d.arg0 %
      4096) = none ∧ s.hasPlace (0x8000 + d.arg0 % 4096) 0 = false) :=
  ⟨⟨{ st [] with tally.queue := List.replicate 4064 default }, by decide +kernel⟩,
   ⟨{ st [] with tally.queue := List.replicate 4063 default, tally.overflow := (List.range 33).map fun i => (i, 7) }, by decide +kernel⟩,
   ⟨{ ring 0x21 0 0x30FFF 0 [] with tally.queue := List.replicate 4064 default }, (work 0x21 0 0x30FFF 0).desc, by decide +kernel⟩⟩

theorem test_meets_SluiceRule :
    ∃ (s : State) (k : Nat), live s = true ∧ s.sluiceEntry 0x4003 = some k ∧ s.get Reg.SLUk_CNT_TOKENS [k] = 0 ∧ (0x2FFF / 4096 = 1 ∨ 0x2FFF
      / 4096 = 2) :=
  ⟨st [(Reg.SLUk_B_EN, [255], 1), (Reg.SLUk_A_CODE, [255], 0x4003), (Reg.SLUk_A_MASK, [255], 0xFFFF)], 255, by decide +kernel⟩

/-! Hypotheses: reset, boot and firmware -/

theorem test_meets_FullResetCommands :
    (∃ s : State, live s = true ∧ s.power.on = true ∧ s.boot.restart.isSome = true ∧ s.since s.boot.restartAt 500000000 = true ∧ s.domainOn
      9 = true) ∧
    (∃ (s : State) (vin : Nat), live s = true ∧ s.power.on = true ∧ vin = State.vinRst ∧ Reg.PWR_VIN_VIN.key [] ≠ Reg.PWR_STAT_VOUT_OK.key
      []) :=
  ⟨⟨{ up [] with boot.restart := some (.cmd, none), boot.restartAt := 5, clock.up := 5 + 500000000 * State.nsUnit }, by decide +kernel⟩,
   ⟨st [], 380, by decide +kernel⟩⟩

theorem test_meets_FirmwareRestarts :
    (∃ s : State, live s = true ∧ s.fwUp = true ∧ s.domainOn 9 = true ∧ ((s.boot.faultRestarts.filter fun t => s.clock.optime < t +
      60000).length = 1)) ∧
    (∃ s : State, live s = true ∧ s.fwUp = true ∧ ((s.boot.faultRestarts.filter fun t => s.clock.optime < t + 60000).length = 2)) :=
  ⟨⟨{ up [] with boot.faultRestarts := [1, 0], clock.optime := 60000 }, by decide +kernel⟩,
   ⟨{ up [] with boot.faultRestarts := [2, 1], clock.optime := 60000 }, by decide +kernel⟩⟩

theorem test_meets_RestartsAndTrialsEnd :
    (∃ (s : State) (c : FwCause), live s = true ∧ s.boot.restart = some (c, none) ∧ c ≠ .update ∧ s.host.vfWait = []) ∧
    (∃ s : State, live s = true ∧ s.fwUp = true ∧ s.boot.lsStopped.getD 1 false = true ∧ 1 < s.boot.lsStopped.length) ∧
    (∃ s : State, live s = true ∧ s.fwUp = true ∧ s.boot.lsStopped.getD 0 false = false ∧ s.boot.lsLast = [none, none] ∧ s.boot.lsTurn =
      [none, none] ∧ s.boot.lsStopped.length = 2) ∧
    (∃ s : State, live s = true ∧ s.fwUp = true ∧ s.boot.update.isSome = true ∧ s.standing = false ∧ s.inSlack = false) ∧
    (∃ s : State, live s = true ∧ s.cpuUp 1 = true ∧ s.mramWaits = false ∧ s.on Reg.FW_BANK_STAT_TRIAL = true ∧ s.trialFault = none ∧
      s.boot.trialEnd = s.clock.optime) :=
  ⟨⟨{ st [] with boot.restart := some (.wdog, none) }, .wdog, by decide +kernel⟩,
   ⟨{ up [] with boot.lsStopped := [false, true] }, by decide +kernel⟩,
   ⟨up [], by decide +kernel⟩,
   ⟨{ up [(Reg.INAUG_STAT_PHASE, [], 0)] with boot.update := some none }, by decide +kernel⟩,
   ⟨{ up [(Reg.FW_BANK_STAT_TRIAL, [], 1)] with boot.trialOk := true, boot.trialEnd := 9, clock.optime := 9 }, by decide +kernel⟩⟩

theorem test_meets_BootReachesItsMilestones :
    (∃ (s : State) (b : BootSeen), live s = true ∧ s.get Reg.BOOT_STAT_STAGE = 0 ∧ s.sec.wipe = none ∧ b.freezeLow = false) ∧
    (∃ s : State, live s = true ∧ s.get Reg.BOOT_STAT_STAGE = 0 ∧ s.sec.wipe = some (1, false)) ∧
    (∃ s : State, live s = true ∧ s.get Reg.BOOT_STAT_STAGE = 1 ∧ s.boot.bl.getD 0 none = some 0) ∧
    (∃ s : State, live s = true ∧ s.get Reg.BOOT_STAT_STAGE = 1 ∧ s.boot.bl.getD 0 none = none ∧ s.boot.bl.getD 1 none = none) ∧
    (∃ s : State, live s = true ∧ s.get Reg.BOOT_STAT_STAGE = 2 ∧ s.bankGood s.boot.active = true) ∧
    (∃ s : State, live s = true ∧ s.get Reg.BOOT_STAT_STAGE = 5) :=
  ⟨⟨{ st [] with sec.wipe := none }, ⟨0, 0, false, 0, none⟩, by decide +kernel⟩,
   ⟨st [], by decide +kernel⟩,
   ⟨st [(Reg.BOOT_STAT_STAGE, [], 1)], by decide +kernel⟩,
   ⟨{ st [(Reg.BOOT_STAT_STAGE, [], 1)] with boot.bl := [none, none] }, by decide +kernel⟩,
   ⟨st [(Reg.BOOT_STAT_STAGE, [], 2)], by decide +kernel⟩,
   ⟨st [(Reg.BOOT_STAT_STAGE, [], 5)], by decide +kernel⟩⟩

theorem test_meets_PowerOnAndResetPins :
    (∃ s : State, s.power.on = false ∧ s.sec.unpowered = []) ∧
    (∃ s : State, live s = true ∧ s.power.on = true ∧ s.pins.resetOutLow = true ∧ s.since 0 10000000 = true) :=
  ⟨⟨{ st [] with power := default }, by decide +kernel⟩,
   ⟨{ st [] with clock.up := 10000000 * State.nsUnit }, by decide +kernel⟩⟩

theorem test_meets_RecoveryFrames :
    (∃ (s : State) (l : List Byte), live s = true ∧ s.get Reg.BOOT_STAT_STAGE = 0xE ∧ State.consoleData l = some [0x55]) ∧
    (∃ (s : State) (l : List Byte), live s = true ∧ s.get Reg.BOOT_STAT_STAGE = 0xE ∧ State.consoleData l = none) :=
  ⟨⟨st [(Reg.BOOT_STAT_STAGE, [], 0xE)], [0x7E, 0, 1, 0x55] ++ beBytes 4 (crc32c [0, 1, 0x55]), by decide +kernel⟩,
   ⟨st [(Reg.BOOT_STAT_STAGE, [], 0xE)], [0x7E, 0, 1, 0x55, 0, 0, 0, 0], by decide +kernel⟩⟩

/-! Hypotheses: supply, clocks and operating time -/

theorem test_meets_SlackCommands :
    (∃ (s : State) (vin : Nat), live s = true ∧ s.inSlack = false ∧ vin < s.vinWarn) ∧
    (∃ s : State, live s = true ∧ s.inSlack = true ∧ s.power.persistAt = none ∧ s.tally.due = 0 ∧ (s.job 6).run = none) ∧
    (∃ (s : State) (vin : Nat), live s = true ∧ s.inSlack = true ∧ s.since s.power.slackAt (1000000 * s.get Reg.PWR_SHED_DELAY) = true ∧
      s.vinWarn + 20 = vin) ∧
    (∃ (s : State) (vin : Nat), live s = true ∧ s.inSlack = true ∧ s.power.persistAt.isSome = true ∧ s.since s.power.trickleAt
      State.trickleNs = true ∧ s.aboveFloor vin = false) ∧
    (∃ (s : State) (vin : Nat) (l : List MramWrite), live s = true ∧ s.inSlack = true ∧ s.power.persistAt.isSome = true ∧ s.since
      s.power.trickleAt State.trickleNs = true ∧ s.aboveFloor vin = true ∧ s.power.deferred = .tables :: l ∧ 3072 =
      s.power.deferred.length) :=
  ⟨⟨st [], (st []).vinWarn - 1, by decide +kernel⟩,
   ⟨st [(Reg.PWR_STAT_SLACK, [], 1)], by decide +kernel⟩,
   ⟨{ st [(Reg.PWR_STAT_SLACK, [], 1), (Reg.PWR_SHED_DELAY, [], 1000)] with power.slackAt := 7, clock.up := 7 + 1000000000 * State.nsUnit },
    ({ st [(Reg.PWR_STAT_SLACK, [], 1), (Reg.PWR_SHED_DELAY, [], 1000)] with
      power.slackAt := 7, clock.up := 7 + 1000000000 * State.nsUnit }).vinWarn
    + 20, by decide +kernel⟩,
   ⟨{ st [(Reg.PWR_STAT_SLACK, [], 1), (Reg.PWR_WARN_LEVEL, [], 1)] with
      power.persistAt := some (0, 0, true), clock.up := 1000000 * State.nsUnit },
    (({ st [(Reg.PWR_STAT_SLACK, [], 1), (Reg.PWR_WARN_LEVEL, [], 1)] with
      power.persistAt := some (0, 0, true), clock.up := 1000000 * State.nsUnit }).vinWarn
    + State.vinRst) / 2 - 1, by decide +kernel⟩,
   ⟨{ st [(Reg.PWR_STAT_SLACK, [], 1)] with
      power.persistAt := some (0, 0, true), power.deferred := List.replicate 3072 .tables, clock.up := 1000000 * State.nsUnit },
    (({ st [(Reg.PWR_STAT_SLACK, [], 1)] with
      power.persistAt := some (0, 0, true), power.deferred := List.replicate 3072 .tables,
      clock.up := 1000000 * State.nsUnit }).vinWarn
    + State.vinRst) / 2, List.replicate 3071 .tables, by decide +kernel⟩⟩

theorem test_meets_VoutOverload :
    ∃ s : State, live s = true ∧ s.pins.alarmHeld = none ∧ s.on Reg.TALLY_STAT_DEGRADED = false ∧ s.hasPlace 0x4003 0 = true :=
  ⟨st [], by decide +kernel⟩

theorem test_meets_PowerDomains :
    (∃ s : State, live s = true ∧ s.domainOn 9 = true ∧ bit s.power.rising 9 = true) ∧
    (∃ s : State, live s = true ∧ bit s.power.rising 11 = true) :=
  ⟨⟨{ up [] with power.rising := 2 ^ 9 }, by decide +kernel⟩,
   ⟨{ up [] with power.rising := 2 ^ 11 }, by decide +kernel⟩⟩

theorem test_meets_ClockSupervision :
    ∃ (s : State) (d : Int), live s = true ∧ (d > 3000 ∨ d < -3000) :=
  ⟨st [], 3001, by decide +kernel⟩

theorem test_meets_TallyUpkeep :
    (∃ (s : State) (o : Nat) (p : Nat), live s = true ∧ s.on Reg.TALLY_STAT_READY = true ∧ s.mramWaits = false ∧ s.tally.header = some (o,
      p) ∧ o + 6000 = s.clock.optime) ∧
    (∃ s : State, live s = true ∧ s.utcOn = true ∧ s.tally.utcSet = false) ∧
    (∃ s : State, live s = true ∧ s.tally.queue = default :: [] ∧ s.tally.clearReqs = [] ∧ s.power.deferred = [] ∧ 0 < s.tally.due ∧
      s.mayFlush = true ∧ s.get Reg.TALLY_CIRC_HEAD_HEAD < circCap) ∧
    (∃ s : State, live s = true ∧ s.domainOn 9 = true) ∧
    (∃ s : State, live s = true ∧ Sparse.find 16 s.tally.nonces = some ⟨[], 0⟩ ∧ (0 : Nat) + 60000 ≤ s.clock.optime) :=
  ⟨⟨{ st [(Reg.TALLY_STAT_READY, [], 1)] with tally.header := some (5, 1), clock.optime := 6005 }, 5, 1, by decide +kernel⟩,
   ⟨st [(Reg.TALLY_UTC_VALID, [], 1), (Reg.TIME_STAT_ORIGIN, [], 1)], by decide +kernel⟩,
   ⟨{ up [(Reg.TALLY_STAT_READY, [], 1)] with tally.queue := [default], tally.due := 1 }, by decide +kernel⟩,
   ⟨up [], by decide +kernel⟩,
   ⟨{ st [] with tally.nonces := [(16, ⟨[], 0⟩)], clock.optime := 60000 }, by decide +kernel⟩⟩

theorem test_meets_TallyDescriptors :
    (∃ (s : State) (d : Desc), live s = true ∧ s.ready 16 15 7 0x20 = some d ∧ d.arg0 % 16 = 4 ∧ d.len = 64 ∧ State.inWin 16 d.buf d.len =
      true ∧ (∃ x ∈ s.areaOf 4, x.2.seq.isSome = true)) ∧
    (∃ (s : State) (d : Desc), live s = true ∧ s.ready 16 15 7 0x20 = some d ∧ 4 < d.arg0 % 16) ∧
    (∃ (s : State) (d : Desc), live s = true ∧ s.ready 16 15 7 0x21 = some d ∧ d.arg0 / 2 ^ 16 % 8 = 3 ∧ s.sluiceEntry (0x8000 + d.arg0 %
      4096) = none ∧ s.hasPlace (0x8000 + d.arg0 % 4096) 0 = true) ∧
    (∃ (s : State) (d : Desc) (data : List Byte), live s = true ∧ s.ready 3 15 7 0x22 = some d ∧ State.inWin 3 d.buf d.len = true ∧
      State.bufWaits 3 d data = false ∧ s.clearFault 3 d (s.takeBuf 3 d data).1 true = none ∧ s.on Reg.TALLY_STAT_DEGRADED = false ∧
      s.hasPlace 0x2010 0 = true) ∧
    (∃ (s : State) (d : Desc), live s = true ∧ s.ready 16 15 7 0x22 = some d ∧ State.inWin 16 d.buf d.len = true ∧ State.bufWaits 16 d [] =
      false ∧ s.clearFault 16 d (s.takeBuf 16 d []).1 true = some 0) :=
  ⟨⟨{ ring 0x20 64 4 0 [] with tally.queue := [default] }, (work 0x20 64 4 0).desc, by decide +kernel⟩,
   ⟨ring 0x20 64 5 0 [], (work 0x20 64 5 0).desc, by decide +kernel⟩,
   ⟨ring 0x21 0 0x30FFF 0 [], (work 0x21 0 0x30FFF 0).desc, by decide +kernel⟩,
   ⟨{ ringOf 3 0x22 144 0 0 [] with tally.nonces := [(3, ⟨List.replicate 32 7, 0⟩)], sec.maintKey := some 1 }, (work 0x22 144 0 0).desc,
    List.replicate 32 7, by decide +kernel⟩,
   ⟨ring 0x22 144 0 0 [], (work 0x22 144 0 0).desc, by decide +kernel⟩⟩

/-! Hypotheses: register accesses -/

theorem test_meets_RegisterCommands :
    ∃ s : State, live s = true ∧ s.domainOn 9 = true ∧ s.qspiOn = true ∧ s.hostsServed = true ∧ 0x1FFFFC % 4 = 0 ∧ State.locks[11]? = some
      (Reg.SEC_LOCK_LOCK, 0xF0000, 0x100000) ∧ s.get Reg.GPIO_IN_LEVEL = s.gpioLevel ∧ bit (s.get Reg.GPIO_DIR_OUT) 15 = false ∧ bit
      s.pins.gpioExt 15 = false ∧ bit (s.get Reg.GPIO_IRQ_EN) 15 = false ∧ ([1, 2, 3, 4] : List Byte).length = 4 :=
  ⟨up [], by decide +kernel⟩

theorem test_meets_LockedAndReadOnlyFieldsKeepTheirValue :
    ∃ s : State, live s = true ∧ (∀ x ∈ State.fieldsAt 0, x.1.acc = .ro ∨ x.1.acc = .rc ∨ (x.1.acc = .rwl ∧ s.lockedAt 0 = true)) ∧
      ((State.actions.find? fun a => (a.1.find 0).isSome) = none) ∧ (∀ x ∈ State.fieldsAt 0xE0024, x.1.acc = .ro ∨ x.1.acc = .rc ∨
      (x.1.acc = .rwl ∧ s.lockedAt 0xE0024 = true)) ∧ ((State.actions.find? fun a => (a.1.find 0xE0024).isSome) = none) :=
  ⟨st [(Reg.TALLY_LOCK_LOCK, [], 1)], by decide +kernel⟩

theorem test_meets_ReadsClearCounters :
    ∃ s : State, live s = true ∧ s.canDark Reg.LPn_CNT_DOWNS.base = false ∧ (∀ x ∈ State.fieldsAt Reg.LPn_CNT_DOWNS.base, x.1 ∉
      [Reg.PWR_VIN_VIN_MIN, Reg.WEIR_CNT_EARLY, Reg.FAR_PF_CNT_HITS, Reg.FAR_PF_CNT_DISCARDS, Reg.FAR_AP_ERR_STAT_x_VALID]) ∧ (∃ x ∈
      State.fieldsAt Reg.LPn_CNT_DOWNS.base, x.1.acc = .rc) ∧ (∀ x ∈ State.fieldsAt Reg.LPn_CNT_DOWNS.base, x.1.acc = .rc →
      Reg.GPIO_IRQ_EN.key [] ≠ x.1.key x.2) :=
  ⟨st [], by decide +kernel⟩

/-! Hypotheses: turns, jobs and time -/

theorem test_meets_TickCommands :
    (∃ s : State, live s = true ∧ s.ticking = true ∧ s.fwUp = true ∧ s.get Reg.BOOT_STAT_STAGE = 5 ∧ s.sync.nitDone = false) ∧
    (∃ s : State, live s = true ∧ s.ticking = false) ∧
    (∃ s : State, s.alive = false ∧ s.ticking = true) :=
  ⟨⟨up [(Reg.TURN_STAT_SRC, [], 1), (Reg.BOOT_STAT_STAGE, [], 5)], by decide +kernel⟩,
   ⟨st [], by decide +kernel⟩,
   ⟨st [(Reg.TURN_STAT_SRC, [], 1), (Reg.DIAG_STAT_FROZEN, [], 1)], by decide +kernel⟩⟩

theorem test_meets_JobCommands :
    (∃ s : State, live s = true ∧ 9 ≠ 2 ∧ 3 = (s.job 9).overs ∧ 9 < s.clock.jobs.length ∧ s.degraded 9 = false) ∧
    (∃ s : State, live s = true ∧ s.degraded 9 = true ∧ unitGood 9 = (s.job 9).good ∧ 9 < s.clock.jobs.length) ∧
    (∃ s : State, live s = true ∧ 9 ≠ 6 ∧ (s.job 9).run = some 5 ∧ 5 ≠ s.clock.turn ∧ Sparse.find 9 s.held = some default ∧ s.mirrored 7 =
      false) :=
  ⟨⟨{ st [] with clock.jobs := List.replicate 10 { (default : Job) with overs := 3 } }, by decide +kernel⟩,
   ⟨{ st [(Reg.TURN_OVR_DEG_PORT, [], 4)] with clock.jobs := List.replicate 10 { (default : Job) with good := unitGood 9 } },
    by decide +kernel⟩,
   ⟨{ st [] with clock.turn := 6, clock.jobs := List.replicate 10 { (default : Job) with run := some 5 }, held := [(9, default)] },
    by decide +kernel⟩⟩

theorem test_meets_TimeCommands :
    (∃ s : State, live s = true ∧ s.lstate = 5 ∧ 8 = s.sync.goodRun ∧ s.decides = true ∧ s.icount ≠ 0) ∧
    (∃ s : State, live s = true ∧ s.on Reg.SYNC_STAT_WIDE = true ∧ 8 = s.sync.since) ∧
    (∃ s : State, live s = true ∧ s.on Reg.SYNC_STAT_CONVERGED = true ∧ 65536 = s.sync.persistCount) ∧
    (∃ s : State, live s = true ∧ s.on Reg.SYNC_CTL_PPS_OUT_EN = true ∧ s.nowNs / 1000000000 ≠ s.sync.ppsSec ∧ s.nowNs % 1000000000 + 1 =
      max 1 (s.get Reg.SYNC_CTL_PPS_W) * 1000000) ∧
    (∃ s : State, live s = true ∧ s.armedNow = true ∧ s.fwUp = true ∧ s.gmSelected = true ∧ s.sync.gptpAt = none) ∧
    (∃ s : State, live s = true ∧ s.on Reg.TAI_CTL_ARM = true ∧ s.armedNow = false ∧ s.fwUp = true ∧ s.gmSelected = true ∧ s.sync.gptpAt =
      some 6 ∧ s.since 6 1000000000 = true) ∧
    (∃ s : State, live s = true ∧ s.cpuUp 0 = true ∧ s.ownSource = true ∧ s.clock.turn % 64 = 0 ∧ s.outranked = false ∧ s.sync.timeSent ≠
      some s.clock.turn) ∧
    (∃ s : State, live s = true ∧ s.sync.align = some (s.clock.turn, 77, 2)) :=
  ⟨⟨{ st [(Reg.LSTART_STAT_STATE, [], 5), (Reg.INAUG_ICOUNT_ICOUNT, [], 1)] with sync.goodRun := 8 }, by decide +kernel⟩,
   ⟨{ st [(Reg.SYNC_STAT_WIDE, [], 1)] with sync.since := 8 }, by decide +kernel⟩,
   ⟨{ st [(Reg.SYNC_STAT_CONVERGED, [], 1)] with sync.persistCount := 65536 }, by decide +kernel⟩,
   ⟨{ st [(Reg.SYNC_CTL_PPS_OUT_EN, [], 1)] with clock.ntime := 1000999999 * State.nsUnit }, by decide +kernel⟩,
   ⟨{ up [(Reg.TAI_CTL_ARM, [], 1), (Reg.CPn_STAT_STATE, [7], 2), (Reg.CPn_CTL_GPTP, [7], 1)] with
      sync.armed := some 5, clock.up := 4, sync.gptpAt := none, con.gptpBest := some ⟨7, 0, 0, 0, 4⟩ },
    by decide +kernel⟩,
   ⟨{ up [(Reg.TAI_CTL_ARM, [], 1), (Reg.CPn_STAT_STATE, [11], 2), (Reg.CPn_CTL_GPTP, [11], 1)] with
      sync.armed := some 5, clock.up := 6 + 1000000000 * State.nsUnit, sync.gptpAt := some 6, con.gptpBest := some ⟨11, 0, 0, 0, 6⟩ },
    by decide +kernel⟩,
   ⟨{ up [(Reg.TIME_STAT_ORIGIN, [], 1), (Reg.INAUG_POS_POSITION, [], 1), (Reg.LSTART_STAT_STATE, [], 4)] with
      clock.turn := 64, sync.timeSent := some 0 },
    by decide +kernel⟩,
   ⟨{ st [] with clock.turn := 9, sync.align := some (9, 77, 2) }, by decide +kernel⟩⟩

theorem test_meets_AlignmentSlewsOrSteps :
    (∃ (s : State) (ns : Nat), live s = true ∧ (ns : Int) * (State.nsUnit : Nat) - (s.clock.ntime : Int) = (1000 * State.nsUnit : Nat)) ∧
    (∃ (s : State) (ns : Nat), live s = true ∧ (ns : Int) * (State.nsUnit : Nat) - (s.clock.ntime : Int) < -(1000 * State.nsUnit : Nat)) :=
  ⟨⟨{ st [] with clock.ntime := 1000 * State.nsUnit }, 2000, by decide +kernel⟩,
   ⟨{ st [] with clock.ntime := 2001 * State.nsUnit }, 1000, by decide +kernel⟩⟩

/-! Hypotheses: line ports and line frames -/

theorem test_meets_LinePortCommands :
    (∃ s : State, live s = true ∧ s.pst 3 = 1 ∧ (s.port 3).master = false ∧ 3 < s.ports.length ∧ s.since (s.port 3).since (s.listenNs 3) =
      true ∧ s.isXlink 3 = false) ∧
    (∃ s : State, live s = true ∧ s.pst 3 = 1 ∧ (s.port 3).master = true ∧ s.since (s.port 3).since 100000000 = true) ∧
    (∃ (s : State) (r : Fin 5), live s = true ∧ s.pst 0 = 1 ∧ (s.port 0).master = false ∧ s.modeOn 0 r.val = true ∧ r.val = s.get
      Reg.LPn_STAT_CEIL [0]) ∧
    (∃ s : State, live s = true ∧ s.pst 0 = 2 ∧ s.since (s.port 0).since 200000000 = true ∧ s.pst 1 = 3 ∧ s.isXlink 1 = false ∧ s.since
      (s.port 1).since 10000000 = true ∧ s.pst 2 = 4 ∧ s.isXlink 2 = false ∧ s.pst 3 = 5 ∧ s.isXlink 3 = false) ∧
    (∃ s : State, live s = true ∧ s.pst 0 = 1 ∧ s.isXlink 0 = false ∧ s.since (s.port 0).quiet 1000000000 = true ∧ s.pst 1 = 0 ∧ s.isXlink 1
      = false ∧ s.pst 2 ≠ 0 ∧ s.isXlink 2 = false) :=
  ⟨⟨{ st [(Reg.LPn_STAT_STATE, [3], 1)] with clock.up := 100000000 * State.nsUnit }, by decide +kernel⟩,
   ⟨{ st [(Reg.LPn_STAT_STATE, [3], 1)] with
      ports := List.replicate 4 { resetPort with master := true, since := 3 }, clock.up := 3 + 100000000 * State.nsUnit },
    by decide +kernel⟩,
   ⟨st [(Reg.LPn_STAT_STATE, [0], 1), (Reg.LPn_STAT_CEIL, [0], 4), (Reg.LPn_CTL_MODES, [0], 0x1F)], 4, by decide +kernel⟩,
   ⟨{ st [(Reg.LPn_STAT_STATE, [0], 2), (Reg.LPn_STAT_STATE, [1], 3), (Reg.LPn_STAT_STATE, [2], 4), (Reg.LPn_STAT_STATE, [3], 5)] with
      clock.up := 200000000 * State.nsUnit },
    by decide +kernel⟩,
   ⟨{ st [(Reg.LPn_STAT_STATE, [0], 1), (Reg.LPn_STAT_STATE, [1], 0), (Reg.LPn_STAT_STATE, [2], 4)] with
      clock.up := 1000000000 * State.nsUnit },
    by decide +kernel⟩⟩

theorem test_meets_FramesReceived :
    (∃ (s : State) (f : Frame), live s = true ∧ s.isXlink 3 = false ∧ f.payload = .kickoff default) ∧
    (∃ (s : State) (f : Frame), live s = true ∧ f.payload = .hop 7 default) ∧
    (∃ (s : State) (f : Frame) (g : Frame), live s = true ∧ s.isXlink 3 = false ∧ f.payload = .dyn default ∧ g.kind = .static) ∧
    (∃ (s : State) (f : Frame) (g : Frame), live s = true ∧ s.isXlink 3 = true ∧ s.pst 3 = 4 ∧ f.payload = .dyn default ∧ g.kind = .static ∧
      g.payload = .parcels [] ∧ s.rxSound g (heard g 0).stamp true = true ∧ s.following = true ∧ g.hdr.sender ≠ s.ownPos ∧ s.slotArmed
      g.hdr.slot = true) :=
  ⟨⟨st [], ⟨.kickoff, default, .kickoff default, 0, 0⟩, by decide +kernel⟩,
   ⟨st [], ⟨.hop, default, .hop 7 default, 0, 0⟩, by decide +kernel⟩,
   ⟨st [], ⟨.dynamic, default, .dyn default, 0, 0⟩, ⟨.static, default, .parcels [], 0, 0⟩, by decide +kernel⟩,
   ⟨{ st [(Reg.LPn_STAT_STATE, [3], 4), (Reg.INAUG_POS_POSITION, [], 5), (Reg.LSTART_STAT_STATE, [], 4)] with
      pins.strapPair := true, clock.armed := some 5 },
    ⟨.dynamic, default, .dyn default, 0, 0⟩, ⟨.static, { (default : Hdr) with slot := 4 }, .parcels [], 0, 0⟩, by decide +kernel⟩⟩

theorem test_meets_FramesSent :
    (∃ s : State, live s = true ∧ s.lstate = 2 ∧ s.start.floorWait = false ∧ s.todo .kickoff = true) ∧
    (∃ (s : State) (slot : Fin 67), live s = true ∧ s.mayOriginate = true ∧ slot.val ≠ 0 ∧ s.todo (.relay slot.val) = true ∧ (∀ n : Fin 4,
      s.lineUp n.val = false)) ∧
    (∃ (s : State) (slot : Fin 67), live s = true ∧ s.mayOriginate = true ∧ slot.val ≠ 0 ∧ s.todo (.relay slot.val) = true ∧ s.lineUp 3 =
      true ∧ (∀ m : Fin 3, s.lineUp m.val = false) ∧ (s.port 3).newlink = false ∧ (slot.val ≤ 3 ∨ (s.port 3).foreign = false) ∧ s.endNbr
      0 = false) ∧
    (∃ (s : State) (n : Fin 4) (slot : Fin 4), live s = true ∧ s.mayOriginate = true ∧ slot.val ≠ 0 ∧ s.nbrPort n.val = true ∧ s.lineUp
      (State.across n.val) = true ∧ (s.port (State.across n.val)).newlink = false ∧ (((s.port n.val).relay.any fun r => r.1 == slot.val)
      = false) ∧ (s.port (State.across n.val)).midRun.contains slot.val = true ∧ (s.port (State.across n.val)).midNow.contains slot.val
      = false) ∧
    (∃ s : State, live s = true ∧ s.ticking = true ∧ s.todo .dynamic = true ∧ s.pst 3 = 3 ∧ (s.port 3).hopAt = some 5 ∧ s.since 5 1000000 =
      true) :=
  ⟨⟨st [(Reg.LSTART_STAT_STATE, [], 2)], by decide +kernel⟩,
   ⟨st [(Reg.LSTART_STAT_STATE, [], 4), (Reg.SYNC_STAT_CONVERGED, [], 1)], 1, by decide +kernel⟩,
   ⟨st [(Reg.LSTART_STAT_STATE, [], 4), (Reg.SYNC_STAT_CONVERGED, [], 1), (Reg.LPn_STAT_STATE, [3], 4)], 66, by decide +kernel⟩,
   ⟨{ st [(Reg.LSTART_STAT_STATE, [], 4), (Reg.SYNC_STAT_CONVERGED, [], 1), (Reg.LPn_STAT_STATE, [0], 4), (Reg.LPn_STAT_STATE, [2], 4)] with
      ports := List.replicate 4 { resetPort with midRun := [3] } },
    0, 3, by decide +kernel⟩,
   ⟨{ st [(Reg.TURN_STAT_SRC, [], 1), (Reg.LPn_STAT_STATE, [3], 3)] with
      ports := List.replicate 4 { resetPort with hopAt := some 5 }, clock.up := 5 + 1000000 * State.nsUnit },
    by decide +kernel⟩⟩

/-! Hypotheses: start-up, inauguration, synthesis, weirs -/

theorem test_meets_LineStartCommands :
    (∃ s : State, live s = true ∧ s.lineUpFw = true ∧ s.lstate = 1 ∧ s.on Reg.LSTART_STAT_HOLD = false ∧ s.start.listenEnd = s.clock.up ∧
      s.fullValid = none) ∧
    (∃ s : State, live s = true ∧ s.lineUpFw = true ∧ s.lstate = 1 ∧ s.fullValid.isSome = true) ∧
    (∃ s : State, live s = true ∧ s.lineUpFw = true ∧ s.start.floorWait = true ∧ s.get Reg.SEC_KICK_FLOOR_LO_TURN + 2 ^ 32 * s.get
      Reg.SEC_KICK_FLOOR_HI_TURN = s.clock.turn ∧ s.mramWaits = false ∧ s.clock.turn + 2 ^ 20 < 2 ^ 64) ∧
    (∃ s : State, live s = true ∧ s.lineUpFw = true ∧ s.lstate = 2 ∧ 2 = s.start.zeroRun) ∧
    (∃ s : State, live s = true ∧ s.lineUpFw = true ∧ s.lstate = 2 ∧ s.start.zeroRun + 1 = 2 ∧ 16 = s.start.unanswered) ∧
    (∃ s : State, live s = true ∧ s.lineUpFw = true ∧ s.lstate = 6 ∧ s.start.solo = true ∧ s.phase ≠ 4) ∧
    (∃ s : State, live s = true ∧ s.lineUpFw = true ∧ s.lstate = 4 ∧ 16 = s.sync.noMid ∧ 1 = s.get Reg.LSTART_STAT_TURNS) ∧
    (∃ s : State, live s = true ∧ s.lineUpFw = true ∧ s.lstate = 5 ∧ 16 = s.sync.noMid ∧ 1 = s.get Reg.LSTART_STAT_TURNS) ∧
    (∃ s : State, live s = true ∧ s.lineUpFw = true ∧ s.lstate = 3 ∧ s.on Reg.SYNC_STAT_CONVERGED = false ∧ 64 = s.get
      Reg.LSTART_STAT_TURNS) ∧
    (∃ s : State, live s = true ∧ s.lineUpFw = true ∧ s.lstate = 2 ∧ s.start.zeroRun + 1 = 2 ∧ s.start.unanswered + 1 = 16 ∧ 128 = s.get
      Reg.LSTART_STAT_TURNS) ∧
    (∃ s : State, live s = true ∧ s.lineUpFw = true ∧ s.on Reg.LSTART_STAT_HOLD = true ∧ s.start.hold = 0) :=
  ⟨⟨{ up [(Reg.LSTART_STAT_STATE, [], 1)] with start.listenEnd := 5, clock.up := 5 }, by decide +kernel⟩,
   ⟨{ up [(Reg.LSTART_STAT_STATE, [], 1), (Reg.LPn_STAT_STATE, [0], 4)] with
      clock.turn := 2,
      ports := List.replicate 4 { resetPort with obs := [(2, 2, 7, 1000000 * (State.nsUnit : Nat), 0, 1), (2, 1, 7, 0, 0, 1)] } },
    by decide +kernel⟩,
   ⟨{ up [(Reg.SEC_KICK_FLOOR_LO_TURN, [], 5), (Reg.SEC_KICK_FLOOR_HI_TURN, [], 1)] with start.floorWait := true, clock.turn := 2 ^ 32 + 5 },
    by decide +kernel⟩,
   ⟨{ up [(Reg.LSTART_STAT_STATE, [], 2)] with start.zeroRun := 2 }, by decide +kernel⟩,
   ⟨{ up [(Reg.LSTART_STAT_STATE, [], 2)] with start.zeroRun := 1, start.unanswered := 16 }, by decide +kernel⟩,
   ⟨{ up [(Reg.LSTART_STAT_STATE, [], 6)] with start.solo := true }, by decide +kernel⟩,
   ⟨{ up [(Reg.LSTART_STAT_STATE, [], 4), (Reg.LSTART_STAT_TURNS, [], 1)] with sync.noMid := 16 }, by decide +kernel⟩,
   ⟨{ up [(Reg.LSTART_STAT_STATE, [], 5), (Reg.LSTART_STAT_TURNS, [], 1)] with sync.noMid := 16 }, by decide +kernel⟩,
   ⟨up [(Reg.LSTART_STAT_STATE, [], 3), (Reg.LSTART_STAT_TURNS, [], 64)], by decide +kernel⟩,
   ⟨{ up [(Reg.LSTART_STAT_STATE, [], 2), (Reg.LSTART_STAT_TURNS, [], 128)] with start.zeroRun := 1, start.unanswered := 15 },
    by decide +kernel⟩,
   ⟨up [(Reg.LSTART_STAT_STATE, [], 1), (Reg.LSTART_STAT_HOLD, [], 1)], by decide +kernel⟩⟩

theorem test_meets_InaugurationCommands :
    (∃ s : State, live s = true ∧ s.pins.cpl.getD 1 false = false ∧ s.pins.cpl.length = 2 ∧ (∀ n : Fin 4, s.pst n.val = 0) ∧ s.partnerUp =
      [] ∧ s.start.cplWait.length = 2) ∧
    (∃ s : State, live s = true ∧ s.start.cplWait.getD 1 none = some 5 ∧ 5 = s.clock.up) ∧
    (∃ s : State, live s = true ∧ s.pins.inhibit = false ∧ s.inaug.asking = none) ∧
    (∃ s : State, live s = true ∧ s.pins.inhibit = true ∧ s.on Reg.INAUG_STAT_PENDING = false) ∧
    (∃ s : State, live s = true ∧ s.lstate = 4 ∧ s.on Reg.LSTART_STAT_PENDING = true ∧ s.cpuUp 0 = true ∧ s.pins.inhibit = false ∧ s.phase ≠
      1 ∧ s.phase ≠ 4 ∧ 64 = s.start.synced ∧ s.following = true ∧ s.inaug.last.stopReq = true ∧ s.inaug.last.yielded = true) ∧
    (∃ s : State, live s = true ∧ s.phase = 1 ∧ 64 = s.get Reg.INAUG_STAT_TURNS ∧ (∀ n : Fin 3, s.nbrPort n.val = false) ∧ s.nbrPort 3 =
      true ∧ (s.port 3).nbrLs % 16 ≠ 4) ∧
    (∃ s : State, live s = true ∧ s.pst 3 = 5 ∧ s.get Reg.LPn_STAT_HELD_WHY [3] = 10 ∧ 8 = (s.port 3).nbrSynced) ∧
    (∃ (s : State) (d : Directory), live s = true ∧ s.inaug.newDir = some d ∧ s.phase = 4 ∧ s.synth.newSched.isSome = true ∧ d.adopt =
      s.clock.turn ∧ (s.lstate = 6 ∨ (s.inaug.last.mismatch = false ∧ s.inaug.last.notReady = false ∧ s.inaug.last.stopReq = false)) ∧
      (s.rulesAgreed (d.nodes.map fun x => x.entry) = false)) ∧
    (∃ (s : State) (d : Directory), live s = true ∧ s.inaug.newDir = some d ∧ s.phase = 4 ∧ s.synth.newSched.isSome = true ∧ d.adopt ≤
      s.clock.turn ∧ (s.lstate = 6 ∨ (s.inaug.last.mismatch = false ∧ s.inaug.last.notReady = false ∧ s.inaug.last.stopReq = false)) ∧
      (s.rulesAgreed (d.nodes.map fun x => x.entry) = false)) :=
  ⟨⟨st [], by decide +kernel⟩,
   ⟨{ st [] with start.cplWait := [none, some 5], clock.up := 5 }, by decide +kernel⟩,
   ⟨st [], by decide +kernel⟩,
   ⟨{ st [] with pins.inhibit := true }, by decide +kernel⟩,
   ⟨{ up [(Reg.LSTART_STAT_STATE, [], 4), (Reg.LSTART_STAT_PENDING, [], 1)] with
      start.synced := 64, inaug.last.stopReq := true, inaug.last.yielded := true },
    by decide +kernel⟩,
   ⟨st [(Reg.INAUG_STAT_PHASE, [], 1), (Reg.INAUG_STAT_TURNS, [], 64), (Reg.LPn_STAT_STATE, [3], 4)], by decide +kernel⟩,
   ⟨{ st [(Reg.LPn_STAT_STATE, [3], 5), (Reg.LPn_STAT_HELD_WHY, [3], 10)] with ports := List.replicate 4 { resetPort with nbrSynced := 8 } },
    by decide +kernel⟩,
   ⟨{ st [(Reg.INAUG_STAT_PHASE, [], 4)] with
      inaug.newDir := some { (default : Directory) with nodes := [{ (default : Numbered) with entry.lrStaged := 1 }, default], adopt := 3 },
      clock.turn := 3, synth.newSched := some default },
    { (default : Directory) with nodes := [{ (default : Numbered) with entry.lrStaged := 1 }, default], adopt := 3 }, by decide +kernel⟩,
   ⟨{ st [(Reg.INAUG_STAT_PHASE, [], 4), (Reg.LSTART_STAT_STATE, [], 6)] with
      inaug.newDir := some { (default : Directory) with nodes := [{ (default : Numbered) with entry.lrStaged := 1 }, default], adopt := 3 },
      clock.turn := 4, synth.newSched := some default, inaug.last.notReady := true },
    { (default : Directory) with nodes := [{ (default : Numbered) with entry.lrStaged := 1 }, default], adopt := 3 }, by decide +kernel⟩⟩

theorem test_meets_YieldLeavesTheLine :
    ∃ s : State, live s = true ∧ s.inaug.last.yielded = true ∧ s.following = true ∧ s.cpuUp 0 = true :=
  ⟨{ up [(Reg.LSTART_STAT_STATE, [], 5)] with inaug.last.yielded := true }, by decide +kernel⟩

theorem test_meets_SynthesisCommands :
    (∃ (s : State) (data : List Byte) (body : List Byte), live s = true ∧ beAt body 16 2 = 0 ∧ beAt body 18 2 = 2048 ∧ data = (body.drop
      24).take (beAt body 18 2) ∧ (s.tableOf (beAt body 0 16)).isSome = false ∧ ((s.synth.parts.find? fun x => x.1 == beAt body 0 16) =
      none) ∧ data.length < beAt body 18 2) ∧
    (∃ s : State, live s = true ∧ s.phase = 4 ∧ s.synth.running = false ∧ s.synth.newSched = none ∧ s.cpuUp 0 = true ∧ s.inaug.newDir = some
      default ∧ s.tablesLacking default = []) ∧
    (∃ s : State, live s = true ∧ s.synth.running = true ∧ s.cpuUp 0 = true ∧ s.inaug.newDir = some default ∧ s.lstate ≠ 6) ∧
    (∃ s : State, live s = true ∧ s.ownClaim.isSome = true) ∧
    (∃ (s : State) (c : Schedule) (r : ClaimRec), live s = true ∧ s.synth.sched = some c ∧ s.synth.prevClaims = [r] ∧ s.synth.prevReset =
      false ∧ s.synth.resetAt = [] ∧ s.synth.grants = [] ∧ r.uid ≠ s.lineUid ∧ r.count = c.sSyn - c.poolFirst) ∧
    (∃ (s : State) (g : Grant), live s = true ∧ g ∈ s.synth.grants ∧ g.effect = s.clock.turn ∧ s.synth.resetAt = [(s.clock.turn, true)]) :=
  ⟨⟨st [], List.replicate 2047 0, beBytes 16 1 ++ beBytes 2 0 ++ beBytes 2 2048 ++ beBytes 4 0 ++ (List.replicate 2047 0),
    by decide +kernel⟩,
   ⟨{ up [(Reg.INAUG_STAT_PHASE, [], 4)] with inaug.newDir := some default }, by decide +kernel⟩,
   ⟨{ up [] with inaug.newDir := some default, synth.running := true }, by decide +kernel⟩,
   ⟨{ st [(Reg.LSTART_STAT_STATE, [], 4), (Reg.INAUG_STAT_PHASE, [], 0), (Reg.INAUG_POS_POSITION, [], 5)] with
      clock.turn := 5, inaug.dir := some { (default : Directory) with ownPos := 5, nodes := [{ (default : Numbered) with pos := 5 }] },
      synth.sched := some { (default : Schedule) with sSyn := 12, poolFirst := 4, payload := 1000 },
      synth.ownTable := some { (default : FuncTable) with cars := [{ (default : CarRec) with carIndex := 1, demands := [⟨7, 0, 0, 8⟩] }] } },
    by decide +kernel⟩,
   ⟨{ st [] with synth.sched := some { (default : Schedule) with sSyn := 12, poolFirst := 4 }, synth.prevClaims := [⟨9, 8, false, 0⟩] },
    { (default : Schedule) with sSyn := 12, poolFirst := 4 }, ⟨9, 8, false, 0⟩, by decide +kernel⟩,
   ⟨{ st [] with synth.grants := [{ (default : Grant) with effect := 3 }], clock.turn := 3, synth.resetAt := [(3, true)] },
    { (default : Grant) with effect := 3 }, by decide +kernel⟩⟩

theorem test_meets_WeirCommands :
    (∃ s : State, live s = true ∧ s.weirInNit 0 = true ∧ s.wst 0 = 2 ∧ 16 = (s.weir 0).turns ∧ s.wst 1 = 3 ∧ 8 = s.ownBlocks 0 ∧ s.isFenced
      = false) ∧
    (∃ s : State, live s = true ∧ s.weirInNit 1 = false ∧ s.ownBlocks 0 = 7 ∧ s.ownBlocks 1 = 7) ∧
    (∃ (s : State) (f : Frame), live s = true ∧ s.isXlink 3 = false ∧ s.isFenced = true ∧ s.ownFrame (3 % 2) false f = true ∧ f.kind ≠ .hop) :=
  ⟨⟨{ st [(Reg.WEIR_STAT_STATE, [0], 2), (Reg.WEIR_STAT_STATE, [1], 3), (Reg.TURN_STAT_SRC, [], 1)] with
      weirs.w := List.replicate 2 { (default : Weir) with turns := 16, blocks := [8], offs := 5 },
      clock.phase := 984000 * State.nsUnit - 5 },
    by decide +kernel⟩,
   ⟨{ st [(Reg.TURN_STAT_SRC, [], 1)] with
      weirs.w := List.replicate 2 { (default : Weir) with blocks := [7] }, clock.phase := 984000 * State.nsUnit - 1 },
    by decide +kernel⟩,
   ⟨{ st [(Reg.WEIR_STAT_FENCED, [0], 1)] with weirs.w := List.replicate 2 { (default : Weir) with table.ownPos := 5 } }, ⟨.dynamic,
    { (default : Hdr) with sender := 5 }, .dyn default, 0, 0⟩, by decide +kernel⟩⟩

/-! Hypotheses: millpond and redundancy -/

theorem test_meets_MillpondCommands :
    (∃ s : State, live s = true ∧ s.ticking = true ∧ (s.ownSlots s.clock.turn).contains 4 = true ∧ s.buildsOwn = true ∧ s.slotArmed 4 = true
      ∧ s.firstTx 4 ≤ s.nowTenths + 10000 ∧ ((s.mill.built.any fun b => b.slot == 4) = false) ∧ s.paired = false) ∧
    (∃ s : State, live s = true ∧ ((s.mill.built.find? fun b => b.slot == 4) = some ⟨4, 0, []⟩) ∧ s.slotArmed 4 = true ∧ s.todo (.slot 4) =
      true ∧ s.stopped = true) ∧
    (∃ (s : State) (b : Built), live s = true ∧ ((s.mill.built.find? fun b => b.slot == 4) = some b) ∧ s.slotArmed 4 = true ∧ s.todo (.slot
      4) = true ∧ s.stopped = false ∧ s.inaug.joined = false ∧ s.mayOriginate = true ∧ s.degraded 1 = false ∧ (∀ n : Fin 3, s.nbrPort
      n.val = false) ∧ s.nbrPort 3 = true) ∧
    (∃ (s : State) (f : Frame), live s = true ∧ f.payload = .parcels [] ∧ s.isXlink 1 = true ∧ s.pst 1 = 4 ∧ s.isFollower = true ∧ s.rxSound
      f (heard f 0).stamp true = true ∧ (heard f 0).phase ≤ tenths (s.handoffBy f.hdr.slot) ∧ f.hdr.sender = s.ownPos ∧
      ((s.mill.built.any fun b => b.slot == f.hdr.slot) = false)) ∧
    (∃ s : State, live s = true ∧ s.fetchDue 15 = some s.clock.turn ∧ s.hostUp = true ∧ s.on Reg.TI_CTL_PUB_EN [15] = true ∧ s.on
      Reg.TN_RIGHTS_IMAGE [15] = true ∧ s.bme 15 = true ∧ (s.image 15).fetch = none) ∧
    (∃ s : State, live s = true ∧ (s.image 16).fetch = some (1, 0) ∧ (s.image 16).pubSize = 0 ∧ s.postsOpen 16 = true ∧ s.on Reg.TI_CTL_EN
      [16] = false ∧ s.on Reg.TN_RIGHTS_IMAGE [16] = true ∧ s.on Reg.TN_RIGHTS_IMAGE [15] = false) ∧
    (∃ s : State, live s = true ∧ s.synth.sched = some default ∧ s.on Reg.TI_CTL_EN [16] = true ∧ (s.image 16).resolve = some 3 ∧ 3 ≤
      s.clock.turn) :=
  ⟨⟨{ st [(Reg.TURN_STAT_SRC, [], 1), (Reg.LSTART_STAT_STATE, [], 6), (Reg.INAUG_POS_POSITION, [], 5)] with
      synth.sched := some { (default : Schedule) with list := [{ (default : SynNode) with pos := 5 }], owners := [(4, 0)] },
      clock.armed := some 5, clock.phase := 500000 * State.nsUnit },
    by decide +kernel⟩,
   ⟨{ st [] with mill.built := [⟨4, 0, []⟩], clock.armed := some 5 }, by decide +kernel⟩,
   ⟨{ st [(Reg.LINE_LAYOUT_STOPPED, [], 0), (Reg.LSTART_STAT_STATE, [], 4), (Reg.SYNC_STAT_CONVERGED, [], 1), (Reg.LPn_STAT_STATE, [3], 4)] with
      mill.built := [⟨4, 0, []⟩] },
    ⟨4, 0, []⟩, by decide +kernel⟩,
   ⟨{ st [(Reg.GLOBAL_STAT_ROLE, [], 2), (Reg.LPn_STAT_STATE, [1], 4), (Reg.INAUG_POS_POSITION, [], 5)] with pins.strapPair := true },
    ⟨.static, { (default : Hdr) with sender := 5, slot := 4 }, .parcels [], 0, 0⟩, by decide +kernel⟩,
   ⟨{ up [(Reg.TI_CTL_PUB_EN, [15], 1), (Reg.TN_RIGHTS_IMAGE, [15], 1), (Reg.TN_STAT_BME, [15], 1), (Reg.INAUG_POS_POSITION, [], 5)] with
      mill.pubs := [{ (default : OwnPub) with func := 7, source := .tenant 15 }],
      synth.sched := some { (default : Schedule) with list := [{ (default : SynNode) with pos := 5, demands := [⟨7, 0, 0, 8⟩] }], owners := [(4, 0)], placed := [⟨0, 0, 4, 0, ⟨7, 0, 0, 8⟩⟩], sSyn := 5, payload := 1000 },
      synth.ownTable := some { (default : FuncTable) with cars := [{ (default : CarRec) with carIndex := 1, demands := [⟨7, 0, 0, 8⟩] }] },
      clock.phase := 900000 * State.nsUnit },
    by decide +kernel⟩,
   ⟨{ st [(Reg.TN_RIGHTS_IMAGE, [16], 1)] with host.images := [(16, { (default : Image) with fetch := some (1, 0) })] }, by decide +kernel⟩,
   ⟨{ st [(Reg.TI_CTL_EN, [16], 1)] with
      host.images := [(16, { (default : Image) with resolve := some 3 })], synth.sched := some default, clock.turn := 3 },
    by decide +kernel⟩⟩

theorem test_meets_PairCommands :
    (∃ s : State, live s = true ∧ s.paired = true ∧ s.xlinks ≠ [] ∧ s.pairStateDue = true ∧ s.xlinks ≠ [] ∧ s.isFollower = true) ∧
    (∃ s : State, live s = true ∧ s.paired = true ∧ s.red.noneSince = some 1 ∧ s.get Reg.GLOBAL_STAT_ROLE = 3 ∧ s.lstate ≠ 0 ∧ s.cpuUp 0 =
      true ∧ s.since 1 2000000000 = true) ∧
    (∃ s : State, live s = true ∧ s.paired = true ∧ s.red.snap = some default ∧ s.isLeader = true ∧ s.cpuUp 0 = true ∧ s.red.swap = none) ∧
    (∃ (s : State) (body : List Byte), live s = true ∧ s.paired = true ∧ s.isFollower = true ∧ s.cpuUp 0 = true ∧ s.red.shadow = none ∧ 159
      < 160 ∧ s.ownPos = beAt body 0 1 ∧ bit (beAt body 2 1) 0 = false ∧ bit (beAt body 2 1) 1 = false ∧ s.red.takeover = some (2, 1) ∧
      2 < s.clock.turn) ∧
    (∃ s : State, live s = true ∧ s.paired = true ∧ s.red.claim = some (2, 9) ∧ s.isLeader = true ∧ s.cpuUp 0 = true ∧ 2 < s.clock.turn) :=
  ⟨⟨{ st [(Reg.LPn_STAT_STATE, [1], 4), (Reg.GLOBAL_STAT_ROLE, [], 2)] with
      pins.strapPair := true, red.psSent := some (0, 3), clock.up := 3 + 1000000 * State.nsUnit },
    by decide +kernel⟩,
   ⟨{ up [(Reg.LSTART_STAT_STATE, [], 1), (Reg.GLOBAL_STAT_ROLE, [], 3)] with
      pins.strapPair := true, red.noneSince := some 1, clock.up := 2000000000 * State.nsUnit + 1 },
    by decide +kernel⟩,
   ⟨{ up [(Reg.GLOBAL_STAT_ROLE, [], 1)] with pins.strapPair := true, red.snap := some default }, by decide +kernel⟩,
   ⟨{ up [(Reg.GLOBAL_STAT_ROLE, [], 2), (Reg.INAUG_POS_POSITION, [], 5)] with
      pins.strapPair := true, red.takeover := some (2, 1), clock.turn := 3 },
    [5, 0, 0, 0], by decide +kernel⟩,
   ⟨{ up [(Reg.GLOBAL_STAT_ROLE, [], 1)] with pins.strapPair := true, red.claim := some (2, 9), clock.turn := 3 }, by decide +kernel⟩⟩

theorem test_meets_SwapCommands :
    (∃ s : State, live s = true ∧ s.cpuUp 0 = true ∧ s.paired = true ∧ s.isFollower = true ∧ s.red.swap = none ∧ s.clock.turn < 1) ∧
    (∃ (s : State) (x : Swap), live s = true ∧ s.cpuUp 0 = true ∧ s.red.swap = some x ∧ x.leader = true ∧ x.w = s.clock.turn ∧ x.aborted =
      false ∧ x.done = false) ∧
    (∃ (s : State) (x : Swap), live s = true ∧ s.cpuUp 0 = true ∧ s.red.swap = some x ∧ x.w = s.clock.turn ∧ 200000 = s.phaseNs ∧ x.aborted
      = false ∧ x.leader = false ∧ x.done = false) ∧
    (∃ (s : State) (x : Swap), live s = true ∧ s.cpuUp 0 = true ∧ s.red.swap = some x ∧ x.w < s.clock.turn ∧ x.done = true) :=
  ⟨⟨{ up [(Reg.GLOBAL_STAT_ROLE, [], 2)] with pins.strapPair := true }, by decide +kernel⟩,
   ⟨{ up [] with red.swap := some ⟨5, true, none, false, false⟩, clock.turn := 5 }, ⟨5, true, none, false, false⟩, by decide +kernel⟩,
   ⟨{ up [] with red.swap := some ⟨5, false, none, false, false⟩, clock.turn := 5, clock.phase := 200000 * State.nsUnit }, ⟨5, false, none,
    false, false⟩, by decide +kernel⟩,
   ⟨{ up [] with red.swap := some ⟨5, false, none, true, false⟩, clock.turn := 6 }, ⟨5, false, none, true, false⟩, by decide +kernel⟩⟩

/-! Hypotheses: hosts -/

theorem test_meets_QueueCommands :
    (∃ s : State, live s = true ∧ s.postsOpen 15 = true ∧ s.on Reg.HQq_CTL_EN [15, 15] = false ∧ 15 < s.get Reg.TN_RIGHTS_QMAX [15] ∧ 6 ≤
      s.get Reg.HQq_CTL_SIZE [15, 15] ∧ s.get Reg.HQq_CTL_SIZE [15, 15] = 12 ∧ 15 ≠ 16) ∧
    (∃ s : State, live s = true ∧ s.postsOpen 16 = true ∧ s.on Reg.HQq_CTL_EN [16, 15] = false ∧ s.get Reg.TN_RIGHTS_QMAX [16] = 15) ∧
    (∃ (s : State) (w : Word) (v : Word), live s = true ∧ s.postsOpen 16 = true ∧ s.on Reg.HQq_CTL_EN [16, 15] = true ∧ w.toNat / 2 ^ 24 = 0
      ∧ w.toNat / 2 ^ 16 % 256 = 15 ∧ w.toNat % 65536 < 2 ^ (s.queue 16 15).size ∧ v.toNat / 2 ^ 16 % 256 = 14 ∧ s.on Reg.HQq_CTL_EN
      [16, 14] = false) ∧
    (∃ s : State, live s = true ∧ s.wantsFetch 3 15 = true ∧ s.hasFlight 3 15 = true ∧ s.fetchNext = some (3, 15) ∧ 3 ≠ 16) ∧
    (∃ s : State, live s = true ∧ s.wantsFetch 16 15 = true ∧ s.hasFlight 16 15 = false) ∧
    (∃ s : State, live s = true ∧ (s.queue 3 2).count ≠ 0 ∧ (s.queue 3 2).irq = true ∧ s.get Reg.HQq_MOD_TIME [3, 2] ≠ 0 ∧ s.since (s.queue
      3 2).since (s.get Reg.HQq_MOD_TIME [3, 2] * 1000) = true) :=
  ⟨⟨st [(Reg.TN_RIGHTS_QMAX, [15], 16), (Reg.HQq_CTL_SIZE, [15, 15], 12)], by decide +kernel⟩,
   ⟨st [(Reg.TN_RIGHTS_QMAX, [16], 15)], by decide +kernel⟩,
   ⟨ring 0 0 0 0 [], 0x000F003F, 0x000E0000, by decide +kernel⟩,
   ⟨ringOf 3 0 0 0 0 [(Reg.HQq_TAIL_TAIL, [3, 15], 1), (Reg.HOST_PORT_LINK_UP, [0], 1)], by decide +kernel⟩,
   ⟨{ ring 0 0 0 0 [(Reg.HQq_TAIL_TAIL, [16, 15], 1)] with
      host.queues := [(16 * 16 + 15, { (default : Queue) with works := List.replicate 64 default })] },
    by decide +kernel⟩,
   ⟨{ st [(Reg.HQq_MOD_TIME, [3, 2], 1)] with
      host.queues := [(3 * 16 + 2, { (default : Queue) with count := 1, irq := true })], clock.up := 1000 * State.nsUnit },
    by decide +kernel⟩⟩

theorem test_meets_CompletionsInRingOrder :
    ∃ (s : State) (d : Desc) (v : Work), live s = true ∧ (s.queue 16 15).works = v :: [work 0 0 5 0] ∧ v.result = none ∧ v.idx ≠ 7 ∧ s.ready
      16 15 7 0 = some d :=
  ⟨{ ring 0 0 5 0 [] with
      host.queues := [(16 * 16 + 15, { (default : Queue) with works := [{ work 1 0 0 0 with idx := 6 }, work 0 0 5 0] })] },
    (work 0 0 5 0).desc, { work 1 0 0 0 with idx := 6 }, by decide +kernel⟩

theorem test_meets_NopCompletes :
    (∃ s : State, live s = true ∧ s.ready 16 15 7 0 = some (work 0 0 5 0).desc) ∧
    (∃ (s : State) (w : Work) (v : Work), live s = true ∧ (((s.queue 16 15).works.find? fun x => x.idx == 7) = some w) ∧ bit w.desc.flags 0
      = true ∧ (s.queue 16 15).works = v :: [w] ∧ v.idx ≠ 7) :=
  ⟨⟨ring 0 0 5 0 [], by decide +kernel⟩,
   ⟨{ ring 0 0 5 0 [] with
      host.queues := [(16 * 16 + 15, { (default : Queue) with works := [{ work 1 0 0 0 with idx := 6 }, { work 0 0 5 0 with desc.flags := 1 }] })] },
    { work 0 0 5 0 with desc.flags := 1 }, { work 1 0 0 0 with idx := 6 }, by decide +kernel⟩⟩

theorem test_meets_LineDescriptors :
    (∃ (s : State) (d : Desc), live s = true ∧ s.ready 16 15 7 0x01 = some d ∧ s.lineArgs 16 d = none ∧ s.standing = true) ∧
    (∃ (s : State) (d : Desc), live s = true ∧ s.ready 16 15 7 0x01 = some d ∧ s.lineArgs 16 d = none ∧ s.standing = false ∧ s.ownPos ≠ 0 ∧
      d.arg1 % 2 ^ 32 ≠ 0 ∧ d.arg1 % 2 ^ 32 ≠ s.icount) ∧
    (∃ (s : State) (d : Desc) (x : Numbered), live s = true ∧ s.ready 16 15 7 0x01 = some d ∧ s.lineArgs 16 d = none ∧ s.standing = false ∧
      s.ownPos ≠ 0 ∧ d.arg1 % 2 ^ 32 = 0 ∧ d.arg0 % 256 ≠ 255 ∧ s.nodeOfCar (d.arg0 % 256) (d.arg0 / 256 % 256) = some x ∧ d.arg0 / 2 ^
      32 % 4 = 1 ∧ s.paired = false ∧ x.pos ≠ s.ownPos ∧ x.pos ≠ 0xFFFF ∧ State.bufWaits 16 d [] = false) ∧
    (∃ (s : State) (d : Desc), live s = true ∧ s.ready 16 15 7 0x02 = some d ∧ State.inWin 16 d.buf d.len = true) ∧
    (∃ (s : State) (d : Desc), live s = true ∧ s.ready 16 15 7 0x03 = some d ∧ d.arg0 % 16 = 12 ∧ State.bufWaits 16 d [] = false) ∧
    (∃ (s : State) (d : Desc), live s = true ∧ s.ready 16 15 7 0x03 = some d ∧ d.arg0 % 16 = 11 ∧ d.len = 100 ∧ State.inWin 16 d.buf d.len =
      true ∧ State.bufWaits 16 d [] = false ∧ s.on Reg.CT_CTL_EN [16] = false) ∧
    (∃ (s : State) (d : Desc) (f : EthFrame), live s = true ∧ s.ready 16 15 7 0x03 = some d ∧ d.arg0 % 16 = 15 ∧ d.len = 100 ∧ State.inWin
      16 d.buf d.len = true ∧ State.bufWaits 16 d [] = false ∧ s.on Reg.CT_CTL_EN [16] = true ∧ f.tagged = false ∧ s.vlanOf (s.get
      Reg.CT_CTL_VID [16]) = some 63) ∧
    (∃ (s : State) (d : Desc) (f : EthFrame), live s = true ∧ s.ready 16 15 7 0x03 = some d ∧ d.arg0 % 16 = 11 ∧ d.len = 100 ∧ State.inWin
      16 d.buf d.len = true ∧ State.bufWaits 16 d [] = false ∧ s.on Reg.CT_CTL_EN [16] = true ∧ f.tagged = false ∧ s.vlanOf (s.get
      Reg.CT_CTL_VID [16]) = some 63 ∧ s.member 63 (d.arg0 % 16) = true ∧ s.cpUp (d.arg0 % 16) = true) ∧
    (∃ (s : State) (d : Desc) (data : List Byte) (f : EthFrame), live s = true ∧ s.ready 3 15 7 0x03 = some d ∧ d.arg0 % 16 = 11 ∧ d.len =
      100 ∧ State.inWin 3 d.buf d.len = true ∧ State.bufWaits 3 d data = false ∧ s.on Reg.CT_CTL_EN [3] = true ∧ f.tagged = false ∧
      s.vlanOf (s.get Reg.CT_CTL_VID [3]) = some 63 ∧ s.member 63 (d.arg0 % 16) = true ∧ s.cpUp (d.arg0 % 16) = false) ∧
    (∃ (s : State) (d : Desc), live s = true ∧ s.ready 16 15 7 0x04 = some d ∧ 64 = d.len ∧ State.inWin 16 d.buf d.len = true) ∧
    (∃ (s : State) (d : Desc), live s = true ∧ s.ready 16 15 7 0x05 = some d ∧ State.inWin 16 d.buf d.len = true ∧ State.bufWaits 16 d [] =
      false ∧ ((parseCan (s.memIn 16 d.buf d.len []) d.len).any (fun f => !f.fdf) = true) ∧ s.govern (d.arg0 % 8) = d.arg0 % 8 ∧
      s.paired = false) ∧
    (∃ (s : State) (d : Desc), live s = true ∧ s.ready 16 15 7 0x40 = some d ∧ d.arg0 = 0 ∧ d.arg1 = 0 ∧ State.inWin 16 d.buf d.len = true) ∧
    (∃ (s : State) (d : Desc), live s = true ∧ s.ready 16 15 7 0x40 = some d ∧ d.arg0 = 1 ∧ d.arg1 = 0 ∧ State.inWin 16 d.buf d.len = true) ∧
    (∃ (s : State) (d : Desc), live s = true ∧ s.ready 16 15 7 0x41 = some d) ∧
    (∃ (s : State) (d : Desc), live s = true ∧ s.ready 16 15 7 0x50 = some d ∧ s.swapDenied = true) ∧
    (∃ (s : State) (d : Desc), live s = true ∧ s.ready 16 15 7 0x50 = some d ∧ s.swapDenied = false) :=
  ⟨⟨ring 0x01 1 (2 ^ 32 + 256 * 2 ^ 48) 0 [(Reg.INAUG_STAT_PHASE, [], 1)], (work 0x01 1 (2 ^ 32 + 256 * 2 ^ 48) 0).desc, by decide +kernel⟩,
   ⟨ring 0x01 1528 (2 ^ 32 + 256 * 2 ^ 48) 9 [(Reg.INAUG_STAT_PHASE, [], 0), (Reg.INAUG_POS_POSITION, [], 63), (Reg.INAUG_ICOUNT_ICOUNT,
    [], 10)], (work 0x01 1528 (2 ^ 32 + 256 * 2 ^ 48) 9).desc, by decide +kernel⟩,
   ⟨{ ring 0x01 1528 (2 ^ 32 + 256 * 2 ^ 48 + 1 + 256) 0 [(Reg.INAUG_STAT_PHASE, [], 0), (Reg.INAUG_POS_POSITION, [], 63)] with
      inaug.dir := some { (default : Directory) with nodes := [{ (default : Numbered) with pos := 2, consistNo := 1, carNo := 1 }] } },
    (work 0x01 1528 (2 ^ 32 + 256 * 2 ^ 48 + 1 + 256) 0).desc, { (default : Numbered) with pos := 2, consistNo := 1, carNo := 1 },
    by decide +kernel⟩,
   ⟨ring 0x02 2048 0 0 [], (work 0x02 2048 0 0).desc, by decide +kernel⟩,
   ⟨ring 0x03 100 12 0 [], (work 0x03 100 12 0).desc, by decide +kernel⟩,
   ⟨ring 0x03 100 11 0 [], (work 0x03 100 11 0).desc, by decide +kernel⟩,
   ⟨ring 0x03 100 15 0 [(Reg.CT_CTL_EN, [16], 1), (Reg.CON_VLAN_Av_EN, [63], 1), (Reg.CON_VLAN_Av_VID, [63], 1)], (work 0x03 100 15
    0).desc, ethTagged ((ring 0x03 100 15 0 [(Reg.CT_CTL_EN, [16], 1), (Reg.CON_VLAN_Av_EN, [63], 1), (Reg.CON_VLAN_Av_VID, [63],
    1)]).takeBuf 16 ((work 0x03 100 15 0).desc) []).1, by decide +kernel⟩,
   ⟨ring 0x03 100 11 0 [(Reg.CPn_STAT_STATE, [11], 2), (Reg.CT_CTL_EN, [16], 1), (Reg.CON_VLAN_Av_EN, [63], 1), (Reg.CON_VLAN_Av_VID, [63],
    1), (Reg.CON_VLAN_Av_MEMBER, [63], 0x800)], (work 0x03 100 11 0).desc, ethTagged ((ring 0x03 100 11 0 [(Reg.CPn_STAT_STATE, [11],
    2), (Reg.CT_CTL_EN, [16], 1), (Reg.CON_VLAN_Av_EN, [63], 1), (Reg.CON_VLAN_Av_VID, [63], 1), (Reg.CON_VLAN_Av_MEMBER, [63],
    0x800)]).takeBuf 16 ((work 0x03 100 11 0).desc) []).1, by decide +kernel⟩,
   ⟨ringOf 3 0x03 100 11 0 [(Reg.CT_CTL_EN, [3], 1), (Reg.CON_VLAN_Av_EN, [63], 1), (Reg.CON_VLAN_Av_VID, [63], 1),
    (Reg.CON_VLAN_Av_MEMBER, [63], 0x800)], (work 0x03 100 11 0).desc, List.replicate 100 7, ethTagged ((ringOf 3 0x03 100 11 0
    [(Reg.CT_CTL_EN, [3], 1), (Reg.CON_VLAN_Av_EN, [63], 1), (Reg.CON_VLAN_Av_VID, [63], 1), (Reg.CON_VLAN_Av_MEMBER, [63],
    0x800)]).takeBuf 3 ((work 0x03 100 11 0).desc) (List.replicate 100 7)).1, by decide +kernel⟩,
   ⟨ring 0x04 64 0 0 [], (work 0x04 64 0 0).desc, by decide +kernel⟩,
   ⟨ring 0x05 8 7 0 [], (work 0x05 8 7 0).desc, by decide +kernel⟩,
   ⟨ring 0x40 64 0 0 [], (work 0x40 64 0 0).desc, by decide +kernel⟩,
   ⟨ring 0x40 64 1 0 [], (work 0x40 64 1 0).desc, by decide +kernel⟩,
   ⟨ring 0x41 0 0 0 [], (work 0x41 0 0 0).desc, by decide +kernel⟩,
   ⟨ring 0x50 0 0 0 [], (work 0x50 0 0 0).desc, by decide +kernel⟩,
   ⟨{ ring 0x50 0 0 0 [(Reg.GLOBAL_STAT_ROLE, [], 1), (Reg.LPn_STAT_STATE, [1], 4)] with
      pins.strapPair := true, red.partner := some { (default : PairState) with line := 4 } },
    (work 0x50 0 0 0).desc, by decide +kernel⟩⟩

theorem test_meets_PcieCommands :
    (∃ s : State, live s = true ∧ s.domainOn 9 = true ∧ s.on Reg.HOST_PORT_LINK_UP [1] = true ∧ s.hostsServed = false) ∧
    (∃ s : State, live s = true ∧ s.domainOn 9 = true ∧ s.on Reg.HOST_PORT_LINK_UP [1] = true ∧ s.hostsServed = true ∧ s.pins.perst.length =
      2 ∧ s.pins.perst.getD 1 false = true ∧ s.on Reg.TN_STAT_PRESENT [15] = true) ∧
    (∃ (s : State) (r : Fin 5) (w : Fin 3), live s = true ∧ s.domainOn 9 = true ∧ s.pins.perst.getD 1 false = true ∧ s.on
      Reg.HOST_PORT_LINK_UP [1] = false ∧ s.get Reg.BOOT_STAT_STAGE ≠ 0xE ∧ r.val ≠ 0 ∧ w.val ≠ 0) ∧
    (∃ s : State, live s = true ∧ s.running 15 15 = true) :=
  ⟨⟨up [(Reg.HOST_PORT_LINK_UP, [1], 1), (Reg.BOOT_STAT_STAGE, [], 5)], by decide +kernel⟩,
   ⟨{ up [(Reg.HOST_PORT_LINK_UP, [1], 1), (Reg.TN_STAT_PRESENT, [15], 1)] with pins.perst := [false, true] }, by decide +kernel⟩,
   ⟨{ up [] with pins.perst := [false, true] }, 4, 2, by decide +kernel⟩,
   ⟨up [(Reg.HQq_CTL_EN, [15, 15], 1), (Reg.HQq_STAT_RUN, [15, 15], 1)], by decide +kernel⟩⟩

theorem test_meets_QspiCommands :
    (∃ s : State, live s = true ∧ s.domainOn 9 = true ∧ s.hostsServed = false ∧ s.qspiInt = false ∧ s.tnErrWord 16 = 0) ∧
    (∃ s : State, live s = true ∧ s.domainOn 9 = true ∧ s.hostsServed = true ∧ (0xFF : Byte) ≠ 0xA5) :=
  ⟨⟨up [(Reg.BOOT_STAT_STAGE, [], 5)], by decide +kernel⟩,
   ⟨up [], by decide +kernel⟩⟩

theorem test_meets_WindowReadsWhatWasWritten :
    ∃ (s : State) (a : Nat) (data : List Byte), live s = true ∧ a < winSize ∧ data.length ≤ winSize ∧ ((1 : Nat) < winSize ∧ ∀ k <
      data.length, 1 ≠ (a + k) % winSize) :=
  ⟨st [], winSize - 1, [1, 2], by decide +kernel⟩

/-! Hypotheses: far access, consist network, CAN -/

theorem test_meets_FarCommands :
    (∃ (s : State) (d : Desc), live s = true ∧ s.farUp = true ∧ s.ready 16 15 7 0x10 = some d ∧ State.farArgs 16 d = false) ∧
    (∃ (s : State) (d : Desc), live s = true ∧ s.farUp = true ∧ s.ready 16 15 7 0x10 = some d ∧ State.farArgs 16 d = true ∧ s.standing =
      true) ∧
    (∃ (s : State) (d : Desc) (x : Numbered), live s = true ∧ s.farUp = true ∧ s.ready 16 15 7 0x10 = some d ∧ State.farArgs 16 d = true ∧
      s.standing = false ∧ s.inaug.dir.isSome = true ∧ s.farTarget (bit d.arg1 63) d.arg0 = some x ∧ s.pfFind x.entry.luid (d.arg1 / 2 ^
      32 % 65536) = none) ∧
    (∃ (s : State) (d : Desc) (x : Numbered), live s = true ∧ s.farUp = true ∧ s.ready 16 15 7 0x11 = some d ∧ State.farArgs 16 d = true ∧
      s.standing = false ∧ s.inaug.dir.isSome = true ∧ s.farTarget (bit d.arg1 63) d.arg0 = some x ∧ (∀ e ∈ s.far.prefetch, e.valid =
      false) ∧ State.bufWaits 16 d [] = false) ∧
    (∃ s : State, live s = true ∧ s.farUp = true ∧ s.standing = false ∧ s.ownPos ≠ 0 ∧ s.paired = false ∧ s.far.tqueue.length = 255 ∧
      s.far.tqueue = default :: List.replicate 254 default ∧ s.farWaits default 0 [] = false ∧ s.postsOpen 16 = true ∧ s.get
      Reg.FWw_MAP_OWNER [15] = 16 ∧ s.get Reg.FWw_MAP_OWNER [15] ≠ 15) ∧
    (∃ (s : State) (x : Transfer), live s = true ∧ s.farUp = true ∧ s.far.transfers[0]? = some x ∧ x.sent = some 3 ∧ x.done = none ∧
      s.farDeadline x 3 = s.clock.turn) ∧
    (∃ (s : State) (e : Prefetch), live s = true ∧ s.farUp = true ∧ s.far.prefetch[15]? = some e ∧ e.valid = true ∧ e.turn + 2 =
      s.clock.turn) ∧
    (∃ (s : State) (len : Fin 513), live s = true ∧ s.farUp = true ∧ s.apOn 1 = true ∧ len.val ≠ 0 ∧ s.apTarget 1 ((2 ^ 26 - 1) % 2 ^ 26) =
      (0x14, none)) ∧
    (∃ (s : State) (x : Transfer), live s = true ∧ s.farUp = true ∧ s.far.transfers[0]? = some x ∧ x.owner = .apRead 1 0 5 ∧ s.since 5
      8000000 = true ∧ 1 < s.far.apErr.length ∧ s.far.apErr.getD 1 [] = ⟨0, 0, 0x14, 0⟩ :: [] ∧ s.far.apErr.getD 0 [] = [] ∧
      s.far.apLost.getD 0 false = false) :=
  ⟨⟨ring 0x10 0 0 0 [], (work 0x10 0 0 0).desc, by decide +kernel⟩,
   ⟨ring 0x10 4096 0 0 [(Reg.INAUG_STAT_PHASE, [], 1)], (work 0x10 4096 0 0).desc, by decide +kernel⟩,
   ⟨{ ring 0x10 4096 257 (2 ^ 63) [(Reg.INAUG_STAT_PHASE, [], 0)] with
      inaug.dir := some { (default : Directory) with nodes := [{ (default : Numbered) with pos := 2, consistNo := 1, carNo := 1 }] } },
    (work 0x10 4096 257 (2 ^ 63)).desc, { (default : Numbered) with pos := 2, consistNo := 1, carNo := 1 }, by decide +kernel⟩,
   ⟨{ ring 0x11 1 257 (2 ^ 63) [(Reg.INAUG_STAT_PHASE, [], 0)] with
      inaug.dir := some { (default : Directory) with nodes := [{ (default : Numbered) with pos := 2, consistNo := 1, carNo := 1 }] } },
    (work 0x11 1 257 (2 ^ 63)).desc, { (default : Numbered) with pos := 2, consistNo := 1, carNo := 1 }, by decide +kernel⟩,
   ⟨{ up [(Reg.INAUG_STAT_PHASE, [], 0), (Reg.INAUG_POS_POSITION, [], 63), (Reg.FWw_MAP_OWNER, [15], 16)] with
      far.tqueue := List.replicate 255 default },
    by decide +kernel⟩,
   ⟨{ up [] with far.transfers := [{ (default : Transfer) with owner := .desc 0 0 0, sent := some 3 }], clock.turn := 7 },
    { (default : Transfer) with owner := .desc 0 0 0, sent := some 3 }, by decide +kernel⟩,
   ⟨{ up [] with far.prefetch := List.replicate 16 { (default : Prefetch) with valid := true, turn := 5 }, clock.turn := 7 },
    { (default : Prefetch) with valid := true, turn := 5 }, by decide +kernel⟩,
   ⟨up [(Reg.HOST_CAPS_BAR4_EN, [], 1)], 512, by decide +kernel⟩,
   ⟨{ up [] with
      far.transfers := [{ (default : Transfer) with owner := .apRead 1 0 5 }], clock.up := 5 + 8000000 * State.nsUnit,
      far.apErr := [[], [⟨0, 0, 0x14, 0⟩]] },
    { (default : Transfer) with owner := .apRead 1 0 5 }, by decide +kernel⟩⟩

theorem test_meets_ConsistCommands :
    (∃ (s : State) (f : EthFrame) (g : EthFrame), live s = true ∧ s.cpUp 11 = true ∧ g.fcsOk = false ∧ f.fcsOk = true ∧ f.tagged = true ∧
      f.vid ≠ 0 ∧ s.vlanOf f.vid = some 63 ∧ s.member 63 11 = true ∧ 64 ≤ f.len ∧ f.len ≤ 1522 ∧ (s.gptpOn 11 && f.etype == 0x88F7) =
      false ∧ s.ingressBytes 11 = 0 ∧ s.ingressBlocked 11 = false) ∧
    (∃ (s : State) (f : EthFrame), live s = true ∧ s.cpUp 11 = true ∧ f.fcsOk = true ∧ s.gptpOn 11 = true ∧ f.etype = 0x88F7) ∧
    (∃ s : State, live s = true ∧ s.cpMay 11 = true ∧ s.cpUp 11 = false ∧ (s.cpRates 11).contains 1 = true ∧ s.on Reg.MDIO_CMD_BUSY = false
      ∧ s.get Reg.CON_CTL_AGE ≠ 0) ∧
    (∃ s : State, live s = true ∧ s.cpUp 8 = true ∧ s.on Reg.CPn_PLCA_EN [8] = true ∧ s.get Reg.CPn_PLCA_NODE_ID [8] = 0) ∧
    (∃ s : State, live s = true ∧ s.con.mdio = some (true, 3, 5, 6)) ∧
    (∃ s : State, live s = true ∧ s.pdUp = true ∧ s.drives = true ∧ s.mapsDone = true ∧ (s.tel 0).age ≠ 0 ∧ State.pdDue (s.tel 0)
      s.clock.turn = true ∧ (∀ i < s.con.tels.length, s.pdAccepts (s.tel i) 0 0 17224 0 [] = false)) ∧
    (∃ (s : State) (t : Tel) (d : List Byte), live s = true ∧ s.pdUp = true ∧ s.con.tels = [t] ∧ s.pdAccepts t 0 0xEF000001 17224 0 d = true
      ∧ (s.tel 0).dir = 2 ∧ (s.tel 0).touted = false ∧ (s.tel 0).timeout = (s.tel 0).run ∧ isGroupIp t.destIp = true ∧
      ((s.con.igmpAt.all fun t => s.since t 60000000000) = true) ∧ s.drives = true) ∧
    (∃ s : State, live s = true ∧ s.pdUp = true ∧ ((s.con.igmpAt.all fun t => s.since t 60000000000) = true) ∧ s.con.tels = []) :=
  ⟨⟨up [(Reg.CPn_STAT_STATE, [11], 2), (Reg.CON_VLAN_Av_EN, [63], 1), (Reg.CON_VLAN_Av_VID, [63], 4094), (Reg.CON_VLAN_Av_MEMBER, [63],
    0x800)], { (default : EthFrame) with vid := 4094, tagged := true, fcsOk := true, data := List.replicate 46 0 },
    { ({ (default : EthFrame) with vid := 4094, tagged := true, fcsOk := true, data := List.replicate 46 0 }) with fcsOk := false },
    by decide +kernel⟩,
   ⟨up [(Reg.CPn_STAT_STATE, [11], 2), (Reg.CPn_CTL_GPTP, [11], 1)], { (default : EthFrame) with etype := 0x88F7, fcsOk := true },
    by decide +kernel⟩,
   ⟨up [(Reg.CPn_CTL_EN, [11], 1)], by decide +kernel⟩,
   ⟨up [(Reg.CPn_STAT_STATE, [8], 2), (Reg.CPn_PLCA_EN, [8], 1)], by decide +kernel⟩,
   ⟨{ st [] with con.mdio := some (true, 3, 5, 6) }, by decide +kernel⟩,
   ⟨{ up [(Reg.TRDP_CTL_EN, [], 1)] with
      con.tels := [{ (default : Tel) with dir := 1, cycle := 1, age := 1 }],
      clock.jobs := List.replicate 10 { (default : Job) with lastRun := some 0 }, clock.turn := 0 },
    by decide +kernel⟩,
   ⟨{ up [(Reg.TRDP_CTL_EN, [], 1)] with
      con.tels := [{ (default : Tel) with dir := 2, comId := 7, dlen := 0, timeout := 5, run := 5, destIp := 0xEF000001 }] },
    { (default : Tel) with dir := 2, comId := 7, dlen := 0, timeout := 5, run := 5, destIp := 0xEF000001 }, pdTelegram,
    by decide +kernel⟩,
   ⟨{ up [(Reg.TRDP_CTL_EN, [], 1)] with con.igmpAt := some 5, clock.up := 5 + 60000000000 * State.nsUnit }, by decide +kernel⟩⟩

theorem test_meets_CanCommands :
    (∃ (s : State) (f : CanFrame), live s = true ∧ s.cst 7 = 3 ∧ f.fdf = false ∧ s.govern 7 = 7 ∧ (s.ctl 7).onBus = none ∧ s.get
      Reg.CANn_ERR_TEC [7] ≤ 255) ∧
    (∃ s : State, live s = true ∧ s.canMayStart 7 = true ∧ s.canMode 7 = 0 ∧ s.canWinner 7 = some 127 ∧ (s.canBuf (s.govern 7)
      127).frame.fdf = false ∧ 7 < s.can.ctls.length) ∧
    (∃ s : State, live s = true ∧ s.cst 7 = 3 ∧ (s.ctl 7).onBus = some 127 ∧ (((s.ctl 7).wins.find? fun w => w.col == 31) = some ⟨0, 31,
      none, some 9⟩) ∧ 9 * 1000 = s.phaseNs ∧ 32 = (s.ctl 7).ackErrs ∧ s.on Reg.CANn_STAT_ALONE [7] = false ∧ (s.ctl 7).armed = true ∧
      s.on Reg.CANn_WAKE_WMODE [7] = false ∧ (s.ctl (s.govern 7)).twins[0]? = some (default, true, 0) ∧ s.since 0 (s.twinWindow
      (s.govern 7)) = true) ∧
    (∃ s : State, live s = true ∧ s.cst 7 = 4 ∧ (s.ctl 7).recovering = true ∧ 7 < s.can.ctls.length ∧ s.on Reg.CANn_CTL_AUTO_REC [s.govern
      7] = false) ∧
    (∃ s : State, live s = true ∧ s.cst 7 = 2 ∧ s.domainOn 8 = true ∧ (s.canBuf 7 127).type = 2) :=
  ⟨⟨st [(Reg.CANn_STAT_STATE, [7], 3), (Reg.CANn_ERR_TEC, [7], 255)], default, by decide +kernel⟩,
   ⟨{ up [(Reg.CANn_STAT_STATE, [7], 3), (Reg.TURN_STAT_SRC, [], 1)] with
      can.ctls := List.replicate 8 { (default : CanCtl) with pending := [127], bufs := [(127, { (default : CanBuf) with type := 2 })] } },
    by decide +kernel⟩,
   ⟨{ up [(Reg.CANn_STAT_STATE, [7], 3)] with
      can.ctls := List.replicate 8 { (default : CanCtl) with onBus := some 127, wins := [⟨0, 31, none, some 9⟩], ackErrs := 32, armed := true, twins := [(default, true, 0)] },
      clock.up := 1000000 * State.nsUnit, clock.phase := 9000 * State.nsUnit },
    by decide +kernel⟩,
   ⟨{ st [(Reg.CANn_STAT_STATE, [7], 4), (Reg.CANn_CTL_AUTO_REC, [7], 0)] with
      can.ctls := List.replicate 8 { (default : CanCtl) with recovering := true } },
    by decide +kernel⟩,
   ⟨{ up [(Reg.CANn_STAT_STATE, [7], 2)] with
      can.ctls := List.replicate 8 { (default : CanCtl) with bufs := [(127, { (default : CanBuf) with type := 2 })] } },
    by decide +kernel⟩⟩

theorem test_meets_LowestIdentifierWins :
    (∃ s : State, (∀ x ∈ s.pendOf 7, x < 128) ∧ s.canWinner 7 = some 0) ∧
    (∃ s : State, (∀ x ∈ s.pendOf 7, x < 128) ∧ s.canWinner 7 = none) :=
  ⟨⟨{ st [] with can.ctls := List.replicate 8 { (default : CanCtl) with pending := [0, 127] } }, by decide +kernel⟩,
   ⟨st [], by decide +kernel⟩⟩

/-! Hypotheses: memory, security, configuration, debug -/

theorem test_meets_MemoryCommands :
    (∃ s : State, live s = true ∧ s.bankFree (bankOf (64 * 491519)) = true ∧ s.sec.wipe = none ∧ s.domainOn 9 = true) ∧
    (∃ s : State, live s = true ∧ s.bankShut (bankOf (64 * 491519)) = false ∧ s.bankLost (bankOf (64 * 491519)) = false ∧
      s.mem.granted.contains (bankOf (64 * 491519)) = true ∧ ((s.mem.waiting.any fun q => q.bank == bankOf (64 * 491519)) = false) ∧
      ((EccReader.tally.master.any fun m => State.secForbids m (64 * 491519)) = false)) ∧
    (∃ s : State, live s = true ∧ s.sec.wipe = some (1, false) ∧ s.sec.wipeFor = [] ∧ (0x80 : Nat) ≠ 0) :=
  ⟨⟨{ up [] with sec.wipe := none }, by decide +kernel⟩,
   ⟨{ st [] with mem.granted := [59] }, by decide +kernel⟩,
   ⟨st [], by decide +kernel⟩⟩

theorem test_meets_SecurityCommands :
    (∃ (s : State) (d : Desc), live s = true ∧ readyAttest s 16 15 7 0 = some d ∧ State.attestArgs 16 0 d = false) ∧
    (∃ (s : State) (d : Desc), live s = true ∧ readyAttest s 16 15 7 0 = some d ∧ State.attestArgs 16 0 d = true ∧ State.bufWaits 16 d [] =
      false ∧ s.attLocal d = true) ∧
    (∃ (s : State) (d : Desc), live s = true ∧ readyAttest s 16 15 7 1 = some d ∧ State.attestArgs 16 1 d = true ∧ s.attLocal d = true) ∧
    (∃ (s : State) (d : Desc) (data : List Byte), live s = true ∧ s.ready 3 15 7 0x30 = some d ∧ d.arg0 % 16 = 2 ∧ State.inWin 3 d.buf d.len
      = true ∧ State.bufWaits 3 d data = false ∧ (s.takeBuf 3 d data).2.importFault d.len (s.takeBuf 3 d data).1 true false = none) ∧
    (∃ (s : State) (d : Desc) (token : List Byte), live s = true ∧ readyAttest s 3 15 7 3 = some d ∧ d.len = 120 ∧ State.inWin 3 d.buf d.len
      = true ∧ State.bufWaits 3 d token = false ∧ (s.takeBuf 3 d token).2.tokenFault (s.takeBuf 3 d token).1 true = none) ∧
    (∃ (s : State) (r : AttReq), live s = true ∧ s.cpuUp 1 = true ∧ s.sec.asked = [] ∧ s.sec.requests[0]? = some r ∧ r.sent = some (1, 2) ∧
      s.attDeadline r 2 = s.clock.turn) ∧
    (∃ (s : State) (src : Fin 6), live s = true ∧ s.tamperResp src.val = 1) ∧
    (∃ s : State, live s = true ∧ s.keys.roll = some s.clock.turn ∧ s.keys.staged = some 1) ∧
    (∃ s : State, live s = true ∧ s.keys.retired = some (1, 7, s.clock.turn)) :=
  ⟨⟨ring 0x30 559 0 0 [], (work 0x30 559 0 0).desc, by decide +kernel⟩,
   ⟨ring 0x30 560 0 0 [], (work 0x30 560 0 0).desc, by decide +kernel⟩,
   ⟨ring 0x30 4096 1 0 [], (work 0x30 4096 1 0).desc, by decide +kernel⟩,
   ⟨ringOf 3 0x30 113 2 0 [(Reg.UID_LO_UID, [], 9)], (work 0x30 113 2 0).desc, beBytes 1 2 ++ beBytes 1 0 ++ beBytes 2 113 ++ beBytes 4 5
    ++ beBytes 8 (ringOf 3 0x30 113 2 0 [(Reg.UID_LO_UID, [], 9)]).uid, by decide +kernel⟩,
   ⟨{ ringOf 3 0x30 120 3 0 [] with sec.maintKey := some 1, sec.cfgKey := some 1, keys.active := some 1 }, (work 0x30 120 3 0).desc,
    beBytes 1 2 ++ beBytes 7 0 ++ beBytes 8
    ({ ringOf 3 0x30 120 3 0 [] with sec.maintKey := some 1, sec.cfgKey := some 1, keys.active := some 1 }).uid, by decide +kernel⟩,
   ⟨{ up [] with
      sec.requests := [{ (default : AttReq) with sent := some (1, 2) }],
      clock.turn := (up []).attDeadline { (default : AttReq) with sent := some (1, 2) } 2 },
    { (default : AttReq) with sent := some (1, 2) }, by decide +kernel⟩,
   ⟨st [(Reg.SEC_TAMPER_CTL_RESP, [], 0x555)], 5, by decide +kernel⟩,
   ⟨{ st [] with keys.roll := some 7, keys.staged := some 1, clock.turn := 7 }, by decide +kernel⟩,
   ⟨{ st [] with keys.retired := some (1, 7, 263), clock.turn := 263 }, by decide +kernel⟩⟩

theorem test_meets_ConfigurationCommands :
    (∃ (s : State) (d : Desc), live s = true ∧ s.ready 16 15 7 0x31 = some d ∧ d.len = 7) ∧
    (∃ (s : State) (d : Desc), live s = true ∧ s.readyActivate 16 15 7 false false = some d ∧ d.arg0 % 16 = 0 ∧ s.conf.staged = none) ∧
    (∃ (s : State) (d : Desc), live s = true ∧ s.readyActivate 16 15 7 false false = some d ∧ d.arg0 % 16 = 0 ∧ s.conf.staged = some default
      ∧ s.conf.wait = none ∧ s.onTrial = false ∧ s.paired = false ∧ s.conf.active = none ∧ s.inSlack = false) ∧
    (∃ (s : State) (d : Desc), live s = true ∧ s.readyActivate 16 15 7 true false = some d ∧ d.arg0 % 16 = 0 ∧ s.on Reg.CFG_STAT_TRIAL =
      true) ∧
    (∃ (s : State) (d : Desc), live s = true ∧ s.ready 16 15 7 0x32 = some d ∧ bit d.arg0 9 = true ∧ bit d.arg0 8 = false ∧ d.arg0 % 16 = 0) ∧
    (∃ (s : State) (d : Desc), live s = true ∧ s.ready 16 15 7 0x33 = some d ∧ d.arg0 % 16 = 0 ∧ s.conf.prev = none) ∧
    (∃ (s : State) (d : Desc), live s = true ∧ s.ready 16 15 7 0x33 = some d ∧ d.arg0 % 16 = 0 ∧ s.conf.prev = some default ∧ s.conf.wait =
      none) ∧
    (∃ s : State, live s = true ∧ s.cpuUp 1 = true ∧ s.mayActivate = true) ∧
    (∃ s : State, live s = true ∧ s.cpuUp 1 = true ∧ s.on Reg.CFG_STAT_TRIAL = true ∧ s.conf.trialEnd = s.clock.optime ∧
      s.checkTrial.conf.failed = none) ∧
    (∃ s : State, live s = true ∧ s.cpuUp 1 = true ∧ s.on Reg.CFG_STAT_TRIAL = true ∧ s.conf.failed = some (2, 6) ∧ s.tickAfter 6 = true) ∧
    (∃ (s : State) (w : CfgWait), live s = true ∧ s.cpuUp 1 = true ∧ s.conf.failed = none ∧ s.conf.wait = some w ∧ w.kind = .rollback ∧
      s.tickAfter w.born = true) :=
  ⟨⟨ring 0x31 7 0 0 [], (work 0x31 7 0 0).desc, by decide +kernel⟩,
   ⟨{ ring 0x32 0 0 0 [] with conf.staged := none }, (work 0x32 0 0 0).desc, by decide +kernel⟩,
   ⟨{ ring 0x32 0 0 0 [] with conf.staged := some default }, (work 0x32 0 0 0).desc, by decide +kernel⟩,
   ⟨ring 0x32 0 0x100 0 [(Reg.CFG_STAT_TRIAL, [], 1)], (work 0x32 0 0x100 0).desc, by decide +kernel⟩,
   ⟨ring 0x32 0 0x200 0 [], (work 0x32 0 0x200 0).desc, by decide +kernel⟩,
   ⟨ring 0x33 0 0 0 [], (work 0x33 0 0 0).desc, by decide +kernel⟩,
   ⟨{ ring 0x33 0 0 0 [] with conf.prev := some default }, (work 0x33 0 0 0).desc, by decide +kernel⟩,
   ⟨{ up [(Reg.TURN_STAT_SRC, [], 1)] with conf.wait := some ⟨.activate, none, 0, none, 6⟩, clock.turn := 7 }, by decide +kernel⟩,
   ⟨{ up [(Reg.CFG_STAT_TRIAL, [], 1)] with conf.trialEnd := 9, clock.optime := 9 }, by decide +kernel⟩,
   ⟨{ up [(Reg.CFG_STAT_TRIAL, [], 1), (Reg.TURN_STAT_SRC, [], 1)] with conf.failed := some (2, 6), clock.turn := 7 }, by decide +kernel⟩,
   ⟨{ up [(Reg.TURN_STAT_SRC, [], 1)] with conf.wait := some ⟨.rollback, none, 0, none, 6⟩, clock.turn := 7 }, ⟨.rollback, none, 0, none,
    6⟩, by decide +kernel⟩⟩

theorem test_meets_DebugCommands :
    (∃ s : State, live s = true ∧ s.on Reg.DIAG_STAT_FRZ_EN = true) ∧
    (∃ s : State, live s = true ∧ s.on Reg.DIAG_STAT_TOKEN = true ∧ s.dbg.tokenEnd ≠ 0 ∧ s.dbg.tokenEnd = s.clock.optime ∧ s.sec.lifecycle =
      2) :=
  ⟨⟨st [(Reg.DIAG_STAT_FRZ_EN, [], 1)], by decide +kernel⟩,
   ⟨{ st [(Reg.DIAG_STAT_TOKEN, [], 1)] with dbg := { (default : Debug) with tokenEnd := 9 }, clock.optime := 9, sec.lifecycle := 2 },
    by decide +kernel⟩⟩

theorem test_meets_RefusedBrakeRequest :
    ∃ s : State, live s = true ∧ s.on Reg.DIAG_STAT_FRZ_EN = false ∧ s.on Reg.TALLY_STAT_DEGRADED = false ∧ s.hasPlace 0x5040 0 = true :=
  ⟨st [], by decide +kernel⟩

theorem test_meets_FrozenNodeStandsStill :
    ∃ s : State, s.on Reg.DIAG_STAT_FROZEN = true :=
  ⟨st [(Reg.DIAG_STAT_FROZEN, [], 1)], by decide +kernel⟩

/-! Relay frames received: tag, FCS and header CRC are good whatever their values -/

theorem heard_fcsOk (f : Frame) (p : Nat) : (heard f p).stamp.fcsOk f = true := by
  simp only [RxCheck.fcsOk, RxCheck.stamp, heard, Frame.sealed, Frame.covered, Bool.false_eq_true, if_false, beq_self_eq_true]

theorem heard_hcrcOk (f : Frame) (p : Nat) : (heard f p).stamp.hcrcOk f = true := by
  simp only [RxCheck.hcrcOk, RxCheck.stamp, heard, Frame.sealed, Frame.hcrc, Frame.hdrBytes, beq_self_eq_true]

theorem heard_formOk (f : Frame) (p m : Nat) (h : f.payload.len ≤ f.kind.most m) : (heard f p).stamp.formOk f m = true := by
  simp [RxCheck.formOk, RxCheck.stamp, heard, Frame.sealed, h]

/-- A whole frame as it is heard passes the checks of FCS, version, kind, LENGTH and header CRC. -/
theorem heard_sound (s : State) (f : Frame) (p : Nat) (h : f.payload.len ≤ f.kind.most s.prof.payload) :
    s.rxSound f (heard f p).stamp true = true := by
  rw [State.rxSound, heard_fcsOk, heard_formOk f p _ h, heard_hcrcOk]
  rfl

/-- The tag of a relay frame is checked with the neighbour's end under the salts for its slot. -/
theorem tagOk_relay (s : State) (n : Nat) (g : Frame) (k : BitVec 256) (hk : s.keys.active = some k) (hr : g.payload.relay.isSome = true) (x : Nat)
    (hm : x ∈ s.tagSalts n g) (h : g.tag = gmac (s.tagKey k x (s.get Reg.LPn_NBR_LO_UID [n] + 2 ^ 32 * s.get Reg.LPn_NBR_HI_UID [n]) g)
      (g.iv (s.ivTurn g) (n % 2 == 1) (((s.port n).nbr.map fun h => h.end2).getD false) 0) g.aad) : s.tagOk n g = true := by
  obtain ⟨kind, hdr, pl, tag, src⟩ := g
  have e : s.keys.active.toList = [k] := by rw [hk]; rfl
  cases pl <;> simp [Payload.relay] at hr
  all_goals
    simp only [State.tagOk, e, List.any_append, List.any_cons, Bool.or_eq_true, List.any_eq_true]
    exact .inl (.inl ⟨x, hm, beq_iff_eq.mpr h⟩)

/-- A relay frame that the neighbour tags under the node's own key and one of its salts has a good tag. -/
theorem tagFrom_good (s : State) (n : Nat) (f : Frame) (k : BitVec 256) (hk : s.keys.active = some k) (hn : s.get Reg.LPn_NBR_HI_UID [n] = 0)
    (he : ((s.port n).nbr.map fun h => h.end2).getD false = false) (hr : f.payload.relay.isSome = true)
    (hm : s.keys.salt.getD 0 ∈ s.tagSalts n f) : s.tagOk n (tagFrom s n f) = true := by
  have e0 : s.fleetKey = k := by rw [State.fleetKey, hk]; rfl
  unfold tagFrom
  generalize hT : gmac (s.tagKey s.fleetKey (s.keys.salt.getD 0) (s.get Reg.LPn_NBR_LO_UID [n]) f) (f.iv (s.ivTurn f) (n % 2 == 1) false 0)
    f.aad = T
  refine tagOk_relay s n _ k hk hr (s.keys.salt.getD 0) hm ?_
  rw [hn, he, Nat.mul_zero, Nat.add_zero, ← e0]
  exact hT.symm

/-- Such a frame within the window of a node that follows the line is stored and relayed. -/
theorem rxRelay_good (s : State) (n : Nat) (f : Frame) (w : RelayWord) (c : RxCheck) (hf : s.following = true) (hn : s.nbrPort n = true)
    (hi : s.icountChecked = false ∨ f.hdr.icount = s.icount) (hs : s.rxSound f c (s.tagOk n f) = true)
    (hw : State.within (s.relayDev n f w c) s.window = true) : (s.rxRelay n f w c).1 = .good := by
  have e (a b d : Nat) (x : Int) : ∃ v, s.weirRef n a b d x = { s with weirs := v } := by
    simp only [State.weirRef]; split
    · exact ⟨_, rfl⟩
    · exact ⟨_, rfl⟩
  have key : ∀ v, ({ s with weirs := v } : State).rxCheck n f c s.icountChecked (some (s.relayDev n f w c)) false (s.tagOk n f) =
      (.good, { s with weirs := v }) := by
    intro v
    simp only [State.rxSound, Bool.and_eq_true] at hs
    obtain ⟨⟨⟨h1, h2⟩, h3⟩, h4⟩ := hs
    have hw' : State.within (s.relayDev n f w c) ({ s with weirs := v } : State).window = true := hw
    have h2' : c.formOk f ({ s with weirs := v } : State).prof.payload = true := h2
    have hi' : (!s.icountChecked || f.hdr.icount == ({ s with weirs := v } : State).icount) = true := by
      rcases hi with h | h
      · simp [h]
      · have : f.hdr.icount = ({ s with weirs := v } : State).icount := h
        simp [this]
    simp [State.rxCheck, h1, h2', h3, h4, hw', hi']
  simp only [State.rxRelay]
  split
  · obtain ⟨v, hv⟩ := e c.phase f.hdr.slot w.hops f.hdr.corr
    rw [hv]
    have a : ({ s with weirs := v } : State).following = true := hf
    have b : ({ s with weirs := v } : State).nbrPort n = true := hn
    have k := key v
    rw [if_pos a, b]
    simp only [Bool.not_true, Bool.false_eq_true, if_false]
    rw [show ({ s with weirs := v } : State).icountChecked = s.icountChecked from rfl,
      show ({ s with weirs := v } : State).relayDev n f w c = s.relayDev n f w c from rfl,
      show ({ s with weirs := v } : State).tagOk n f = s.tagOk n f from rfl, k]
  · have k := key s.weirs
    rw [hn]
    simp only [Bool.not_true, Bool.false_eq_true, if_false]
    rw [k]
/-- A node on the line with a key and a salt. -/
def lineNode : State := { st [(Reg.LPn_STAT_STATE, [3], 4), (Reg.LSTART_STAT_STATE, [], 4)] with keys.active := some 0, keys.salt := some 5 }

/-- A relay frame as its neighbour on port 3 sends it. -/
def relayFrame (k : Kind) (slot : Nat) (p : Payload) : Frame := tagFrom lineNode 3 ⟨k, { (default : Hdr) with slot := slot }, p, 0, 0⟩

/-- Its reception at the time it is due. -/
def relayHeard (k : Kind) (slot : Nat) (p : Payload) : RxCheck := heard (relayFrame k slot p) (-(lineNode.deviation 3 0 slot 1 0)).toNat

theorem relay_tag (k : Kind) (slot : Nat) (p : Payload) (hr : p.relay.isSome = true)
    (hm : 5 ∈ lineNode.tagSalts 3 ⟨k, { (default : Hdr) with slot := slot }, p, 0, 0⟩) : lineNode.tagOk 3 (relayFrame k slot p) = true :=
  tagFrom_good lineNode 3 _ 0 rfl (by decide +kernel) (by decide +kernel) hr hm

theorem test_meets_FramesReceived_claim : lineNode.alive = true ∧ lineNode.pst 3 = 4 ∧ lineNode.isXlink 3 = false ∧
    (relayFrame .claim 2 (.claim default default)).payload = .claim default default ∧
    (lineNode.rxRelay 3 (relayFrame .claim 2 (.claim default default)) default (relayHeard .claim 2 (.claim default default)).stamp).1 = .good := by
  refine ⟨by decide +kernel, by decide +kernel, by decide +kernel, rfl, ?_⟩
  refine rxRelay_good _ _ _ _ _ (by decide +kernel) (by decide +kernel) (.inr (by decide +kernel)) ?_ (by decide +kernel)
  rw [relay_tag _ _ _ rfl (by decide +kernel)]
  exact heard_sound _ _ _ (by decide +kernel)

theorem test_meets_FramesReceived_service : lineNode.alive = true ∧ lineNode.pst 3 = 4 ∧ lineNode.isXlink 3 = false ∧
    (relayFrame .static 3 (.service default { (default : Service) with salt := 5 })).payload = .service default { (default : Service) with salt := 5 } ∧
    (lineNode.rxRelay 3 (relayFrame .static 3 (.service default { (default : Service) with salt := 5 })) default
      (relayHeard .static 3 (.service default { (default : Service) with salt := 5 })).stamp).1 = .good := by
  refine ⟨by decide +kernel, by decide +kernel, by decide +kernel, rfl, ?_⟩
  refine rxRelay_good _ _ _ _ _ (by decide +kernel) (by decide +kernel) (.inr (by decide +kernel)) ?_ (by decide +kernel)
  rw [relay_tag _ _ _ rfl (by decide +kernel)]
  exact heard_sound _ _ _ (by decide +kernel)

theorem test_meets_FramesReceived_confirm : lineNode.alive = true ∧ lineNode.pst 3 = 4 ∧ lineNode.isXlink 3 = false ∧
    (relayFrame .confirm 1 (.confirm default default)).payload = .confirm default default ∧
    lineNode.rxSound (relayFrame .confirm 1 (.confirm default default)) (relayHeard .confirm 1 (.confirm default default)).stamp
      (lineNode.tagOk 3 (relayFrame .confirm 1 (.confirm default default))) = true ∧
    ((lineNode.readConfirm 3 (relayFrame .confirm 1 (.confirm default default)) default).rxRelay 3
      (relayFrame .confirm 1 (.confirm default default)) default (relayHeard .confirm 1 (.confirm default default)).stamp).1 = .good := by
  have e : lineNode.readConfirm 3 (relayFrame .confirm 1 (.confirm default default)) default = lineNode := by
    rw [State.readConfirm, if_neg (by decide +kernel), if_neg (by decide +kernel), if_neg (by decide +kernel)]
  have h : lineNode.rxSound (relayFrame .confirm 1 (.confirm default default)) (relayHeard .confirm 1 (.confirm default default)).stamp
      (lineNode.tagOk 3 (relayFrame .confirm 1 (.confirm default default))) = true := by
    rw [relay_tag _ _ _ rfl (by decide +kernel)]
    exact heard_sound _ _ _ (by decide +kernel)
  refine ⟨by decide +kernel, by decide +kernel, by decide +kernel, rfl, h, ?_⟩
  rw [e]
  exact rxRelay_good _ _ _ _ _ (by decide +kernel) (by decide +kernel) (.inr (by decide +kernel)) h (by decide +kernel)

/-- A follower of the line in DISCOVER, with its partner on port 3. -/
def discoverNode : State :=
  { st [(Reg.LPn_STAT_STATE, [3], 4), (Reg.INAUG_STAT_PHASE, [], 2), (Reg.LSTART_STAT_STATE, [], 4)] with pins.strapPair := true }

/-- A DIRECTORY frame from the partner. -/
def partnerEntry : Frame := ⟨.directory, { (default : Hdr) with slot := 66 }, .directory default default, 0, 0⟩

theorem test_meets_FramesReceived_directory : discoverNode.alive = true ∧ discoverNode.pst 3 = 4 ∧ discoverNode.isXlink 3 = true ∧
    discoverNode.phase = 2 ∧ discoverNode.following = true ∧ partnerEntry.payload = .directory default default ∧
    discoverNode.rxSound partnerEntry (heard partnerEntry 0).stamp true = true ∧
    (discoverNode.inaug.wave.any fun x => x.1 == b2n (heard partnerEntry 0).end2 && x.2.1 == partnerEntry.hdr.slot) = false :=
  ⟨by decide +kernel, by decide +kernel, by decide +kernel, by decide +kernel, by decide +kernel, rfl,
    heard_sound _ _ _ (by decide +kernel), rfl⟩

/-! Hypotheses that rest on a free value, met whatever it is -/

theorem test_meets_StepKeepsCanon : ∃ s t : State, s.Canon ∧ step s = .next t :=
  ⟨State.reset, _, (live_canon _ (by decide +kernel)).1, rfl⟩

theorem test_meets_CommandsLeaveQueueAndOutputs : ∃ (c : Instr) (s t : State), exec c s = .next t := ⟨.bypass [], State.reset, _, rfl⟩

theorem test_meets_NothingLeadsBack : ∃ (c : Instr) (s t : State), exec c s = .next t := ⟨.fatalFault, State.reset, _, rfl⟩

theorem test_meets_FieldReadsWhatWasSet : State.reset.Canon ∧ Reg.TURN_CTL_EN.key [] ≠ Reg.GPIO_IRQ_EN.key [] :=
  ⟨(live_canon _ (by decide +kernel)).1, by decide +kernel⟩

theorem test_meets_FullResetKeepsAndClears :
    Reg.RST_CAUSE_FATAL ∈ [Reg.RST_CAUSE_RESET_N, Reg.RST_CAUSE_VIN_RST, Reg.RST_CAUSE_REF_LOST, Reg.RST_CAUSE_FATAL, Reg.RST_CAUSE_ESCALATE] ∧
    ∃ x ∈ heldFields, x.1 ≠ Reg.RST_CAUSE_FATAL := by
  decide +kernel

/-- Ports on which a HOP frame is due whatever the share of the classes. -/
def freedPorts : List Port := List.replicate 4 { resetPort with extra := 6, poolAt := some 5000000, freed := (List.range 10).foldl (fun a c => a + Config.hopShare c) 0 }

theorem test_meets_FramesSent_hopExtra : ∃ s : State, s.alive = true ∧ s.ticking = true ∧ s.pst 3 = 4 ∧
    (List.range 10).foldl (fun a c => a + Config.hopShare c) 0 ≤ 4 * (s.port 3).freed ∧ (s.port 3).extra < 7 ∧ s.inGap 3 = true := by
  refine ⟨{ st [(Reg.TURN_STAT_SRC, [], 1), (Reg.LPn_STAT_STATE, [3], 4), (Reg.LINE_DYN_END_NS, [], 984000)] with
    ports := freedPorts, clock.phase := 500000 * State.nsUnit }, by decide +kernel, by decide +kernel, by decide +kernel, ?_, ?_, ?_⟩
  · show _ ≤ 4 * (freedPorts.getD 3 default).freed
    exact Nat.le_mul_of_pos_left _ (by decide)
  · show (freedPorts.getD 3 default).extra < 7
    decide
  · show (match (freedPorts.getD 3 default).poolAt with | none => false | some t => _) = true
    decide +kernel

theorem leBytes_length (n : Nat) : ∀ v, (leBytes n v).length = n := by
  induction n with
  | zero => intro v; rfl
  | succ n ih => intro v; simp [leBytes, ih]

theorem leNat_leBytes (n : Nat) : ∀ v, leNat (leBytes n v) = v % 256 ^ n := by
  induction n with
  | zero => intro v; simp [leBytes, leNat, Nat.mod_one]
  | succ n ih =>
    intro v
    simp only [leBytes, leNat, ih, BitVec.toNat_ofNat]
    show v % 256 + 256 * (v / 256 % 256 ^ n) = _
    rw [← Nat.mod_mul, Nat.mul_comm 256, ← Nat.pow_succ]

/-- A big-endian field at the front reads the number written there. -/
theorem beAt_front (n v : Nat) (l : List Byte) : beAt (beBytes n v ++ l) 0 n = v % 256 ^ n := by
  have h : (beBytes n v).length = n := by simp [beBytes, leBytes_length]
  simp only [beAt, beNat, slice, List.drop_zero]
  rw [List.take_append_of_le_length (by omega), List.take_of_length_le (by omega), h]
  simp [beBytes, leNat_leBytes]

/-- The front of a fragment body does not matter for what follows its 16 bytes. -/
theorem beAt_behind (v k n : Nat) (l : List Byte) : beAt (beBytes 16 v ++ l) (16 + k) n = beAt l k n := by
  have h : (beBytes 16 v).length = 16 := by simp [beBytes, leBytes_length]
  simp only [beAt, slice]
  rw [List.drop_append, List.drop_of_length_le (by omega), h]
  simp

theorem test_meets_SynthesisCommands_stored : ∃ (s : State) (body data : List Byte), s.alive = true ∧ beAt body 16 2 = 0 ∧ beAt body 18 2 ≤ 2048 ∧
    data = (body.drop 24).take (beAt body 18 2) ∧ (s.tableOf (beAt body 0 16)).isSome = false ∧
    (s.synth.parts.find? fun x => x.1 == beAt body 0 16) = none ∧ data.length = beAt body 18 2 ∧ tableDigest data = beAt body 0 16 := by
  refine ⟨State.reset, beBytes 16 (tableDigest [1]) ++ [0, 0, 0, 1, 0, 0, 0, 0, 1], [1], by decide +kernel, ?_, ?_, ?_, rfl, rfl, ?_, ?_⟩
  · rw [beAt_behind _ 0]; decide +kernel
  · rw [show 18 = 16 + 2 from rfl, beAt_behind _ 2]; decide +kernel
  · rw [show 18 = 16 + 2 from rfl, beAt_behind _ 2, List.drop_append, List.drop_of_length_le (by simp [beBytes, leBytes_length])]
    simp only [beBytes, List.length_reverse, leBytes_length]
    decide +kernel
  · rw [show 18 = 16 + 2 from rfl, beAt_behind _ 2]; decide +kernel
  · rw [beAt_front]
    have h : tableDigest [1] < 2 ^ 128 := by decide +kernel
    exact (Nat.mod_eq_of_lt (by simpa using h)).symm

/-- A follower with firmware up. -/
def follower : State := up [(Reg.GLOBAL_STAT_ROLE, [], 2)]

theorem test_meets_PairCommands_badChunk : ∃ (s : State) (data : List Byte) (ccrc : Nat), s.alive = true ∧ s.isFollower = true ∧ s.cpuUp 0 = true ∧
    crc32c (beBytes 4 7 ++ beBytes 2 0 ++ beBytes 2 1 ++ slice data 0 1024) ≠ ccrc :=
  ⟨follower, [], _, by decide +kernel, by decide +kernel, by decide +kernel, Nat.ne_of_lt (Nat.lt_succ_self _)⟩

theorem test_meets_PairCommands_commit : ∃ (s : State) (h : Shadow) (all : List Byte), s.alive = true ∧ s.paired = true ∧ s.isFollower = true ∧
    s.cpuUp 0 = true ∧ s.red.shadow = some h ∧ State.shadowData h = some all ∧ s.red.committed = none ∧
    (Config.epochParse (all.take 1)).version % 2 ^ 32 = s.get Reg.CFG_VER_ACTIVE_VER ∧ s.red.swap = none := by
  have other (f : Fld) (h : f.key [] ≠ Reg.CFG_VER_ACTIVE_VER.key []) :
      (follower.set Reg.CFG_VER_ACTIVE_VER [] (Config.epochParse [1]).version).get f = follower.get f := State.get_set_other _ _ _ _ _ _ h
  refine ⟨{ follower.set Reg.CFG_VER_ACTIVE_VER [] (Config.epochParse [1]).version with
    pins := { State.reset.pins with strapPair := true }, red := { State.reset.red with shadow := some ⟨5, 1, [(0, [1])]⟩ } },
    ⟨5, 1, [(0, [1])]⟩, [1], ?_, rfl, ?_, ?_, rfl, by decide +kernel, rfl, ?_, rfl⟩
  · show (true && !((follower.set _ _ _).get Reg.DIAG_STAT_FROZEN != 0)) = true
    rw [other _ (by decide +kernel)]
    decide +kernel
  · show ((follower.set _ _ _).get Reg.GLOBAL_STAT_ROLE == 2) = true
    rw [other _ (by decide +kernel)]
    decide +kernel
  · show (((follower.set _ _ _).get Reg.GLOBAL_STAT_FW_READY != 0) && true) = true
    rw [other _ (by decide +kernel)]
    decide +kernel
  · exact (State.get_set_same follower Reg.CFG_VER_ACTIVE_VER [] _ (by decide +kernel)).symm


/-! gPTP on the consist ports (R207): two-step answers, domain 0, and no grandmaster with priority1 255 -/

/-- A gPTP message by type and domain: 24 bytes of header, port and sequence number 5, and a body. -/
def ptp (typ dom : Nat) (body : List Byte) : EthFrame :=
  ⟨0x0180C200000E, 2, 0, 0, false, 0x88F7, beBytes 1 (0x10 + typ) ++ beBytes 3 2 ++ beBytes 1 dom ++ beBytes 15 0 ++ beBytes 10 77 ++
    beBytes 4 0x00050000 ++ body, true⟩

/-- Consist port 0 up, with gPTP. -/
def ptpNode : State := up [(Reg.CPn_STAT_STATE, [0], 2), (Reg.CPn_CTL_GPTP, [0], 1)]

theorem test_gptp_answer : (ptpNode.gptpFrame 0 9 (ptp 2 0 (beBytes 20 0))).out.map (fun o => match o with
    | .eth n f => (n, beAt f.data 0 1, beAt f.data 30 2, beAt f.data 44 10)
    | _ => (99, 0, 0, 0)) = [(0, 0x1A, 5, 77), (0, 0x13, 5, 77)] := by decide +kernel

theorem test_gptp_domain : ptpNode.gptpFrame 0 9 (ptp 2 1 (beBytes 20 0)) = ptpNode := by decide +kernel

theorem test_gptp_master : (ptpNode.gptpFrame 0 9 (ptp 11 0 (beBytes 14 254 ++ beBytes 16 0))).gmSelected = true := by decide +kernel

theorem test_gptp_no_slave_only : (ptpNode.gptpFrame 0 9 (ptp 11 0 (beBytes 14 0xFF ++ beBytes 16 0))).gmSelected = false := by decide +kernel
end Sys2Proof.Machine
end

/-!
What a record does to the tally book's queue, when ALARM_N is asserted, and what an overload of VOUT_3V3 changes (R60).
-/

namespace Sys2Proof.Machine

namespace State

/-! The queue after a record (R526, R530, R616) -/

/-- The emergency copy leaves the queue alone. -/
@[simp] theorem emerCopy_tally_queue (s : State) (r : Rec) : (s.emerCopy r).tally.queue = s.tally.queue := by
  unfold emerCopy
  split
  · rfl
  · split <;> rfl

@[simp] theorem consoleLine_tally (s : State) (r : Rec) : (s.consoleLine r).tally = s.tally := by
  unfold consoleLine
  split
  · split <;> rfl
  · rfl

/-- The queue of a recorder that is not degraded only grows at its end. -/
theorem queueWith_of_not_degraded {s : State} (hd : s.on Reg.TALLY_STAT_DEGRADED = false) (r : Rec) :
    s.queueWith r = s.tally.queue ++ [r] := by
  simp [queueWith, hd]

/-- A record that finds a place stands, stamped, at the end of the queue. -/
theorem enqueue_tally_queue {s : State} {code flags : Nat} (hd : s.on Reg.TALLY_STAT_DEGRADED = false)
    (hp : s.hasPlace code flags = true) (sev src p0 p1 p2 : Nat) :
    (s.enqueue code sev src flags p0 p1 p2).tally.queue = s.tally.queue ++ [s.stamp code sev src flags p0 p1 p2] := by
  unfold enqueue
  rw [if_pos hp, consoleLine_tally, emerCopy_tally_queue]
  exact queueWith_of_not_degraded hd _

/-- Whether a record has a place depends on the queue and on the recorder's mode. -/
theorem hasPlace_congr {s t : State} (ht : t.tally = s.tally)
    (hd : t.on Reg.TALLY_STAT_DEGRADED = s.on Reg.TALLY_STAT_DEGRADED) (code flags : Nat) :
    t.hasPlace code flags = s.hasPlace code flags := by
  simp only [hasPlace, ht, hd]

/-! ALARM_N (R600, R601) -/

/-- PWR_STAT.VOUT_OVL is a cause of the alarm. -/
theorem alarmWord_ne_zero_of_vout {s : State} (h : s.on Reg.PWR_STAT_VOUT_OVL = true) : s.alarmWord ≠ 0 := by
  have hbit : b2n (s.on Reg.PWR_STAT_VOUT_OVL) = 1 := by rw [h]; rfl
  unfold alarmWord
  omega

/-- A powered node whose ALARM_N is not held asserts it for an overload of VOUT_3V3. -/
theorem alarm_of_vout {s : State} (hp : s.power.on = true) (hh : s.pins.alarmHeld = none)
    (h : s.on Reg.PWR_STAT_VOUT_OVL = true) : s.alarm = true := by
  simp [alarm, hp, hh, alarmWord_ne_zero_of_vout h]

/-! The overload of VOUT_3V3 before its record (R60) -/

/-- VIN measured and PWR_STAT.VOUT_OVL set. -/
def voutOverloaded (s : State) (vin : Nat) : State := (s.measureVin vin vin).set Reg.PWR_STAT_VOUT_OVL [] 1

theorem voutOverloaded_tally (s : State) (vin : Nat) : (s.voutOverloaded vin).tally = s.tally := rfl

theorem voutOverloaded_power (s : State) (vin : Nat) : (s.voutOverloaded vin).power = s.power := rfl

theorem voutOverloaded_pins (s : State) (vin : Nat) : (s.voutOverloaded vin).pins = s.pins := rfl

/-- Only the register file changes. -/
theorem voutOverloaded_frame (s : State) (vin : Nat) : { s.voutOverloaded vin with regs := s.regs } = s := rfl

/-- A measurement of VIN keeps the register file in order. -/
theorem measureVin_sorted {s : State} (hs : Sparse.sorted s.regs = true) (vin low : Nat) :
    Sparse.sorted (s.measureVin vin low).regs = true := sorted_set _ _ _ _ (sorted_set _ _ _ _ hs)

theorem voutOverloaded_get_vout {s : State} (hs : Sparse.sorted s.regs = true) (vin : Nat) :
    (s.voutOverloaded vin).get Reg.PWR_STAT_VOUT_OVL = 1 :=
  get_set_same _ _ _ _ (measureVin_sorted hs vin vin)

/-- Fields outside PWR_VIN read as before a measurement of VIN. -/
theorem measureVin_get_other (s : State) (vin low : Nat) {g : Fld} {jx : List Nat} (hv : g.key jx ≠ Reg.PWR_VIN_VIN.key [])
    (hm : g.key jx ≠ Reg.PWR_VIN_VIN_MIN.key []) : (s.measureVin vin low).get g jx = s.get g jx :=
  (get_set_other _ _ _ _ _ _ hm).trans (get_set_other _ _ _ _ _ _ hv)

/-- Fields outside PWR_VIN and PWR_STAT.VOUT_OVL read as before. -/
theorem voutOverloaded_on_other (s : State) (vin : Nat) {g : Fld} {jx : List Nat} (hv : g.key jx ≠ Reg.PWR_VIN_VIN.key [])
    (hm : g.key jx ≠ Reg.PWR_VIN_VIN_MIN.key []) (ho : g.key jx ≠ Reg.PWR_STAT_VOUT_OVL.key []) :
    (s.voutOverloaded vin).on g jx = s.on g jx :=
  congrArg (· != 0) ((get_set_other _ _ _ _ _ _ ho).trans (measureVin_get_other s vin vin hv hm))

theorem voutOverloaded_on_frozen (s : State) (vin : Nat) :
    (s.voutOverloaded vin).on Reg.DIAG_STAT_FROZEN = s.on Reg.DIAG_STAT_FROZEN :=
  voutOverloaded_on_other s vin (by decide) (by decide) (by decide)

theorem voutOverloaded_on_degraded (s : State) (vin : Nat) :
    (s.voutOverloaded vin).on Reg.TALLY_STAT_DEGRADED = s.on Reg.TALLY_STAT_DEGRADED :=
  voutOverloaded_on_other s vin (by decide) (by decide) (by decide)

/-! The overload of VOUT_3V3 with its record (R60) -/

/-- The state after VOUT_OVERLOAD: the flag is set, then record 0x4003 is written. -/
def voutRecorded (s : State) (vin : Nat) : State := (s.voutOverloaded vin).recordT 0x4003 4 powerSrc vin 0

/-- The record leaves the flag as it was set. -/
theorem voutRecorded_get_vout {s : State} (hs : Sparse.sorted s.regs = true) (vin : Nat) :
    (s.voutRecorded vin).get Reg.PWR_STAT_VOUT_OVL = 1 :=
  (recordT_get _ _ _ _ _ _ _ _ (by decide)).trans (voutOverloaded_get_vout hs vin)

theorem voutRecorded_power (s : State) (vin : Nat) : (s.voutRecorded vin).power = s.power :=
  (recordT_power ..).trans (voutOverloaded_power s vin)

theorem voutRecorded_pins (s : State) (vin : Nat) : (s.voutRecorded vin).pins = s.pins :=
  (recordT_pins ..).trans (voutOverloaded_pins s vin)

/-- The node keeps running, or stays stopped. -/
theorem voutRecorded_alive (s : State) (vin : Nat) : (s.voutRecorded vin).alive = s.alive := by
  have hfrozen : (s.voutRecorded vin).on Reg.DIAG_STAT_FROZEN = s.on Reg.DIAG_STAT_FROZEN :=
    (recordT_on _ _ _ _ _ _ _ _ (by decide)).trans (voutOverloaded_on_frozen s vin)
  simp only [alive, voutRecorded_power, hfrozen]

theorem voutRecorded_alarm {s : State} (hs : Sparse.sorted s.regs = true) (hp : s.power.on = true)
    (hh : s.pins.alarmHeld = none) (vin : Nat) : (s.voutRecorded vin).alarm = true := by
  refine alarm_of_vout ?_ ?_ ?_
  · rw [voutRecorded_power, hp]
  · rw [voutRecorded_pins, hh]
  · simp [on, voutRecorded_get_vout hs]

/-- Where the queue has a place, record 0x4003 stands at its end. -/
theorem voutRecorded_queue {s : State} (hd : s.on Reg.TALLY_STAT_DEGRADED = false) (hp : s.hasPlace 0x4003 0 = true) (vin : Nat) :
    ∃ r, (s.voutRecorded vin).tally.queue = s.tally.queue ++ [r] ∧ r.code = 0x4003 := by
  have hd' := (voutOverloaded_on_degraded s vin).trans hd
  have hp' := (hasPlace_congr (voutOverloaded_tally s vin) (voutOverloaded_on_degraded s vin) 0x4003 0).trans hp
  exact ⟨_, enqueue_tally_queue hd' hp' .., rfl⟩

/-- Nothing but registers, the tally book, the console's clock and its output changes. -/
theorem voutRecorded_frame (s : State) (vin : Nat) :
    { s.voutRecorded vin with regs := s.regs, tally := s.tally, clock := s.clock, out := s.out } = s :=
  calc { s.voutRecorded vin with regs := s.regs, tally := s.tally, clock := s.clock, out := s.out }
    _ = { s.voutOverloaded vin with regs := s.regs } :=
      congrArg (fun u : State => { u with regs := s.regs }) (recordT_frame (s.voutOverloaded vin) 0x4003 4 powerSrc vin 0)
    _ = s := voutOverloaded_frame s vin

end State

/-- VOUT_OVERLOAD on a running node. -/
theorem exec_voutOverload_of_alive {s : State} (ha : s.alive = true) (vin : Nat) :
    exec (.voutOverload vin) s = .next (s.voutRecorded vin) := by
  change execVoutOverload vin s = _
  unfold execVoutOverload
  rw [if_pos ha]
  rfl

/-- Settles O21: the flag is set and is a cause of ALARM_N, and the record that follows touches only the tally book and the console. -/
theorem voutOverload : Obligations.VoutOverload := by
  intro s vin hc ha
  have hon : s.power.on = true := (Bool.and_eq_true_iff.mp ha).1
  exact ⟨s.voutRecorded vin, exec_voutOverload_of_alive ha vin, State.voutRecorded_get_vout hc.regs vin,
    fun hh => State.voutRecorded_alarm hc.regs hon hh vin, fun hd hp => State.voutRecorded_queue hd hp vin,
    (State.voutRecorded_alive s vin).trans ha, State.voutRecorded_frame s vin⟩

end Sys2Proof.Machine

/-!
NOP completes once it may start, and FENCE keeps a descriptor from starting before its queue's oldest one is done (R395).
-/

namespace Sys2Proof.Machine

/-- R382: with FENCE set, a descriptor that is not its queue's oldest may not start, whatever its opcode. -/
theorem State.ready_eq_none_of_fence {s : State} {t q i : Nat} {w v : Work} {l : List Work}
    (hw : ((s.queue t q).works.find? fun x => x.idx == i) = some w) (hf : bit w.desc.flags 0 = true)
    (hq : (s.queue t q).works = v :: l) (hv : v.idx ≠ i) (op : Nat) : s.ready t q i op = none := by
  have hfirst : (v.idx == i) = false := beq_false_of_ne hv
  unfold State.ready
  split
  case isTrue => rfl
  case isFalse =>
    rw [hw]
    simp [hq, hf, hfirst]

/-- A NOP that may start completes with OK and its argument. -/
theorem exec_nop_of_ready {s : State} {n : Fin 17} {q : Fin 16} {i : Nat} {d : Desc} (ha : s.alive = true)
    (hr : s.ready n.val q.val i 0x00 = some d) : exec (.nop n q i) s = .next (s.complete n.val q.val i 0 0 d.arg0) := by
  change execNop n q i s = _
  simp [execNop, ha, hr]

/-- A NOP that may not start changes nothing. -/
theorem exec_nop_of_not_ready {s : State} {n : Fin 17} {q : Fin 16} {i : Nat}
    (hr : s.ready n.val q.val i 0x00 = none) : exec (.nop n q i) s = .next s := by
  change execNop n q i s = _
  simp [execNop, hr]

/-- Settles O46: a NOP that may start is completed, and FENCE behind an earlier descriptor keeps it from starting. -/
theorem nopCompletes : Obligations.NopCompletes := by
  intro s n q i ha
  constructor
  · intro d hr
    exact exec_nop_of_ready ha hr
  · intro w v l hw hf hq hv
    exact exec_nop_of_not_ready (State.ready_eq_none_of_fence hw hf hq hv 0x00)

end Sys2Proof.Machine

/-!
The places of the tally book's queue, what happens to a record that finds none, and the records 0x2004 that make up for it (R527).
-/

namespace Sys2Proof.Machine

namespace State

/-! Which records have a place (R527) -/

theorem reservedPlace_iff (code flags : Nat) :
    reservedPlace code flags = true ↔ code / 4096 = 1 ∨ code / 4096 = 2 ∨ flags % 2 = 1 := by
  simp [reservedPlace, or_assoc]

/-- Records that may not take the last 32 places find one below 4,064 records, the others below 4,096. -/
theorem hasPlace_iff {s : State} (hd : s.on Reg.TALLY_STAT_DEGRADED = false) (code flags : Nat) :
    s.hasPlace code flags = true ↔ s.tally.queue.length < 4064 ∨
      (s.tally.queue.length < 4096 ∧ (code / 4096 = 1 ∨ code / 4096 = 2 ∨ flags % 2 = 1)) := by
  simp only [hasPlace, hd, Bool.false_or, decide_eq_true_eq, ← reservedPlace_iff]
  by_cases hr : reservedPlace code flags = true
  · simp only [hr, if_true, and_true]
    omega
  · simp [hr]

/-! A record without a place (R527) -/

theorem get_inc_same {s : State} (hs : Sparse.sorted s.regs = true) (f : Fld) (ix : List Nat) (n : Nat) :
    (s.inc f ix n).get f ix = min (s.get f ix + n) (2 ^ f.width - 1) := by
  have hpos : 0 < 2 ^ f.width := Nat.two_pow_pos _
  exact (get_set_same _ _ _ _ hs).trans (Nat.mod_eq_of_lt (by omega))

theorem find_addOverflow_same (l : List (Nat × Nat)) (src : Nat) :
    Sparse.find src (addOverflow l src) = some ((Sparse.find src l).getD 0 + 1) := Sparse.find_put_same ..

theorem find_addOverflow_other {k src : Nat} (h : k ≠ src) (l : List (Nat × Nat)) :
    Sparse.find k (addOverflow l src) = Sparse.find k l := Sparse.find_put_other h ..

/-- A count never stays as it was. -/
theorem addOverflow_ne (l : List (Nat × Nat)) (src : Nat) : addOverflow l src ≠ l := by
  intro he
  have hfind := find_addOverflow_same l src
  rw [he] at hfind
  cases hs : Sparse.find src l <;> simp [hs] at hfind

theorem enqueue_of_not_hasPlace {s : State} {code flags : Nat} (hp : s.hasPlace code flags = false) (sev src p0 p1 p2 : Nat) :
    s.enqueue code sev src flags p0 p1 p2 =
      (s.inc Reg.TALLY_CNT_OVERFLOW).modTally fun t => { t with overflow := addOverflow t.overflow src } := by
  simp [enqueue, hp]

/-- A record without a place takes no sequence number. -/
theorem enqueue_get_seq_of_not_hasPlace {s : State} {code flags : Nat} (hp : s.hasPlace code flags = false)
    (sev src p0 p1 p2 : Nat) :
    (s.enqueue code sev src flags p0 p1 p2).get Reg.TALLY_SEQ_NEXT = s.get Reg.TALLY_SEQ_NEXT := by
  rw [enqueue_of_not_hasPlace hp]
  exact get_set_other _ _ _ _ _ _ (by decide)

theorem enqueue_overflow_of_not_hasPlace {s : State} {code flags : Nat} (hp : s.hasPlace code flags = false)
    (sev src p0 p1 p2 : Nat) :
    (s.enqueue code sev src flags p0 p1 p2).tally.overflow = addOverflow s.tally.overflow src := by
  rw [enqueue_of_not_hasPlace hp]
  rfl

theorem enqueue_get_cnt_of_not_hasPlace {s : State} (hs : Sparse.sorted s.regs = true) {code flags : Nat}
    (hp : s.hasPlace code flags = false) (sev src p0 p1 p2 : Nat) :
    (s.enqueue code sev src flags p0 p1 p2).get Reg.TALLY_CNT_OVERFLOW =
      min (s.get Reg.TALLY_CNT_OVERFLOW + 1) (2 ^ Reg.TALLY_CNT_OVERFLOW.width - 1) := by
  rw [enqueue_of_not_hasPlace hp]
  exact get_inc_same hs ..

/-! A record with a place: the counts of lost records and the recorder's mode stay -/

/-- The emergency copy leaves the counts of lost records alone. -/
@[simp] theorem emerCopy_tally_overflow (s : State) (r : Rec) : (s.emerCopy r).tally.overflow = s.tally.overflow := by
  unfold emerCopy
  split
  · rfl
  · split <;> rfl

theorem enqueue_overflow_of_hasPlace {s : State} {code flags : Nat} (hp : s.hasPlace code flags = true)
    (sev src p0 p1 p2 : Nat) : (s.enqueue code sev src flags p0 p1 p2).tally.overflow = s.tally.overflow := by
  unfold enqueue
  rw [if_pos hp, consoleLine_tally, emerCopy_tally_overflow]
  rfl

/-- A write of another place leaves a one-bit field. -/
theorem on_set_other {s : State} {f g : Fld} {ix jx : List Nat} (h : g.key jx ≠ f.key ix) (v : Nat) :
    (s.set f ix v).on g jx = s.on g jx := congrArg (· != 0) (get_set_other _ _ _ _ _ _ h)

@[simp] theorem queueRec_on_degraded (s : State) (r : Rec) :
    (s.queueRec r).on Reg.TALLY_STAT_DEGRADED = s.on Reg.TALLY_STAT_DEGRADED :=
  (on_set_other (by decide) _).trans (on_set_other (by decide) _)

@[simp] theorem emerCopy_on_degraded (s : State) (r : Rec) :
    (s.emerCopy r).on Reg.TALLY_STAT_DEGRADED = s.on Reg.TALLY_STAT_DEGRADED := by
  unfold emerCopy
  split
  · rfl
  · split
    · exact on_set_other (by decide) _
    · exact on_set_other (by decide) _

@[simp] theorem consoleLine_on_degraded (s : State) (r : Rec) :
    (s.consoleLine r).on Reg.TALLY_STAT_DEGRADED = s.on Reg.TALLY_STAT_DEGRADED := by
  unfold consoleLine
  split
  · split
    · exact on_set_other (by decide) _
    · rfl
  · rfl

/-- A record, queued or not, leaves the recorder's mode. -/
theorem enqueue_on_degraded (s : State) (code sev src flags p0 p1 p2 : Nat) :
    (s.enqueue code sev src flags p0 p1 p2).on Reg.TALLY_STAT_DEGRADED = s.on Reg.TALLY_STAT_DEGRADED := by
  unfold enqueue
  split
  · simp
  · exact on_set_other (by decide) _

/-! The records 0x2004 (R527) -/

/-- One source's turn in OVERFLOW_RECORD: its record 0x2004, and its count taken off. -/
def overflowStep (s : State) (x : Nat × Nat) : State :=
  if s.hasPlace 0x2004 0 then
    (s.recordT 0x2004 3 0 x.1 x.2).modTally fun t => { t with overflow := Sparse.del x.1 t.overflow }
  else s

/-- With places free, OVERFLOW_RECORD gives each counted source its turn. -/
theorem overflowRecords_of_places {s : State} (hd : s.on Reg.TALLY_STAT_DEGRADED = false) (hq : s.tally.queue.length < 4064) :
    s.overflowRecords = s.tally.overflow.foldl overflowStep s := by
  have hn : ¬ s.tally.queue.length ≥ 4064 := Nat.not_le.mpr hq
  simp only [overflowRecords, hd, Bool.false_or, decide_eq_true_eq, if_neg hn]
  rfl

/-- Class 0x2 may take the last 32 places, so a record 0x2004 has one while the queue is not full. -/
theorem hasPlace_overflowRecord {s : State} (hd : s.on Reg.TALLY_STAT_DEGRADED = false) (hq : s.tally.queue.length < 4096) :
    s.hasPlace 0x2004 0 = true := (hasPlace_iff hd _ _).mpr (.inr ⟨hq, .inr (.inl rfl)⟩)

theorem overflowStep_of_hasPlace {s : State} (hp : s.hasPlace 0x2004 0 = true) (x : Nat × Nat) :
    s.overflowStep x =
      (s.recordT 0x2004 3 0 x.1 x.2).modTally fun t => { t with overflow := Sparse.del x.1 t.overflow } := if_pos hp

/-- A source's turn leaves the recorder's mode. -/
theorem overflowStep_on_degraded (s : State) (x : Nat × Nat) :
    (s.overflowStep x).on Reg.TALLY_STAT_DEGRADED = s.on Reg.TALLY_STAT_DEGRADED := by
  unfold overflowStep
  split
  · exact enqueue_on_degraded ..
  · rfl

/-- The source whose count stands first loses it in its turn. -/
theorem overflowStep_overflow {s : State} (hp : s.hasPlace 0x2004 0 = true) {x : Nat × Nat} {l : List (Nat × Nat)}
    (hl : s.tally.overflow = x :: l) : (s.overflowStep x).tally.overflow = l := by
  have hkept : (s.recordT 0x2004 3 0 x.1 x.2).tally.overflow = x :: l := (enqueue_overflow_of_hasPlace hp ..).trans hl
  simp [overflowStep_of_hasPlace hp, hkept, Sparse.del]

/-- In its turn a source's record, which names it and carries its count, enters the queue last. -/
theorem overflowStep_queue {s : State} (hd : s.on Reg.TALLY_STAT_DEGRADED = false) (hp : s.hasPlace 0x2004 0 = true)
    (x : Nat × Nat) : ∃ r : Rec, (s.overflowStep x).tally.queue = s.tally.queue ++ [r] ∧
      (r.code, r.p1, r.p2) = (0x2004, x.1 % 2 ^ 32, x.2 % 2 ^ 32) := by
  rw [overflowStep_of_hasPlace hp]
  exact ⟨_, enqueue_tally_queue hd hp .., rfl⟩

/-- Where the queue has room for a record of every counted source, each gets its record, in order, and no count is left. -/
theorem foldl_overflowStep (l : List (Nat × Nat)) : ∀ s : State, s.on Reg.TALLY_STAT_DEGRADED = false → s.tally.overflow = l →
    s.tally.queue.length + l.length ≤ 4096 →
    (l.foldl overflowStep s).tally.overflow = [] ∧
      ∃ rs : List Rec, (l.foldl overflowStep s).tally.queue = s.tally.queue ++ rs ∧
        (rs.map fun r => (r.code, r.p1, r.p2)) = l.map fun x => (0x2004, x.1 % 2 ^ 32, x.2 % 2 ^ 32) := by
  induction l with
  | nil => exact fun s _ hl _ => ⟨hl, [], by simp⟩
  | cons x l ih =>
    intro s hd hl hroom
    rw [List.length_cons] at hroom
    have hp : s.hasPlace 0x2004 0 = true := hasPlace_overflowRecord hd (by omega)
    obtain ⟨r, hq, hr⟩ := overflowStep_queue hd hp x
    have hroom' : (s.overflowStep x).tally.queue.length + l.length ≤ 4096 := by
      rw [hq, List.length_append, List.length_singleton]
      omega
    obtain ⟨hempty, rs, hqs, hrs⟩ :=
      ih (s.overflowStep x) ((overflowStep_on_degraded s x).trans hd) (overflowStep_overflow hp hl) hroom'
    refine ⟨hempty, r :: rs, ?_, ?_⟩
    · rw [List.foldl_cons, hqs, hq, List.append_assoc, List.singleton_append]
    · rw [List.map_cons, List.map_cons, hr, hrs]

/-! TALLY_MARK without a place (R527, R542) -/

theorem sluiced_of_ungoverned {s : State} {code : Nat} (h : s.sluiceEntry code = none) (sev src p0 p1 p2 : Nat) :
    s.sluiced code sev src p0 p1 p2 = s.enqueue code sev src 0 p0 p1 p2 := by
  simp [sluiced, h]

/-- A mark that no sluice entry governs and that finds no place is counted, and completes with NO_RESOURCE (7). -/
theorem tallyMark_of_not_hasPlace {s : State} {d : Desc} (hsev : d.arg0 / 2 ^ 16 % 8 ≤ 3)
    (hsl : s.sluiceEntry (0x8000 + d.arg0 % 4096) = none) (hp : s.hasPlace (0x8000 + d.arg0 % 4096) 0 = false) (t q i : Nat) :
    s.tallyMark t q i d = (s.enqueue (0x8000 + d.arg0 % 4096) (d.arg0 / 2 ^ 16 % 8) (15 + t) 0 (d.arg1 % 2 ^ 32)
      (d.arg1 / 2 ^ 32) (d.arg0 / 2 ^ 32)).complete t q i 7 0 0 := by
  have hok : ¬ d.arg0 / 2 ^ 16 % 8 > 3 := Nat.not_lt.mpr hsev
  simp only [tallyMark, if_neg hok, sluiced_of_ungoverned hsl, enqueue_get_seq_of_not_hasPlace hp,
    enqueue_overflow_of_not_hasPlace hp]
  simp [addOverflow_ne]

end State

/-- OVERFLOW_RECORD on a running node. -/
theorem exec_overflowRecord_of_alive {s : State} (ha : s.alive = true) : exec .overflowRecord s = .next s.overflowRecords := by
  change execOverflowRecord s = _
  simp [execOverflowRecord, ha]

/-- A TALLY_MARK that may start. -/
theorem exec_tallyMark_of_ready {s : State} {n : Fin 17} {q : Fin 16} {i : Nat} {d : Desc} (ha : s.alive = true)
    (hr : s.ready n.val q.val i 0x21 = some d) : exec (.tallyMark n q i) s = .next (s.tallyMark n.val q.val i d) := by
  change execTallyMark n q i s = _
  simp [execTallyMark, ha, hr]

/-- Settles O11: places by the record's class, a lost record's counts, the records 0x2004 by induction on the counted sources, and the mark
without a place. -/
theorem placesOfTheTallyQueue : Obligations.PlacesOfTheTallyQueue := by
  intro s hc
  refine ⟨?_, ?_, ?_, ?_⟩
  · exact fun code flags hd => State.hasPlace_iff hd code flags
  · intro code sev src flags p0 p1 p2 hp t
    have ht : t = _ := State.enqueue_of_not_hasPlace hp sev src p0 p1 p2
    have hover : t.tally.overflow = _ := State.enqueue_overflow_of_not_hasPlace hp sev src p0 p1 p2
    refine ⟨?_, State.enqueue_get_seq_of_not_hasPlace hp .., State.enqueue_get_cnt_of_not_hasPlace hc.regs hp .., ?_, ?_, ?_⟩
    · rw [ht]
      rfl
    · rw [hover]
      exact State.find_addOverflow_same ..
    · intro k hk
      rw [hover]
      exact State.find_addOverflow_other hk _
    · rw [ht]
      rfl
  · intro ha hd hq hroom
    obtain ⟨hempty, rs, hqueue, hrs⟩ := State.foldl_overflowStep s.tally.overflow s hd rfl hroom
    rw [← State.overflowRecords_of_places hd hq] at hempty hqueue
    exact ⟨s.overflowRecords, rs, exec_overflowRecord_of_alive ha, hempty, hqueue, hrs⟩
  · intro n q i d ha hr hsev hsl hp
    rw [exec_tallyMark_of_ready ha hr, State.tallyMark_of_not_hasPlace hsev hsl hp]

end Sys2Proof.Machine

/-!
A refused request for the mill brake: it is counted and recorded, and nothing else happens (R608).
-/

namespace Sys2Proof.Machine

namespace State

/-- A node runs while it is powered and not frozen. -/
theorem alive_iff {s : State} : s.alive = true ↔ s.power.on = true ∧ s.on Reg.DIAG_STAT_FROZEN = false := by
  simp [alive]

/-! The refusal at the time of its record (R608) -/

/-- The refusal's count leaves every other one-bit field. -/
theorem inc_refused_on_other (s : State) {g : Fld} {jx : List Nat} (h : g.key jx ≠ Reg.DIAG_CNT_REFUSED.key []) :
    (s.inc Reg.DIAG_CNT_REFUSED).on g jx = s.on g jx := on_set_other h _

theorem inc_refused_hasPlace (s : State) (code flags : Nat) :
    (s.inc Reg.DIAG_CNT_REFUSED).hasPlace code flags = s.hasPlace code flags :=
  hasPlace_congr (s := s) (t := s.inc Reg.DIAG_CNT_REFUSED) rfl (inc_refused_on_other s (by decide)) code flags

/-! The refusal with its record (R608) -/

/-- The record leaves the count, which saturates. -/
theorem brakeRefused_get_refused {s : State} (hs : Sparse.sorted s.regs = true) (what : Nat) :
    (s.brakeRefused what).get Reg.DIAG_CNT_REFUSED =
      min (s.get Reg.DIAG_CNT_REFUSED + 1) (2 ^ Reg.DIAG_CNT_REFUSED.width - 1) :=
  (recordT_get _ _ _ _ _ _ _ _ (by decide)).trans (get_inc_same hs _ _ _)

/-- Where the queue has a place, record 0x5040 stands at its end and tells what was refused. -/
theorem brakeRefused_queue {s : State} (hd : s.on Reg.TALLY_STAT_DEGRADED = false) (hp : s.hasPlace 0x5040 0 = true)
    {what : Nat} (hw : what < 2 ^ 32) :
    ∃ r, (s.brakeRefused what).tally.queue = s.tally.queue ++ [r] ∧ r.code = 0x5040 ∧ r.p1 = what := by
  have hd' := (inc_refused_on_other s (by decide)).trans hd
  have hp' := (inc_refused_hasPlace s 0x5040 0).trans hp
  exact ⟨_, enqueue_tally_queue hd' hp' .., rfl, Nat.mod_eq_of_lt hw⟩

/-- The node keeps running, or stays stopped. -/
theorem brakeRefused_alive (s : State) (what : Nat) : (s.brakeRefused what).alive = s.alive := by
  have hpower : (s.brakeRefused what).power = s.power := recordT_power ..
  have hfrozen : (s.brakeRefused what).on Reg.DIAG_STAT_FROZEN = s.on Reg.DIAG_STAT_FROZEN :=
    (recordT_on _ _ _ _ _ _ _ _ (by decide)).trans (inc_refused_on_other s (by decide))
  simp only [alive, hpower, hfrozen]

/-- Nothing but registers, the tally book, the console's clock and its output changes. -/
theorem brakeRefused_frame (s : State) (what : Nat) :
    { s.brakeRefused what with regs := s.regs, tally := s.tally, clock := s.clock, out := s.out } = s :=
  congrArg (fun u : State => { u with regs := s.regs })
    (recordT_frame (s.inc Reg.DIAG_CNT_REFUSED) 0x5040 4 12 what s.sec.lifecycle)

/-- Without FRZ_EN, a request to a node that is not frozen is refused. -/
theorem brakeRequest_of_not_enabled {s : State} (hz : s.on Reg.DIAG_STAT_FROZEN = false)
    (he : s.on Reg.DIAG_STAT_FRZ_EN = false) (cause : Nat) (tear : Bool) :
    s.brakeRequest cause tear = s.brakeRefused cause := by
  simp [brakeRequest, hz, he]

/-! The traces of the request itself: the level of FREEZE_N and the port's instruction register -/

/-- The state with a level of FREEZE_N and an instruction in the debug port's instruction register. -/
def withRequest (s : State) (low : Bool) (ir : Nat) : State :=
  { s with pins := { s.pins with freezeLow := low }, dbg := { s.dbg with ir := ir } }

/-- Neither trace enables the mill brake or applies it. -/
theorem withRequest_brakeRequest_of_not_enabled {s : State} (hz : s.on Reg.DIAG_STAT_FROZEN = false)
    (he : s.on Reg.DIAG_STAT_FRZ_EN = false) (low : Bool) (ir cause : Nat) (tear : Bool) :
    (s.withRequest low ir).brakeRequest cause tear = (s.withRequest low ir).brakeRefused cause :=
  brakeRequest_of_not_enabled (s := s.withRequest low ir) hz he cause tear

/-- A refused request leaves no more than the level, the instruction, the count and the record. -/
theorem withRequest_brakeRefused_frame (s : State) (low : Bool) (ir what : Nat) :
    let t := (s.withRequest low ir).brakeRefused what
    { t with regs := s.regs, tally := s.tally, clock := s.clock, out := s.out,
             pins := { t.pins with freezeLow := s.pins.freezeLow }, dbg := { t.dbg with ir := s.dbg.ir } } = s :=
  congrArg (fun u : State => { u with pins := { u.pins with freezeLow := s.pins.freezeLow },
                                      dbg := { u.dbg with ir := s.dbg.ir } })
    (brakeRefused_frame (s.withRequest low ir) what)

end State

/-- A falling edge of FREEZE_N without FRZ_EN. -/
theorem exec_freezeNLow_of_not_enabled {s : State} (ha : s.alive = true) (he : s.on Reg.DIAG_STAT_FRZ_EN = false)
    (held tear : Bool) :
    exec (.freezeNLow held tear) s = .next ((s.withRequest held s.dbg.ir).brakeRefused 0) := by
  obtain ⟨hon, hz⟩ := State.alive_iff.mp ha
  calc exec (.freezeNLow held tear) s
    _ = .next (if s.power.on then (s.withRequest held s.dbg.ir).brakeRequest 0 tear else s.withRequest held s.dbg.ir) := rfl
    _ = .next ((s.withRequest held s.dbg.ir).brakeRefused 0) := by
      rw [if_pos hon, State.withRequest_brakeRequest_of_not_enabled hz he]

/-- A FREEZE instruction without FRZ_EN. -/
theorem exec_freeze_of_not_enabled {s : State} (ha : s.alive = true) (he : s.on Reg.DIAG_STAT_FRZ_EN = false) (tear : Bool) :
    exec (.freeze tear) s = .next ((s.withRequest s.pins.freezeLow 0x30).brakeRefused 1) := by
  obtain ⟨hon, hz⟩ := State.alive_iff.mp ha
  calc exec (.freeze tear) s
    _ = .next (if s.power.on then (s.withRequest s.pins.freezeLow 0x30).brakeRequest 1 tear else s) := rfl
    _ = .next ((s.withRequest s.pins.freezeLow 0x30).brakeRefused 1) := by
      rw [if_pos hon, State.withRequest_brakeRequest_of_not_enabled hz he]

/-- Either request without FRZ_EN is refused, and leaves its traces. -/
theorem exec_request_of_not_enabled {s : State} {c : Instr} {kind : Nat} (ha : s.alive = true)
    (he : s.on Reg.DIAG_STAT_FRZ_EN = false)
    (hk : ((∃ held tear, c = .freezeNLow held tear) ∧ kind = 0) ∨ ((∃ tear, c = .freeze tear) ∧ kind = 1)) :
    kind < 2 ^ 32 ∧ ∃ low ir, exec c s = .next ((s.withRequest low ir).brakeRefused kind) := by
  obtain ⟨⟨held, tear, rfl⟩, rfl⟩ | ⟨⟨tear, rfl⟩, rfl⟩ := hk
  · exact ⟨by decide, held, s.dbg.ir, exec_freezeNLow_of_not_enabled ha he held tear⟩
  · exact ⟨by decide, s.pins.freezeLow, 0x30, exec_freeze_of_not_enabled ha he tear⟩

/-- Settles O59: both requests end in the same refusal, whose count and record are all that the node's functions see of it. -/
theorem refusedBrakeRequest : Obligations.RefusedBrakeRequest := by
  intro s c kind hc ha he hk
  obtain ⟨hkind, low, ir, hexec⟩ := exec_request_of_not_enabled ha he hk
  exact ⟨(s.withRequest low ir).brakeRefused kind, hexec, (State.brakeRefused_alive ..).trans ha,
    State.brakeRefused_get_refused (s := s.withRequest low ir) hc.regs kind,
    fun hd hp => State.brakeRefused_queue (s := s.withRequest low ir) hd hp hkind,
    State.withRequest_brakeRefused_frame s low ir kind⟩

end Sys2Proof.Machine

/-!
The machine as a whole: what every command and every step keeps, and what a step answers.
-/

namespace Sys2Proof.Machine

namespace State

/-- The canonical forms hold after whatever keeps them. -/
theorem Canon.of_keeps {s t : State} (hc : s.Canon) (h : Keeps s t) : t.Canon :=
  ⟨h.regs hc.regs, h.window hc.window, h.tally hc.tally⟩

/-- The commands that wait are no part of the canonical forms. -/
theorem Canon.with_pending {s : State} (hc : s.Canon) (l : List Instr) : { s with pending := l }.Canon :=
  ⟨hc.regs, hc.window, hc.tally⟩

end State

/-- What every operation keeps, every command keeps. -/
theorem exec_keeps {c : Instr} {s t : State} (h : exec c s = .next t) : State.Keeps s t := by
  cases c with
  | powerOnReset pair chanB pref refclk xt32 aoLost vback => exact execPowerOnReset_keeps (.refl s) pair chanB pref refclk xt32 aoLost vback h
  | resetNLow => exact execResetNLow_keeps (.refl s) h
  | vinRstReached vin torn => exact execVinRstReached_keeps (.refl s) vin torn h
  | nodeRefLost => exact execNodeRefLost_keeps (.refl s) h
  | fatalFault => exact execFatalFault_keeps (.refl s) h
  | resetEscalation => exact execResetEscalation_keeps (.refl s) h
  | rstCmdFullReset port => exact execRstCmdFullReset_keeps (.refl s) port h
  | rstCmdFwRestart port => exact execRstCmdFwRestart_keeps (.refl s) port h
  | bootStageComplete b => exact execBootStageComplete_keeps (.refl s) b h
  | fwWatchdogExpiry => exact execFwWatchdogExpiry_keeps (.refl s) h
  | fwException => exact execFwException_keeps (.refl s) h
  | fwRestartComplete => exact execFwRestartComplete_keeps (.refl s) h
  | lockstepMismatch p => exact execLockstepMismatch_keeps (.refl s) p h
  | lockstepRestartDone p => exact execLockstepRestartDone_keeps (.refl s) p h
  | updateRestart => exact execUpdateRestart_keeps (.refl s) h
  | fwTrialEnd => exact execFwTrialEnd_keeps (.refl s) h
  | slackEntry vin => exact execSlackEntry_keeps (.refl s) vin h
  | slackPersist fail => exact execSlackPersist_keeps (.refl s) fail h
  | slackShed => exact execSlackShed_keeps (.refl s) h
  | slackExit vin low dur => exact execSlackExit_keeps (.refl s) vin low dur h
  | deferredTrickleUnit vin fail => exact execDeferredTrickleUnit_keeps (.refl s) vin fail h
  | voutOverload vin => exact execVoutOverload_keeps (.refl s) vin h
  | pwrSwRequest off => exact execPwrSwRequest_keeps (.refl s) off h
  | domainPowered n => exact execDomainPowered_keeps (.refl s) n h
  | gxCrystalLost => exact execGxCrystalLost_keeps (.refl s) h
  | gxPpmFault diff => exact execGxPpmFault_keeps (.refl s) diff h
  | xt32Lost => exact execXt32Lost_keeps (.refl s) h
  | optimeIncrement m => exact execOptimeIncrement_keeps (.refl s) m h
  | pointerPersist fail => exact execPointerPersist_keeps (.refl s) fail h
  | anchorPeriodic => exact execAnchorPeriodic_keeps (.refl s) h
  | registerWrite r bar2 off size v given => exact execRegisterWrite_keeps (.refl s) r bar2 off size v given h
  | readClear r bar2 off size => exact execReadClear_keeps (.refl s) r bar2 off size h
  | latchedLowRead r bar2 off => exact execLatchedLowRead_keeps (.refl s) r bar2 off h
  | lockSet r k => exact execLockSet_keeps (.refl s) r k h
  | turnLoadPeakClear => exact execTurnLoadPeakClear_keeps (.refl s) h
  | turnEnable => exact execTurnEnable_keeps (.refl s) h
  | gpioEdge k rise => exact execGpioEdge_keeps (.refl s) k rise h
  | tick loads armed crcBad parityBad => exact execTick_keeps (.refl s) loads armed crcBad parityBad h
  | jobDegraded u => exact execJobDegraded_keeps (.refl s) u h
  | jobRestored u => exact execJobRestored_keeps (.refl s) u h
  | jobLateCompletion u load => exact execJobLateCompletion_keeps (.refl s) u load h
  | creditReturn c => exact execCreditReturn_keeps (.refl s) c h
  | nitCorrection => exact execNitCorrection_keeps (.refl s) h
  | selfSilentExit => exact execSelfSilentExit_keeps (.refl s) h
  | wideningEnd => exact execWideningEnd_keeps (.refl s) h
  | ratePersist => exact execRatePersist_keeps (.refl s) h
  | ppsOutPulse => exact execPpsOutPulse_keeps (.refl s) h
  | taiArm => exact execTaiArm_keeps (.refl s) h
  | ppsInEdge => exact execPpsInEdge_keeps (.refl s) h
  | taiArmMissed => exact execTaiArmMissed_keeps (.refl s) h
  | gptpAlign ns => exact execGptpAlign_keeps (.refl s) ns h
  | timeMessageSend => exact execTimeMessageSend_keeps (.refl s) h
  | timeMessageReceive sender body => exact execTimeMessageReceive_keeps (.refl s) sender body h
  | taiAlignAtTick => exact execTaiAlignAtTick_keeps (.refl s) h
  | probeListenEnd n => exact execProbeListenEnd_keeps (.refl s) n h
  | probeMasterEnd n => exact execProbeMasterEnd_keeps (.refl s) n h
  | trainingSignalDetect n rate => exact execTrainingSignalDetect_keeps (.refl s) n rate h
  | slaveResponse n => exact execSlaveResponse_keeps (.refl s) n h
  | trainingFail n => exact execTrainingFail_keeps (.refl s) n h
  | phyLinkUp n sqi => exact execPhyLinkUp_keeps (.refl s) n sqi h
  | identifyTimeout n => exact execIdentifyTimeout_keeps (.refl s) n h
  | probeCeilingReset n => exact execProbeCeilingReset_keeps (.refl s) n h
  | lpRetry n => exact execLpRetry_keeps (.refl s) n h
  | linkLoss n => exact execLinkLoss_keeps (.refl s) n h
  | kickoffSend => exact execKickoffSend_keeps (.refl s) h
  | relayOriginate slot corr => exact execRelayOriginate_keeps (.refl s) slot corr h
  | relayMidOriginate n slot corr => exact execRelayMidOriginate_keeps (.refl s) n slot corr h
  | staticSlotTransmit slot corr => exact execStaticSlotTransmit_keeps (.refl s) slot corr h
  | frameBuild slot => exact execFrameBuild_keeps (.refl s) slot h
  | publishFetch t flip => exact execPublishFetch_keeps (.refl s) t flip h
  | publishFetchDone t data => exact execPublishFetchDone_keeps (.refl s) t data h
  | dynamicSegment => exact execDynamicSegment_keeps (.refl s) h
  | hopExtraSend n => exact execHopExtraSend_keeps (.refl s) n h
  | hopPeriodicSend n => exact execHopPeriodicSend_keeps (.refl s) n h
  | staticFrameReceive n f c => exact execStaticFrameReceive_keeps (.refl s) n f c h
  | staticHandoffReceive n f c => exact execStaticHandoffReceive_keeps (.refl s) n f c h
  | dynamicFrameReceive n f c => exact execDynamicFrameReceive_keeps (.refl s) n f c h
  | recoveryStateTimeout => exact execRecoveryStateTimeout_keeps (.refl s) h
  | dynamicLifetimeExpiry n => exact execDynamicLifetimeExpiry_keeps (.refl s) n h
  | hopFrameReceive n f c => exact execHopFrameReceive_keeps (.refl s) n f c h
  | kickoffReceive n f c => exact execKickoffReceive_keeps (.refl s) n f c h
  | confirmFrameReceive n f c => exact execConfirmFrameReceive_keeps (.refl s) n f c h
  | claimFrameReceive n f c => exact execClaimFrameReceive_keeps (.refl s) n f c h
  | serviceFrameReceive n f c => exact execServiceFrameReceive_keeps (.refl s) n f c h
  | directoryFrameReceive n f c => exact execDirectoryFrameReceive_keeps (.refl s) n f c h
  | listenTimeout => exact execListenTimeout_keeps (.refl s) h
  | kickoffFloorPersist => exact execKickoffFloorPersist_keeps (.refl s) h
  | integration => exact execIntegration_keeps (.refl s) h
  | coldstartIntegrate => exact execColdstartIntegrate_keeps (.refl s) h
  | solitaryEntry => exact execSolitaryEntry_keeps (.refl s) h
  | solitaryReinaugurate => exact execSolitaryReinaugurate_keeps (.refl s) h
  | lineLost => exact execLineLost_keeps (.refl s) h
  | yieldHoldEnd => exact execYieldHoldEnd_keeps (.refl s) h
  | pendingTriggerAct => exact execPendingTriggerAct_keeps (.refl s) h
  | couplerInputChange e level => exact execCouplerInputChange_keeps (.refl s) e level h
  | couplerNoLink e => exact execCouplerNoLink_keeps (.refl s) e h
  | cabActiveChange level => exact execCabActiveChange_keeps (.refl s) level h
  | inaugInhibitRise => exact execInaugInhibitRise_keeps (.refl s) h
  | inaugInhibitFall => exact execInaugInhibitFall_keeps (.refl s) h
  | stopEntry => exact execStopEntry_keeps (.refl s) h
  | inaugPhaseChange => exact execInaugPhaseChange_keeps (.refl s) h
  | stopHoldOut => exact execStopHoldOut_keeps (.refl s) h
  | holdOutEnd n => exact execHoldOutEnd_keeps (.refl s) n h
  | yield => exact execYield_keeps (.refl s) h
  | adoption => exact execAdoption_keeps (.refl s) h
  | tableFragmentReceive body => exact execTableFragmentReceive_keeps (.refl s) body h
  | synthesisStart => exact execSynthesisStart_keeps (.refl s) h
  | synthesisComplete us => exact execSynthesisComplete_keeps (.refl s) us h
  | spareClaim => exact execSpareClaim_keeps (.refl s) h
  | claimResolve => exact execClaimResolve_keeps (.refl s) h
  | spareGrantEffect => exact execSpareGrantEffect_keeps (.refl s) h
  | poolReset => exact execPoolReset_keeps (.refl s) h
  | weirNitAdjust w => exact execWeirNitAdjust_keeps (.refl s) w h
  | weirStateTimeout w => exact execWeirStateTimeout_keeps (.refl s) w h
  | nodeFenced => exact execNodeFenced_keeps (.refl s) h
  | pairStateSend => exact execPairStateSend_keeps (.refl s) h
  | pairStateReceive p pubs cans done => exact execPairStateReceive_keeps (.refl s) p pubs cans done h
  | roleTimeout => exact execRoleTimeout_keeps (.refl s) h
  | epochSnapshot => exact execEpochSnapshot_keeps (.refl s) h
  | epochChunkReceive num index count ccrc data => exact execEpochChunkReceive_keeps (.refl s) num index count ccrc data h
  | epochEndMarkerReceive num count dlen ecrc swap => exact execEpochEndMarkerReceive_keeps (.refl s) num count dlen ecrc swap h
  | witnessReceive sender body => exact execWitnessReceive_keeps (.refl s) sender body h
  | takeover => exact execTakeover_keeps (.refl s) h
  | leaderYield => exact execLeaderYield_keeps (.refl s) h
  | swapMessageReceive w => exact execSwapMessageReceive_keeps (.refl s) w h
  | swapEpochSnapshot => exact execSwapEpochSnapshot_keeps (.refl s) h
  | swapCommitDeadline committed => exact execSwapCommitDeadline_keeps (.refl s) committed h
  | swapRoleExchange => exact execSwapRoleExchange_keeps (.refl s) h
  | tiEnable t list => exact execTiEnable_keeps (.refl s) t list h
  | subscriptionResolve t => exact execSubscriptionResolve_keeps (.refl s) t h
  | queueEnable t q => exact execQueueEnable_keeps (.refl s) t q h
  | queueDisable t q => exact execQueueDisable_keeps (.refl s) t q h
  | queueStopped t q => exact execQueueStopped_keeps (.refl s) t q h
  | doorbell t w => exact execDoorbell_keeps (.refl s) t w h
  | descriptorFetch t q tag given => exact execDescriptorFetch_keeps (.refl s) t q tag given h
  | moderationTimer t q => exact execModerationTimer_keeps (.refl s) t q h
  | nop t q k => exact execNop_keeps (.refl s) t q k h
  | lineSend t q k data => exact execLineSend_keeps (.refl s) t q k data h
  | lineRecvPost t q k => exact execLineRecvPost_keeps (.refl s) t q k h
  | consistSend t q k data => exact execConsistSend_keeps (.refl s) t q k data h
  | consistRecvPost t q k => exact execConsistRecvPost_keeps (.refl s) t q k h
  | canSend t q k data => exact execCanSend_keeps (.refl s) t q k data h
  | farRead t q k => exact execFarRead_keeps (.refl s) t q k h
  | farWrite t q k data => exact execFarWrite_keeps (.refl s) t q k data h
  | tallyRead t q k bad => exact execTallyRead_keeps (.refl s) t q k bad h
  | tallyMark t q k => exact execTallyMark_keeps (.refl s) t q k h
  | tallyClear t q k data sig => exact execTallyClear_keeps (.refl s) t q k data sig h
  | attestReport t q k nonce => exact execAttestReport_keeps (.refl s) t q k nonce h
  | attestChain t q k => exact execAttestChain_keeps (.refl s) t q k h
  | attestImport t q k data sig gcm key => exact execAttestImport_keeps (.refl s) t q k data sig gcm key h
  | attestLifecycle t q k token sig => exact execAttestLifecycle_keeps (.refl s) t q k token sig h
  | attestRequestReceive sender waiting body => exact execAttestRequestReceive_keeps (.refl s) sender waiting body h
  | attestResponseReceive sender body => exact execAttestResponseReceive_keeps (.refl s) sender body h
  | attestTimeout k => exact execAttestTimeout_keeps (.refl s) k h
  | configStage t q k data sig => exact execConfigStage_keeps (.refl s) t q k data sig h
  | configActivate t q k partner measured => exact execConfigActivate_keeps (.refl s) t q k partner measured h
  | configConfirm t q k => exact execConfigConfirm_keeps (.refl s) t q k h
  | configCancel t q k => exact execConfigCancel_keeps (.refl s) t q k h
  | configRollback t q k => exact execConfigRollback_keeps (.refl s) t q k h
  | directoryRead t q k => exact execDirectoryRead_keeps (.refl s) t q k h
  | unsatisfiedRead t q k => exact execUnsatisfiedRead_keeps (.refl s) t q k h
  | inaugRequest t q k => exact execInaugRequest_keeps (.refl s) t q k h
  | roleSwap t q k => exact execRoleSwap_keeps (.refl s) t q k h
  | pcieConfigRequest port vfs => exact execPcieConfigRequest_keeps (.refl s) port vfs h
  | perstAssert port => exact execPerstAssert_keeps (.refl s) port h
  | perstRelease port => exact execPerstRelease_keeps (.refl s) port h
  | pcieLinkUp port speed width => exact execPcieLinkUp_keeps (.refl s) port speed width h
  | pcieLinkDown port hot => exact execPcieLinkDown_keeps (.refl s) port hot h
  | pcieError t q kind => exact execPcieError_keeps (.refl s) t q kind h
  | functionLevelReset t vfDisable => exact execFunctionLevelReset_keeps (.refl s) t vfDisable h
  | busMasterEnableChange t b => exact execBusMasterEnableChange_keeps (.refl s) t b h
  | readStatus => exact execReadStatus_keeps (.refl s) h
  | readWin addr n => exact execReadWin_keeps (.refl s) addr n h
  | writeWin addr data => exact execWriteWin_keeps (.refl s) addr data h
  | readReg off n => exact execReadReg_keeps (.refl s) off n h
  | writeReg off data => exact execWriteReg_keeps (.refl s) off data h
  | tenantReset key => exact execTenantReset_keeps (.refl s) key h
  | qspiInvalidCommand => exact execQspiInvalidCommand_keeps (.refl s) h
  | farTransferStart k => exact execFarTransferStart_keeps (.refl s) k h
  | farRequestReceive sender body => exact execFarRequestReceive_keeps (.refl s) sender body h
  | farRequestServe ok given => exact execFarRequestServe_keeps (.refl s) ok given h
  | farResponseReceive sender body => exact execFarResponseReceive_keeps (.refl s) sender body h
  | farTransferTimeout k => exact execFarTransferTimeout_keeps (.refl s) k h
  | prefetchExpiry k => exact execPrefetchExpiry_keeps (.refl s) k h
  | exportRegion t w v => exact execExportRegion_keeps (.refl s) t w v h
  | apertureWrite port off data whole => exact execApertureWrite_keeps (.refl s) port off data whole h
  | apertureRead port off len => exact execApertureRead_keeps (.refl s) port off len h
  | apertureReadTimeout k => exact execApertureReadTimeout_keeps (.refl s) k h
  | apertureErrorPop port => exact execApertureErrorPop_keeps (.refl s) port h
  | consistFrameIngress n f time => exact execConsistFrameIngress_keeps (.refl s) n f time h
  | consistPortUp n rate plca => exact execConsistPortUp_keeps (.refl s) n rate plca h
  | consistPortDown n => exact execConsistPortDown_keeps (.refl s) n h
  | fdbAgeing mac vid => exact execFdbAgeing_keeps (.refl s) mac vid h
  | foreignBeacon n => exact execForeignBeacon_keeps (.refl s) n h
  | mdioFrame c45 op phy reg => exact execMdioFrame_keeps (.refl s) c45 op phy reg h
  | mdioFrameDone data => exact execMdioFrameDone_keeps (.refl s) data h
  | trdpPublish k => exact execTrdpPublish_keeps (.refl s) k h
  | trdpTelegramReceive src dst port vid d => exact execTrdpTelegramReceive_keeps (.refl s) src dst port vid d h
  | trdpSubscriberTimeout k => exact execTrdpSubscriberTimeout_keeps (.refl s) k h
  | arpRequest mac ip target => exact execArpRequest_keeps (.refl s) mac ip target h
  | igmpReport => exact execIgmpReport_keeps (.refl s) h
  | canFrameReceive n f ns turn => exact execCanFrameReceive_keeps (.refl s) n f ns turn h
  | canTxStart n => exact execCanTxStart_keeps (.refl s) n h
  | canTxSuccess n ns turn => exact execCanTxSuccess_keeps (.refl s) n ns turn h
  | canWindowOpen n c => exact execCanWindowOpen_keeps (.refl s) n c h
  | canWindowMiss n c => exact execCanWindowMiss_keeps (.refl s) n c h
  | canBusError n tx lec dataPhase step res => exact execCanBusError_keeps (.refl s) n tx lec dataPhase step res h
  | canRecoveryDone n => exact execCanRecoveryDone_keeps (.refl s) n h
  | canRecoverCmd n => exact execCanRecoverCmd_keeps (.refl s) n h
  | canAlone n => exact execCanAlone_keeps (.refl s) n h
  | canBusIntegrated n => exact execCanBusIntegrated_keeps (.refl s) n h
  | canSleepCmd n => exact execCanSleepCmd_keeps (.refl s) n h
  | canWakeCmd n => exact execCanWakeCmd_keeps (.refl s) n h
  | canWakeDetect n w => exact execCanWakeDetect_keeps (.refl s) n w h
  | mirrorTwinExpiry n k => exact execMirrorTwinExpiry_keeps (.refl s) n k h
  | canBufferNewWrite n b => exact execCanBufferNewWrite_keeps (.refl s) n b h
  | scrubLine line err r last => exact execScrubLine_keeps (.refl s) line err r last h
  | secureAccessRefused m off => exact execSecureAccessRefused_keeps (.refl s) m off h
  | secureWipe cause => exact execSecureWipe_keeps (.refl s) cause h
  | wipeComplete us bad => exact execWipeComplete_keeps (.refl s) us bad h
  | memCounterClear mask run => exact execMemCounterClear_keeps (.refl s) mask run h
  | overflowRecord => exact execOverflowRecord_keeps (.refl s) h
  | writeUnitDone fail => exact execWriteUnitDone_keeps (.refl s) fail h
  | utcWrite port valid offset => exact execUtcWrite_keeps (.refl s) port valid offset h
  | clearNonceNew t => exact execClearNonceNew_keeps (.refl s) t h
  | clearNonceExpiry t => exact execClearNonceExpiry_keeps (.refl s) t h
  | tamperEvent src now => exact execTamperEvent_keeps (.refl s) src now h
  | fleetKeySwitch => exact execFleetKeySwitch_keeps (.refl s) h
  | retiredKeyErase => exact execRetiredKeyErase_keeps (.refl s) h
  | configActivationTick => exact execConfigActivationTick_keeps (.refl s) h
  | configTrialEnd => exact execConfigTrialEnd_keeps (.refl s) h
  | configRollbackTick => exact execConfigRollbackTick_keeps (.refl s) h
  | freezeNLow held tear => exact execFreezeNLow_keeps (.refl s) held tear h
  | debugTokenLapse => exact execDebugTokenLapse_keeps (.refl s) h
  | bypass tdi => exact execBypass_keeps (.refl s) tdi h
  | idcode => exact execIdcode_keeps (.refl s) h
  | samplePreload cells => exact execSamplePreload_keeps (.refl s) cells h
  | extest cells => exact execExtest_keeps (.refl s) cells h
  | nonce => exact execNonce_keeps (.refl s) h
  | token tok sig freezeLow tear => exact execToken_keeps (.refl s) tok sig freezeLow tear h
  | diagStatus => exact execDiagStatus_keeps (.refl s) h
  | freeze tear => exact execFreeze_keeps (.refl s) tear h
  | roAddr addr => exact execRoAddr_keeps (.refl s) addr h
  | roData n => exact execRoData_keeps (.refl s) n h
  | recoveryFrame l whole => exact execRecoveryFrame_keeps (.refl s) l whole h
  | vbackRangeChange inRange => exact execVbackRangeChange_keeps (.refl s) inRange h
  | lineKeepaliveLoss => exact execLineKeepaliveLoss_keeps (.refl s) h
  | resetOutRelease => exact execResetOutRelease_keeps (.refl s) h

/-- A step with a command at the front of the queue. -/
theorem step_cons {s : State} {c : Instr} {rest : List Instr} (h : s.pending = c :: rest) :
    step s = exec c { s with pending := rest } := by
  simp [step, h]

/-- A step without a waiting command. -/
theorem step_nil {s : State} (h : s.pending = []) : step s = .next s.idle := by
  simp [step, h]

/-- Settles O1: by the definition of a step. -/
theorem stepRunsFrontCommand : Obligations.StepRunsFrontCommand := fun _ _ _ => step_cons rfl

/-- Settles O3: every clause is the value of a field of a fixed state. -/
theorem resetState : Obligations.ResetState := by
  unfold Obligations.ResetState
  decide +kernel

/-- Settles O4: the register file of the reset state is in order, the window and the rings are empty. -/
theorem resetCanon : Obligations.ResetCanon where
  regs := by decide +kernel
  window := State.reset_window_wf
  tally := ⟨Nat.zero_le _, Nat.zero_le _, Nat.zero_le _⟩

/-- Settles O5: a step is a command on the state with the rest of the queue or an idle cycle, and both keep the forms. -/
theorem stepKeepsCanon : Obligations.StepKeepsCanon := by
  intro s t hc h
  cases hp : s.pending with
  | nil =>
    rw [step_nil hp] at h
    cases h
    exact hc.of_keeps (State.idle_keeps (.refl s))
  | cons c rest =>
    rw [step_cons hp] at h
    exact (hc.with_pending rest).of_keeps (exec_keeps h)

/-- Settles O6: two of the things that every command keeps. -/
theorem commandsLeaveQueueAndOutputs : Obligations.CommandsLeaveQueueAndOutputs :=
  fun _ _ _ h => ⟨(exec_keeps h).pending, (exec_keeps h).out⟩

/-- Settles O7: two of the things that every command keeps. -/
theorem nothingLeadsBack : Obligations.NothingLeadsBack :=
  fun _ _ _ h => ⟨(exec_keeps h).lifecycle, (exec_keeps h).fuses⟩

/-- Settles O8: the meaning of each command answers a next state. -/
theorem everyCommandAnswersANextState : Obligations.EveryCommandAnswersANextState := by
  intro c s
  cases c <;> exact ⟨_, rfl⟩

end Sys2Proof.Machine

/-!
The register file, records that enter the tally queue (R526), and the sluice (R537, R538).
-/

namespace Sys2Proof.Machine

namespace State

/-! Fields that a record changes in the tally book's registers -/

/-- The emergency copy writes its own two counts. -/
theorem emerCopy_get_other (s : State) (r : Rec) {g : Fld} {jx : List Nat} (hc : g.key jx ≠ Reg.TALLY_EMER_COUNT.key [])
    (hd : g.key jx ≠ Reg.TALLY_EMER_DROPPED.key []) : (s.emerCopy r).get g jx = s.get g jx := by
  unfold emerCopy
  split
  · rfl
  · split
    · exact get_set_other _ _ _ _ _ _ hc
    · exact get_set_other _ _ _ _ _ _ hd

/-- The console writes the count of dropped lines. -/
theorem consoleLine_get_other (s : State) (r : Rec) {g : Fld} {jx : List Nat} (h : g.key jx ≠ Reg.DIAG_CNT_CON_DROP.key []) :
    (s.consoleLine r).get g jx = s.get g jx := by
  unfold consoleLine
  split
  · split
    · exact get_set_other _ _ _ _ _ _ h
    · rfl
  · rfl

/-- A field that neither the emergency copy nor the console writes reads what the queueing of the record gave it. -/
theorem enqueue_get_of_hasPlace {s : State} {code flags : Nat} (hp : s.hasPlace code flags = true) (sev src p0 p1 p2 : Nat)
    {g : Fld} {jx : List Nat} (hc : g.key jx ≠ Reg.TALLY_EMER_COUNT.key []) (hd : g.key jx ≠ Reg.TALLY_EMER_DROPPED.key [])
    (hl : g.key jx ≠ Reg.DIAG_CNT_CON_DROP.key []) :
    (s.enqueue code sev src flags p0 p1 p2).get g jx = (s.queueRec (s.stamp code sev src flags p0 p1 p2)).get g jx := by
  unfold enqueue
  rw [if_pos hp]
  exact (consoleLine_get_other _ _ hl).trans (emerCopy_get_other _ _ hc hd)

/-- The record takes the next sequence number. -/
theorem queueRec_get_seq {s : State} (hs : Sparse.sorted s.regs = true) (r : Rec) :
    (s.queueRec r).get Reg.TALLY_SEQ_NEXT = (r.seq + 1) % 2 ^ 32 :=
  (get_set_other _ _ _ _ _ _ (by decide)).trans (get_set_same _ _ _ _ hs)

/-- TALLY_STAT.QUEUED shows the queue's length. -/
theorem queueRec_get_queued {s : State} (hs : Sparse.sorted s.regs = true) (r : Rec) :
    (s.queueRec r).get Reg.TALLY_STAT_QUEUED = (s.queueWith r).length % 2 ^ Reg.TALLY_STAT_QUEUED.width :=
  get_set_same _ _ _ _ (sorted_set _ _ _ _ hs)

/-- The emergency copy leaves the stored areas. -/
theorem emerCopy_areas (s : State) (r : Rec) :
    (s.emerCopy r).tally.perm = s.tally.perm ∧ (s.emerCopy r).tally.circ = s.tally.circ := by
  unfold emerCopy
  split
  · exact ⟨rfl, rfl⟩
  · split
    · exact ⟨rfl, rfl⟩
    · exact ⟨rfl, rfl⟩

/-- A record leaves the stored areas: it is written to them later. -/
theorem enqueue_areas (s : State) (code sev src flags p0 p1 p2 : Nat) :
    (s.enqueue code sev src flags p0 p1 p2).tally.perm = s.tally.perm ∧
      (s.enqueue code sev src flags p0 p1 p2).tally.circ = s.tally.circ := by
  unfold enqueue
  split
  · rw [consoleLine_tally]
    exact emerCopy_areas _ _
  · exact ⟨rfl, rfl⟩

/-! The sluice -/

/-- No entry governs records of classes 0x1 and 0x2 (R537). -/
theorem sluiceEntry_of_class {s : State} {code : Nat} (h : code / 4096 = 1 ∨ code / 4096 = 2) : s.sluiceEntry code = none := by
  obtain h | h := h <;> simp [sluiceEntry, h]

/-- The bucket of an entry without a token after it has suppressed a record (R538). -/
def suppressed (s : State) (k code sev src : Nat) : Bucket :=
  let b : Bucket := (Sparse.find k s.tally.buckets).getD default
  let fresh := s.get Reg.SLUk_CNT_PENDING [k] == 0
  { b with first := if fresh then code else b.first, last := code, maxSev := if fresh then sev else max b.maxSev sev, lastSrc := src }

/-- A record whose entry has no token is counted there. -/
theorem sluiced_of_no_token {s : State} {code k : Nat} (hk : s.sluiceEntry code = some k)
    (h0 : s.get Reg.SLUk_CNT_TOKENS [k] = 0) (sev src p0 p1 p2 : Nat) :
    s.sluiced code sev src p0 p1 p2 = ((s.inc Reg.SLUk_CNT_PENDING [k]).inc Reg.TALLY_CNT_SLUICED).modTally
      fun t => { t with buckets := Sparse.put k (s.suppressed k code sev src) t.buckets } := by
  simp [sluiced, hk, h0, suppressed]

/-- The count of an entry's suppressed records lies behind the tally book's counts. -/
theorem sluicePending_key (k : Nat) {g : Fld} (h : g.key [] < Reg.SLUk_CNT_PENDING.key [0]) :
    g.key [] ≠ Reg.SLUk_CNT_PENDING.key [k] := by
  have hk : Reg.SLUk_CNT_PENDING.key [k] = Reg.SLUk_CNT_PENDING.key [0] + 32 * (k * 4) := by
    simp [Fld.key, Fld.off, dimsOff, Reg.SLUk_CNT_PENDING]
    omega
  omega

end State

/-- Settles O9: the register file is a sparse table, and nothing else holds a field. -/
theorem fieldReadsWhatWasSet : Obligations.FieldReadsWhatWasSet :=
  fun s f ix v hc => ⟨State.get_set_same s f ix v hc.regs, fun g jx h => State.get_set_other s f g ix jx v h, rfl⟩

/-- Settles O10: the record is queued first, and neither its emergency copy nor its console line touches what it has left. -/
theorem recordEntersQueue : Obligations.RecordEntersQueue := by
  intro s code sev src flags p0 p1 p2 hc hd hp t
  have hget {g : Fld} (h1 : g.key [] ≠ Reg.TALLY_EMER_COUNT.key []) (h2 : g.key [] ≠ Reg.TALLY_EMER_DROPPED.key [])
      (h3 : g.key [] ≠ Reg.DIAG_CNT_CON_DROP.key []) := State.enqueue_get_of_hasPlace hp sev src p0 p1 p2 h1 h2 h3
  have hqueue := State.queueWith_of_not_degraded hd (s.stamp code sev src flags p0 p1 p2)
  obtain ⟨hperm, hcirc⟩ := State.enqueue_areas s code sev src flags p0 p1 p2
  refine ⟨⟨_, State.enqueue_tally_queue hd hp .., rfl, rfl, rfl, rfl, rfl, rfl, rfl, rfl, rfl⟩, ?_, ?_, hperm, hcirc,
    State.enqueue_overflow_of_hasPlace hp .., State.enqueue_frame ..⟩
  · exact (hget (by decide) (by decide) (by decide)).trans (State.queueRec_get_seq hc.regs _)
  · rw [hget (by decide) (by decide) (by decide), State.queueRec_get_queued hc.regs, hqueue, List.length_append,
      List.length_singleton]

/-- Settles O12: no entry governs classes 0x1 and 0x2, and an entry without a token only counts. -/
theorem sluiceRule : Obligations.SluiceRule := by
  intro s code sev src p0 p1 p2 hc
  constructor
  · exact fun h => State.sluiced_of_ungoverned (State.sluiceEntry_of_class h) ..
  · intro k hk h0 t
    have ht : t = _ := State.sluiced_of_no_token hk h0 sev src p0 p1 p2
    have hpending : Sparse.sorted (s.inc Reg.SLUk_CNT_PENDING [k]).regs = true := State.sorted_set _ _ _ _ hc.regs
    have hother {g : Fld} (h : g.key [] < Reg.SLUk_CNT_PENDING.key [0]) :
        (s.inc Reg.SLUk_CNT_PENDING [k]).get g = s.get g := State.get_set_other _ _ _ _ _ _ (State.sluicePending_key k h)
    rw [ht]
    refine ⟨rfl, ?_, ?_, ?_, fun j hj => Sparse.find_put_other hj ..⟩
    · exact (State.get_set_other _ _ _ _ _ _ (by decide)).trans (hother (by decide))
    · exact (State.get_set_other _ _ _ _ _ _ (State.sluicePending_key k (by decide)).symm).trans (State.get_inc_same hc.regs ..)
    · refine (State.get_inc_same hpending ..).trans ?_
      rw [hother (by decide)]

end Sys2Proof.Machine

/-!
Operations that write register fields at known places, and what a full reset keeps and clears (R98, R99, R101, Table 5-2).
-/

namespace Sys2Proof.Machine

namespace State

/-- From `a` to `b` only register fields at the places `P` have been written: every other field reads as before, and the register file is
still in order. -/
structure WritesAt (P : Nat → Prop) (a b : State) : Prop where
  get : ∀ (g : Fld) (jx : List Nat), ¬ P (g.key jx) → b.get g jx = a.get g jx
  sorted : Sparse.sorted a.regs = true → Sparse.sorted b.regs = true

namespace WritesAt

variable {P : Nat → Prop} {a b c : State}

theorem refl (a : State) : WritesAt P a a := ⟨fun _ _ _ => rfl, id⟩

theorem trans (h : WritesAt P a b) (k : WritesAt P b c) : WritesAt P a c :=
  ⟨fun g jx hg => (k.get g jx hg).trans (h.get g jx hg), fun hs => k.sorted (h.sorted hs)⟩

/-- A larger set of places. -/
theorem mono {Q : Nat → Prop} (h : WritesAt P a b) (hPQ : ∀ k, P k → Q k) : WritesAt Q a b :=
  ⟨fun g jx hg => h.get g jx fun hp => hg (hPQ _ hp), h.sorted⟩

theorem set (h : WritesAt P a b) (f : Fld) (ix : List Nat) (v : Nat) (hk : P (f.key ix)) : WritesAt P a (b.set f ix v) :=
  h.trans ⟨fun _ _ hg => get_set_other _ _ _ _ _ _ fun e => hg (e ▸ hk), sorted_set b f ix v⟩

theorem flag (h : WritesAt P a b) (f : Fld) (ix : List Nat) (v : Bool) (hk : P (f.key ix)) : WritesAt P a (b.flag f ix v) :=
  h.set f ix _ hk

/-- A change beside the register file. -/
theorem other (h : WritesAt P a b) (hr : c.regs = b.regs) : WritesAt P a c :=
  h.trans ⟨fun g jx _ => by simp only [State.get, hr], fun hs => by rw [hr]; exact hs⟩

theorem foldl {α : Type} (h : WritesAt P a b) (l : List α) (f : State → α → State)
    (hf : ∀ x ∈ l, ∀ s, WritesAt P s (f s x)) : WritesAt P a (l.foldl f b) := by
  induction l generalizing b with
  | nil => exact h
  | cons x l ih =>
    exact ih (h.trans (hf x List.mem_cons_self b)) fun y hy => hf y (List.mem_cons_of_mem _ hy)

end WritesAt

/-! Frames cut off -/

/-- From `a` to `b` nothing has happened but that something was put out. -/
def OutOnly (a b : State) : Prop := ∃ l, b = { a with out := l ++ a.out }

theorem OutOnly.refl (a : State) : OutOnly a a := ⟨[], rfl⟩

theorem OutOnly.emit {a b : State} (h : OutOnly a b) (o : Out) : OutOnly a (b.emit o) := by
  obtain ⟨l, rfl⟩ := h
  exact ⟨o :: l, rfl⟩

theorem OutOnly.foldl {α : Type} {a b : State} (h : OutOnly a b) (l : List α) (f : State → α → State)
    (hf : ∀ s x, OutOnly a s → OutOnly a (f s x)) : OutOnly a (l.foldl f b) := by
  induction l generalizing b with
  | nil => exact h
  | cons x l ih => exact ih (hf b x h)

theorem OutOnly.canCut {a b : State} (h : OutOnly a b) (n : Nat) : OutOnly a (b.canCut n) := by
  unfold State.canCut
  split
  · exact h.emit _
  · exact h

/-- Cutting frames off only shows outside. -/
theorem cutFrames_outOnly (s : State) : OutOnly s s.cutFrames := by
  refine OutOnly.foldl (OutOnly.foldl (.refl s) _ _ fun t n h => ?_) _ _ fun t n h => h.canCut n
  split
  · exact h.emit _
  · exact h

/-! The registers after a full reset -/

/-- The parts that a full reset leaves, with the register fields that Table 5-2 keeps. -/
abbrev heldReset (o : State) : State := heldFields.foldl (fun s x => s.set x.1 x.2 (o.get x.1 x.2)) o.partsReset

/-- The places of the registers that show, after a full reset, what other parts of the state hold. -/
def resetShown : List Nat :=
  ([Reg.GLOBAL_STAT_ROLE, Reg.RED_STAT_EPOCH, Reg.SEC_FK_ACTIVE_ID, Reg.SEC_FK_STAGED_ID, Reg.INAUG_STAT_CPL_E1, Reg.INAUG_STAT_CPL_E2,
    Reg.INAUG_STAT_CAB, Reg.INAUG_STAT_INHIBIT, Reg.GPIO_IN_LEVEL, Reg.LSTART_UID_LO_UID, Reg.LSTART_UID_HI_UID,
    Reg.FIRST_USE_PAIR_EPOCH, Reg.MEM_SEC_STAT_FAILED, Reg.MEM_SEC_STAT_CAUSE, Reg.TALLY_PERM_CNT_COUNT, Reg.TALLY_STAT_PERM_FULL,
    Reg.TALLY_CIRC_HEAD_HEAD, Reg.TALLY_CIRC_CNT_COUNT, Reg.TALLY_SEQ_NEXT].map fun f => f.key []) ++
  [Reg.HOST_PORT_PERST.key [0], Reg.HOST_PORT_PERST.key [1]]

/-- None of them is kept. -/
theorem heldFields_not_shown : ∀ x ∈ heldFields, x.1.key x.2 ∉ resetShown := by decide +kernel

theorem resetShown_perst {p : Nat} (h : p ∈ List.range 2) : Reg.HOST_PORT_PERST.key [p] ∈ resetShown := by
  rw [List.mem_range] at h
  interval_cases p <;> decide +kernel

theorem WritesAt.showLuid {P : Nat → Prop} {a b : State} (h : WritesAt P a b) (hlo : P (Reg.LSTART_UID_LO_UID.key []))
    (hhi : P (Reg.LSTART_UID_HI_UID.key [])) : WritesAt P a b.showLuid := (h.set _ _ _ hlo).set _ _ _ hhi

theorem WritesAt.showPerm {P : Nat → Prop} {a b : State} (h : WritesAt P a b) (n : Nat) (hc : P (Reg.TALLY_PERM_CNT_COUNT.key []))
    (hf : P (Reg.TALLY_STAT_PERM_FULL.key [])) : WritesAt P a (b.showPerm n) := (h.set _ _ _ hc).flag _ _ _ hf

/-- After the kept fields, a full reset writes only what it shows of other parts. -/
theorem afterReset_writesAt (o : State) : WritesAt (· ∈ resetShown) o.heldReset o.afterReset := by
  unfold afterReset
  repeat' first
    | with_reducible exact WritesAt.refl _
    | with_reducible apply WritesAt.showPerm
    | with_reducible apply WritesAt.showLuid
    | with_reducible apply WritesAt.flag
    | with_reducible apply WritesAt.set
    | (with_reducible refine WritesAt.foldl ?_ _ _ fun p hp s => (WritesAt.refl s).flag _ _ _ (resetShown_perst hp))
    | split
    | decide +kernel

/-- The kept fields are written into the register file of power-on, which is in order. -/
theorem heldReset_sorted (o : State) : Sparse.sorted o.heldReset.regs = true :=
  foldl_set_sorted heldFields (fun x => o.get x.1 x.2) _ resetCanon.regs

theorem afterReset_sorted (o : State) : Sparse.sorted o.afterReset.regs = true :=
  (afterReset_writesAt o).sorted (heldReset_sorted o)

/-- A field that Table 5-2 keeps reads as before, cut to its width. -/
theorem afterReset_get_held (o : State) {x : Fld × List Nat} (hx : x ∈ heldFields) :
    o.afterReset.get x.1 x.2 = o.get x.1 x.2 % 2 ^ x.1.width :=
  ((afterReset_writesAt o).get x.1 x.2 (heldFields_not_shown x hx)).trans
    (foldl_set_get heldFields (fun x => o.get x.1 x.2) heldFields_nodup x hx _ resetCanon.regs)

/-- The causes of a full reset are kept in the always-on logic. -/
theorem heldFields_causes : ∀ f ∈ [Reg.RST_CAUSE_RESET_N, Reg.RST_CAUSE_VIN_RST, Reg.RST_CAUSE_REF_LOST, Reg.RST_CAUSE_FATAL,
    Reg.RST_CAUSE_ESCALATE], (f, []) ∈ heldFields ∧ 1 % 2 ^ f.width = 1 := by decide +kernel

/-- Two kept fields at one place are one. -/
theorem heldFields_key_inj {x y : Fld × List Nat} (hx : x ∈ heldFields) (hy : y ∈ heldFields) (h : x.1.key x.2 = y.1.key y.2) : x = y :=
  List.inj_on_of_nodup_map heldFields_nodup hx hy h

/-! The whole state after a full reset -/

/-- The state in which a full reset sets its cause: the node stays on or off. -/
def clearedBy (s : State) : State := s.cutFrames.afterReset.modPower fun p => { p with on := s.power.on }

theorem fullReset_eq (s : State) (f : Fld) : s.fullReset [f] = s.clearedBy.set f [] 1 := rfl

theorem clearedBy_sorted (s : State) : Sparse.sorted s.clearedBy.regs = true := by
  rw [clearedBy, modPower_regs]
  exact afterReset_sorted _

theorem fullReset_get_cause (s : State) (f : Fld) : (s.fullReset [f]).get f = 1 % 2 ^ f.width :=
  get_set_same _ _ _ _ (clearedBy_sorted s)

/-- Every kept field but the cause reads as before. -/
theorem fullReset_get_held (s : State) {f : Fld} (hf : (f, []) ∈ heldFields) {x : Fld × List Nat} (hx : x ∈ heldFields) (hne : x.1 ≠ f) :
    (s.fullReset [f]).get x.1 x.2 = s.get x.1 x.2 % 2 ^ x.1.width := by
  have hkey : x.1.key x.2 ≠ f.key [] := fun e => hne (congrArg Prod.fst (heldFields_key_inj hx hf e))
  obtain ⟨l, hl⟩ := cutFrames_outOnly s
  have hcut : s.cutFrames.get x.1 x.2 = s.get x.1 x.2 := by rw [hl]; rfl
  calc (s.fullReset [f]).get x.1 x.2
    _ = s.clearedBy.get x.1 x.2 := get_set_other _ _ _ _ _ _ hkey
    _ = s.cutFrames.afterReset.get x.1 x.2 := modPower_get ..
    _ = s.get x.1 x.2 % 2 ^ x.1.width := by rw [afterReset_get_held _ hx, hcut]

/-- Beside the register file a full reset leaves what `partsReset` says, the node on or off as it was. -/
theorem fullReset_parts (s : State) (f : Fld) : ∃ l r, s.fullReset [f] =
    { partsReset { s with out := l ++ s.out } with regs := r, power := { (partsReset s).power with on := s.power.on } } := by
  obtain ⟨l, hl⟩ := cutFrames_outOnly s
  obtain ⟨r, hr⟩ := afterReset_regsOnly s.cutFrames
  refine ⟨l, (s.fullReset [f]).regs, ?_⟩
  rw [fullReset_eq, clearedBy, hr, hl]
  rfl

end State

/-- Settles O14: the kept fields are written first and nothing that is shown after them lies at their places; every other part is as
`partsReset` leaves it. -/
theorem fullResetKeepsAndClears : Obligations.FullResetKeepsAndClears := by
  intro s f hf t
  obtain ⟨hheld, hwidth⟩ := State.heldFields_causes f hf
  refine ⟨(State.fullReset_get_cause s f).trans hwidth, fun x hx hne => State.fullReset_get_held s hheld hx hne, ?_⟩
  obtain ⟨l, r, ht⟩ := State.fullReset_parts s f
  have ht' : t = _ := ht
  rw [ht']
  exact ⟨rfl, ⟨l, rfl⟩, rfl, rfl, rfl, rfl, rfl, rfl, rfl, rfl, rfl, rfl, rfl, rfl, rfl, rfl, rfl, rfl, rfl, rfl, rfl, rfl, rfl, rfl, rfl,
    rfl, rfl, rfl, rfl, rfl, rfl, rfl, rfl⟩

end Sys2Proof.Machine

/-!
The commands that reset the node, and firmware restarts by command, watchdog and fault (R98 to R104).
-/

namespace Sys2Proof.Machine

namespace State

/-- What a field reads depends on the register file alone. -/
theorem get_of_regs {s t : State} (h : t.regs = s.regs) (f : Fld) (ix : List Nat) : t.get f ix = s.get f ix := by
  simp only [State.get, h]

theorem on_of_regs {s t : State} (h : t.regs = s.regs) (f : Fld) (ix : List Nat) : t.on f ix = s.on f ix :=
  congrArg (· != 0) (get_of_regs h f ix)

/-! VIN at VIN_RST (R41, R57) -/

/-- What the loss of supply makes of the state after its full reset: the node off, and no ball driven. -/
def supplyLost (r : State) (vin : Nat) (lost : Option (Nat × Bool × Nat)) : State :=
  ((r.modPower fun p => { p with on := false, lostInSlack := lost }).modPins fun p =>
    { p with resetOutLow := false, clkreqLow := [false, false], canStb := List.replicate 8 false }).flag Reg.PWR_STAT_VOUT_OK [] (vin ≥ 340)

/-- The state whose persist step was cut off while it wrote a pointer copy. -/
def tornBy (s : State) (torn : Nat) : State :=
  if torn != 0 && s.inSlack && s.power.persistAt.isNone then
    s.modTally fun t => { t with ptr := listMod t.ptr (torn - 1) fun p => { p with valid := false } } else s

theorem fullReset_tally_queue (s : State) (f : Fld) : (s.fullReset [f]).tally.queue = [] := by
  obtain ⟨l, r, h⟩ := fullReset_parts s f
  rw [h]
  rfl

theorem supplyLost_tally (r : State) (vin : Nat) (lost : Option (Nat × Bool × Nat)) : (r.supplyLost vin lost).tally = r.tally := rfl

/-- Beside supply, pins and VOUT_OK the node is as after its full reset. -/
theorem supplyLost_frame (r : State) (vin : Nat) (lost : Option (Nat × Bool × Nat)) :
    { r.supplyLost vin lost with power := r.power, pins := r.pins, regs := r.regs } = r := rfl

theorem supplyLost_get_other (r : State) (vin : Nat) (lost : Option (Nat × Bool × Nat)) {g : Fld} {jx : List Nat}
    (h : g.key jx ≠ Reg.PWR_STAT_VOUT_OK.key []) : (r.supplyLost vin lost).get g jx = r.get g jx := get_set_other _ _ _ _ _ _ h

/-- No ball is driven without VIN, and the node is off. -/
theorem supplyLost_off (r : State) (vin : Nat) (lost : Option (Nat × Bool × Nat)) :
    (r.supplyLost vin lost).power.on = false ∧ (r.supplyLost vin lost).pins.canStb = List.replicate 8 false ∧
      (r.supplyLost vin lost).pins.clkreqLow = [false, false] := ⟨rfl, rfl, rfl⟩

/-! Firmware restarts (R102 to R104) -/

/-- The register file of a restart: the cause, firmware down, and the count. -/
def restartRegs (s : State) (cause : FwCause) : State :=
  (((s.set (causeBit cause) [] 1).set Reg.GLOBAL_STAT_FW_RESTART [] 1).set Reg.GLOBAL_STAT_FW_READY [] 0).inc Reg.RST_CNT_FW

/-- Fault restarts within the last 10 min of operating time (R103). -/
def recentFaults (s : State) : List Nat := s.boot.faultRestarts.filter fun t => s.clock.optime < t + 60000

@[simp] theorem flushCut_regs (s : State) : s.flushCut.regs = s.regs := rfl

/-- A restart that does not escalate changes the register file, the boot state, what was due of the tally book's queue, the units' run
and the configuration trial's verdict. -/
theorem fwRestart_of_few {s : State} {cause : FwCause} (h : isFault cause = true → s.recentFaults.length < 2) (bank : Option Nat) :
    ∃ r : State, s.fwRestart cause bank = r ∧ r.regs = (s.restartRegs cause).regs ∧ r.boot.restart = some (cause, bank) ∧
      r.tally.queue = s.tally.queue ∧
      { r with regs := s.regs, boot := s.boot, tally := s.tally, clock := s.clock, conf := s.conf } = s := by
  refine ⟨_, rfl, ?_⟩
  unfold fwRestart
  cases hf : isFault cause
  case false =>
    simp only [Bool.false_and, Bool.false_eq_true, if_false, flushCut_regs, modBoot_regs]
    exact ⟨by rw [restartRegs], rfl, rfl, by simp [flushCut, modJob]⟩
  case true =>
    have hfew : ¬ ((s.set (causeBit cause) [] 1).recentFaults.length + 1 ≥ 3) := Nat.not_le_of_lt (Nat.succ_lt_succ (h hf))
    unfold recentFaults at hfew
    simp only [Bool.true_and, if_true, decide_eq_true_eq, List.length_cons, hfew, if_false]
    split
    · exact ⟨by rw [modConf_regs, flushCut_regs, modBoot_regs, restartRegs], rfl, rfl, by simp [flushCut, modJob]⟩
    · exact ⟨by rw [flushCut_regs, modBoot_regs, restartRegs], rfl, rfl, by simp [flushCut, modJob]⟩

/-- The third fault restart within 10 min is a full reset (R103). -/
theorem fwRestart_escalates {s : State} {cause : FwCause} (hf : isFault cause = true) (h : 2 ≤ s.recentFaults.length)
    (bank : Option Nat) : s.fwRestart cause bank = (s.set (causeBit cause) [] 1).fullReset [Reg.RST_CAUSE_ESCALATE] := by
  have hmany : (s.set (causeBit cause) [] 1).recentFaults.length + 1 ≥ 3 := Nat.succ_le_succ h
  unfold recentFaults at hmany
  unfold fwRestart
  simp only [hf, Bool.true_and, if_true, decide_eq_true_eq, List.length_cons, hmany]

section
variable {s : State} (hs : Sparse.sorted s.regs = true) (cause : FwCause)
include hs

theorem restartRegs_get_ready : (s.restartRegs cause).get Reg.GLOBAL_STAT_FW_READY = 0 :=
  (get_set_other _ _ _ _ _ _ (by decide)).trans (get_set_same _ _ _ _ (sorted_set _ _ _ _ (sorted_set _ _ _ _ hs)))

theorem restartRegs_get_restart : (s.restartRegs cause).get Reg.GLOBAL_STAT_FW_RESTART = 1 :=
  (get_set_other _ _ _ _ _ _ (by decide)).trans ((get_set_other _ _ _ _ _ _ (by decide)).trans
    (get_set_same _ _ _ _ (sorted_set _ _ _ _ hs)))

theorem restartRegs_get_cause : (s.restartRegs cause).get (causeBit cause) = 1 := by
  have hset : (s.set (causeBit cause) [] 1).get (causeBit cause) = 1 % 2 ^ (causeBit cause).width := get_set_same _ _ _ _ hs
  cases cause <;>
    exact (get_set_other _ _ _ _ _ _ (by decide)).trans ((get_set_other _ _ _ _ _ _ (by decide)).trans
      ((get_set_other _ _ _ _ _ _ (by decide)).trans hset))

theorem restartRegs_get_count :
    (s.restartRegs cause).get Reg.RST_CNT_FW = min (s.get Reg.RST_CNT_FW + 1) (2 ^ Reg.RST_CNT_FW.width - 1) := by
  have hcount : (((s.set (causeBit cause) [] 1).set Reg.GLOBAL_STAT_FW_RESTART [] 1).set Reg.GLOBAL_STAT_FW_READY [] 0).get
      Reg.RST_CNT_FW = s.get Reg.RST_CNT_FW := by
    cases cause <;>
      exact (get_set_other _ _ _ _ _ _ (by decide)).trans ((get_set_other _ _ _ _ _ _ (by decide)).trans
        (get_set_other _ _ _ _ _ _ (by decide)))
  refine (get_inc_same (sorted_set _ _ _ _ (sorted_set _ _ _ _ (sorted_set _ _ _ _ hs))) ..).trans ?_
  rw [hcount]

end

end State

/-- The commands that restart firmware, by their causes. -/
theorem exec_fwRestart {s : State} {c : Instr} {cause : FwCause} (ha : s.alive = true) (hu : s.fwUp = true)
    (h : (c = .fwWatchdogExpiry ∧ cause = .wdog) ∨ (c = .fwException ∧ cause = .fault) ∨
      (∃ port, c = .rstCmdFwRestart port ∧ cause = .cmd ∧ s.domainOn 9 = true)) :
    exec c s = .next (s.fwRestart cause none) := by
  obtain ⟨rfl, rfl⟩ | ⟨rfl, rfl⟩ | ⟨port, rfl, rfl, hd⟩ := h
  · change execFwWatchdogExpiry s = _
    simp [execFwWatchdogExpiry, ha, hu]
  · change execFwException s = _
    simp [execFwException, ha, hu]
  · change execRstCmdFwRestart port s = _
    simp [execRstCmdFwRestart, ha, hu, hd, Nat.not_lt_of_le (Nat.le_of_lt_succ port.isLt)]

/-- VIN at VIN_RST. -/
theorem exec_vinRstReached {s : State} {vin : Nat} (hp : s.power.on = true) (hv : vin ≤ State.vinRst) (torn : Fin 3) :
    exec (.vinRstReached vin torn) s =
      .next (((s.tornBy torn.val).fullReset [Reg.RST_CAUSE_VIN_RST]).supplyLost vin s.lossReport) := by
  change execVinRstReached vin torn s = _
  unfold execVinRstReached
  rw [if_pos (by simp [hp, hv])]
  simp only [State.tornBy, State.supplyLost]

/-- Settles O13: each command is its full reset, and that of VIN_RST with what follows from the loss of supply. -/
theorem fullResetCommands : Obligations.FullResetCommands := by
  intro s
  refine ⟨fun hp => ?_, fun vin torn hp hv => ?_, fun ha => ?_, fun ha => ?_, fun ha hr ht => ?_, fun port ha hd => ?_⟩
  · change execResetNLow s = _
    simp [execResetNLow, hp]
  · obtain ⟨hoff, hstb, hclk⟩ := State.supplyLost_off ((s.tornBy torn.val).fullReset [Reg.RST_CAUSE_VIN_RST]) vin s.lossReport
    refine ⟨_, exec_vinRstReached hp hv torn, hoff, ?_, hstb, hclk, ?_⟩
    · rw [State.supplyLost_tally, State.fullReset_tally_queue]
    · intro h0
      have htorn : s.tornBy torn.val = s := by simp [State.tornBy, h0]
      rw [htorn]
      exact ⟨State.supplyLost_frame .., fun f ix h => State.supplyLost_get_other _ _ _ h⟩
  · change execNodeRefLost s = _
    simp [execNodeRefLost, ha]
  · change execFatalFault s = _
    simp [execFatalFault, ha]
  · change execResetEscalation s = _
    simp [execResetEscalation, ha, hr, ht]
  · change execRstCmdFullReset port s = _
    simp [execRstCmdFullReset, ha, hd, Nat.not_lt_of_le (Nat.le_of_lt_succ port.isLt)]

/-- Settles O15: a restart that does not escalate, part by part, and one that does. -/
theorem firmwareRestarts : Obligations.FirmwareRestarts := by
  intro s hc ha hu
  refine ⟨fun c cause h hfew => ?_, fun hmany => ⟨?_, ?_⟩⟩
  · obtain ⟨r, hrestart, hregs, hboot, hqueue, hframe⟩ := State.fwRestart_of_few (cause := cause) (fun _ => hfew) none
    have hget (f : Fld) : r.get f = (s.restartRegs cause).get f := State.get_of_regs hregs f []
    refine ⟨r, (exec_fwRestart ha hu h).trans (congrArg _ hrestart), ?_, ?_, ?_, hboot, ?_, hqueue, hframe⟩
    · exact (hget _).trans (State.restartRegs_get_ready hc.regs cause)
    · exact (hget _).trans (State.restartRegs_get_restart hc.regs cause)
    · exact (hget _).trans (State.restartRegs_get_cause hc.regs cause)
    · exact (hget _).trans (State.restartRegs_get_count hc.regs cause)
  · rw [exec_fwRestart ha hu (.inl ⟨rfl, rfl⟩), State.fwRestart_escalates rfl hmany, State.causeBit]
  · rw [exec_fwRestart ha hu (.inr (.inl ⟨rfl, rfl⟩)), State.fwRestart_escalates rfl hmany, State.causeBit]

end Sys2Proof.Machine

/-!
Alignment of node time (R80, R209), the window of tenant 16 (R408), the winner among pending CAN buffers (R491), and the frozen node (R610).
-/

namespace Sys2Proof.Machine

namespace State

/-! Alignment of node time -/

/-- An anchor changes registers of the tally book and the console, the tally book, the console's busy time and what has been put out. -/
theorem anchor_get (s : State) (cause : Nat) {g : Fld} {jx : List Nat} (h : recordKey (g.key jx) = false) :
    (s.anchor cause).get g jx = s.get g jx := by
  unfold anchor
  split
  · exact enqueue_get _ _ _ _ _ _ _ _ _ _ h
  · rfl

@[simp] theorem anchor_sync (s : State) (cause : Nat) : (s.anchor cause).sync = s.sync := by
  unfold anchor
  split
  · exact enqueue_sync ..
  · rfl

@[simp] theorem anchor_clock_ntime (s : State) (cause : Nat) : (s.anchor cause).clock.ntime = s.clock.ntime := by
  unfold anchor
  split
  · exact enqueue_clock_ntime ..
  · rfl

/-- The distance from node time to a time in ns, in units of node time. -/
def timeDiff (s : State) (ns : Nat) : Int := (ns : Int) * (nsUnit : Nat) - (s.clock.ntime : Int)

/-- Within 1 µs: the origin is taken and node time slews. -/
theorem alignTime_of_near {s : State} {ns : Nat}
    (h : s.timeDiff ns ≤ (1000 * nsUnit : Nat) ∧ -(1000 * nsUnit : Nat) ≤ s.timeDiff ns) (origin : Nat) :
    s.alignTime ns origin = ((s.set Reg.TIME_STAT_ORIGIN [] origin).modSync fun y => { y with slew := s.timeDiff ns }).anchor 1 := by
  unfold timeDiff at h
  simp only [alignTime, if_pos h, timeDiff]

/-- Beyond 1 µs: the origin is taken and node time steps, with a record. -/
theorem alignTime_of_far {s : State} {ns : Nat}
    (h : ¬ (s.timeDiff ns ≤ (1000 * nsUnit : Nat) ∧ -(1000 * nsUnit : Nat) ≤ s.timeDiff ns)) (origin : Nat) : ∃ p,
    s.alignTime ns origin = (((((s.set Reg.TIME_STAT_ORIGIN [] origin).modClock fun c =>
      { c with ntime := ns % 2 ^ 64 * nsUnit }).modSync fun y =>
        { y with slew := 0, ppsSec := ns % 2 ^ 64 / 1000000000 }).record 0x3306 2 3 p origin).anchor 1) := by
  refine ⟨(s.timeDiff ns / (1000 * nsUnit : Nat) % (2 ^ 32 : Nat)).toNat, ?_⟩
  unfold timeDiff at h ⊢
  simp only [alignTime, if_neg h]

end State

/-- Settles O32: near times slew and far times step, and what follows, a record and an anchor, touches neither. -/
theorem alignmentSlewsOrSteps : Obligations.AlignmentSlewsOrSteps := by
  intro s ns origin hc
  change
    (s.alignTime ns origin).get Reg.TIME_STAT_ORIGIN = _ ∧
    (-(1000 * State.nsUnit : Nat) ≤ s.timeDiff ns ∧ s.timeDiff ns ≤ (1000 * State.nsUnit : Nat) →
      (s.alignTime ns origin).sync.slew = s.timeDiff ns ∧ (s.alignTime ns origin).clock.ntime = s.clock.ntime) ∧
    (s.timeDiff ns < -(1000 * State.nsUnit : Nat) ∨ (1000 * State.nsUnit : Nat) < s.timeDiff ns →
      (s.alignTime ns origin).sync.slew = 0 ∧ (s.alignTime ns origin).clock.ntime = ns % 2 ^ 64 * State.nsUnit)
  have horigin := State.get_set_same s Reg.TIME_STAT_ORIGIN [] origin hc.regs
  by_cases h : s.timeDiff ns ≤ (1000 * State.nsUnit : Nat) ∧ -(1000 * State.nsUnit : Nat) ≤ s.timeDiff ns
  · rw [State.alignTime_of_near h]
    refine ⟨(State.anchor_get _ _ (by decide)).trans horigin, fun _ => ?_, fun hfar => ?_⟩
    · simp
    · omega
  · obtain ⟨p, hstep⟩ := State.alignTime_of_far h origin
    rw [hstep]
    refine ⟨(State.anchor_get _ _ (by decide)).trans ((State.record_get _ _ _ _ _ _ _ _ (by decide)).trans horigin),
      fun hnear => ?_, fun _ => ?_⟩
    · exact absurd hnear.symm h
    · simp

/-! The window of tenant 16 -/

namespace State

/-- The byte at an offset of a window's contents. -/
def byteAt (m : List Host.Cell) (a : Nat) : Byte := (Sparse.find a m).getD 0

theorem winRead_eq (s : State) (off n : Nat) :
    s.winRead off n = (List.range n).map fun i => byteAt s.host.window ((off + i) % winSize) := rfl

theorem winWrite_window (s : State) (off : Nat) (d : List Byte) : (s.winWrite off d).host.window = winPut s.host.window off d := rfl

/-- Bytes outside what is written stay. -/
theorem byteAt_winPut_other (d : List Byte) : ∀ (m : List Host.Cell) (off a : Nat),
    (∀ k, k < d.length → a ≠ (off + k) % winSize) → byteAt (winPut m off d) a = byteAt m a := by
  induction d with
  | nil => exact fun _ _ _ _ => rfl
  | cons b d ih =>
    intro m off a h
    have hrest : ∀ k, k < d.length → a ≠ (off + 1 + k) % winSize := by
      intro k hk
      have := h (k + 1) (Nat.succ_lt_succ hk)
      rwa [show off + (k + 1) = off + 1 + k by omega] at this
    have hfirst : a ≠ off % winSize := h 0 (Nat.succ_pos _)
    calc byteAt (winPut (Sparse.write 0 (off % winSize) b m) (off + 1) d) a
      _ = byteAt (Sparse.write 0 (off % winSize) b m) a := ih _ _ _ hrest
      _ = byteAt m a := by rw [byteAt, byteAt, Sparse.find_write_other hfirst]

/-- Bytes that fit into the window once are read where they were written. -/
theorem byteAt_winPut_same (d : List Byte) : ∀ (m : List Host.Cell) (off k : Nat) (hk : k < d.length), Memory.wf m = true →
    d.length ≤ winSize → byteAt (winPut m off d) ((off + k) % winSize) = d[k] := by
  induction d with
  | nil => exact fun _ _ k hk => absurd hk (Nat.not_lt_zero k)
  | cons b d ih =>
    intro m off k hk hm hlen
    rw [List.length_cons] at hk hlen
    have hm' := Memory.wf_write hm off b
    cases k with
    | zero =>
      have hrest : ∀ k, k < d.length → off % winSize ≠ (off + 1 + k) % winSize := by
        intro k hk
        unfold winSize at *
        omega
      calc byteAt (winPut (Sparse.write 0 (off % winSize) b m) (off + 1) d) (off % winSize)
        _ = byteAt (Sparse.write 0 (off % winSize) b m) (off % winSize) := byteAt_winPut_other d _ _ _ hrest
        _ = b := (window_read_write hm _ _ b).trans (if_pos rfl)
    | succ k =>
      have := ih _ (off + 1) k (by omega) hm' (by omega)
      rwa [show off + 1 + k = off + (k + 1) by omega] at this

end State

/-- Settles O50: by induction on the bytes written. -/
theorem windowReadsWhatWasWritten : Obligations.WindowReadsWhatWasWritten := by
  intro s addr data hc _ hlen
  refine ⟨?_, fun a ha h => ?_, State.winWrite_wf s addr data hc.window, rfl⟩
  · refine List.ext_getElem (by simp [State.winRead]) fun k hk hk' => ?_
    simpa [State.winRead_eq, State.winWrite_window] using State.byteAt_winPut_same data s.host.window addr k hk' hc.window hlen
  · have hbyte := State.byteAt_winPut_other data s.host.window addr a h
    rw [← Nat.mod_eq_of_lt ha] at hbyte
    simpa [State.winRead_eq, State.winWrite_window] using hbyte

/-! The winner among pending CAN buffers -/

/-- The element that a list keeps when a smaller key replaces a larger one has the smallest key. -/
theorem foldl_min_key {α : Type} (key : α → Nat) (l : List α) : ∀ b : α,
    let m := l.foldl (fun a x => if key x < key a then x else a) b
    m ∈ b :: l ∧ ∀ x ∈ b :: l, key m ≤ key x := by
  induction l with
  | nil => simp
  | cons y l ih =>
    intro b
    have hle : key (if key y < key b then y else b) ≤ key b ∧ key (if key y < key b then y else b) ≤ key y := by
      split <;> omega
    have hof : (if key y < key b then y else b) = b ∨ (if key y < key b then y else b) = y := by
      split <;> simp
    obtain ⟨hmem, hmin⟩ := ih (if key y < key b then y else b)
    have hhead := hmin _ List.mem_cons_self
    refine ⟨?_, fun x hx => ?_⟩
    · rcases List.mem_cons.mp hmem with h | h
      · rw [List.foldl_cons, h]
        rcases hof with h | h <;> simp [h]
      · exact List.mem_cons_of_mem _ (List.mem_cons_of_mem _ h)
    · rcases List.mem_cons.mp hx with rfl | hx
      · exact hhead.trans hle.1
      · rcases List.mem_cons.mp hx with rfl | hx
        · exact hhead.trans hle.2
        · exact hmin x (List.mem_cons_of_mem _ hx)

/-- The order among pending buffers: the identifier as it is arbitrated, then the buffer's number. -/
def State.winKey (s : State) (n b : Nat) : Nat := (s.canBuf (s.govern n) b).frame.arb * 128 + b

/-- The winner is the pending buffer with the smallest key. -/
theorem State.canWinner_eq (s : State) (n : Nat) : (s.canWinner n = none ↔ s.pendOf n = []) ∧
    ∀ b, s.canWinner n = some b → b ∈ s.pendOf n ∧ ∀ x ∈ s.pendOf n, s.winKey n b ≤ s.winKey n x := by
  unfold State.canWinner
  cases s.pendOf n with
  | nil => simp
  | cons y l =>
    refine ⟨by simp, fun b hb => ?_⟩
    cases hb
    exact foldl_min_key (s.winKey n) l y

/-- Settles O54: the smallest key among buffers below 128 has the dominant identifier, and the lowest number where identifiers are equal. -/
theorem lowestIdentifierWins : Obligations.LowestIdentifierWins := by
  intro s n b hlt
  obtain ⟨hnone, hsome⟩ := s.canWinner_eq n
  refine ⟨fun hb => ?_, hnone⟩
  obtain ⟨hmem, hmin⟩ := hsome b hb
  refine ⟨hmem, fun x hx => ?_⟩
  have hkey := hmin x hx
  have hb := hlt b hmem
  have hx := hlt x hx
  simp only [State.winKey] at hkey
  omega

/-! The frozen node -/

/-- A frozen node is not clocked. -/
theorem State.alive_of_frozen {s : State} (h : s.on Reg.DIAG_STAT_FROZEN = true) : s.alive = false := by
  simp [State.alive, h]

/-- Without a clock an idle step changes nothing. -/
theorem State.idle_of_not_alive {s : State} (h : s.alive = false) : s.idle = s := by
  simp [State.idle, h]

/-- A frame of the consist network finds a frozen node's ports standing still. -/
theorem exec_consistFrameIngress_of_not_alive {s : State} (h : s.alive = false) (n : Fin 12) (f : EthFrame) (t : Nat) :
    exec (.consistFrameIngress n f t) s = .next s := congrArg Host.Outcome.next (if_pos (by simp [h]))

/-- Settles O60: each of these meanings first asks whether the node is clocked, as an idle step does. -/
theorem frozenNodeStandsStill : Obligations.FrozenNodeStandsStill := by
  intro s rest hz
  have ha := State.alive_of_frozen hz
  refine ⟨?_, fun n f k => ?_, fun n f t => ?_, fun n f a b => ?_, fun t w => ?_, fun r b o z v g => ?_, fun r b o z => ?_, ?_, fun n f t => ?_⟩
  · intro c hc
    simp only [List.mem_cons, List.not_mem_nil, or_false] at hc
    rcases hc with rfl | rfl | rfl | rfl | rfl | rfl | rfl | rfl | rfl | rfl | rfl | rfl | rfl | rfl | rfl | rfl | rfl | rfl | rfl | rfl
    all_goals exact congrArg Host.Outcome.next (if_neg (by simp [ha, State.qspiOn]))
  · exact congrArg Host.Outcome.next (if_pos (by simp [ha]))
  · exact exec_consistFrameIngress_of_not_alive ha n f t
  · exact congrArg Host.Outcome.next (if_pos (by simp [ha]))
  · exact congrArg Host.Outcome.next (if_neg (by simp [ha]))
  · exact congrArg Host.Outcome.next (if_neg (by simp [ha]))
  · exact congrArg Host.Outcome.next (if_neg (by simp [ha]))
  · exact (step_nil rfl).trans (congrArg Host.Outcome.next (State.idle_of_not_alive (s := { s with pending := [] }) ha))
  · exact (step_cons rfl).trans (exec_consistFrameIngress_of_not_alive (s := { s with pending := rest }) ha n f t)

end Sys2Proof.Machine

/-!
The line ports' commands (R123 to R127), the QSPI commands (R408, R411) and the debug port's commands (R606 to R613).
-/

namespace Sys2Proof.Machine

/-! The answer of a command that is a choice between states: what holds of its guard names the state -/

theorem next_if_pos {P : Prop} [Decidable P] {a b : State} (h : P) :
    (Host.Outcome.next (if P then a else b) : Result) = .next a := congrArg _ (if_pos h)

theorem next_if_neg {P : Prop} [Decidable P] {a b : State} (h : ¬ P) :
    (Host.Outcome.next (if P then a else b) : Result) = .next b := congrArg _ (if_neg h)

/-! The model's list updates are the library's -/

theorem listSet_eq_set {α : Type} (l : List α) (i : Nat) (v : α) : listSet l i v = l.set i v := by
  induction l generalizing i with
  | nil => rfl
  | cons x l ih =>
    cases i with
    | zero => rfl
    | succ i => exact congrArg (x :: ·) (ih i)

theorem listMod_eq_modify {α : Type} (l : List α) (i : Nat) (f : α → α) : listMod l i f = l.modify i f := by
  induction l generalizing i with
  | nil => rw [List.modify_nil, listMod]
  | cons x l ih =>
    cases i with
    | zero => rfl
    | succ i => rw [List.modify_succ_cons, listMod, ih]

theorem getD_listSet_same {α : Type} {l : List α} {i : Nat} (h : i < l.length) (v d : α) : (listSet l i v).getD i d = v := by
  rw [listSet_eq_set, List.getD_eq_getElem?_getD, List.getElem?_set_self h]
  rfl

theorem getD_listMod_same {α : Type} {l : List α} {i : Nat} (h : i < l.length) (f : α → α) (d : α) :
    (listMod l i f).getD i d = f (l.getD i d) := by
  rw [listMod_eq_modify, List.getD_eq_getElem?_getD, List.getElem?_modify_eq, List.getD_eq_getElem?_getD,
    List.getElem?_eq_getElem h]
  rfl

namespace State

/-! Line ports -/

theorem port_modPort_same {s : State} {n : Nat} (h : n < s.ports.length) (f : Port → Port) :
    (s.modPort n f).port n = f (s.port n) := getD_listMod_same h f default

theorem linkLoss_of_line {s : State} {n : Nat} (h : s.isXlink n = false) : s.linkLoss n = s.probe n 0 := by
  simp [linkLoss, h]

theorem freshCeil_of_line {s : State} {n : Nat} (h : s.isXlink n = false) :
    s.freshCeil n = s.set Reg.LPn_STAT_CEIL [n] (s.fastest n) := by
  simp [freshCeil, h]

/-- The ceiling is another field than the port's state, and the deployment does not depend on it. -/
theorem lpRetry_of_line {s : State} {n : Fin 4} (h : s.isXlink n.val = false) :
    s.lpRetry n.val = if s.pst n.val = 0 then s.set Reg.LPn_STAT_CEIL [n.val] (s.fastest n.val)
      else (s.set Reg.LPn_STAT_CEIL [n.val] (s.fastest n.val)).probe n.val 0 := by
  have hpst : (s.set Reg.LPn_STAT_CEIL [n.val] (s.fastest n.val)).pst n.val = s.pst n.val :=
    get_set_other _ _ _ _ _ _
      ((by decide : ∀ m : Fin 4, Reg.LPn_STAT_STATE.key [m.val] ≠ Reg.LPn_STAT_CEIL.key [m.val]) n)
  have hx : (s.set Reg.LPn_STAT_CEIL [n.val] (s.fastest n.val)).isXlink n.val = false := h
  simp only [lpRetry, freshCeil_of_line h, hpst, beq_iff_eq, linkLoss_of_line hx]

end State

/-- Settles O33: each command's guard holds, and its state follows from what a change of the port's record and its registers leaves. -/
theorem linePortCommands : Obligations.LinePortCommands := by
  intro s n hc ha
  refine ⟨fun h1 hm hlen ht => ⟨_, next_if_pos (by simp [ha, h1, hm, ht]), ?_, ?_, rfl⟩, fun h1 hm ht => next_if_pos (by simp [ha, h1, hm, ht]),
    fun r h1 hm hr hle => ?_, fun h1 hm => next_if_pos (by simp [ha, h1, hm]), fun h2 ht => next_if_pos (by simp [ha, h2, ht]),
    fun sqi h2 => next_if_pos (by simp [ha, h2]), fun h3 hx ht => ?_, fun h1 hx ht => ?_, fun h0 hx => ?_, fun h0 hx => ?_, fun h hx => ?_⟩
  · simp [State.port_modPort_same hlen]
  · simp [State.port_modPort_same hlen]
  · have hguard : (s.heardSignal n.val).modeOn n.val r.val = true ∧ r.val ≤ (s.heardSignal n.val).get Reg.LPn_STAT_CEIL [n.val] := ⟨hr, hle⟩
    exact (next_if_pos (by simp [ha, h1, hm])).trans (congrArg _ (if_pos (by simp [hguard])))
  · exact (next_if_pos (by simp [ha, h3, ht])).trans (congrArg _ (State.linkLoss_of_line hx))
  · refine ⟨_, (next_if_pos (by simp [ha, h1, ht])).trans (congrArg _ (State.freshCeil_of_line hx)), State.get_set_same _ _ _ _ hc.regs, rfl⟩
  · exact (next_if_pos ha).trans (congrArg _ ((State.lpRetry_of_line hx).trans (if_neg h0)))
  · exact (next_if_pos ha).trans (congrArg _ ((State.lpRetry_of_line hx).trans (if_pos h0)))
  · exact (next_if_pos (by simp [ha, h])).trans (congrArg _ (State.linkLoss_of_line hx))

namespace State

/-! Error flags of a tenant, as the QSPI commands set them -/

/-- An MSI-X message goes out or stays pending, which no register shows. -/
theorem msix_regs (s : State) (t v : Nat) : (s.msix t v).regs = s.regs := by
  simp only [msix]
  split <;> rfl

/-- An interrupt for an error shows in TN_IRQ of tenant 16, and otherwise in no register. -/
theorem signal_17_get (s : State) (t vec : Nat) {g : Fld} {jx : List Nat} (h : g.key jx ≠ Reg.TN_IRQ_ERR.key [16]) :
    (s.signal t 17 vec).get g jx = s.get g jx := by
  unfold signal
  split
  · exact get_set_other s _ _ _ _ 1 h
  · exact get_of_regs (msix_regs s t vec) g jx

theorem tnErr_get_other (s : State) (t : Nat) (f : Fld) {g : Fld} {jx : List Nat} (h : g.key jx ≠ f.key [t])
    (hirq : g.key jx ≠ Reg.TN_IRQ_ERR.key [16]) : (s.tnErr t f).get g jx = s.get g jx := by
  unfold tnErr
  split
  · rfl
  · dsimp only
    split
    · rw [signal_17_get _ _ _ hirq, get_set_other _ _ _ _ _ _ h]
    · rw [get_set_other _ _ _ _ _ _ h]

theorem tnErr_shows {s : State} (hs : Sparse.sorted s.regs = true) (t : Nat) {f : Fld} (hirq : f.key [t] ≠ Reg.TN_IRQ_ERR.key [16]) :
    (s.tnErr t f).get f [t] ≠ 0 := by
  have hset : (s.set f [t] 1).get f [t] = 1 :=
    (get_set_same s _ _ 1 hs).trans (Nat.mod_eq_of_lt (Nat.one_lt_two_pow (Nat.succ_ne_zero _)))
  unfold tnErr
  split
  case isTrue hon => simpa [on] using hon
  case isFalse =>
    dsimp only
    split
    · rw [signal_17_get _ _ _ hirq, hset]
      decide
    · rw [hset]
      decide

end State

/-- Settles O49: each command's guard holds; a wrong key and an unknown command set the flag. -/
theorem qspiCommands : Obligations.QspiCommands := by
  intro s hc ha h9
  have hq : s.qspiOn = true := by simp [State.qspiOn, ha, h9]
  refine ⟨fun hh hi he => ?_, fun addr n => next_if_pos hq, fun addr data hh => next_if_pos (by simp [hq, hh]),
    fun addr data hh => next_if_neg (by simp [hh]),
    ⟨(s.tenantReset 16 4).modHost fun h => { h with window := [] }, ?_, rfl⟩, fun k hk => ?_,
    ⟨_, next_if_pos hq, State.tnErr_shows hc.regs 16 (by decide)⟩⟩
  · refine (next_if_pos hq).trans ?_
    simp [hh, hi, he, State.emit, b2n]
  · exact (next_if_neg (by simp [hq])).trans (congrArg _ (if_neg (by decide)))
  · have hkey : (k.toNat != 0xA5) = true := by
      rw [bne_iff_ne]
      exact fun h => hk (BitVec.eq_of_toNat_eq h)
    exact (next_if_neg (by simp [hq])).trans (congrArg _ (if_pos hkey))

/-- Settles O58: the port is clocked with the node, and what is shifted out does not depend on the instruction register. -/
theorem debugCommands : Obligations.DebugCommands := by
  intro s hc ha
  obtain ⟨hon, hz⟩ := State.alive_iff.mp ha
  have hd : s.debugOn = true := hon
  refine ⟨fun tdi => next_if_pos hd, next_if_pos hd, fun cells l u hl => ?_, fun cells => ?_, ?_, fun tok sig f tear => ?_, next_if_pos hd,
    fun tear he => ?_, fun held tear he => ⟨s.modPins fun p => { p with freezeLow := held }, ?_, rfl, rfl⟩, fun a => next_if_pos hd,
    fun n => ?_, fun ht he hle hlc => ?_⟩
  · refine (next_if_pos hd).trans (congrArg _ ?_)
    simp [State.captureBalls, hl, State.emit, State.modDebug]
  · exact (next_if_neg (by simp [hd])).trans (congrArg _ (if_neg (by simp [hz])))
  · exact ⟨_, _, (next_if_neg (by simp [hd])).trans (congrArg _ (if_neg (by simp [hz]))), rfl, rfl, rfl⟩
  · exact (next_if_neg (by simp [hd])).trans (congrArg _ (if_pos ha))
  · refine (next_if_pos hd).trans (congrArg _ ((if_neg (by simp [State.loadIr, hz])).trans (if_pos ?_)))
    exact he
  · refine (next_if_pos hon).trans (congrArg _ ((if_neg ?_).trans (if_pos ?_)))
    · exact fun h => absurd (hz.symm.trans h) (by decide)
    · exact he
  · exact (next_if_neg (by simp [hd])).trans (congrArg _ (if_neg (by simp [hz])))
  · refine ⟨_, next_if_pos (by simp [ha, ht, he, hle]), ?_, ?_, rfl, rfl⟩
    · exact (State.get_set_other _ _ _ _ _ _ (by decide)).trans (State.get_set_same s _ _ 0 hc.regs)
    · refine (State.get_set_same ((s.set Reg.DIAG_STAT_TOKEN [] 0).modDebug fun d => { d with tokenEnd := 0 })
        Reg.DIAG_STAT_FRZ_EN [] _ (State.sorted_set s Reg.DIAG_STAT_TOKEN [] 0 hc.regs)).trans ?_
      simp [hlc, b2n]

end Sys2Proof.Machine

/-!
Completions in ring order (R382), and the commands of configuration (R396, R588 to R595).
-/

namespace Sys2Proof.Machine

namespace State

/-! Queues -/

theorem queue_modQueue_same (s : State) (t q : Nat) (f : Queue → Queue) : (s.modQueue t q f).queue t q = f (s.queue t q) := by
  simp [modQueue, queue, modHost, Sparse.find_put_same]

/-- Nothing is written while the oldest descriptor is open. -/
theorem writeDone_of_open {s : State} {t q : Nat} {v : Work} {l : List Work} (hw : (s.queue t q).works = v :: l) (hv : v.result = none)
    (left : Nat) : s.writeDone t q left = s := by
  have hone : s.writeOne t q = s := by simp [writeOne, hw, hv]
  induction left with
  | zero => rfl
  | succ left ih => rw [writeDone, hone, ih]

/-- The work that a completion decides. -/
def decided (i status cflags rlen rval : Nat) (w : Work) : Work :=
  if w.idx == i && w.result.isNone then { w with started := true, result := some (status, cflags, rlen, rval) } else w

/-- R382: behind an open descriptor a completion is only noted. -/
theorem complete_of_open {s : State} {t q : Nat} {v : Work} {l : List Work} (ht : t < 17) (hw : (s.queue t q).works = v :: l)
    (hv : v.result = none) {i : Nat} (hi : v.idx ≠ i) (status rlen rval : Nat) :
    s.complete t q i status rlen rval =
      s.modQueue t q fun y => { y with works := y.works.map (decided i status 0 rlen rval) } := by
  have hopen : decided i status 0 rlen rval v = v := by simp [decided, hi]
  unfold complete completeC
  rw [if_neg (Nat.not_le_of_lt ht)]
  refine writeDone_of_open (v := v) (l := l.map (decided i status 0 rlen rval)) ?_ hv _
  rw [queue_modQueue_same]
  change ((s.queue t q).works.map (decided i status 0 rlen rval)) = _
  rw [hw, List.map_cons, hopen]

end State

/-- Settles O45: the completion behind an open descriptor only decides its own work. -/
theorem completionsInRingOrder : Obligations.CompletionsInRingOrder := by
  intro s n q i d v l ha hw hv hi hr
  refine ⟨_, (exec_nop_of_ready ha hr).trans (congrArg _ (State.complete_of_open n.isLt hw hv hi 0 0 d.arg0)), rfl, rfl, ?_⟩
  have hopen : State.decided i 0 0 0 d.arg0 v = v := by simp [State.decided, hi]
  rw [State.queue_modQueue_same]
  change ((s.queue n.val q.val).works.map (State.decided i 0 0 0 d.arg0)) = _
  rw [hw, List.map_cons, hopen]
  simp [State.decided]

/-! Configuration -/

namespace State

/-- Neither a criterion of the trial nor the slot control record is a register, and neither is an image in force. -/
theorem checkTrial_regs (s : State) : s.checkTrial.regs = s.regs := by
  unfold checkTrial
  split <;> rfl

theorem checkTrial_confirmed (s : State) : s.checkTrial.conf.confirmed = s.conf.confirmed := by
  unfold checkTrial
  split <;> rfl

theorem checkTrial_active (s : State) : s.checkTrial.conf.active = s.conf.active := by
  unfold checkTrial
  split <;> rfl

theorem writeSlots_regs (s : State) : s.writeSlots.regs = s.regs := by
  unfold writeSlots mramWrite
  split <;> rfl

theorem writeSlots_conf_active (s : State) : s.writeSlots.conf.active = s.conf.active := by
  unfold writeSlots mramWrite
  split <;> rfl

end State

/-- Settles O57: each command's guard holds, and names the operation that it carries out. -/
theorem configurationCommands : Obligations.ConfigurationCommands := by
  intro s hc ha
  refine ⟨fun n q i data sig d hr hlen => ?_, fun n q i data sig d hr => ?_, fun n q i partner m d hr hk hst => ?_,
    fun n q i partner m d c hr hk hst hw ht hp hact hsl => ?_, fun n q i d hr hk ht => ?_, fun n q i d hr h9 h8 hk => ?_,
    fun n q i d hr hk hp => ?_, fun n q i d c hr hk hp hw => ?_, fun hcpu hm => next_if_pos (by simp [ha, hcpu, hm]),
    fun hcpu ht he hf => ?_, fun c turn hcpu ht hf hta => ?_, fun w hcpu hf hw hk hta => ?_⟩
  · refine (next_if_neg (by simp [ha])).trans ?_
    simp [hr, State.configStage, hlen]
  · refine (next_if_neg (by simp [ha])).trans ?_
    simp [hr]
  · refine (next_if_neg (by simp [ha])).trans ?_
    simp [hr, hk, State.activateConfig, hst]
  · refine (next_if_neg (by simp [ha])).trans ?_
    simp [hr, hk, State.activateConfig, hst, hw, ht, hp, hact, hsl]
  · refine (next_if_neg (by simp [ha])).trans ?_
    simp [hr, hk, State.confirmTrial, ht]
  · refine (next_if_neg (by simp [ha])).trans ?_
    simp [hr, Option.filter_some, h9, h8, hk]
  · refine (next_if_neg (by simp [ha])).trans ?_
    simp [hr, hk, State.configRollback, hp]
  · refine (next_if_neg (by simp [ha])).trans ?_
    simp [hr, hk, State.configRollback, hp, hw]
  · refine ⟨s.checkTrial.dropTrial.writeSlots, ?_, ?_, ?_⟩
    · refine (next_if_neg (by simp [ha, hcpu, ht, he])).trans ?_
      simp only [hf, Option.isSome_none, State.checkTrial_confirmed, State.get_of_regs (State.checkTrial_regs s)]
      rfl
    · refine (State.get_of_regs (State.writeSlots_regs _) _ _).trans (State.get_set_same _ _ _ 0 ?_)
      exact (State.checkTrial_regs s).symm ▸ hc.regs
    · exact (State.writeSlots_conf_active _).trans (State.checkTrial_active s)
  · refine (next_if_neg (by simp [ha, hcpu])).trans ?_
    simp [State.dueRollback, hf, ht, hta]
  · refine (next_if_neg (by simp [ha, hcpu])).trans ?_
    simp [State.dueRollback, hf, hw, hk, hta]

end Sys2Proof.Machine

/-!
The descriptors of line, consist, CAN, directory, inauguration and role work (R394, R398 to R406).
-/

namespace Sys2Proof.Machine

namespace State

theorem takeBuf_regs (s : State) (t : Nat) (d : Desc) (given : List Byte) : (s.takeBuf t d given).2.regs = s.regs := by
  unfold takeBuf
  split <;> rfl

theorem takeBuf_pins (s : State) (t : Nat) (d : Desc) (given : List Byte) : (s.takeBuf t d given).2.pins = s.pins := by
  unfold takeBuf
  split <;> rfl

theorem takeBuf_can (s : State) (t : Nat) (d : Desc) (given : List Byte) : (s.takeBuf t d given).2.can = s.can := by
  unfold takeBuf
  split <;> rfl

theorem takeBuf_free (s : State) (t : Nat) (d : Desc) (given : List Byte) : (s.takeBuf t d given).2.free = s.free := by
  unfold takeBuf
  split <;> rfl

section
variable {s : State} {t q i : Nat} {d : Desc} {given : List Byte}

/-! LINE_SEND -/

theorem lineSend_of_standing (hargs : s.lineArgs t d = none) (hst : s.standing = true) :
    s.lineSend t q i d given = s.complete t q i 9 0 s.icount := by
  simp [lineSend, hargs, hst]

theorem lineSend_of_icount (hargs : s.lineArgs t d = none) (hst : s.standing = false) (hpos : s.ownPos ≠ 0)
    (hwant : d.arg1 % 2 ^ 32 ≠ 0) (hne : d.arg1 % 2 ^ 32 ≠ s.icount) : s.lineSend t q i d given = s.complete t q i 2 0 s.icount := by
  simp only [lineSend, hargs]
  rw [if_neg (by simp [hst, hpos]), if_pos (by rw [Bool.and_eq_true, bne_iff_ne, bne_iff_ne]; exact ⟨hwant, hne⟩)]

/-- Towards a node of the line, neither a pair nor this node takes part. -/
theorem lineSend_of_node (hargs : s.lineArgs t d = none) (hst : s.standing = false) (hpos : s.ownPos ≠ 0) (hwant : d.arg1 % 2 ^ 32 = 0)
    (hcons : d.arg0 % 256 ≠ 255) {x : Numbered} (hx : s.nodeOfCar (d.arg0 % 256) (d.arg0 / 256 % 256) = some x)
    (hkind : d.arg0 / 2 ^ 32 % 4 = 1) (hpair : s.paired = false) (hself : x.pos ≠ s.ownPos) (hall : x.pos ≠ 0xFFFF)
    (hbuf : bufWaits t d given = false) {f : Frame} {u : State}
    (hu : ((s.takeBuf t d given).2.startWork t q i).makeDyn (d.arg0 / 2 ^ 48 % 512) x.pos 1 (d.arg0 / 2 ^ 16 % 65536)
      (d.arg0 / 2 ^ 36 % 8) (s.takeBuf t d given).1 (s.lifeOf (d.arg0 / 2 ^ 48 % 512)) = (f, u)) :
    s.lineSend t q i d given = if (u.duePorts x.pos).isEmpty then u.complete t q i 0 d.len f.hdr.seqGen
      else u.queueOwn f x.pos (some (t, q, i)) := by
  have hregs := takeBuf_regs s t d given
  have hpins := takeBuf_pins s t d given
  have hlife : ((s.takeBuf t d given).2.startWork t q i).lifeOf (d.arg0 / 2 ^ 48 % 512) = s.lifeOf (d.arg0 / 2 ^ 48 % 512) := by
    simp only [lifeOf, get_of_regs (show ((s.takeBuf t d given).2.startWork t q i).regs = s.regs from hregs)]
  have hupos : u.ownPos = s.ownPos := (get_of_regs (congrArg (fun z => z.2.regs) hu.symm) _ _).trans (get_of_regs hregs _ _)
  have hupair : u.paired = false := ((congrArg (fun z => z.2.pins.strapPair) hu.symm).trans (congrArg Pins.strapPair hpins)).trans hpair
  have htpair : ((s.takeBuf t d given).2.startWork t q i).paired = false := (congrArg Pins.strapPair hpins).trans hpair
  unfold lineSend
  simp only [hargs, hx, hkind, hbuf, Option.map_some]
  rw [if_neg (by simp [hst, hpos]), if_neg (by simp only [hwant, bne_self_eq_false, Bool.false_and, Bool.false_eq_true, not_false_eq_true]),
    if_neg (by simpa using hcons)]
  simp only [Bool.false_eq_true, if_false, htpair, Bool.false_and, show ((1 : Nat) == 0) = false from rfl, hlife]
  rw [hu]
  simp only [hupos, beq_false_of_ne hself, beq_false_of_ne hall, Bool.or_self, Bool.false_eq_true, if_false, hupair, Bool.false_and]

/-! CONSIST_SEND -/

/-- A frame of 100 bytes is neither too short nor too long, tagged or not. -/
theorem consistLen_ok (f : EthFrame) (hlen : d.len = 100) :
    (if f.tagged then decide (64 ≤ d.len) && decide (d.len ≤ 1522) else decide (60 ≤ d.len) && decide (d.len ≤ 1518)) = true := by
  rw [hlen]
  cases f.tagged <;> rfl

theorem consistSend_of_bad_port (hbuf : bufWaits t d given = false) (hlo : 12 ≤ d.arg0 % 16) (hhi : d.arg0 % 16 ≤ 14) :
    s.consistSend t q i d given = s.failCheck t q i 6 := by
  simp [consistSend, hbuf, hlo, hhi]

theorem consistSend_of_disabled (hbuf : bufWaits t d given = false) (hport : d.arg0 % 16 < 12) (hlen : d.len = 100)
    (hwin : inWin t d.buf d.len = true) (hen : s.on Reg.CT_CTL_EN [t] = false) :
    s.consistSend t q i d given = (s.takeBuf t d given).2.complete t q i 5 0 0 := by
  have hlenOk := consistLen_ok (d := d) (ethTagged (s.takeBuf t d given).1) hlen
  simp only [consistSend, hbuf, hlenOk, hwin, hen, Bool.false_and, Bool.false_eq_true, if_false]
  rw [if_neg (by simp; omega)]

/-- An untagged frame to a port, or to the bridge, has passed the checks. -/
theorem consistSend_of_untagged (hbuf : bufWaits t d given = false) (hport : d.arg0 % 16 < 12 ∨ d.arg0 % 16 = 15) (hlen : d.len = 100)
    (hwin : inWin t d.buf d.len = true) (hen : s.on Reg.CT_CTL_EN [t] = true) (hf : (ethTagged (s.takeBuf t d given).1).tagged = false)
    {v : Nat} (hv : s.vlanOf (s.get Reg.CT_CTL_VID [t]) = some v) :
    s.consistSend t q i d given =
      let f := ethTagged (s.takeBuf t d given).1
      let u := (s.takeBuf t d given).2.startWork t q i
      let own := s.get Reg.CT_CTL_VID [t]
      let prio := d.arg0 / 16 % 8
      if d.arg0 % 16 == 15 then
        (({ u with free := u.free + 1 } : State).bridge (.host t) 15 v own prio (u.take 32).1 f).complete t q i 0 0 0
      else if !u.member v (d.arg0 % 16) then u.complete t q i 5 0 0
      else if u.cpUp (d.arg0 % 16) then u.cpSend none (some (t, q, i)) (d.arg0 % 16) v own prio f
      else (u.cpSend none (some (t, q, i)) (d.arg0 % 16) v own prio f).complete t q i 1 0 0 := by
  simp only [consistSend, hbuf, hwin, hen, hf, hv, Bool.false_and, Bool.false_eq_true, if_false, Bool.not_false, Bool.true_or,
    Bool.true_and, if_true]
  rw [if_neg (by simp; omega)]
  rfl

/-! CAN_SEND -/

/-- A classical frame on a controller that governs itself, on a node without a partner. -/
theorem canSend_of_classical (hwin : inWin t d.buf d.len = true) (hbuf : bufWaits t d given = false) {f : CanFrame}
    (hf : parseCan (s.memIn t d.buf d.len given) d.len = some f) (hfd : f.fdf = false) (hgov : s.govern (d.arg0 % 8) = d.arg0 % 8)
    (hpair : s.paired = false) :
    s.canSend t q i d given =
      let u := (s.takeBuf t d given).2.startWork t q i
      if u.canClosed (d.arg0 % 8) then u.complete t q i 1 0 0 else u.canQueue (d.arg0 % 8) t q i f := by
  have hupair : ((s.takeBuf t d given).2.startWork t q i).paired = false := (congrArg Pins.strapPair (takeBuf_pins s t d given)).trans hpair
  have hdata : (s.takeBuf t d given).1 = s.memIn t d.buf d.len given := rfl
  simp only [canSend, hbuf, hwin, hdata, hf, hfd, hgov, hupair, Bool.false_and, Bool.false_eq_true, if_false, if_true, Bool.false_or,
    bne_self_eq_false]

end

end State

/-- Settles O47: each descriptor may start, and its arguments choose one way through the operation. -/
theorem lineDescriptors : Obligations.LineDescriptors := by
  intro s n q i d ha
  have hgo {P : State} {x : State} (h : x = P) : (Host.Outcome.next (if !s.alive then s else x) : Result) = .next P :=
    (next_if_neg (by simp [ha])).trans (congrArg _ h)
  have hreads (data : List Byte) : (∀ v, ((s.takeBuf n.val d data).2.startWork n.val q.val i).member v = s.member v) ∧
      ((s.takeBuf n.val d data).2.startWork n.val q.val i).cpUp = s.cpUp := by
    have hregs : ((s.takeBuf n.val d data).2.startWork n.val q.val i).regs = s.regs := State.takeBuf_regs s n.val d data
    exact ⟨fun v => funext fun m => by simp only [State.member, State.get_of_regs hregs],
      funext fun m => by simp only [State.cpUp, State.get_of_regs hregs]⟩
  refine ⟨fun data hr hargs hst => hgo ?_, fun data hr hargs hst hpos hwant hne => hgo ?_,
    fun data x f u hr hargs hst hpos hwant hcons hx hkind hpair hself hall hbuf hu => hgo ?_, fun hr hwin => hgo ?_,
    fun data hr hlo hhi hbuf => hgo ?_, fun data hr hport hlen hwin hbuf hen => hgo ?_,
    fun data f v hr hport hlen hwin hbuf hen hf htag hv =>
      ⟨(((s.takeBuf n.val d data).2.startWork n.val q.val i).take 32).1, _, hgo ?_, rfl⟩,
    fun data f v hr hport hlen hwin hbuf hen hf htag hv hmem hup => hgo ?_,
    fun data f v hr hport hlen hwin hbuf hen hf htag hv hmem hup => hgo ?_, fun hr hlen hwin => hgo ?_,
    fun data f hr hwin hbuf hf hfd hgov hpair => ⟨(s.takeBuf n.val d data).2.startWork n.val q.val i, hgo ?_,
      State.takeBuf_regs s n.val d data, State.takeBuf_can s n.val d data⟩,
    fun hr h0 h1 hwin => hgo ?_, fun hr h0 h1 hwin => hgo ?_, 
    fun hr => ⟨(s.startWork n.val q.val i).modInaug fun x => { x with requests := x.requests ++ [(n.val, q.val, i)] }, hgo ?_, rfl, rfl⟩,
    fun hr hden => hgo ?_, fun hr hden => hgo ?_⟩
  all_goals simp only [hr]
  · exact State.lineSend_of_standing hargs hst
  · exact State.lineSend_of_icount hargs hst hpos hwant hne
  · exact State.lineSend_of_node hargs hst hpos hwant hcons hx hkind hpair hself hall hbuf hu
  · simp [hwin]
  · exact State.consistSend_of_bad_port hbuf hlo hhi
  · exact State.consistSend_of_disabled hbuf hport hlen hwin hen
  · subst hf
    rw [State.consistSend_of_untagged hbuf (.inr hport) hlen hwin hen htag hv]
    simp only [hport, beq_self_eq_true, if_true, State.startWork, State.modQueue, State.modHost, State.takeBuf_free]
  · subst hf
    rw [State.consistSend_of_untagged hbuf (.inl hport) hlen hwin hen htag hv]
    have hne : d.arg0 % 16 ≠ 15 := by omega
    simp [hne, hreads data, hmem, hup]
  · subst hf
    rw [State.consistSend_of_untagged hbuf (.inl hport) hlen hwin hen htag hv]
    have hne : d.arg0 % 16 ≠ 15 := by omega
    simp [hne, hreads data, hmem, hup]
  · rw [if_neg (by simp [hwin, hlen])]
  · exact State.canSend_of_classical hwin hbuf hf hfd hgov hpair
  · simp [h0, State.directoryRead, h1, hwin]
  · simp [h0, State.directoryRead, h1, hwin]
  · rw [if_pos hden]
  · rw [if_neg (by simp [hden])]

end Sys2Proof.Machine

/-!
The rings (R379, R380, R387 to R392).
-/

namespace Sys2Proof.Machine

namespace State

/-! Rings -/

/-- The fields of a ring are apart from each other, and from what shows of all rings together. -/
theorem ringKeys : ∀ (n : Fin 17) (q : Fin 16),
    (∀ f ∈ [Reg.HQq_CTL_EN, Reg.HQq_STAT_RUN, Reg.HQq_STAT_HEAD, Reg.HQq_TAIL_TAIL, Reg.HQq_STAT_PHASE],
      (∀ g ∈ [Reg.HQq_CTL_EN, Reg.HQq_STAT_RUN, Reg.HQq_STAT_HEAD, Reg.HQq_TAIL_TAIL, Reg.HQq_STAT_PHASE], f ≠ g →
        f.key [n.val, q.val] ≠ g.key [n.val, q.val]) ∧
      f.key [n.val, q.val] ≠ Reg.HQq_STAT_INFLIGHT.key [n.val, q.val] ∧ f.key [n.val, q.val] ≠ Reg.HOST_INFLIGHT_DESC.key [] ∧
      f.key [n.val, q.val] ≠ Reg.TN_STAT_QEN.key [n.val]) := by
  decide +kernel

/-- A ring's registers as an enable leaves them. -/
def ringFresh (s : State) (t q : Nat) : State :=
  ((((s.set Reg.HQq_CTL_EN [t, q] 1).set Reg.HQq_STAT_RUN [t, q] 1).set Reg.HQq_STAT_HEAD [t, q] 0).set Reg.HQq_TAIL_TAIL [t, q] 0).set
    Reg.HQq_STAT_PHASE [t, q] 1

theorem ringFresh_get {s : State} (hs : Sparse.sorted s.regs = true) (n : Fin 17) (q : Fin 16) :
    let t := s.ringFresh n.val q.val
    t.get Reg.HQq_CTL_EN [n.val, q.val] = 1 ∧ t.get Reg.HQq_STAT_RUN [n.val, q.val] = 1 ∧ t.get Reg.HQq_STAT_HEAD [n.val, q.val] = 0 ∧
      t.get Reg.HQq_TAIL_TAIL [n.val, q.val] = 0 ∧ t.get Reg.HQq_STAT_PHASE [n.val, q.val] = 1 := by
  have hne {f g : Fld} (hf : f ∈ [Reg.HQq_CTL_EN, Reg.HQq_STAT_RUN, Reg.HQq_STAT_HEAD, Reg.HQq_TAIL_TAIL, Reg.HQq_STAT_PHASE])
      (hg : g ∈ [Reg.HQq_CTL_EN, Reg.HQq_STAT_RUN, Reg.HQq_STAT_HEAD, Reg.HQq_TAIL_TAIL, Reg.HQq_STAT_PHASE]) (h : f ≠ g) (u : State) (v : Nat) :
      (u.set g [n.val, q.val] v).get f [n.val, q.val] = u.get f [n.val, q.val] :=
    get_set_other _ _ _ _ _ _ ((ringKeys n q f hf).1 g hg h)
  have h1 := sorted_set _ Reg.HQq_CTL_EN [n.val, q.val] 1 hs
  have h2 := sorted_set _ Reg.HQq_STAT_RUN [n.val, q.val] 1 h1
  have h3 := sorted_set _ Reg.HQq_STAT_HEAD [n.val, q.val] 0 h2
  have h4 := sorted_set _ Reg.HQq_TAIL_TAIL [n.val, q.val] 0 h3
  refine ⟨?_, ?_, ?_, ?_, get_set_same _ _ _ 1 h4⟩ <;> unfold ringFresh
  · rw [hne (by decide) (by decide) (by decide), hne (by decide) (by decide) (by decide), hne (by decide) (by decide) (by decide),
      hne (by decide) (by decide) (by decide), get_set_same _ _ _ _ hs]
    decide
  · rw [hne (by decide) (by decide) (by decide), hne (by decide) (by decide) (by decide), hne (by decide) (by decide) (by decide),
      get_set_same _ _ _ _ h1]
    decide
  · rw [hne (by decide) (by decide) (by decide), hne (by decide) (by decide) (by decide), get_set_same _ _ _ _ h2]
    decide
  · rw [hne (by decide) (by decide) (by decide), get_set_same _ _ _ _ h3]
    decide

/-- The count of descriptors in flight and of enabled rings show in registers of their own. -/
theorem showFlight_showQen_get (s : State) (n : Fin 17) (q : Fin 16) {f : Fld}
    (hf : f ∈ [Reg.HQq_CTL_EN, Reg.HQq_STAT_RUN, Reg.HQq_STAT_HEAD, Reg.HQq_TAIL_TAIL, Reg.HQq_STAT_PHASE]) :
    ((s.showFlight n.val q.val).showQen n.val).get f [n.val, q.val] = s.get f [n.val, q.val] := by
  obtain ⟨-, hinfl, hdesc, hqen⟩ := ringKeys n q f hf
  exact (get_set_other _ _ _ _ _ _ hqen).trans ((get_set_other _ _ _ _ _ _ hdesc).trans (get_set_other _ _ _ _ _ _ hinfl))

/-- A ring as its registers describe it, without work. -/
def emptyRing (s : State) (t q : Nat) : Queue where
  sqb := s.ringAddr Reg.HQq_SQB_LO_ADDR Reg.HQq_SQB_HI_ADDR t q
  cqb := s.ringAddr Reg.HQq_CQB_LO_ADDR Reg.HQq_CQB_HI_ADDR t q
  size := s.get Reg.HQq_CTL_SIZE [t, q]
  kind := (s.ringFresh t q).on Reg.HQq_CTL_KIND [t, q]
  rxConsist := (s.ringFresh t q).on Reg.HQq_CTL_RX_CONSIST [t, q]
  irq := (s.ringFresh t q).on Reg.HQq_CTL_IRQ [t, q]
  vec := (s.ringFresh t q).get Reg.HQq_CTL_VEC [t, q]
  next := 0
  works := []
  count := 0
  since := 0
  hold := []

/-- A ring of 64 to 4,096 entries of a tenant whose rings lie in host memory, with the right to it, starts empty. -/
theorem enableQueue_fresh {s : State} (hs : Sparse.sorted s.regs = true) {n : Fin 17} {q : Fin 16}
    (hen : s.on Reg.HQq_CTL_EN [n.val, q.val] = false) (hright : q.val < s.get Reg.TN_RIGHTS_QMAX [n.val])
    (hlo : 6 ≤ s.get Reg.HQq_CTL_SIZE [n.val, q.val]) (hhi : s.get Reg.HQq_CTL_SIZE [n.val, q.val] ≤ 12) (hn : n.val ≠ 16) :
    let t := s.enableQueue n.val q.val
    t.get Reg.HQq_CTL_EN [n.val, q.val] = 1 ∧ t.get Reg.HQq_STAT_RUN [n.val, q.val] = 1 ∧ t.get Reg.HQq_STAT_HEAD [n.val, q.val] = 0 ∧
      t.get Reg.HQq_TAIL_TAIL [n.val, q.val] = 0 ∧ t.get Reg.HQq_STAT_PHASE [n.val, q.val] = 1 ∧ (t.queue n.val q.val).works = [] ∧
      (t.queue n.val q.val).next = 0 := by
  have hwin (a b : Nat) : inWin n.val a b = true := by simp [inWin, hn]
  have ht : s.enableQueue n.val q.val =
      (((s.ringFresh n.val q.val).modQueue n.val q.val fun _ => s.emptyRing n.val q.val).showFlight n.val q.val).showQen n.val := by
    simp only [enableQueue, hen, Bool.false_eq_true, if_false, hwin]
    rw [if_neg (by simp; omega)]
    rfl
  rw [ht]
  have hget {f : Fld} (hf : f ∈ [Reg.HQq_CTL_EN, Reg.HQq_STAT_RUN, Reg.HQq_STAT_HEAD, Reg.HQq_TAIL_TAIL, Reg.HQq_STAT_PHASE]) :=
    showFlight_showQen_get ((s.ringFresh n.val q.val).modQueue n.val q.val fun _ => s.emptyRing n.val q.val) n q hf
  obtain ⟨hctl, hrun, hhead, htail, hphase⟩ := ringFresh_get hs n q
  have hqueue :
      (((((s.ringFresh n.val q.val).modQueue n.val q.val fun _ => s.emptyRing n.val q.val).showFlight n.val q.val).showQen n.val).queue n.val q.val) =
      s.emptyRing n.val q.val := queue_modQueue_same (s.ringFresh n.val q.val) n.val q.val fun _ => s.emptyRing n.val q.val
  exact ⟨(hget (by decide)).trans hctl, (hget (by decide)).trans hrun, (hget (by decide)).trans hhead, (hget (by decide)).trans htail,
    (hget (by decide)).trans hphase, congrArg Queue.works hqueue, congrArg Queue.next hqueue⟩

theorem enableQueue_without_right {s : State} {t q : Nat} (hen : s.on Reg.HQq_CTL_EN [t, q] = false)
    (hright : s.get Reg.TN_RIGHTS_QMAX [t] ≤ q) : s.enableQueue t q = s.tnErr t Reg.TN_ERR_QSETUP := by
  simp [enableQueue, hen, hright]

/-- Neither the error of a doorbell nor its record touches a ring's tail. -/
theorem doorbellKeys : ∀ (n : Fin 17) (q : Fin 16), Reg.TN_ERR_DB_OFF.key [n.val] ≠ Reg.TN_IRQ_ERR.key [16] ∧
    Reg.HQq_TAIL_TAIL.key [n.val, q.val] ≠ Reg.TN_IRQ_ERR.key [16] ∧ Reg.HQq_TAIL_TAIL.key [n.val, q.val] ≠ Reg.TN_ERR_DB_OFF.key [n.val] ∧
    recordKey (Reg.TN_ERR_DB_OFF.key [n.val]) = false ∧ recordKey (Reg.HQq_TAIL_TAIL.key [n.val, q.val]) = false := by
  decide +kernel

theorem doorbell_of_enabled {s : State} {n : Fin 17} {q : Fin 16} {w : Nat} (hop : w / 2 ^ 24 = 0) (hq : w / 2 ^ 16 % 256 = q.val)
    (hen : s.on Reg.HQq_CTL_EN [n.val, q.val] = true) (ht : w % 65536 < 2 ^ (s.queue n.val q.val).size) :
    s.doorbell n.val w = s.set Reg.HQq_TAIL_TAIL [n.val, q.val] (w % 65536) := by
  have hqlt := q.isLt
  simp only [doorbell, hop, hq, hen]
  rw [if_neg (by simp; omega)]

theorem doorbell_of_disabled {s : State} {n : Fin 17} {q : Fin 16} {w : Nat} (hop : w / 2 ^ 24 = 0) (hq : w / 2 ^ 16 % 256 = q.val)
    (hen : s.on Reg.HQq_CTL_EN [n.val, q.val] = false) :
    s.doorbell n.val w = (s.tnErr n.val Reg.TN_ERR_DB_OFF).recordS 0x3A05 2 (5 + portOf n.val) n.val
      ((s.tnErr n.val Reg.TN_ERR_DB_OFF).tnErrWord n.val) := by
  have hqlt := Nat.not_le_of_lt q.isLt
  simp only [doorbell, hop, hq, hen, bne_self_eq_false, Bool.not_false, Bool.or_true, Bool.not_true, Bool.false_and, Bool.or_false, if_true,
    Bool.false_eq_true, if_false]

end State

/-- Settles O44: each command's guard holds; an enabled ring is read back field by field, and a refused doorbell leaves the tail. -/
theorem queueCommands : Obligations.QueueCommands := by
  intro s n q hc ha
  refine ⟨fun hp hen hright hlo hhi hn => ⟨_, next_if_pos (by simp [ha, hp]), State.enableQueue_fresh hc.regs hen hright hlo hhi hn⟩,
    fun hp hen hright => (next_if_pos (by simp [ha, hp])).trans (congrArg _ (State.enableQueue_without_right hen hright)),
    fun hp hen => next_if_pos (by simp [ha, hp, hen]), fun hen => next_if_pos (by simp [ha, hen]),
    fun w hp hop hq hen ht => (next_if_pos (by simp [ha, hp])).trans (congrArg _ (State.doorbell_of_enabled hop hq hen ht)),
    fun w hp hop hq hen => ⟨_, (next_if_pos (by simp [ha, hp])).trans (congrArg _ (State.doorbell_of_disabled hop hq hen)), ?_, ?_⟩,
    fun given hw hf hnext => ?_, fun given hw hf hnext hn => ?_, fun tag given hw hf => ?_, fun hcount hirq hmod ht => ?_⟩
  · obtain ⟨hirq, -, -, hrec, -⟩ := State.doorbellKeys n q
    rw [State.recordS_get _ _ _ _ _ _ _ _ hrec]
    exact State.tnErr_shows hc.regs n.val hirq
  · obtain ⟨-, hirq, hoff, -, hrec⟩ := State.doorbellKeys n q
    rw [State.recordS_get _ _ _ _ _ _ _ _ hrec, State.tnErr_get_other _ _ _ hoff hirq]
  · refine (next_if_neg (by simp [ha, hw])).trans ?_
    simp [hf, hnext]
  · refine (next_if_neg (by simp [ha, hw])).trans ?_
    simp [hf, hnext, hn, State.readStall]
  · refine (next_if_neg (by simp [ha, hw])).trans ?_
    simp [hf]
  · refine (next_if_pos (by simp [ha, hcount, hmod, ht])).trans ?_
    simp [hirq]

end Sys2Proof.Machine

/-!
PCIe (R46, R105, R107, R109, R371).
-/

namespace Sys2Proof.Machine

namespace State

/-- The fields of a port and of its PF that a link sets are apart from each other and from records. -/
theorem linkKeys : ∀ p : Fin 2, Reg.HOST_PORT_LINK_UP.key [p.val] ≠ Reg.HOST_PORT_SPEED.key [p.val] ∧
    Reg.HOST_PORT_LINK_UP.key [p.val] ≠ Reg.HOST_PORT_WIDTH.key [p.val] ∧ Reg.HOST_PORT_SPEED.key [p.val] ≠ Reg.HOST_PORT_WIDTH.key [p.val] ∧
    (∀ f ∈ [Reg.HOST_PORT_LINK_UP, Reg.HOST_PORT_SPEED, Reg.HOST_PORT_WIDTH],
      f.key [p.val] ≠ Reg.TN_STAT_PRESENT.key [8 * p.val] ∧ recordKey (f.key [p.val]) = false) ∧
    recordKey (Reg.TN_STAT_PRESENT.key [8 * p.val]) = false := by
  decide

/-- A link's registers as its training leaves them. -/
def linkFresh (s : State) (p speed width : Nat) : State :=
  (((s.set Reg.HOST_PORT_LINK_UP [p] 1).set Reg.HOST_PORT_SPEED [p] speed).set Reg.HOST_PORT_WIDTH [p] width).set
    Reg.TN_STAT_PRESENT [8 * p] 1

theorem linkFresh_get {s : State} (hs : Sparse.sorted s.regs = true) (p : Fin 2) (speed : Fin 5) (width : Fin 3) :
    let t := s.linkFresh p.val speed.val width.val
    t.get Reg.HOST_PORT_LINK_UP [p.val] = 1 ∧ t.get Reg.HOST_PORT_SPEED [p.val] = speed.val ∧ t.get Reg.HOST_PORT_WIDTH [p.val] = width.val ∧
      t.get Reg.TN_STAT_PRESENT [8 * p.val] = 1 := by
  obtain ⟨hup, huw, hsw, hf, -⟩ := linkKeys p
  have h1 := sorted_set _ Reg.HOST_PORT_LINK_UP [p.val] 1 hs
  have h2 := sorted_set _ Reg.HOST_PORT_SPEED [p.val] speed.val h1
  have h3 := sorted_set _ Reg.HOST_PORT_WIDTH [p.val] width.val h2
  refine ⟨?_, ?_, ?_, get_set_same _ _ _ 1 h3⟩ <;> unfold linkFresh
  · rw [get_set_other _ _ _ _ _ _ (hf _ (by decide)).1, get_set_other _ _ _ _ _ _ huw, get_set_other _ _ _ _ _ _ hup, get_set_same _ _ _ _ hs]
    decide
  · rw [get_set_other _ _ _ _ _ _ (hf _ (by decide)).1, get_set_other _ _ _ _ _ _ hsw, get_set_same _ _ _ _ h1]
    exact Nat.mod_eq_of_lt (Nat.lt_trans speed.isLt (by decide))
  · rw [get_set_other _ _ _ _ _ _ (hf _ (by decide)).1, get_set_same _ _ _ _ h2]
    exact Nat.mod_eq_of_lt (Nat.lt_trans width.isLt (by decide))

/-- The record of a link adds to what the link's fields show. -/
theorem linkUp_get {s : State} (hs : Sparse.sorted s.regs = true) (p : Fin 2) (speed : Fin 5) (width : Fin 3) (sev src p1 p2 : Nat) :
    let t := (s.linkFresh p.val speed.val width.val).recordS 0x3A03 sev src p1 p2
    t.get Reg.HOST_PORT_LINK_UP [p.val] = 1 ∧ t.get Reg.HOST_PORT_SPEED [p.val] = speed.val ∧ t.get Reg.HOST_PORT_WIDTH [p.val] = width.val ∧
      t.get Reg.TN_STAT_PRESENT [8 * p.val] = 1 ∧ { t with regs := s.regs, tally := s.tally, clock := s.clock, out := s.out } = s := by
  obtain ⟨-, -, -, hf, hpf⟩ := linkKeys p
  obtain ⟨hup, hspeed, hwidth, hpresent⟩ := linkFresh_get hs p speed width
  have hrec {f : Fld} (h : f ∈ [Reg.HOST_PORT_LINK_UP, Reg.HOST_PORT_SPEED, Reg.HOST_PORT_WIDTH]) :=
    recordS_get (s.linkFresh p.val speed.val width.val) 0x3A03 sev src p1 p2 f [p.val] (hf f h).2
  exact ⟨(hrec (by decide)).trans hup, (hrec (by decide)).trans hspeed, (hrec (by decide)).trans hwidth,
    (recordS_get _ _ _ _ _ _ _ _ hpf).trans hpresent,
    congrArg (fun u : State => { u with regs := s.regs }) (recordS_frame (s.linkFresh p.val speed.val width.val) 0x3A03 sev src p1 p2)⟩

end State

/-- Settles O48: each command's guard holds; a level of PERST_N and a link show in registers of their own. -/
theorem pcieCommands : Obligations.PcieCommands := by
  intro s hc ha
  have h16 (n : Fin 16) : n.val ≠ 16 := Nat.ne_of_lt n.isLt
  refine ⟨fun p v h9 hup hh => ?_, fun p h9 hup hh => ?_,
    fun p hlen hp => ⟨_, next_if_pos (by rw [ha, hp]; rfl), ?_, State.get_set_same _ _ _ 0 hc.regs, rfl⟩,
    fun p hlen => ⟨_, rfl, ?_, State.get_set_same _ _ _ 1 hc.regs, rfl⟩,
    fun p r w h9 hp hup hst hr hw => ⟨_, next_if_pos (by rw [hp]; simp [ha, h9, hup, hst, hr, hw]), State.linkUp_get hc.regs p r w _ _ _ _⟩,
    fun p hup => ?_, fun p hup => ?_, fun n q k hrun => ?_, fun n hpr => ?_, fun n hpr => ⟨_, ?_, State.get_set_same _ _ _ 0 hc.regs, rfl⟩⟩
  · exact (next_if_neg (by simp [ha, h9, hup])).trans (congrArg _ (if_pos (by simp [hh])))
  · exact (next_if_neg (by simp [ha, h9, hup])).trans (congrArg _ (if_neg (by simp [hh])))
  · exact getD_listSet_same (p.isLt.trans_eq hlen.symm) false true
  · exact getD_listSet_same (p.isLt.trans_eq hlen.symm) true false
  · exact (next_if_neg (by simp [ha, hup])).trans (congrArg _ (if_neg (by decide)))
  · exact (next_if_neg (by simp [ha, hup])).trans (congrArg _ (if_pos rfl))
  · exact (next_if_neg (by simp [ha, h16 n])).trans (congrArg _ (if_pos hrun))
  · exact (next_if_neg (by simp [ha, h16 n, hpr])).trans (congrArg _ (if_neg (by simp)))
  · exact (next_if_neg (by simp [ha, h16 n, hpr])).trans (congrArg _ (if_neg (by decide)))

end Sys2Proof.Machine

/-!
The SRAM (R511, R513, R514, R516 to R520) and the CAN controllers (R478 to R506).
-/

namespace Sys2Proof.Machine

namespace State

/-! Scrub reads and refused accesses -/

theorem memWait_of_free {s : State} {q : MemReq} (hlost : s.bankLost q.bank = false) (hw : (s.mem.waiting.any fun x => x.bank == q.bank) = false) :
    s.memWait q = { s with mem := { s.mem with waiting := s.mem.waiting ++ [q] } } := by
  have hany : (s.mem.waiting.any fun x => x.bank == q.bank && x.master == q.master) = false := by
    rw [List.any_eq_false] at hw ⊢
    intro x hx h
    exact hw x hx (Bool.and_eq_true .. ▸ h).1
  simp only [memWait, hlost, hany, Bool.or_self, Bool.false_eq_true, if_false, modMem]

theorem secRefuse_facts {s : State} (hs : Sparse.sorted s.regs = true) (m a : Nat) :
    (s.secRefuse m a).get Reg.ALARM_SRC_SEC_VIOL = 1 ∧
      (s.secRefuse m a).get Reg.MEM_SEC_STAT_VIOL = min (s.get Reg.MEM_SEC_STAT_VIOL + 1) (2 ^ Reg.MEM_SEC_STAT_VIOL.width - 1) ∧
      { s.secRefuse m a with regs := s.regs, tally := s.tally, clock := s.clock, out := s.out } = s := by
  have hinc : Sparse.sorted (s.inc Reg.MEM_SEC_STAT_VIOL).regs = true := sorted_set _ _ _ _ hs
  refine ⟨?_, ?_, ?_⟩ <;> unfold secRefuse
  · exact (recordS_get _ _ _ _ _ _ _ _ (by decide)).trans (get_set_same _ _ _ 1 hinc)
  · exact (recordS_get _ _ _ _ _ _ _ _ (by decide)).trans ((get_set_other _ _ _ _ _ _ (by decide)).trans (get_inc_same hs _ _ _))
  · exact congrArg (fun u : State => { u with regs := s.regs })
      (recordS_frame ((s.inc Reg.MEM_SEC_STAT_VIOL).set Reg.ALARM_SRC_SEC_VIOL [] 1) 0x3E03 5 13 m a)

/-! The wipe -/

theorem startWipe_facts {s : State} (hc : s.Canon) (c : Fin 4) (hw : s.sec.wipe = none) :
    (s.startWipe c.val).sec.wipe = some (2 ^ c.val, false) ∧ (s.startWipe c.val).get Reg.MEM_SEC_STAT_WIPING = 1 ∧
      (s.startWipe c.val).get Reg.MEM_SEC_STAT_CAUSE = 2 ^ c.val ∧ { s.startWipe c.val with regs := s.regs, sec := s.sec } = s := by
  have hcause : 2 ^ c.val < 2 ^ Reg.MEM_SEC_STAT_CAUSE.width := Nat.pow_lt_pow_right (by decide) c.isLt
  unfold startWipe
  rw [hw]
  have h1 : Sparse.sorted (s.set Reg.MEM_SEC_STAT_CAUSE [] (2 ^ c.val)).regs = true := sorted_set _ _ _ _ hc.regs
  refine ⟨rfl, get_set_same _ _ _ 1 h1, (get_set_other _ _ _ _ _ _ (by decide)).trans ?_, rfl⟩
  exact (get_set_same s _ _ _ hc.regs).trans (Nat.mod_eq_of_lt hcause)

/-- A wipe whose read-back is good ends with its time, with a record where its cause asks for one. -/
theorem wipeEnd_good {s : State} (hs : Sparse.sorted s.regs = true) {c : Nat} {again : Bool} (hw : s.sec.wipe = some (c, again))
    (hfor : s.sec.wipeFor = [])
    (us : Nat) :
    (s.wipeEnd us 0).sec.wipe = none ∧ (s.wipeEnd us 0).get Reg.MEM_SEC_STAT_WIPING = 0 ∧
      (s.wipeEnd us 0).get Reg.MEM_SEC_STAT_WIPE_US = min us 65535 := by
  have h1 : Sparse.sorted (s.set Reg.MEM_SEC_STAT_WIPING [] 0).regs = true := sorted_set _ _ _ _ hs
  have hwiping : ((s.set Reg.MEM_SEC_STAT_WIPING [] 0).set Reg.MEM_SEC_STAT_WIPE_US [] (min us 65535)).get Reg.MEM_SEC_STAT_WIPING = 0 :=
    (get_set_other _ _ _ _ _ _ (by decide)).trans (get_set_same s _ _ 0 hs)
  have hus : ((s.set Reg.MEM_SEC_STAT_WIPING [] 0).set Reg.MEM_SEC_STAT_WIPE_US [] (min us 65535)).get Reg.MEM_SEC_STAT_WIPE_US = min us 65535 :=
    (get_set_same _ _ _ _ h1).trans (Nat.mod_eq_of_lt (Nat.lt_of_le_of_lt (Nat.min_le_right ..) (by decide)))
  simp only [wipeEnd, hw, hfor, bne_self_eq_false, Bool.false_and, Bool.false_eq_true, if_false, List.isEmpty_nil, if_true]
  split
  · exact ⟨by simp, (recordS_get _ _ _ _ _ _ _ _ (by decide)).trans hwiping, (recordS_get _ _ _ _ _ _ _ _ (by decide)).trans hus⟩
  · exact ⟨rfl, hwiping, hus⟩

end State

/-- Settles O55: each command's guard holds; a request waits at its bank, a refusal is counted, and a wipe shows its cause and its time. -/
theorem memoryCommands : Obligations.MemoryCommands := by
  intro s hc ha
  have hon : s.power.on = true := (State.alive_iff.mp ha).1
  refine ⟨fun line hfree => ⟨⟨bankOf (64 * line.val), none, 0, false, some ⟨line.val, none, .scrubber, true⟩⟩, rfl, rfl, ?_⟩,
    fun line w ue hfree => ⟨⟨bankOf (64 * line.val), none, 0, false, some ⟨line.val, some (w.val, ue), .scrubber, false⟩⟩, rfl, rfl, ?_⟩,
    fun line err r l hshut hlost hforb hgr hwait => ⟨⟨bankOf (64 * line.val), r.master, 0, false,
      some ⟨line.val, err.map fun e => (e.1.val, e.2), r, l⟩⟩,
      ?_, rfl, rfl, rfl⟩,
    fun m off hm => ⟨_, next_if_pos (by simp [ha, hm]), State.secRefuse_facts hc.regs _ _⟩,
    fun c hw => ⟨_, next_if_pos hon, State.startWipe_facts hc c hw⟩,
    fun us c again hw hfor => ⟨_, next_if_pos hon, State.wipeEnd_good hc.regs hw hfor us⟩,
    fun us bad c hbad hw => (next_if_pos hon).trans ?_, fun mask run h9 => next_if_pos (by simp [ha, h9])⟩
  · exact (next_if_neg (by simp [ha])).trans (congrArg _ ((if_neg Bool.false_ne_true).trans (if_pos hfree)))
  · exact (next_if_neg (by simp [ha])).trans (congrArg _ ((if_neg Bool.false_ne_true).trans (if_pos hfree)))
  · have hbusy : s.bankFree (bankOf (64 * line.val)) = false := by
      simp only [State.bankFree, hgr, Bool.not_true, Bool.and_false, Bool.false_and]
    refine (next_if_neg (by simp [ha])).trans (congrArg _ ((if_neg ?_).trans ((if_neg ?_).trans (State.memWait_of_free hlost hwait))))
    · exact fun h => absurd (hforb.symm.trans h) (by decide)
    · exact fun h => absurd (hbusy.symm.trans h) (by decide)
  · simp [State.wipeEnd, hw, hbad, State.modSec]

namespace State

/-! The CAN controllers' counters and interrupts -/

/-- The fields that the error counters of a controller change, beside those of records. -/
def counterFlds : List Fld :=
  [Reg.CANn_ERR_TEC, Reg.CANn_ERR_REC, Reg.CANn_STAT_EWARN, Reg.CANn_STAT_EPASS, Reg.CANn_IRQ_EWARN, Reg.CANn_IRQ_EPASS]

theorem canIrq_get (s : State) (n : Nat) (f en : Fld) {g : Fld} {jx : List Nat} (h : g.key jx ≠ f.key [n]) :
    (s.canIrq n f en).get g jx = s.get g jx := by
  have hset : (s.set f [n] 1).get g jx = s.get g jx := get_set_other _ _ _ _ _ _ h
  unfold canIrq
  split
  · rfl
  · dsimp only
    split
    · exact (get_of_regs (msix_regs ..) g jx).trans hset
    · exact hset

theorem canIrq_can (s : State) (n : Nat) (f en : Fld) : (s.canIrq n f en).can = s.can := by
  have hmsix (u : State) (t v : Nat) : (u.msix t v).can = u.can := by
    simp only [msix]
    split <;> rfl
  unfold canIrq
  split
  · rfl
  · dsimp only
    split
    · exact hmsix _ _ _
    · rfl

/-- A counter at a limit raises its interrupt and a record. -/
def canAlert (s : State) (n : Nat) (b : Bool) (f en : Fld) (code sev : Nat) : State :=
  if b then (s.canIrq n f en).recordS code sev 10 n (s.canErrWord n) else s

theorem canAlert_get (s : State) (n : Nat) (b : Bool) (f en : Fld) (code sev : Nat) {g : Fld} {jx : List Nat} (h : g.key jx ≠ f.key [n])
    (hrec : recordKey (g.key jx) = false) : (s.canAlert n b f en code sev).get g jx = s.get g jx := by
  unfold canAlert
  split
  · rw [recordS_get _ _ _ _ _ _ _ _ hrec, canIrq_get _ _ _ _ h]
  · rfl

theorem canAlert_can (s : State) (n : Nat) (b : Bool) (f en : Fld) (code sev : Nat) : (s.canAlert n b f en code sev).can = s.can := by
  unfold canAlert
  split
  · rw [recordS_can, canIrq_can]
  · rfl

/-- The error counters and the states that they show. -/
def canCount (s : State) (n tec rec_ : Nat) (warn pass : Bool) : State :=
  (((s.set Reg.CANn_ERR_TEC [n] (min tec 511)).set Reg.CANn_ERR_REC [n] (min rec_ 255)).flag Reg.CANn_STAT_EWARN [n] warn).flag
    Reg.CANn_STAT_EPASS [n] pass

/-- A counter is at the error warning limit. -/
def canWarn (s : State) (n tec rec_ : Nat) : Bool :=
  decide (tec ≥ s.get Reg.CANn_CTL_EWL [s.govern n]) || decide (rec_ ≥ s.get Reg.CANn_CTL_EWL [s.govern n])

/-- A counter is at the limit of the error-passive state. -/
def canPass (tec rec_ : Nat) : Bool := decide (tec ≥ 128) || decide (rec_ ≥ 128)

theorem canCounters_eq (s : State) (n tec rec_ : Nat) : s.canCounters n tec rec_ =
    ((s.canCount n tec rec_ (s.canWarn n tec rec_) (canPass tec rec_)).canAlert n (s.canWarn n tec rec_ && !s.on Reg.CANn_STAT_EWARN [n])
      Reg.CANn_IRQ_EWARN Reg.CANn_IRQ_EN_EWARN 0x3D01 2).canAlert n (canPass tec rec_ && !s.on Reg.CANn_STAT_EPASS [n])
      Reg.CANn_IRQ_EPASS Reg.CANn_IRQ_EN_EPASS 0x3D02 3 := by
  unfold canCounters canAlert canCount canWarn canPass
  rfl

/-- A controller's fields that its counters do not touch. -/
theorem canCounters_get_other (s : State) (n tec rec_ : Nat) {g : Fld} {jx : List Nat} (h : ∀ f ∈ counterFlds, g.key jx ≠ f.key [n])
    (hrec : recordKey (g.key jx) = false) : (s.canCounters n tec rec_).get g jx = s.get g jx := by
  rw [canCounters_eq, canAlert_get _ _ _ _ _ _ _ (h _ (by decide)) hrec, canAlert_get _ _ _ _ _ _ _ (h _ (by decide)) hrec]
  exact (get_set_other _ _ _ _ _ _ (h _ (by decide))).trans ((get_set_other _ _ _ _ _ _ (h _ (by decide))).trans
    ((get_set_other _ _ _ _ _ _ (h _ (by decide))).trans (get_set_other _ _ _ _ _ _ (h _ (by decide)))))

theorem canCounters_can (s : State) (n tec rec_ : Nat) : (s.canCounters n tec rec_).can = s.can := by
  rw [canCounters_eq, canAlert_can, canAlert_can]
  rfl

/-- A controller's fields are apart from each other and from records. -/
theorem canKeys : ∀ n : Fin 8,
    (∀ g ∈ [Reg.CANn_ERR_TEC, Reg.CANn_ERR_REC, Reg.CANn_STAT_STATE, Reg.CANn_STAT_ALONE, Reg.CANn_STAT_ALONE_HELD],
      recordKey (g.key [n.val]) = false ∧
      ∀ f ∈ [Reg.CANn_ERR_LEC, Reg.CANn_ERR_DATA_PHASE, Reg.CANn_IRQ_RECOVERED, Reg.CANn_IRQ_ALONE] ++ counterFlds ++
        [Reg.CANn_STAT_STATE, Reg.CANn_STAT_ALONE, Reg.CANn_STAT_ALONE_HELD], f ≠ g → g.key [n.val] ≠ f.key [n.val]) := by
  decide

theorem canCounters_get_errs {s : State} (hs : Sparse.sorted s.regs = true) (n : Fin 8) (tec rec_ : Nat) :
    (s.canCounters n.val tec rec_).get Reg.CANn_ERR_TEC [n.val] = min tec 511 ∧
      (s.canCounters n.val tec rec_).get Reg.CANn_ERR_REC [n.val] = min rec_ 255 := by
  have hne {f g : Fld} (hg : g ∈ [Reg.CANn_ERR_TEC, Reg.CANn_ERR_REC]) (hf : f ∈ counterFlds) (h : f ≠ g) : g.key [n.val] ≠ f.key [n.val] :=
    (canKeys n g (by revert hg; simp; tauto)).2 f (by simp [hf]) h
  have hrec {g : Fld} (hg : g ∈ [Reg.CANn_ERR_TEC, Reg.CANn_ERR_REC]) : recordKey (g.key [n.val]) = false :=
    (canKeys n g (by revert hg; simp; tauto)).1
  have h1 := sorted_set s Reg.CANn_ERR_TEC [n.val] (min tec 511) hs
  rw [canCounters_eq]
  constructor
  · rw [canAlert_get _ _ _ _ _ _ _ (hne (by decide) (by decide) (by decide)) (hrec (by decide)),
      canAlert_get _ _ _ _ _ _ _ (hne (by decide) (by decide) (by decide)) (hrec (by decide))]
    refine (get_set_other _ _ _ _ _ _ (hne (by decide) (by decide) (by decide))).trans
      ((get_set_other _ _ _ _ _ _ (hne (by decide) (by decide) (by decide))).trans
        ((get_set_other _ _ _ _ _ _ (hne (by decide) (by decide) (by decide))).trans ((get_set_same s _ _ _ hs).trans ?_)))
    exact Nat.mod_eq_of_lt (Nat.lt_of_le_of_lt (Nat.min_le_right ..) (by decide))
  · rw [canAlert_get _ _ _ _ _ _ _ (hne (by decide) (by decide) (by decide)) (hrec (by decide)),
      canAlert_get _ _ _ _ _ _ _ (hne (by decide) (by decide) (by decide)) (hrec (by decide))]
    refine (get_set_other _ _ _ _ _ _ (hne (by decide) (by decide) (by decide))).trans
      ((get_set_other _ _ _ _ _ _ (hne (by decide) (by decide) (by decide))).trans ((get_set_same _ _ _ _ h1).trans ?_))
    exact Nat.mod_eq_of_lt (Nat.lt_of_le_of_lt (Nat.min_le_right ..) (by decide))

end State

end Sys2Proof.Machine

/-!
The commands of the CAN controllers (R478 to R506).
-/

namespace Sys2Proof.Machine

namespace State

theorem ctl_modCtl_same {s : State} {n : Nat} (h : n < s.can.ctls.length) (f : CanCtl → CanCtl) : (s.modCtl n f).ctl n = f (s.ctl n) :=
  getD_listMod_same h f default

theorem ctl_of_can {s t : State} (h : t.can = s.can) (n : Nat) : t.ctl n = s.ctl n := by
  simp only [ctl, h]

theorem canFlag_regs (s : State) (n : Nat) : (s.canFlag n).regs = s.regs := by
  unfold canFlag
  split <;> rfl

/-- The end of bus-off, before its interrupt and its record. -/
def canBack (s : State) (n : Nat) : State :=
  ((s.set Reg.CANn_STAT_STATE [n] 3).modCtl n fun c => { c with recovering := false, ackErrs := 0 }).canCounters n 0 0

theorem canBack_facts {s : State} (hs : Sparse.sorted s.regs = true) (n : Fin 8) (hlen : n.val < s.can.ctls.length) :
    (s.canBack n.val).cst n.val = 3 ∧ (s.canBack n.val).get Reg.CANn_ERR_TEC [n.val] = 0 ∧
      (s.canBack n.val).get Reg.CANn_ERR_REC [n.val] = 0 ∧ ((s.canBack n.val).ctl n.val).recovering = false := by
  have h1 : Sparse.sorted (s.set Reg.CANn_STAT_STATE [n.val] 3).regs = true := sorted_set _ _ _ _ hs
  obtain ⟨hrec, hne⟩ := canKeys n Reg.CANn_STAT_STATE (by decide)
  obtain ⟨htec, hrecErr⟩ := canCounters_get_errs
    (s := (s.set Reg.CANn_STAT_STATE [n.val] 3).modCtl n.val fun c => { c with recovering := false, ackErrs := 0 }) h1 n 0 0
  refine ⟨?_, htec, hrecErr, ?_⟩
  · refine (canCounters_get_other _ n.val 0 0 (fun f hf => hne f (by simp [hf]) ?_) hrec).trans (get_set_same s _ _ 3 hs)
    rintro rfl
    exact absurd hf (by decide)
  · refine (congrArg CanCtl.recovering (ctl_of_can (canCounters_can _ n.val 0 0) n.val)).trans ?_
    exact congrArg CanCtl.recovering (ctl_modCtl_same (s := s.set Reg.CANn_STAT_STATE [n.val] 3) hlen _)

/-- An interrupt and a record leave what shows of the controller. -/
theorem canTold_facts (s : State) (n : Fin 8) (en : Fld) {f : Fld} (hf : f ∈ [Reg.CANn_IRQ_RECOVERED, Reg.CANn_IRQ_ALONE])
    (code sev src p1 p2 : Nat) :
    (((s.canIrq n.val f en).recordS code sev src p1 p2).can = s.can) ∧
    ∀ g ∈ [Reg.CANn_ERR_TEC, Reg.CANn_ERR_REC, Reg.CANn_STAT_STATE, Reg.CANn_STAT_ALONE, Reg.CANn_STAT_ALONE_HELD],
      ((s.canIrq n.val f en).recordS code sev src p1 p2).get g [n.val] = s.get g [n.val] := by
  refine ⟨(recordS_can ..).trans (canIrq_can ..), fun g hg => ?_⟩
  obtain ⟨hrec, hne⟩ := canKeys n g hg
  refine (recordS_get _ _ _ _ _ _ _ _ hrec).trans (canIrq_get _ _ _ _ (hne f ?_ ?_))
  · revert hf
    simp
    tauto
  · clear hne hrec
    revert f g
    decide

/-- The fields of an error as receiver leave the counters. -/
theorem canError_get (s : State) (n : Fin 8) (lec : Nat) (dp : Bool) :
    (∀ g ∈ [Reg.CANn_ERR_TEC, Reg.CANn_ERR_REC],
      (((s.canFlag n.val).set Reg.CANn_ERR_LEC [n.val] lec).flag Reg.CANn_ERR_DATA_PHASE [n.val] dp).get g [n.val] = s.get g [n.val]) := by
  intro g hg
  obtain ⟨-, hne⟩ := canKeys n g (by revert hg; simp; tauto)
  refine (get_set_other _ _ _ _ _ _ (hne _ (by decide) ?_)).trans ((get_set_other _ _ _ _ _ _ (hne _ (by decide) ?_)).trans
    (get_of_regs (canFlag_regs s n.val) _ _))
  all_goals
    clear hne
    revert g
    decide

end State

theorem exec_canRecoveryDone {s : State} {n : Fin 8} (ha : s.alive = true) (h4 : s.cst n.val = 4) (hr : (s.ctl n.val).recovering = true) :
    exec (.canRecoveryDone n) s = .next (((s.canBack n.val).canIrq n.val Reg.CANn_IRQ_RECOVERED Reg.CANn_IRQ_EN_RECOVERED).recordS 0x3D04 2 10
      n.val ((s.clock.up - (s.ctl n.val).busOffAt) / (1000 * State.nsUnit))) := by
  have hguard : (s.alive && s.cst n.val == 4 && (s.ctl n.val).recovering) = true := by simp [ha, h4, hr]
  change execCanRecoveryDone n s = _
  unfold execCanRecoveryDone State.canBack
  rw [if_pos hguard]

/-- A controller that is alone shows it, and whether it holds back. -/
def State.canLone (s : State) (n : Nat) : State :=
  (s.set Reg.CANn_STAT_ALONE [n] 1).flag Reg.CANn_STAT_ALONE_HELD [n] (s.on Reg.CANn_CTL_ALONE_HOLD [s.govern n])

theorem State.canLone_facts {s : State} (hs : Sparse.sorted s.regs = true) (n : Fin 8) :
    (s.canLone n.val).get Reg.CANn_STAT_ALONE [n.val] = 1 ∧
      (s.canLone n.val).get Reg.CANn_STAT_ALONE_HELD [n.val] = b2n (s.on Reg.CANn_CTL_ALONE_HOLD [s.govern n.val]) := by
  have hsorted : Sparse.sorted (s.set Reg.CANn_STAT_ALONE [n.val] 1).regs = true := sorted_set _ _ _ _ hs
  obtain ⟨-, hne⟩ := canKeys n Reg.CANn_STAT_ALONE (by decide)
  refine ⟨(get_set_other _ _ _ _ _ _ (hne _ (by decide) (by decide))).trans (get_set_same s _ _ 1 hs), (get_set_same _ _ _ _ hsorted).trans ?_⟩
  cases s.on Reg.CANn_CTL_ALONE_HOLD [s.govern n.val] <;> rfl

theorem exec_canAlone {s : State} {n : Fin 8} (ha : s.alive = true) (h32 : 32 ≤ (s.ctl n.val).ackErrs)
    (hal : s.on Reg.CANn_STAT_ALONE [n.val] = false) :
    exec (.canAlone n) s = .next (((s.canLone n.val).canIrq n.val Reg.CANn_IRQ_ALONE Reg.CANn_IRQ_EN_ALONE).recordS 0x3D05 3 10 n.val
      (b2n (s.on Reg.CANn_CTL_ALONE_HOLD [s.govern n.val]))) := by
  have hguard : (s.alive && (s.ctl n.val).ackErrs ≥ 32 && !s.on Reg.CANn_STAT_ALONE [n.val]) = true := by simp [ha, h32, hal]
  change execCanAlone n s = _
  simp only [execCanAlone, State.canLone, hguard, if_true]

theorem exec_mirrorTwinExpiry {s : State} {n : Fin 8} {k : Nat} (ha : s.alive = true) {x : CanFrame × Bool × Nat}
    (hk : (s.ctl (s.govern n.val)).twins[k]? = some x) (hx : s.since x.2.2 (s.twinWindow (s.govern n.val)) = true) :
    exec (.mirrorTwinExpiry n k) s = .next (s.modCtl (s.govern n.val) fun c => { c with twins := c.twins.eraseIdx k }) := by
  have hguard : (((s.ctl (s.govern n.val)).twins[k]?).any fun t => s.since t.2.2 (s.twinWindow (s.govern n.val))) = true := by
    rw [hk, Option.any_some]
    exact hx
  exact next_if_pos (Bool.and_eq_true_iff.mpr ⟨ha, hguard⟩)

/-- Settles O53: each command's guard holds, and what the counters, an interrupt and a record leave of the controller is read back. -/
theorem canCommands : Obligations.CanCommands := by
  intro s n hc ha
  have hon : s.power.on = true := (State.alive_iff.mp ha).1
  refine ⟨fun f ns turn h3 hfd => ?_, fun b hm h0 hw hfd => ?_, fun b ns turn h3 hb => ?_, fun c hg => next_if_pos (by simp [ha, hg]),
    fun c w hw he => ?_, fun lec dp st h3 hb htec => ?_, fun h4 hr hlen => ⟨_, exec_canRecoveryDone ha h4 hr, ?_⟩,
    fun h4 hauto hlen => ⟨_, (next_if_pos ha).trans (congrArg _ (if_pos (by simp [h4, hauto]))), ?_, rfl⟩,
    fun h32 hal => ⟨_, exec_canAlone ha h32 hal, ?_⟩, fun h2 => next_if_pos (by simp [ha, h2]),
    fun h3 hb => ?_, next_if_pos ha, fun d harm hsel hd => ?_, fun d hsel hd => ?_, fun k x hk hx => exec_mirrorTwinExpiry ha hk hx,
    fun b h8 ht => next_if_pos (by simp [ha, h8, ht])⟩
  · refine (next_if_neg (by simp [ha, h3])).trans ?_
    simp [hfd]
  · refine ⟨(s.modCtl n.val fun c => { c with onBus := some b }).emit (.can n.val (s.canBuf (s.govern n.val) b).frame.sent), ?_, rfl, fun hlen =>
      congrArg CanCtl.onBus (State.ctl_modCtl_same hlen _), rfl⟩
    have hsent : (s.canBuf (s.govern n.val) b).frame.sent.fdf = false := hfd
    have hmode : (s.modCtl n.val fun c => { c with onBus := some b }).canMode n.val = 0 := h0
    refine (next_if_neg (by simp [ha, hm])).trans ?_
    simp [hw, hsent, hmode]
  · refine (next_if_neg (by simp [ha, h3])).trans ?_
    simp [hb]
  · obtain ⟨e, hends, hle⟩ := he
    refine (next_if_neg (by simp [ha])).trans ?_
    simp [hw, hends, hle]
  · have hget := State.canError_get s n lec.val dp
    refine (next_if_neg (by simp [ha, h3])).trans ?_
    simp only [hb, Bool.false_and, Bool.false_eq_true, if_false, Nat.add_zero, hget _ (by decide : Reg.CANn_ERR_TEC ∈ _),
      hget _ (by decide : Reg.CANn_ERR_REC ∈ _)]
    rw [if_neg (Nat.not_lt_of_le htec)]
  · obtain ⟨hcan, hget⟩ := State.canTold_facts (s.canBack n.val) n Reg.CANn_IRQ_EN_RECOVERED (f := Reg.CANn_IRQ_RECOVERED) (by decide)
      0x3D04 2 10 n.val
      ((s.clock.up - (s.ctl n.val).busOffAt) / (1000 * State.nsUnit))
    obtain ⟨hst, htec, hrec, hrecov⟩ := State.canBack_facts hc.regs n hlen
    exact ⟨(hget _ (by decide)).trans hst, (hget _ (by decide)).trans htec, (hget _ (by decide)).trans hrec,
      (congrArg CanCtl.recovering (State.ctl_of_can hcan n.val)).trans hrecov⟩
  · exact congrArg CanCtl.recovering (State.ctl_modCtl_same hlen _)
  · obtain ⟨-, hget⟩ := State.canTold_facts (s.canLone n.val) n Reg.CANn_IRQ_EN_ALONE (f := Reg.CANn_IRQ_ALONE) (by decide) 0x3D05 3 10 n.val
      (b2n (s.on Reg.CANn_CTL_ALONE_HOLD [s.govern n.val]))
    obtain ⟨halone, hheld⟩ := State.canLone_facts hc.regs n
    refine ⟨(hget _ (by decide)).trans halone, (congrArg (· != 0) ((hget Reg.CANn_STAT_ALONE_HELD (by decide)).trans hheld)).trans ?_⟩
    cases s.on Reg.CANn_CTL_ALONE_HOLD [s.govern n.val] <;> rfl
  · refine (next_if_pos ha).trans ?_
    simp [State.canSleepCmd, h3, hb]
  · refine (next_if_neg (by simp [hon, harm])).trans ?_
    simp [hsel, hd, Nat.not_le_of_lt (Nat.lt_of_lt_of_le (by decide : 30 < 50) hd)]
  · by_cases harm : (s.ctl n.val).armed = true
    · refine (next_if_neg (by simp [hon, harm])).trans ?_
      simp [hd]
    · exact next_if_pos (by simp [harm])

end Sys2Proof.Machine

/-!
Far access and the aperture (R419, R422 to R446).
-/

namespace Sys2Proof.Machine

namespace State

/-! FAR_READ and FAR_WRITE -/

theorem pfTake_of_not_found {s : State} {uid func off len : Nat} (h : s.pfFind uid func = none) :
    s.pfTake uid func off len = ([], 1, none, s) := by
  simp [pfTake, h]

/-- Where no prefetched data are valid, none are discarded. -/
theorem pfDiscardIf_of_invalid {s : State} (h : ∀ e ∈ s.far.prefetch, e.valid = false) (p : Prefetch → Bool) : s.pfDiscardIf p = s := by
  unfold pfDiscardIf
  generalize List.range 16 = l
  induction l with
  | nil => rfl
  | cons i l ih =>
    refine (congrArg (fun u => List.foldl _ u l) (if_neg fun hm => ?_)).trans ih
    cases he : s.far.prefetch[i]? with
    | none => simp [he] at hm
    | some e => simp [he, h e (List.mem_of_getElem? he)] at hm

theorem takeBuf_far (s : State) (t : Nat) (d : Desc) (given : List Byte) : (s.takeBuf t d given).2.far = s.far := by
  unfold takeBuf
  split <;> rfl

/-- A transfer of a descriptor, before it is split. -/
def farBase (t q i : Nat) (write : Bool) (x : Numbered) (d : Desc) (data : List Byte) : Transfer :=
  ⟨.desc t q i, 0, write, none, x.pos, x.entry.luid, d.arg1 / 2 ^ 32 % 65536, d.arg1 % 2 ^ 32, 0, 0, 0, data, false, false, none, none⟩

section
variable {s : State} {t q i : Nat} {d : Desc}

theorem farRead_of_standing (hargs : farArgs t d = true) (hst : s.standing = true) : s.farRead t q i d = s.complete t q i 9 0 s.icount := by
  simp [farRead, hargs, hst]

theorem farRead_transfers (hargs : farArgs t d = true) (hst : s.standing = false) (hdir : s.inaug.dir.isSome = true) {x : Numbered}
    (hx : s.farTarget (bit d.arg1 63) d.arg0 = some x) (hpf : s.pfFind x.entry.luid (d.arg1 / 2 ^ 32 % 65536) = none) :
    (s.farRead t q i d).far.transfers = s.far.transfers ++ splitFar (farBase t q i false x d []) d.len 0
      (if s.farSequential x.entry.luid (d.arg1 / 2 ^ 32 % 65536) (d.arg1 % 2 ^ 32) then s.get Reg.FAR_CTL_PF_MAX else 0) := by
  have hfind (e : Nat) : ((s.startWork t q i).noteRead x.entry.luid (d.arg1 / 2 ^ 32 % 65536) e).pfFind x.entry.luid
      (d.arg1 / 2 ^ 32 % 65536) = none := hpf
  have hmem (u : State) : u.memWrite t d.buf [] = u := rfl
  have hdir' : s.inaug.dir.isNone = false := by rw [← Option.not_isSome, hdir]; rfl
  simp only [farRead, hargs, hst, hdir', hx, pfTake_of_not_found (hfind _), hmem, Bool.not_true, Bool.or_self, Bool.false_eq_true, if_false,
    List.isEmpty_nil, if_true, List.append_nil, List.length_nil]
  rfl

theorem farWrite_transfers (hargs : farArgs t d = true) (hst : s.standing = false) (hdir : s.inaug.dir.isSome = true) {x : Numbered}
    (hx : s.farTarget (bit d.arg1 63) d.arg0 = some x) (hpf : ∀ e ∈ s.far.prefetch, e.valid = false) {given : List Byte}
    (hbuf : bufWaits t d given = false) :
    (s.farWrite t q i d given).far.transfers =
      s.far.transfers ++ splitFar (farBase t q i true x d (s.takeBuf t d given).1) d.len 0 0 := by
  have hdir' : s.inaug.dir.isNone = false := by rw [← Option.not_isSome, hdir]; rfl
  have hfar : ((s.startWork t q i).takeBuf t d given).2.far = s.far := takeBuf_far (s.startWork t q i) t d given
  have hinvalid (p : Prefetch → Bool) : ((s.startWork t q i).takeBuf t d given).2.pfDiscardIf p = ((s.startWork t q i).takeBuf t d given).2 :=
    pfDiscardIf_of_invalid (hfar.symm ▸ hpf) p
  simp only [farWrite, hargs, hst, hdir', hx, hbuf, hinvalid, Bool.not_true, Bool.or_self, Bool.false_eq_true, if_false]
  exact congrArg (fun f : Far => f.transfers ++ _) hfar

end

/-- A request that finds a place joins the queue. -/
theorem farEnqueue_of_place {s : State} (h : s.far.tqueue.length < 256) (r : FarReq) (answer : State → State) :
    s.farEnqueue r answer = (s.modFar fun f => { f with tqueue := f.tqueue ++ [r] }).showFar := if_neg (Nat.not_le_of_lt h)

/-! The aperture -/

theorem apReadTlp_of_no_target {s : State} {p off fs : Nat} (h : s.apTarget p off = (fs, none)) (len : Nat) :
    s.apReadTlp p off len = (s.emit (.barRead p (List.replicate len 0xFF))).apError p off 0 fs 0 := by
  simp [apReadTlp, h]

/-- The oldest entry of the error FIFO is read and leaves it. -/
theorem apPop_of_entry {s : State} {p : Nat} (hp : p < s.far.apErr.length) {e : ApErr} {l : List ApErr} (he : s.far.apErr.getD p [] = e :: l) :
    (s.apPop p).2.far.apErr.getD p [] = l ∧ (s.apPop p).1 / 2 ^ 31 = 1 ∧ (s.apPop p).1 % 256 = e.fstat % 256 ∧
      (s.apPop p).1 / 2 ^ 8 % 65536 = e.pieces % 65536 ∧ (s.apPop p).2.out = s.out := by
  have hpop : s.apPop p = (2 ^ 31 + b2n (s.far.apLost.getD p false) * 2 ^ 30 + 2 ^ 8 * (e.pieces % 65536) + e.fstat % 256,
      ((s.modFar fun f => { f with apLost := listSet f.apLost p false }).modFar fun f => { f with apErr := listSet f.apErr p l }).showApErr p) := by
    simp only [apPop, modFar_far, he]
  have hlost : b2n (s.far.apLost.getD p false) ≤ 1 := by cases s.far.apLost.getD p false <;> decide
  rw [hpop]
  refine ⟨getD_listSet_same hp l [], ?_, ?_, ?_, rfl⟩ <;> omega

/-- An empty FIFO that has lost nothing reads 0. -/
theorem apPop_of_empty {s : State} {p : Nat} (he : s.far.apErr.getD p [] = []) (hl : s.far.apLost.getD p false = false) :
    (s.apPop p).1 = 0 ∧ (s.apPop p).2.out = s.out ∧ (s.apPop p).2.regs = s.regs := by
  have hpop : s.apPop p = (0, s.modFar fun f => { f with apLost := listSet f.apLost p false }) := by
    simp only [apPop, modFar_far, he, hl]
    rfl
  rw [hpop]
  exact ⟨rfl, rfl, rfl⟩

end State

/-- Settles O51: each command's guard holds; transfers, the queue of requests and the error FIFO change as their lists do. -/
theorem farCommands : Obligations.FarCommands := by
  intro s hc ha hup
  refine ⟨fun n q i d hr hargs => ?_, fun n q i d hr hargs hst => ?_, fun n q i d x hr hargs hst hdir hx hpf => ⟨_, _, ?_,
      State.farRead_transfers hargs hst hdir hx hpf, rfl⟩,
    fun n q i data d x hr hargs hst hdir hx hpf hbuf => ⟨_, _, ?_, State.farWrite_transfers hargs hst hdir hx hpf hbuf, rfl⟩,
    fun k hst hpos => next_if_pos (by simp [ha, hup, hst, hpos]),
    fun sender body hpair hst hlen => ⟨_, _,
      (next_if_neg (by simp [ha, hst, hpair])).trans (congrArg _ (State.farEnqueue_of_place hlen _ _)), rfl, rfl, rfl⟩,
    fun sender body => next_if_pos (by simp [ha, hup]), fun k x q hk hsent hdone hdl => ⟨_, ?_, rfl⟩,
    fun r rest ok given hq hst hpair hw => ⟨(s.modFar fun f => { f with tqueue := rest }).showFar, ?_, rfl, State.get_set_same _ _ _ _ ?_⟩,
    fun i e hi hv ht => ?_, fun n w v hp how => ?_, fun n w v how => ?_, fun p off len fs hap hlen hfs => ?_,
    fun p off data whole hap => next_if_pos (by simp [ha, hap]), fun k x p off born hk how hborn => ?_, fun p e l hp he => ?_, fun p he hl => ?_⟩
  · refine (next_if_neg (by simp [ha, hup])).trans ?_
    simp [hr, State.farRead, hargs]
  · refine (next_if_neg (by simp [ha, hup])).trans ?_
    simp only [hr, State.farRead_of_standing hargs hst]
  · refine (next_if_neg (by simp [ha, hup])).trans ?_
    simp only [hr]
  · refine (next_if_neg (by simp [ha, hup])).trans ?_
    simp only [hr]
  · change execFarTransferTimeout k s = _
    simp [execFarTransferTimeout, hk, hsent, ha, hdone, hdl]
  · change execFarRequestServe ok given s = _
    simp [execFarRequestServe, hq, ha, hup, hst, State.farServes, hpair, hw]
  · exact State.sorted_set _ _ _ _ hc.regs
  · change execPrefetchExpiry i s = _
    simp only [execPrefetchExpiry, hi]
    exact next_if_pos (by simp [ha, hv, ht])
  · exact (next_if_pos (by simp [ha, hp])).trans (congrArg _ (if_pos (by simp [how])))
  · have hexport : s.exportLo n.val w.val v.toNat = s := if_neg (by simp [how])
    change execExportRegion n w v s = _
    simp only [execExportRegion, hexport, ite_self]
  · exact (next_if_pos (by simp [ha, hap, hlen])).trans (congrArg _ (State.apReadTlp_of_no_target hfs len.val))
  · change execApertureReadTimeout k s = _
    simp only [execApertureReadTimeout, hk, how]
    exact next_if_pos (by simp [ha, hborn])
  · obtain ⟨hrest, hvalid, hfstat, hpieces, hout⟩ := State.apPop_of_entry hp he
    exact ⟨_, _, next_if_pos ha, hrest, hvalid, hfstat, hpieces, congrArg _ hout⟩
  · obtain ⟨hzero, hout, hregs⟩ := State.apPop_of_empty he hl
    refine ⟨_, next_if_pos ha, ?_, hregs⟩
    change Out.read _ _ (BitVec.ofNat 32 (s.apPop p.val).1) :: (s.apPop p.val).2.out = _
    rw [hzero, hout]
    rfl

end Sys2Proof.Machine

/-!
The registers that a completion changes (R382, R386).
-/

namespace Sys2Proof.Machine

namespace State

/-- The places that completions write: the status registers of rings, the descriptors in flight of all rings, and the interrupts of
tenant 16. -/
def RingPlace (k : Nat) : Prop := k / 32 % 32 = 24 ∨ k / 32 = Reg.HOST_INFLIGHT_DESC.base ∨ k / 32 = Reg.TN_IRQ_CQ.off [16]

theorem ringPlace_of_status {f : Fld} (h : f ∈ [Reg.HQq_STAT_HEAD, Reg.HQq_STAT_PHASE, Reg.HQq_STAT_INFLIGHT]) (t q : Nat) :
    RingPlace (f.key [t, q]) := by
  refine .inl ?_
  fin_cases h <;> simp [Fld.key, Fld.off, dimsOff, Reg.HQq_STAT_HEAD, Reg.HQq_STAT_PHASE, Reg.HQq_STAT_INFLIGHT] <;> omega

theorem memWrite_regs (s : State) (t addr : Nat) (d : List Byte) : (s.memWrite t addr d).regs = s.regs := by
  unfold memWrite
  split
  · rfl
  · split <;> rfl

namespace WritesAt

variable {P : Nat → Prop} {a b : State}

theorem inc (h : WritesAt P a b) (f : Fld) (ix : List Nat) (n : Nat) (hk : P (f.key ix)) : WritesAt P a (b.inc f ix n) :=
  h.set f ix _ hk

theorem setBits (h : WritesAt P a b) (f : Fld) (ix : List Nat) (v : Nat) (hk : P (f.key ix)) : WritesAt P a (b.setBits f ix v) :=
  h.set f ix _ hk

theorem modQueue (h : WritesAt P a b) (t q : Nat) (f : Queue → Queue) : WritesAt P a (b.modQueue t q f) := h.other rfl

theorem memWrite (h : WritesAt P a b) (t addr : Nat) (d : List Byte) : WritesAt P a (b.memWrite t addr d) := h.other (memWrite_regs ..)

/-- A record changes the fields of records only. -/
theorem recordS (h : WritesAt P a b) (hP : ∀ k, recordKey k = true → P k) (code sev src p1 p2 : Nat) :
    WritesAt P a (b.recordS code sev src p1 p2) :=
  h.trans ⟨fun _ _ hg => recordS_get _ _ _ _ _ _ _ _ (Bool.eq_false_iff.mpr fun hk => hg (hP _ hk)),
    fun hs => (State.recordS_keeps (.refl b) code sev src p1 p2).regs hs⟩

/-! Completions -/

variable (hP : ∀ k, RingPlace k → P k)
include hP

theorem signal (h : WritesAt P a b) (t bit vec : Nat) : WritesAt P a (b.signal t bit vec) := by
  unfold State.signal
  split
  · split
    · exact h.set _ _ _ (hP _ (.inr (.inr (by decide))))
    · split
      · exact h.set _ _ _ (hP _ (.inr (.inr (by decide))))
      · exact h.setBits _ _ _ (hP _ (.inr (.inr (by decide))))
  · exact h.other (msix_regs b t vec)

theorem showFlight (h : WritesAt P a b) (t q : Nat) : WritesAt P a (b.showFlight t q) :=
  (h.set _ _ _ (hP _ (ringPlace_of_status (by decide) t q))).set _ _ _ (hP _ (.inr (.inl (by decide))))

theorem queueSignal (h : WritesAt P a b) (t q : Nat) : WritesAt P a (b.queueSignal t q) := by
  unfold State.queueSignal
  dsimp only
  split
  · split
    · exact signal hP (h.modQueue ..) ..
    · exact h.modQueue ..
  · exact h.modQueue ..

theorem writeOne (h : WritesAt P a b) (t q : Nat) : WritesAt P a (b.writeOne t q) := by
  have hwrite (u : State) (hu : WritesAt P a u) (head : Nat) (c : Prop) [Decidable c] (ph : Nat) (f : Queue → Queue) :
      WritesAt P a ((((if c then (u.set Reg.HQq_STAT_HEAD [t, q] head).set Reg.HQq_STAT_PHASE [t, q] ph
        else u.set Reg.HQq_STAT_HEAD [t, q] head).modQueue t q f)).showFlight t q) := by
    have hhead := hu.set Reg.HQq_STAT_HEAD [t, q] head (hP _ (ringPlace_of_status (by decide) t q))
    split
    · exact showFlight hP ((hhead.set _ _ _ (hP _ (ringPlace_of_status (by decide) t q))).modQueue ..) t q
    · exact showFlight hP (hhead.modQueue ..) t q
  unfold State.writeOne
  dsimp only
  split
  · exact h
  · split
    · exact h
    · split
      · exact h
      · split
        · exact hwrite _ (h.memWrite ..) ..
        · exact queueSignal hP (hwrite _ (h.memWrite ..) ..) t q

theorem writeDone (h : WritesAt P a b) (t q left : Nat) : WritesAt P a (b.writeDone t q left) := by
  induction left generalizing b with
  | zero => exact h
  | succ left ih => exact ih (writeOne hP h t q)

/-- A completion writes ring places only. -/
theorem complete (h : WritesAt P a b) (t q i status rlen rval : Nat) : WritesAt P a (b.complete t q i status rlen rval) := by
  unfold State.complete completeC
  split
  · exact h.other rfl
  · exact writeDone hP (h.modQueue ..) ..

end WritesAt

end State

end Sys2Proof.Machine

/-!
The consist network and process data (R450 to R468).
-/

namespace Sys2Proof.Machine

namespace State

/-! Ports -/

/-- A port's fields are apart from each other and from those of records and rings. -/
theorem portKeys : ∀ n : Fin 12,
    (∀ f ∈ [Reg.CPn_STAT_STATE, Reg.CPn_STAT_RATE, Reg.CPn_CNT_A_DOWN],
      (recordKey (f.key [n.val]) = false ∧ ¬ (f.key [n.val] / 32 % 32 = 24 ∨ f.key [n.val] / 32 = Reg.HOST_INFLIGHT_DESC.base ∨
        f.key [n.val] / 32 = Reg.TN_IRQ_CQ.off [16])) ∧
      ∀ g ∈ [Reg.CPn_STAT_STATE, Reg.CPn_STAT_RATE, Reg.CPn_STAT_PLCA_ACT, Reg.CPn_CNT_A_DOWN], g ≠ f → f.key [n.val] ≠ g.key [n.val]) := by
  decide

/-- A port's registers as a link leaves them. -/
def cpFresh (s : State) (n rate : Nat) (plca : Bool) : State :=
  ((s.set Reg.CPn_STAT_STATE [n] 2).set Reg.CPn_STAT_RATE [n] rate).flag Reg.CPn_STAT_PLCA_ACT [n] plca

theorem cpFresh_recordS_facts {s : State} (hs : Sparse.sorted s.regs = true) (n : Fin 12) (r : Fin 5) (plca : Bool) (code sev src p1 p2 : Nat) :
    let t := (s.cpFresh n.val r.val plca).recordS code sev src p1 p2
    t.cpUp n.val = true ∧ t.get Reg.CPn_STAT_RATE [n.val] = r.val ∧
      { t with regs := s.regs, tally := s.tally, clock := s.clock, out := s.out } = s := by
  obtain ⟨⟨hrecS, -⟩, hneS⟩ := portKeys n Reg.CPn_STAT_STATE (by decide)
  obtain ⟨⟨hrecR, -⟩, hneR⟩ := portKeys n Reg.CPn_STAT_RATE (by decide)
  have h1 := sorted_set s Reg.CPn_STAT_STATE [n.val] 2 hs
  have hstate : (s.cpFresh n.val r.val plca).get Reg.CPn_STAT_STATE [n.val] = 2 :=
    (get_set_other _ _ _ _ _ _ (hneS _ (by decide) (by decide))).trans
      ((get_set_other _ _ _ _ _ _ (hneS _ (by decide) (by decide))).trans (get_set_same s _ _ 2 hs))
  have hrate : (s.cpFresh n.val r.val plca).get Reg.CPn_STAT_RATE [n.val] = r.val :=
    (get_set_other _ _ _ _ _ _ (hneR _ (by decide) (by decide))).trans
      ((get_set_same _ _ _ _ h1).trans (Nat.mod_eq_of_lt (Nat.lt_trans r.isLt (by decide))))
  refine ⟨?_, (recordS_get _ _ _ _ _ _ _ _ hrecR).trans hrate,
    congrArg (fun u : State => { u with regs := s.regs }) (recordS_frame (s.cpFresh n.val r.val plca) code sev src p1 p2)⟩
  exact (congrArg (· == 2) ((recordS_get _ _ _ _ _ _ _ _ hrecS).trans hstate)).trans rfl

/-- A port's registers without a link. -/
def cpUnlinked (s : State) (n st : Nat) : State :=
  ((s.set Reg.CPn_STAT_STATE [n] st).set Reg.CPn_STAT_RATE [n] 0).set Reg.CPn_STAT_PLCA_ACT [n] 0

theorem cpUnlinked_facts {s : State} (hs : Sparse.sorted s.regs = true) (n : Fin 12) {st : Nat} (hst : st < 2) :
    (s.cpUnlinked n.val st).get Reg.CPn_STAT_STATE [n.val] = st ∧
      (s.cpUnlinked n.val st).get Reg.CPn_CNT_A_DOWN [n.val] = s.get Reg.CPn_CNT_A_DOWN [n.val] ∧
      Sparse.sorted (s.cpUnlinked n.val st).regs = true := by
  obtain ⟨-, hneS⟩ := portKeys n Reg.CPn_STAT_STATE (by decide)
  obtain ⟨-, hneD⟩ := portKeys n Reg.CPn_CNT_A_DOWN (by decide)
  have h1 := sorted_set s Reg.CPn_STAT_STATE [n.val] st hs
  have h2 := sorted_set _ Reg.CPn_STAT_RATE [n.val] 0 h1
  unfold cpUnlinked
  refine ⟨?_, ?_, sorted_set _ _ _ _ h2⟩
  · rw [get_set_other _ _ _ _ _ _ (hneS _ (by decide) (by decide)), get_set_other _ _ _ _ _ _ (hneS _ (by decide) (by decide)),
      get_set_same _ _ _ _ hs]
    exact Nat.mod_eq_of_lt (Nat.lt_trans hst (by decide))
  · rw [get_set_other _ _ _ _ _ _ (hneD _ (by decide) (by decide)), get_set_other _ _ _ _ _ _ (hneD _ (by decide) (by decide)),
      get_set_other _ _ _ _ _ _ (hneD _ (by decide) (by decide))]

/-- A port without a link, before what waited for it is answered. -/
def cpGone (s : State) (n st : Nat) : State :=
  ((s.gptpLeave n).cpUnlinked n st).modCon fun c => { c with
    egress := c.egress.filter fun f => f.port != n, fabric := c.fabric.filter fun f => f.port != n
    ingress := c.ingress.filter fun x => x.1 != n }

/-- The frames that wait for a port. -/
def cpWaiting (s : State) (n : Nat) : List EgFrame := (s.con.egress ++ s.con.fabric).filter fun f => f.port == n

/-- How many frames wait for a port or from it. -/
def cpWaits (s : State) (n : Nat) : Nat := (s.cpWaiting n).length + (s.con.ingress.filter fun x => x.1 == n).length

theorem cpLeave_of_up {s : State} {n : Nat} (h : s.cpUp n = true) (st : Nat) :
    s.cpLeave n st = ((((s.cpWaiting n).foldl (fun s f => s.sendDone f 1) (s.cpGone n st)).inc Reg.CPn_CNT_A_DOWN [n] (s.cpWaits n)).recordS
      0x3C02 3 8 n (s.cpWaits n)) := by
  unfold cpLeave
  rw [h]
  rfl

theorem sendDone_foldl_writesAt (s : State) (l : List EgFrame) (st : Nat) :
    WritesAt RingPlace s (l.foldl (fun s f => s.sendDone f st) s) := by
  refine (WritesAt.refl s).foldl l _ fun f _ u => ?_
  unfold sendDone
  split
  · exact (WritesAt.refl u).complete (fun _ h => h) ..
  · exact .refl u

theorem cpLeave_facts {s : State} (hs : Sparse.sorted s.regs = true) {n : Fin 12} (h : s.cpUp n.val = true) {st : Nat} (hst : st < 2) :
    (s.cpLeave n.val st).cpUp n.val = false ∧ (s.cpLeave n.val st).get Reg.CPn_CNT_A_DOWN [n.val] =
      min (s.get Reg.CPn_CNT_A_DOWN [n.val] + s.cpWaits n.val) (2 ^ Reg.CPn_CNT_A_DOWN.width - 1) := by
  obtain ⟨⟨hrecS, hringS⟩, hneS⟩ := portKeys n Reg.CPn_STAT_STATE (by decide)
  obtain ⟨⟨hrecD, hringD⟩, hneD⟩ := portKeys n Reg.CPn_CNT_A_DOWN (by decide)
  have hdone := sendDone_foldl_writesAt (s.cpGone n.val st) (s.cpWaiting n.val) 1
  obtain ⟨hstate, hdown, hgone⟩ : (s.cpGone n.val st).get Reg.CPn_STAT_STATE [n.val] = st ∧
      (s.cpGone n.val st).get Reg.CPn_CNT_A_DOWN [n.val] = s.get Reg.CPn_CNT_A_DOWN [n.val] ∧
      Sparse.sorted (s.cpGone n.val st).regs = true := cpUnlinked_facts (s := s.gptpLeave n.val) hs n hst
  rw [cpLeave_of_up h]
  constructor
  · refine (congrArg (· == 2) ((recordS_get _ _ _ _ _ _ _ _ hrecS).trans
      ((get_set_other _ _ _ _ _ _ (hneS _ (by decide) (by decide))).trans ((hdone.get _ _ hringS).trans hstate)))).trans ?_
    exact beq_false_of_ne (Nat.ne_of_lt hst)
  · rw [recordS_get _ _ _ _ _ _ _ _ hrecD, get_inc_same (hdone.sorted hgone), hdone.get _ _ hringD, hdown]

/-! MDIO -/

/-- The fields of a command are read back as they were written. -/
theorem mdioCmd_get {s : State} (hs : Sparse.sorted s.regs = true) (c45 : Bool) (op : Fin 4) (phy reg : Fin 32) :
    let u := ((((s.flag Reg.MDIO_CMD_C45 [] c45).set Reg.MDIO_CMD_OP [] op.val).set Reg.MDIO_CMD_PHYAD [] phy.val).set Reg.MDIO_CMD_REG [] reg.val)
    u.on Reg.MDIO_CMD_C45 = c45 ∧ u.get Reg.MDIO_CMD_OP = op.val ∧ u.get Reg.MDIO_CMD_PHYAD = phy.val ∧ u.get Reg.MDIO_CMD_REG = reg.val ∧
      u.on Reg.MDIO_CMD_BUSY = s.on Reg.MDIO_CMD_BUSY ∧ u.get Reg.MDIO_DATA_DATA = s.get Reg.MDIO_DATA_DATA ∧ Sparse.sorted u.regs = true := by
  have h1 : Sparse.sorted (s.flag Reg.MDIO_CMD_C45 [] c45).regs = true := sorted_set _ _ _ _ hs
  have h2 := sorted_set _ Reg.MDIO_CMD_OP [] op.val h1
  have h3 := sorted_set _ Reg.MDIO_CMD_PHYAD [] phy.val h2
  have hother {g : Fld} (h : ∀ f ∈ [Reg.MDIO_CMD_C45, Reg.MDIO_CMD_OP, Reg.MDIO_CMD_PHYAD, Reg.MDIO_CMD_REG], g.key [] ≠ f.key []) :
      ((((s.flag Reg.MDIO_CMD_C45 [] c45).set Reg.MDIO_CMD_OP [] op.val).set Reg.MDIO_CMD_PHYAD [] phy.val).set Reg.MDIO_CMD_REG [] reg.val).get g =
        s.get g :=
    (get_set_other _ _ _ _ _ _ (h _ (by decide))).trans ((get_set_other _ _ _ _ _ _ (h _ (by decide))).trans
      ((get_set_other _ _ _ _ _ _ (h _ (by decide))).trans (get_set_other _ _ _ _ _ _ (h _ (by decide)))))
  refine ⟨?_, ?_, ?_, ?_, congrArg (· != 0) (hother (by decide)), hother (by decide), sorted_set _ _ _ _ h3⟩
  · refine (congrArg (· != 0) ((get_set_other _ _ _ _ _ _ (by decide)).trans ((get_set_other _ _ _ _ _ _ (by decide)).trans
      ((get_set_other _ _ _ _ _ _ (by decide)).trans (get_set_same s _ _ _ hs))))).trans ?_
    cases c45 <;> rfl
  · exact (get_set_other _ _ _ _ _ _ (by decide)).trans ((get_set_other _ _ _ _ _ _ (by decide)).trans
      ((get_set_same _ _ _ _ h1).trans (Nat.mod_eq_of_lt op.isLt)))
  · exact (get_set_other _ _ _ _ _ _ (by decide)).trans ((get_set_same _ _ _ _ h2).trans (Nat.mod_eq_of_lt phy.isLt))
  · exact (get_set_same _ _ _ _ h3).trans (Nat.mod_eq_of_lt reg.isLt)

end State

end Sys2Proof.Machine

/-!
The commands of the consist network and of process data (R450 to R468).
-/

namespace Sys2Proof.Machine

namespace State

/-! Telegrams -/

/-- A telegram that its subscriber takes. -/
def telTaken (src : Nat) (d : List Byte) (t : Tel) : Tel :=
  { t with data := d.drop 40, age := 0, run := 0, touted := false, fresh := true, last := Sparse.put src (beAt d 0 4) t.last }

/-- Of one entry that accepts, that entry is the hit. -/
theorem hits_single {s : State} {t : Tel} (ht : s.con.tels = [t]) {p : Tel → Bool} (hp : p t = true) :
    ((List.range s.con.tels.length).filter fun i => p (s.tel i)) = [0] := by
  simp [ht, tel, hp]

theorem hits_none {s : State} {p : Tel → Bool} (h : ∀ i, i < s.con.tels.length → p (s.tel i) = false) :
    ((List.range s.con.tels.length).filter fun i => p (s.tel i)) = [] := by
  rw [List.filter_eq_nil_iff]
  intro i hi
  rw [h i (List.mem_range.mp hi)]
  exact Bool.false_ne_true

/-! ARP -/

/-- The 8 bytes before the addresses of an ARP reply. -/
def arpHead : List Byte := beBytes 2 1 ++ beBytes 2 0x0800 ++ beBytes 1 6 ++ beBytes 1 4 ++ beBytes 2 2

/-- The addresses of an ARP reply. -/
def arpTail (s : State) (mac ip : Nat) : List Byte :=
  beBytes 6 s.pdMac ++ beBytes 4 (s.get Reg.TRDP_IP_ADDR) ++ beBytes 6 mac ++ beBytes 4 ip

theorem arpBody_facts (s : State) (mac ip : Nat) : (arpHead ++ s.arpTail mac ip).length = 28 ∧
    beAt (arpHead ++ s.arpTail mac ip) 6 2 = 2 ∧ (arpHead ++ s.arpTail mac ip).drop 8 = s.arpTail mac ip := by
  refine ⟨?_, rfl, rfl⟩
  simp [arpHead, arpTail, beBytes, leBytes_length]

/-! Group reports -/

/-- The message that reports one group. -/
def igmpMsg (g : Nat) : List Byte :=
  let msg (sum : Nat) : List Byte := beBytes 1 0x16 ++ beBytes 1 0 ++ beBytes 2 sum ++ beBytes 4 g
  msg (inetSum (msg 0))

/-- Of one telegram that subscribes to a group, that group is all. -/
theorem igmp_single {s : State} {t : Tel} (ht : s.con.tels = [t]) (hdir : t.dir = 2) (hgrp : isGroupIp t.destIp = true) :
    ((s.con.tels.filter fun t => t.dir == 2 && isGroupIp t.destIp).map fun t => t.destIp).eraseDups = [t.destIp] := by
  simp [ht, hdir, hgrp]
  rfl

/-! MDIO -/

/-- The fields of a management command, as MDIO_CMD takes them. -/
def mdioCmd (s : State) (c45 : Bool) (op phy reg : Nat) : State :=
  (((s.flag Reg.MDIO_CMD_C45 [] c45).set Reg.MDIO_CMD_OP [] op).set Reg.MDIO_CMD_PHYAD [] phy).set Reg.MDIO_CMD_REG [] reg

theorem mdioGo_facts {s : State} (hs : Sparse.sorted s.regs = true) (hbusy : s.on Reg.MDIO_CMD_BUSY = false) (c45 : Bool) (op : Fin 4)
    (phy reg : Fin 32) :
    let t := (s.mdioCmd c45 op.val phy.val reg.val).mdioGo
    t.get Reg.MDIO_CMD_BUSY = 1 ∧ t.con.mdio = some (c45, op.val, phy.val, reg.val) ∧
      t.out = .mdio c45 op.val phy.val reg.val (s.get Reg.MDIO_DATA_DATA) :: s.out ∧
      { t with regs := s.regs, con := s.con, out := s.out } = s := by
  obtain ⟨hc45, hop, hphy, hreg, hbusy', hdata, hsorted⟩ := mdioCmd_get hs c45 op phy reg
  have hgo : (s.mdioCmd c45 op.val phy.val reg.val).mdioGo =
      (((s.mdioCmd c45 op.val phy.val reg.val).set Reg.MDIO_CMD_BUSY [] 1).modCon fun c => { c with
        mdio := some (c45, op.val, phy.val, reg.val) }).emit (.mdio c45 op.val phy.val reg.val (s.get Reg.MDIO_DATA_DATA)) := by
    have hset : ((s.mdioCmd c45 op.val phy.val reg.val).set Reg.MDIO_CMD_BUSY [] 1).get Reg.MDIO_DATA_DATA = s.get Reg.MDIO_DATA_DATA :=
      (get_set_other _ _ _ _ _ _ (by decide)).trans hdata
    unfold mdioGo
    rw [if_neg (by rw [show (s.mdioCmd c45 op.val phy.val reg.val).on Reg.MDIO_CMD_BUSY = false from hbusy'.trans hbusy]; exact Bool.false_ne_true)]
    simp only [show (s.mdioCmd c45 op.val phy.val reg.val).on Reg.MDIO_CMD_C45 = c45 from hc45,
      show (s.mdioCmd c45 op.val phy.val reg.val).get Reg.MDIO_CMD_OP = op.val from hop,
      show (s.mdioCmd c45 op.val phy.val reg.val).get Reg.MDIO_CMD_PHYAD = phy.val from hphy,
      show (s.mdioCmd c45 op.val phy.val reg.val).get Reg.MDIO_CMD_REG = reg.val from hreg, modCon_get, hset]
  rw [hgo]
  exact ⟨get_set_same _ _ _ 1 hsorted, rfl, rfl, rfl⟩

theorem mdioDone_get {s : State} (hs : Sparse.sorted s.regs = true) (data : Fin 65536) :
    let t := ((s.set Reg.MDIO_CMD_BUSY [] 0).modCon fun c => { c with mdio := none }).set Reg.MDIO_DATA_DATA [] data.val
    t.get Reg.MDIO_CMD_BUSY = 0 ∧ t.get Reg.MDIO_DATA_DATA = data.val := by
  have h1 := sorted_set s Reg.MDIO_CMD_BUSY [] 0 hs
  exact ⟨(get_set_other _ _ _ _ _ _ (by decide)).trans (get_set_same s _ _ 0 hs),
    (get_set_same ((s.set Reg.MDIO_CMD_BUSY [] 0).modCon fun c => { c with mdio := none }) _ _ _ h1).trans (Nat.mod_eq_of_lt data.isLt)⟩

end State

/-- Settles O52: each command's guard holds; a port's fields are read back, and of one telegram or group the list of hits is that one. -/
theorem consistCommands : Obligations.ConsistCommands := by
  intro s hc ha
  refine ⟨fun n f time hup hfcs => ?_, fun n f time v hup hfcs htag hvid hv hmem hlo hhi hg hzero hblk => ?_,
    fun n f time hup hfcs hg het => ?_,
    fun n r plca hmay hup hr => ⟨_, next_if_pos (by simp only [ha, hmay, hup, hr, Bool.not_false, Bool.and_self]),
      State.cpFresh_recordS_facts hc.regs n r _ _ _ _ _ _⟩,
    fun n hup => ⟨_, next_if_pos (by simp [ha, hup]), ?_⟩, fun mac vid hage => ?_,
    fun n hn hup hen hid => next_if_pos (by simp [ha, hn, hn ▸ hup, hn ▸ hen, hn ▸ hid]), fun c45 op phy reg hbusy => ?_,
    fun data p r hm => ?_, fun i hup hdr hmaps hage hdue => next_if_pos (by simp [ha, hup, hdr, hmaps, hage, hdue]),
    fun src dst port vid d hup hnone => ?_, fun src dst port vid d t hup ht hacc => ?_,
    fun i hup hdir hto hrun => next_if_pos (by simp [ha, hup, hdir, hto, hrun]), fun mac ip hup hdr => ?_, fun hup hat hnil => ?_,
    fun t hup hat ht hdir hgrp => ?_⟩
  · refine (next_if_neg (by simp [ha, hup])).trans ?_
    simp [hfcs]
  · have hcpVid : s.cpVid n.val f = f.vid := if_pos (by simp [htag, hvid])
    have hcpPrio : s.cpPrio n.val f = f.pcp := if_pos htag
    refine (next_if_neg (by simp [ha, hup])).trans ?_
    simp only [hfcs, Bool.not_true, Bool.false_eq_true, if_false, hg, hcpVid, hv, hmem, hzero, hblk, hcpPrio, bne_self_eq_false, Bool.false_and,
      Bool.false_or]
    rw [if_neg (by simp; omega)]
    rfl
  · refine (next_if_neg (by simp [ha, hup])).trans ?_
    simp [hfcs, hg, het]
  · obtain ⟨hgone, hcount⟩ := State.cpLeave_facts (st := if s.cpMay n.val then 1 else 0) hc.regs hup (by split <;> decide)
    exact ⟨hgone, hcount.trans (by rw [State.cpWaits, State.cpWaiting, Nat.add_assoc])⟩
  · exact next_if_pos (by simp [ha, hage])
  · exact ⟨_, next_if_neg (by simp [ha, hbusy]), State.mdioGo_facts hc.regs hbusy c45 op phy reg⟩
  · obtain ⟨hbusy, hdata⟩ := State.mdioDone_get hc.regs data
    refine ⟨((s.set Reg.MDIO_CMD_BUSY [] 0).modCon fun c => { c with mdio := none }).set Reg.MDIO_DATA_DATA [] data.val, ?_, hbusy, rfl, hdata⟩
    change execMdioFrameDone data s = _
    simp [execMdioFrameDone, hm, ha]
  · refine (next_if_neg (by simp [ha, hup])).trans ?_
    simp only [State.hits_none (p := fun t => s.pdAccepts t src dst port vid d) hnone]
    rfl
  · refine (next_if_neg (by simp [ha, hup])).trans ?_
    simp only [State.hits_single (p := fun t => s.pdAccepts t src dst port vid d) ht hacc]
    exact congrArg (fun l => Host.Outcome.next { s with con := { s.con with tels := l } })
      (congrArg (fun l => listMod l 0 (State.telTaken src d)) ht)
  · obtain ⟨hlen, hop, haddr⟩ := State.arpBody_facts s mac ip
    refine ⟨(s.take 3).1, State.arpHead ++ s.arpTail mac ip, (next_if_pos (by simp [ha, hup, hdr])).trans ?_,
      Nat.mod_lt _ (by decide), hlen, hop, haddr⟩
    simp only [State.arpHead, State.arpTail, List.append_assoc]
    rfl
  · refine (next_if_pos (by rw [ha, hup, hat]; rfl)).trans ?_
    simp [hnil]
  · let u := s.modCon fun c => { c with igmpAt := some s.clock.up }
    refine ⟨(u.take 3).1, ((u.take 3).2.ipPacket 1 2 t.destIp (beBytes 4 0x94040000) (State.igmpMsg t.destIp)).1,
      (next_if_pos (by rw [ha, hup, hat]; rfl)).trans ?_⟩
    simp only [State.modCon_con, State.igmp_single ht hdir hgrp]
    rfl

end Sys2Proof.Machine

/-!
The weirs (R294, R297, R307, R308).
-/

namespace Sys2Proof.Machine

namespace State

/-! The fence -/

/-- The registers of a node that fences itself. -/
def fencedRegs (s : State) : State :=
  ((s.set Reg.WEIR_STAT_FENCED [0] 1).set Reg.WEIR_STAT_FENCED [1] 1).inc Reg.WEIR_FENCE_CNT_FENCES

/-- A node that has fenced itself, before its record. -/
def fenced (s : State) : State := s.fencedRegs.modWeirs fun x => { x with fencedAt := s.clock.turn, fenceDrops := 0 }

theorem fencedRegs_get {s : State} (hs : Sparse.sorted s.regs = true) :
    s.fencedRegs.get Reg.WEIR_STAT_FENCED [0] = 1 ∧ s.fencedRegs.get Reg.WEIR_STAT_FENCED [1] = 1 := by
  have h1 := sorted_set s Reg.WEIR_STAT_FENCED [0] 1 hs
  exact ⟨(get_set_other _ _ _ _ _ _ (by decide)).trans ((get_set_other _ _ _ _ _ _ (by decide)).trans (get_set_same s _ _ 1 hs)),
    (get_set_other _ _ _ _ _ _ (by decide)).trans (get_set_same _ _ _ 1 h1)⟩

theorem fence_of_blocks {s : State} (h : 8 ≤ s.ownBlocks 0) (hf : s.isFenced = false) : s.fence =
    s.fenced.recordS 0x3702 5 4 (max (s.ownBlocks 0) (s.ownBlocks 1)) 0 := by
  have hblocks : s.fenced.ownBlocks 0 = s.ownBlocks 0 := rfl
  have hsource : (if s.fenced.ownBlocks 0 ≥ 8 then 0 else 1) = 0 := if_pos (hblocks.symm ▸ h)
  exact (if_pos (by simp [hf]; omega)).trans
    (congrArg (s.fenced.recordS 0x3702 5 4 (max (s.ownBlocks 0) (s.ownBlocks 1))) hsource)

theorem fence_of_few {s : State} (h0 : s.ownBlocks 0 < 8) (h1 : s.ownBlocks 1 < 8) : s.fence = s :=
  if_neg (by simp; omega)

/-- R308: a fenced node's own frame is dropped at a line port, before its weir looks at it. -/
theorem weirCheck_of_fenced {s : State} {port : Nat} (hx : s.isXlink port = false) (hf : s.isFenced = true) {f : Frame}
    (hown : s.ownFrame (port % 2) false f = true) (hk : f.kind ≠ .hop) (phase : Nat) :
    s.weirCheck port phase false f =
      (.fenced, (s.inc Reg.WEIR_FENCE_CNT_DROPS).modWeirs fun y => { y with fenceDrops := y.fenceDrops + 1 }) := by
  have hguard : (s.isFenced && s.ownFrame (port % 2) false f && f.kind != .hop) = true := by
    rw [hf, hown]
    exact bne_iff_ne.mpr hk
  have hline : ¬ s.isXlink port = true := by simp [hx]
  unfold weirCheck
  extract_lets w e st x
  split
  exact (if_neg hline).trans (if_pos hguard)

theorem transmit_of_fenced {s : State} {port : Nat} (hx : s.isXlink port = false) (hf : s.isFenced = true) {f : Frame}
    (hown : s.ownFrame (port % 2) false f = true) (hk : f.kind ≠ .hop) (phase : Nat) :
    s.transmit port phase false false f =
      (s.inc Reg.WEIR_FENCE_CNT_DROPS).modWeirs fun y => { y with fenceDrops := y.fenceDrops + 1 } := by
  unfold transmit
  rw [weirCheck_of_fenced hx hf hown hk]

theorem weirTimeout_of_acquire {s : State} {w : Nat} (hst : s.wst w = 2) (ht : 16 ≤ (s.weir w).turns) :
    s.weirTimeout w = (s.setWst w 2).seedWeir w := if_pos (by simp [hst, ht])

theorem weirTimeout_of_track {s : State} {w : Nat} (hst : s.wst w = 3) : s.weirTimeout w = s := if_neg (by simp [hst])

end State

/-- Settles O40: each command's guard holds, and the fence shows in both weirs. -/
theorem weirCommands : Obligations.WeirCommands := by
  intro s hc ha
  refine ⟨fun w hnit => next_if_pos (by simp [ha, hnit]), fun w hnit => next_if_neg (by simp [hnit]),
    fun w hst ht => (next_if_pos ha).trans (congrArg _ (State.weirTimeout_of_acquire hst ht)),
    fun w hst => (next_if_pos ha).trans (congrArg _ (State.weirTimeout_of_track hst)),
    fun h hf => ⟨_, (next_if_pos ha).trans (congrArg _ (State.fence_of_blocks h hf)), ?_⟩,
    fun h0 h1 => (next_if_pos ha).trans (congrArg _ (State.fence_of_few h0 h1)),
    fun port phase f hx hf hown hk => State.transmit_of_fenced hx hf hown hk phase⟩
  obtain ⟨h0, h1⟩ := State.fencedRegs_get hc.regs
  have hget (ix : List Nat) (hix : recordKey (Reg.WEIR_STAT_FENCED.key ix) = false) :=
    State.recordS_get s.fenced 0x3702 5 4
      (max (s.ownBlocks 0) (s.ownBlocks 1)) 0 Reg.WEIR_STAT_FENCED ix hix
  refine ⟨?_, (hget [0] (by decide)).trans h0, (hget [1] (by decide)).trans h1,
    congrArg Weirs.fencedAt (State.recordS_weirs ..)⟩
  exact (congrArg (· != 0) ((hget [0] (by decide)).trans h0)).trans rfl

end Sys2Proof.Machine

/-!
Registers whose fields take no write, and registers that clear on reads (R12, R14).
-/

namespace Sys2Proof.Machine

namespace State

/-! Writes -/

/-- A field that takes nothing from a write: read-only, cleared by reads, or locked by its block. -/
def TakesNoWrite (s : State) (off : Nat) (f : Fld) : Prop :=
  f.acc = .ro ∨ f.acc = .rc ∨ (f.acc = .rwl ∧ s.lockedAt off = true)

theorem writeField_of_takesNoWrite {s : State} {off : Nat} {x : Fld × List Nat} (h : s.TakesNoWrite off x.1)
    (r : Requester) (v : Nat) : s.writeField r off v x = s := by
  unfold writeField
  obtain hro | hrc | ⟨hrwl, hlock⟩ := h
  · simp [hro]
  · simp [hrc]
  · simp [hrwl, hlock]

theorem foldl_writeField_of_takesNoWrite {s : State} {off : Nat} {xs : List (Fld × List Nat)}
    (h : ∀ x ∈ xs, s.TakesNoWrite off x.1) (r : Requester) (v : Nat) : xs.foldl (writeField r off v) s = s := by
  induction xs with
  | nil => rfl
  | cons x xs ih =>
    rw [List.foldl_cons, writeField_of_takesNoWrite (h x List.mem_cons_self)]
    exact ih fun y hy => h y (List.mem_cons_of_mem _ hy)

/-- No open lockable field: what follows an accepted write of a lockable register does not run. -/
theorem no_open_field_of_takesNoWrite {s : State} {off : Nat} {xs : List (Fld × List Nat)}
    (h : ∀ x ∈ xs, s.TakesNoWrite off x.1) : ((xs.any fun x => x.1.acc == .rwl) && !s.lockedAt off) = false := by
  cases hlock : s.lockedAt off with
  | true => exact Bool.and_false _
  | false =>
    rw [Bool.not_false, Bool.and_true, List.any_eq_false]
    intro x hx
    obtain hro | hrc | ⟨-, hlocked⟩ := h x hx
    · simp [hro]
    · simp [hrc]
    · simp [hlock] at hlocked

/-! Reads -/

/-- The fields whose clearing on reads has a meaning of its own. -/
def readsApart : List Fld :=
  [Reg.PWR_VIN_VIN_MIN, Reg.WEIR_CNT_EARLY, Reg.FAR_PF_CNT_HITS, Reg.FAR_PF_CNT_DISCARDS, Reg.FAR_AP_ERR_STAT_x_VALID]

theorem readField_of_kept {x : Fld × List Nat} (h : x.1.acc ≠ .rc) (s : State) : s.readField x = s :=
  if_pos (by simp [h])

theorem readField_of_clears {x : Fld × List Nat} (h : x.1.acc = .rc) (hx : x.1 ∉ readsApart) (s : State) :
    s.readField x = s.set x.1 x.2 0 := by
  simp only [readsApart, List.mem_cons, List.not_mem_nil, or_false, not_or] at hx
  obtain ⟨h1, h2, h3, h4, h5⟩ := hx
  simp [readField, h, h1, h2, h3, h4, h5]

/-- What clears on reads is 0 after reset as well (R13). -/
theorem rst_of_clears : ∀ f ∈ regTable, f ∉ readsApart → f.acc = .rc → f.rst = 0 := by decide +kernel

theorem get_eq_of_key_eq {f g : Fld} {ix jx : List Nat} (hkey : f.key ix = g.key jx) (hrst : f.rst = g.rst) (s : State) :
    s.get f ix = s.get g jx := by
  unfold get
  rw [hkey, hrst]

theorem sorted_readField {s : State} (hs : Sparse.sorted s.regs = true) {x : Fld × List Nat} (hx : x.1 ∉ readsApart) :
    Sparse.sorted (s.readField x).regs = true := by
  by_cases h : x.1.acc = .rc
  · rw [readField_of_clears h hx]
    exact sorted_set _ _ _ _ hs
  · rwa [readField_of_kept h]

theorem readField_get_other {x : Fld × List Nat} (hx : x.1 ∉ readsApart) {f : Fld} {ix : List Nat}
    (h : x.1.acc = .rc → f.key ix ≠ x.1.key x.2) (s : State) : (s.readField x).get f ix = s.get f ix := by
  by_cases hrc : x.1.acc = .rc
  · rw [readField_of_clears hrc hx]
    exact get_set_other _ _ _ _ _ _ (h hrc)
  · rw [readField_of_kept hrc]

theorem foldl_readField_get_other {xs : List (Fld × List Nat)} (hx : ∀ x ∈ xs, x.1 ∉ readsApart) {f : Fld} {ix : List Nat}
    (h : ∀ x ∈ xs, x.1.acc = .rc → f.key ix ≠ x.1.key x.2) (s : State) : (xs.foldl readField s).get f ix = s.get f ix := by
  induction xs generalizing s with
  | nil => rfl
  | cons x xs ih =>
    exact (ih (fun y hy => hx y (List.mem_cons_of_mem _ hy)) (fun y hy => h y (List.mem_cons_of_mem _ hy)) _).trans
      (readField_get_other (hx x List.mem_cons_self) (h x List.mem_cons_self) s)

/-- A field that reads 0, its reset value, still does after another field is read. -/
theorem readField_get_zero {s : State} (hs : Sparse.sorted s.regs = true) {x : Fld × List Nat} (hx : x.1 ∉ readsApart)
    (hrst : x.1.acc = .rc → x.1.rst = 0) {f : Fld} {ix : List Nat} (hf : f.rst = 0) (h : s.get f ix = 0) :
    (s.readField x).get f ix = 0 := by
  by_cases hrc : x.1.acc = .rc
  · by_cases hkey : f.key ix = x.1.key x.2
    · rw [readField_of_clears hrc hx, get_eq_of_key_eq hkey (hf.trans (hrst hrc).symm), get_set_same _ _ _ _ hs, Nat.zero_mod]
    · exact (readField_get_other hx (fun _ => hkey) s).trans h
  · rw [readField_of_kept hrc, h]

theorem foldl_readField_get_zero {xs : List (Fld × List Nat)} (hx : ∀ x ∈ xs, x.1 ∉ readsApart)
    (hrst : ∀ x ∈ xs, x.1.acc = .rc → x.1.rst = 0) {s : State} (hs : Sparse.sorted s.regs = true) {f : Fld} {ix : List Nat}
    (hf : f.rst = 0) (h : s.get f ix = 0) : (xs.foldl readField s).get f ix = 0 := by
  induction xs generalizing s with
  | nil => exact h
  | cons x xs ih =>
    exact ih (fun y hy => hx y (List.mem_cons_of_mem _ hy)) (fun y hy => hrst y (List.mem_cons_of_mem _ hy))
      (sorted_readField hs (hx x List.mem_cons_self))
      (readField_get_zero hs (hx x List.mem_cons_self) (hrst x List.mem_cons_self) hf h)

theorem foldl_readField_clears {xs : List (Fld × List Nat)} (hx : ∀ x ∈ xs, x.1 ∉ readsApart)
    (hrst : ∀ x ∈ xs, x.1.acc = .rc → x.1.rst = 0) {s : State} (hs : Sparse.sorted s.regs = true) {x : Fld × List Nat}
    (hmem : x ∈ xs) (hrc : x.1.acc = .rc) : (xs.foldl readField s).get x.1 x.2 = 0 := by
  induction xs generalizing s with
  | nil => cases hmem
  | cons y xs ih =>
    have hx' : ∀ z ∈ xs, z.1 ∉ readsApart := fun z hz => hx z (List.mem_cons_of_mem _ hz)
    have hrst' : ∀ z ∈ xs, z.1.acc = .rc → z.1.rst = 0 := fun z hz => hrst z (List.mem_cons_of_mem _ hz)
    have hs' := sorted_readField hs (hx y List.mem_cons_self)
    obtain rfl | hrest := List.mem_cons.mp hmem
    · refine foldl_readField_get_zero hx' hrst' hs' (hrst x List.mem_cons_self hrc) ?_
      rw [readField_of_clears hrc (hx x List.mem_cons_self), get_set_same _ _ _ _ hs, Nat.zero_mod]
    · exact ih hx' hrst' hs' hrest

theorem latchHigh_regs (s : State) (c off : Nat) : (s.latchHigh c off).regs = s.regs := by
  unfold latchHigh
  split <;> rfl

theorem readReg_get {s : State} {r : Requester} {off : Nat} (h : s.canDark off = false) (f : Fld) (ix : List Nat) :
    (s.readReg r off).2.get f ix = ((fieldsAt off).foldl readField s).get f ix := by
  unfold readReg
  rw [h]
  exact get_of_regs (latchHigh_regs _ _ _) _ _

theorem mem_regTable_of_mem_fieldsAt {off : Nat} {x : Fld × List Nat} (h : x ∈ fieldsAt off) : x.1 ∈ regTable := by
  obtain ⟨f, hf, hx⟩ := List.mem_filterMap.mp h
  obtain ⟨ix, -, rfl⟩ := Option.map_eq_some_iff.mp hx
  exact hf

end State

/-- Settles O27: no field takes the write, no lockable field is open, and no action runs. -/
theorem lockedAndReadOnlyFieldsKeepTheirValue : Obligations.LockedAndReadOnlyFieldsKeepTheirValue := by
  intro s r off v given hfields hact
  unfold State.writeReg
  rw [hact]
  simp only [State.foldl_writeField_of_takesNoWrite hfields, State.no_open_field_of_takesNoWrite hfields,
    Bool.false_eq_true, if_false, ite_self]

/-- Settles O28, by induction over the fields of the register: each one that clears on reads is set to 0, its reset value. -/
theorem readsClearCounters : Obligations.ReadsClearCounters := by
  intro s r off hc hdark hfields
  have hrst : ∀ x ∈ State.fieldsAt off, x.1.acc = .rc → x.1.rst = 0 := fun x hx =>
    State.rst_of_clears x.1 (State.mem_regTable_of_mem_fieldsAt hx) (hfields x hx)
  refine ⟨rfl, fun x hx hrc => ?_, fun f ix hother => ?_⟩
  · exact (State.readReg_get hdark _ _).trans (State.foldl_readField_clears hfields hrst hc.regs hx hrc)
  · exact (State.readReg_get hdark _ _).trans (State.foldl_readField_get_other hfields hother s)

end Sys2Proof.Machine

/-!
What completions leave unchanged (R382, R386): all but registers, the host interface and what is put out.
-/

namespace Sys2Proof.Machine

namespace State

/-- From `a` to `b` only registers, the host interface and what is put out change. -/
def HostOnly (a b : State) : Prop := ∃ r h o, b = { a with regs := r, host := h, out := o }

namespace HostOnly

variable {a b c : State}

theorem refl (a : State) : HostOnly a a := ⟨_, _, _, rfl⟩

theorem trans (h : HostOnly a b) (k : HostOnly b c) : HostOnly a c := by
  obtain ⟨_, _, _, rfl⟩ := h
  obtain ⟨_, _, _, rfl⟩ := k
  exact ⟨_, _, _, rfl⟩

theorem set (h : HostOnly a b) (f : Fld) (ix : List Nat) (v : Nat) : HostOnly a (b.set f ix v) := h.trans ⟨_, _, _, rfl⟩

theorem modHost (h : HostOnly a b) (f : HostIf → HostIf) : HostOnly a (b.modHost f) := h.trans ⟨_, _, _, rfl⟩

theorem modQueue (h : HostOnly a b) (t q : Nat) (f : Queue → Queue) : HostOnly a (b.modQueue t q f) := h.trans ⟨_, _, _, rfl⟩

theorem emit (h : HostOnly a b) (o : Out) : HostOnly a (b.emit o) := h.trans ⟨_, _, _, rfl⟩

theorem ite {d : State} {p : Prop} [Decidable p] (hc : HostOnly a c) (hd : HostOnly a d) : HostOnly a (if p then c else d) := by
  split
  · exact hc
  · exact hd

theorem foldl {α : Type} (h : HostOnly a b) (l : List α) (f : State → α → State) (hf : ∀ s x, HostOnly a s → HostOnly a (f s x)) :
    HostOnly a (l.foldl f b) := by
  induction l generalizing b with
  | nil => exact h
  | cons x l ih => exact ih (hf b x h)

theorem memWrite (h : HostOnly a b) (t addr : Nat) (d : List Byte) : HostOnly a (b.memWrite t addr d) :=
  h.ite ((h.modHost _).ite (h.emit _))

theorem msix (h : HostOnly a b) (t v : Nat) : HostOnly a (b.msix t v) := (h.modHost _).ite (h.emit _)

theorem signal (h : HostOnly a b) (t bit vec : Nat) : HostOnly a (b.signal t bit vec) := by
  unfold State.signal
  exact ((h.set ..).ite ((h.set ..).ite (h.set ..))).ite (h.msix ..)

theorem queueSignal (h : HostOnly a b) (t q : Nat) : HostOnly a (b.queueSignal t q) := by
  have hmod (f : Queue → Queue) : HostOnly a (b.modQueue t q f) := h.modQueue ..
  exact (((hmod _).signal ..).ite (hmod _)).ite (hmod _)

theorem showFlight (h : HostOnly a b) (t q : Nat) : HostOnly a (b.showFlight t q) := (h.set ..).set ..

theorem writeOne (h : HostOnly a b) (t q : Nat) : HostOnly a (b.writeOne t q) := by
  unfold State.writeOne
  dsimp only
  split
  · exact h
  · split
    · exact h
    · refine h.ite ?_
      have hhead (u : State) (hu : HostOnly a u) (c : Prop) [Decidable c] (v : Nat) (f : Queue → Queue) :
          HostOnly a ((((if c then u.set Reg.HQq_STAT_PHASE [t, q] v else u).modQueue t q f)).showFlight t q) :=
        (((hu.set ..).ite hu).modQueue ..).showFlight t q
      exact (hhead _ ((h.memWrite ..).set ..) _ _ _).ite ((hhead _ ((h.memWrite ..).set ..) _ _ _).queueSignal t q)

theorem writeDone (h : HostOnly a b) (t q left : Nat) : HostOnly a (b.writeDone t q left) := by
  induction left generalizing b with
  | zero => exact h
  | succ left ih => exact ih (h.writeOne t q)

theorem complete (h : HostOnly a b) (t q i status rlen rval : Nat) : HostOnly a (b.complete t q i status rlen rval) :=
  (h.emit _).ite ((h.modQueue ..).writeDone t q _)

theorem completeAll (h : HostOnly a b) (ops : List Nat) (onlyStarted : Bool) (status rval : Nat) :
    HostOnly a (b.completeAll ops onlyStarted status rval) :=
  h.foldl _ _ fun _ _ hs => hs.foldl _ _ fun _ _ hu => (hu.complete ..).ite hu

end HostOnly

end State

end Sys2Proof.Machine

/-!
A node that yields (R245): what its work leaves of the line's directory and schedule.
-/

namespace Sys2Proof.Machine

namespace State

/-- From `a` to `b` the line's directory, schedule and salt and the hold of a cold start stay. -/
structure SameLine (a b : State) : Prop where
  dir : b.inaug.dir = a.inaug.dir
  sched : b.synth.sched = a.synth.sched
  salt : b.keys.salt = a.keys.salt
  hold : b.start.hold = a.start.hold

namespace SameLine

variable {a b : State}

theorem refl (a : State) : SameLine a a := ⟨rfl, rfl, rfl, rfl⟩

theorem step {c : State} (h : SameLine a b) (hi : c.inaug.dir = b.inaug.dir) (hs : c.synth.sched = b.synth.sched)
    (hk : c.keys.salt = b.keys.salt) (hh : c.start.hold = b.start.hold) : SameLine a c :=
  ⟨hi.trans h.dir, hs.trans h.sched, hk.trans h.salt, hh.trans h.hold⟩

theorem set (h : SameLine a b) (f : Fld) (ix : List Nat) (v : Nat) : SameLine a (b.set f ix v) := h.step rfl rfl rfl rfl

theorem modPort (h : SameLine a b) (n : Nat) (f : Port → Port) : SameLine a (b.modPort n f) := h.step rfl rfl rfl rfl

theorem modHost (h : SameLine a b) (f : HostIf → HostIf) : SameLine a (b.modHost f) := h.step rfl rfl rfl rfl

theorem modFar (h : SameLine a b) (f : Far → Far) : SameLine a (b.modFar f) := h.step rfl rfl rfl rfl

theorem modSec (h : SameLine a b) (f : Sec → Sec) : SameLine a (b.modSec f) := h.step rfl rfl rfl rfl

theorem emit (h : SameLine a b) (o : Out) : SameLine a (b.emit o) := h.step rfl rfl rfl rfl

theorem foldl {α : Type} (h : SameLine a b) (l : List α) (f : State → α → State) (hf : ∀ s x, SameLine a s → SameLine a (f s x)) :
    SameLine a (l.foldl f b) := by
  induction l generalizing b with
  | nil => exact h
  | cons x l ih => exact ih (hf b x h)

theorem ite {c d : State} {p : Prop} [Decidable p] (hc : SameLine a c) (hd : SameLine a d) : SameLine a (if p then c else d) := by
  split
  · exact hc
  · exact hd

theorem record (h : SameLine a b) (code sev src p1 p2 : Nat) : SameLine a (b.record code sev src p1 p2) :=
  h.step (congrArg Inaug.dir (record_inaug ..)) (congrArg Synth.sched (record_synth ..))
    (congrArg LineKeys.salt (record_keys ..)) (congrArg Start.hold (record_start ..))

theorem recordS (h : SameLine a b) (code sev src p1 p2 : Nat) : SameLine a (b.recordS code sev src p1 p2) :=
  h.step (congrArg Inaug.dir (recordS_inaug ..)) (congrArg Synth.sched (recordS_synth ..))
    (congrArg LineKeys.salt (recordS_keys ..)) (congrArg Start.hold (recordS_start ..))

/-! Completions -/

theorem msix (h : SameLine a b) (t v : Nat) : SameLine a (b.msix t v) := (h.modHost _).ite (h.emit _)

theorem complete (h : SameLine a b) (t q i status rlen rval : Nat) : SameLine a (b.complete t q i status rlen rval) := by
  obtain ⟨r, x, o, hc⟩ := (HostOnly.refl b).complete t q i status rlen rval
  rw [hc]
  exact h.step rfl rfl rfl rfl

theorem completeAll (h : SameLine a b) (ops : List Nat) (onlyStarted : Bool) (status rval : Nat) :
    SameLine a (b.completeAll ops onlyStarted status rval) :=
  h.foldl _ _ fun _ _ hs => hs.foldl _ _ fun _ _ hu => (hu.complete ..).ite hu

/-! The far bridge and the security engine stop -/

theorem showFar (h : SameLine a b) : SameLine a b.showFar := (h.set ..).set ..

theorem pfDiscard (h : SameLine a b) (i : Nat) : SameLine a (b.pfDiscard i) := by
  unfold State.pfDiscard
  split
  · exact h
  · exact h.ite (((h.modFar _).modFar _).recordS ..)

theorem apError (h : SameLine a b) (port off seq fstat pieces : Nat) : SameLine a (b.apError port off seq fstat pieces) := by
  unfold State.apError
  have hshow (u : State) (hu : SameLine a u) : SameLine a (u.showApErr port) := (hu.set ..).set ..
  have hentry : SameLine a (if (b.far.apErr.getD port []).length ≥ 32 then
      (b.modFar fun f => { f with apLost := listSet f.apLost port true }).recordS 0x3B07 4 11 port seq
    else b.modFar fun f => { f with apErr := listSet f.apErr port (b.far.apErr.getD port [] ++ [⟨off, seq, fstat, pieces⟩]) }) :=
    ((h.modFar _).recordS ..).ite (h.modFar _)
  exact (((hshow _ hentry).msix ..).ite (hshow _ hentry)).recordS ..

theorem farComplete (h : SameLine a b) (t q i : Nat) : SameLine a (b.farComplete t q i) := by
  unfold State.farComplete
  have hread (l : List Transfer) : SameLine a (b.readAnswered l) := by
    unfold State.readAnswered
    split
    · exact h
    · exact h.ite (h.modFar _)
  dsimp only
  refine h.ite (showFar (modFar ?_ _))
  split
  · exact (hread _).complete ..
  · exact (((hread _).complete ..).ite ((hread _).complete ..)).ite ((hread _).complete ..)

theorem farEnd (h : SameLine a b) (x : Transfer) (fstat pieces bytes wnum : Nat) (data : List Byte) :
    SameLine a (b.farEnd x fstat pieces bytes wnum data) := by
  unfold State.farEnd
  split
  · exact (h.modFar _).showFar.farComplete ..
  · have herase : SameLine a (b.modFar fun f => { f with transfers := f.transfers.erase x }).showFar := (h.modFar _).showFar
    exact (((herase.apError ..).ite herase).modFar _).set ..
  · have herase : SameLine a (b.modFar fun f => { f with transfers := f.transfers.erase x }).showFar := (h.modFar _).showFar
    exact (herase.emit _).ite ((herase.emit _).apError ..)

theorem attStop (h : SameLine a b) : SameLine a b.attStop :=
  (h.modSec _).foldl _ _ fun _ _ hs => hs.complete ..

theorem farStop (h : SameLine a b) : SameLine a b.farStop := by
  unfold State.farStop
  have hdiscard : SameLine a (b.pfDiscardIf fun _ => true) := h.foldl _ _ fun s i hs => (hs.pfDiscard i).ite hs
  refine attStop (completeAll (showFar (modFar ?_ _)) ..)
  refine hdiscard.foldl _ _ fun s x hs => ?_
  split
  · exact hs
  · exact hs.farEnd ..

theorem stopWork (h : SameLine a b) : SameLine a b.stopWork := by
  unfold State.stopWork
  refine farStop (completeAll (h.foldl _ _ fun s n hs => ?_) ..)
  refine foldl ((hs.modPort ..).set ..) _ _ fun u q hu => ?_
  unfold State.freeHeld
  split
  · exact hu
  · exact hu.modPort ..

/-! Ports that are held -/

theorem pend (h : SameLine a b) (t : Trigger) (startUp : Bool) : SameLine a (b.pend t startUp) :=
  have hadd (l : List Trigger) : SameLine a (b.modInaug fun i => { i with pending := l }) := h.step rfl rfl rfl rfl
  ((hadd _).set ..).ite ((hadd _).set ..)

theorem actTrigger (h : SameLine a b) (t : Trigger) : SameLine a (b.actTrigger t) := by
  unfold State.actTrigger
  extract_lets u
  have hu : SameLine a u := h.step rfl rfl rfl rfl
  have hstop : SameLine a (u.modInaug fun i => { i with stopReqNext := true }) := hu.step rfl rfl rfl rfl
  have hsolo : SameLine a (u.modStart fun x => { x with solo := true }) := hu.step rfl rfl rfl rfl
  exact hsolo.ite (hstop.ite hu)

theorem raise (h : SameLine a b) (kind port : Nat) : SameLine a (b.raise kind port) := by
  have hr : SameLine a (b.record 0x3501 1 1 kind port) := h.record ..
  have hpend (startUp : Bool) := hr.pend ⟨kind, port⟩ startUp
  have hact := hr.actTrigger ⟨kind, port⟩
  exact (hpend true).ite (((hpend false).record ..).ite (((hpend false).ite (((hpend true).actTrigger _).ite hact)).ite
    (hr.ite ((hpend false).ite ((hpend true).ite hact)))))

theorem splitsFrom (h : SameLine a b) (old : State) : SameLine a (b.splitsFrom old) :=
  h.foldl _ _ fun _ _ hs => ((hs.set ..).record ..).ite hs

theorem showEnds (h : SameLine a b) : SameLine a b.showEnds := h.step rfl rfl rfl rfl

theorem portTo (h : SameLine a b) (n st : Nat) : SameLine a (b.portTo n st) := by
  unfold State.portTo
  extract_lets old lost uid before moved forgotten recorded ended cleared checked
  have hmoved : SameLine a moved := (h.set ..).modPort ..
  have hforgotten : SameLine a forgotten := hmoved.step rfl rfl rfl rfl
  have hrecorded : SameLine a recorded := (hforgotten.record ..).ite (hforgotten.record ..)
  clear_value moved recorded
  have hended : SameLine a ended := by
    unfold ended
    exact ((hrecorded.raise ..).ite hrecorded).ite hmoved
  clear_value ended
  have hcleared : SameLine a cleared := by
    unfold cleared
    exact ((hended.set ..).set ..).ite hended
  clear_value cleared
  have hchecked : SameLine a checked := by
    unfold checked
    exact (hcleared.splitsFrom before).ite hcleared
  exact hchecked.showEnds

theorem portHold (h : SameLine a b) (n why : Nat) : SameLine a (b.hold n why) :=
  ((((h.portTo n 5).set ..).modPort ..).record ..).showEnds

theorem delayLimits (h : SameLine a b) : SameLine a b.delayLimits :=
  h.foldl _ _ fun _ n hs => ((hs.portHold n 7).record ..).ite hs

end SameLine

end State

end Sys2Proof.Machine

/-!
A node that yields (R245): its work, its phase, and the start of LISTEN.
-/

namespace Sys2Proof.Machine

namespace State

namespace SameLine

variable {a b : State}

theorem showSched (h : SameLine a b) : SameLine a b.showSched := by
  unfold State.showSched
  extract_lets own home s1 s2 s3 shown
  have hshown : SameLine a shown := (((h.set ..).set ..).set ..).set ..
  clear_value shown
  split
  · exact (hshown.set ..).set ..
  · exact (hshown.set ..).set ..

theorem freshPool (h : SameLine a b) : SameLine a b.freshPool := by
  unfold State.freshPool emptyPool
  extract_lets emptied
  have hemptied : SameLine a emptied := h.step rfl rfl rfl rfl
  clear_value emptied
  have hpool : SameLine a (((emptied.set Reg.SYN_CLAIM_PENDING [] 0).set Reg.SYN_CLAIM_REQUEST [] 0).modSynth
      fun y => { y with grants := [] }) := hemptied.step rfl rfl rfl rfl
  exact hpool.showSched

theorem stopLayout (h : SameLine a b) : SameLine a b.stopLayout := by
  unfold State.stopLayout setLayout
  exact (((((h.set ..).set ..).set ..).set ..).set ..).set ..

theorem showHops (h : SameLine a b) : SameLine a b.showHops := (h.set ..).set ..

theorem flushLine (h : SameLine a b) : SameLine a b.flushLine := h.step rfl rfl rfl rfl

theorem cancelRoll (h : SameLine a b) : SameLine a b.cancelRoll := h.step rfl rfl rfl rfl

theorem setWst (h : SameLine a b) (w st : Nat) : SameLine a (b.setWst w st) := by
  unfold State.setWst
  have hset (f : Weir → Weir) : SameLine a ((b.set Reg.WEIR_STAT_STATE [w] st).modWeir w f) := h.step rfl rfl rfl rfl
  exact ((hset _).recordS ..).ite (hset _)

theorem weirFollow (h : SameLine a b) (w : Nat) : SameLine a (b.weirFollow w) := by
  have hseed : SameLine a ((b.setWst w 2).seedWeir w) := (h.setWst w 2).step rfl rfl rfl rfl
  exact h.ite ((h.ite (h.setWst ..)).ite ((hseed.ite h).ite (h.ite (h.setWst ..))))

theorem followReset (h : SameLine a b) (start : Bool) : SameLine a (b.followReset start) := by
  unfold State.followReset
  split
  · exact h.step rfl rfl rfl rfl
  · exact h.step rfl rfl rfl rfl

end SameLine

/-! LISTEN begins -/

/-- A node about to listen shows its new state. -/
def listenShown (s : State) : State :=
  (((s.set Reg.LSTART_STAT_PREV [] s.lstate).set Reg.LSTART_STAT_STATE [] 1).set Reg.LSTART_STAT_TURNS [] 0).set
    Reg.TURN_STAT_SRC [] (tickSource 1 (s.lstate != 0))

/-- A node that followed the line before or follows it now begins or ends following. -/
def followChange (s : State) (was : Bool) : State :=
  if s.following && !was then s.followReset true else if was && !s.following then s.followReset false else s

/-- LISTEN itself. -/
def listenBegun (s : State) (old : Nat) : State :=
  ((((s.flag Reg.SYNC_STAT_SELF_SILENT [] false).listen).modStart fun x => { x with synced := 0 }).modRed fun r =>
    { r with noneSince := if old == 0 then some s.clock.up else r.noneSince })

theorem toLine_listen {s : State} (h : s.lstate ≠ 1) :
    s.toLine 1 = ((s.listenShown.followChange s.following).listenBegun s.lstate).weirsFollow.relays := by
  unfold toLine
  exact (if_neg (by simp [h])).trans rfl

/-- The fields that the start of LISTEN writes after it has shown the new state. -/
def listenKeys : List Nat :=
  [Reg.NTIME_RATE_RATE.key [], Reg.SYNC_STAT_CONVERGED.key [], Reg.SYNC_STAT_RATE_CLAMP.key [], Reg.SYNC_STAT_CONV_TURNS.key [],
   Reg.SYNC_STAT_GOOD.key [], Reg.SYNC_STAT_WIDE.key [], Reg.SYNC_STAT_SELF_SILENT.key [], Reg.LSTART_TMO_US.key [],
   Reg.WEIR_STAT_STATE.key [0], Reg.WEIR_STAT_STATE.key [1], Reg.LSTART_STAT_PREV.key [], Reg.LSTART_STAT_TURNS.key [],
   Reg.TURN_STAT_SRC.key []]

/-- The places of the start of LISTEN, with those of its records. -/
def ListenPlace (k : Nat) : Prop := k ∈ listenKeys ∨ recordKey k = true

namespace WritesAt

variable {a b : State}

theorem followReset (h : WritesAt ListenPlace a b) (start : Bool) : WritesAt ListenPlace a (b.followReset start) := by
  unfold State.followReset
  have hat (f : Fld) (hf : f.key [] ∈ listenKeys) {u : State} (hu : WritesAt ListenPlace a u) (v : Nat) :
      WritesAt ListenPlace a (u.set f [] v) := hu.set _ _ _ (.inl hf)
  split
  · extract_lets use rated noted s3 s4 s5
    have hrated : WritesAt ListenPlace a rated := hat Reg.NTIME_RATE_RATE (by decide) h _
    have hnoted : WritesAt ListenPlace a noted := hrated.other rfl
    have h5 : WritesAt ListenPlace a s5 := ((((hat Reg.SYNC_STAT_CONVERGED (by decide) hnoted 0).set Reg.SYNC_STAT_RATE_CLAMP [] 0
      (.inl (by decide))).set Reg.SYNC_STAT_CONV_TURNS [] 0 (.inl (by decide))).set Reg.SYNC_STAT_GOOD [] 0 (.inl (by decide)))
    exact hat Reg.SYNC_STAT_WIDE (by decide) h5 1
  · exact hat Reg.SYNC_STAT_SELF_SILENT (by decide) (hat Reg.SYNC_STAT_WIDE (by decide) h 0) 0

theorem followChange (h : WritesAt ListenPlace a b) (was : Bool) : WritesAt ListenPlace a (b.followChange was) := by
  unfold State.followChange
  split
  · exact h.followReset true
  · split
    · exact h.followReset false
    · exact h

theorem listenBegun (h : WritesAt ListenPlace a b) (old : Nat) : WritesAt ListenPlace a (b.listenBegun old) := by
  have hsilent := h.flag Reg.SYNC_STAT_SELF_SILENT [] false (.inl (by decide))
  exact (hsilent.set Reg.LSTART_TMO_US [] (State.tListen _) (.inl (by decide))).other rfl

theorem setWst (h : WritesAt ListenPlace a b) (w : Nat) (hw : Reg.WEIR_STAT_STATE.key [w] ∈ listenKeys) (st : Nat) :
    WritesAt ListenPlace a (b.setWst w st) := by
  unfold State.setWst
  have hset (f : Weir → Weir) : WritesAt ListenPlace a ((b.set Reg.WEIR_STAT_STATE [w] st).modWeir w f) :=
    (h.set _ _ _ (.inl hw)).other rfl
  extract_lets old s1 s2
  have h2 : WritesAt ListenPlace a s2 := hset _
  split
  · exact h2.recordS (fun k hk => .inr hk) ..
  · exact h2

theorem weirFollow (h : WritesAt ListenPlace a b) (w : Nat) (hw : Reg.WEIR_STAT_STATE.key [w] ∈ listenKeys) :
    WritesAt ListenPlace a (b.weirFollow w) := by
  have hset (st : Nat) := h.setWst w hw st
  unfold State.weirFollow
  dsimp only
  split
  · exact h
  · split
    · split
      · exact h
      · exact hset 0
    · split
      · split
        · exact (hset 2).other rfl
        · exact h
      · split
        · exact h
        · exact hset 1

theorem weirsFollow (h : WritesAt ListenPlace a b) : WritesAt ListenPlace a b.weirsFollow :=
  (h.weirFollow 0 (by decide)).weirFollow 1 (by decide)

end WritesAt

theorem relays_regs (s : State) : s.relays.regs = s.regs := rfl

/-- What the start of LISTEN writes, from a state that does not listen. -/
theorem toLine_listen_writes {s : State} (h : s.lstate ≠ 1) :
    WritesAt ListenPlace s.listenShown (s.toLine 1) := by
  rw [toLine_listen h]
  have hfollow : WritesAt ListenPlace s.listenShown ((s.listenShown.followChange s.following).listenBegun s.lstate) :=
    ((WritesAt.refl _).followChange _).listenBegun _
  exact hfollow.weirsFollow.other (relays_regs _)

theorem listenShown_state {s : State} (hs : Sparse.sorted s.regs = true) : s.listenShown.lstate = 1 :=
  (get_set_other _ _ _ _ _ _ (by decide)).trans ((get_set_other _ _ _ _ _ _ (by decide)).trans
    (get_set_same _ _ _ _ (sorted_set _ _ _ _ hs)))

/-- The places of the start of LISTEN, the state among them. -/
def ToListenPlace (k : Nat) : Prop := ListenPlace k ∨ k = Reg.LSTART_STAT_STATE.key []

theorem listenShown_writes (s : State) : WritesAt ToListenPlace s s.listenShown :=
  (((WritesAt.refl s |>.set Reg.LSTART_STAT_PREV [] _ (.inl (.inl (by decide)))).set Reg.LSTART_STAT_STATE [] _ (.inr rfl)).set
    Reg.LSTART_STAT_TURNS [] _ (.inl (.inl (by decide)))).set Reg.TURN_STAT_SRC [] _ (.inl (.inl (by decide)))

theorem toListen_state {s : State} (hs : Sparse.sorted s.regs = true) : (s.toLine 1).lstate = 1 := by
  by_cases h : s.lstate = 1
  · rw [show s.toLine 1 = s from if_pos (by simp [h]), h]
  · exact ((toLine_listen_writes h).get Reg.LSTART_STAT_STATE [] (by unfold ListenPlace; decide)).trans (listenShown_state hs)

theorem toListen_writes (s : State) : WritesAt ToListenPlace s (s.toLine 1) := by
  by_cases h : s.lstate = 1
  · rw [show s.toLine 1 = s from if_pos (by simp [h])]
    exact .refl s
  · exact (listenShown_writes s).trans ((toLine_listen_writes h).mono fun _ => .inl)

theorem relays_sameLine (s : State) : SameLine s s.relays := ⟨rfl, rfl, rfl, rfl⟩

theorem listenBegun_sameLine (s : State) (old : Nat) : SameLine s (s.listenBegun old) := ⟨rfl, rfl, rfl, rfl⟩

theorem listenShown_sameLine (s : State) : SameLine s s.listenShown := ⟨rfl, rfl, rfl, rfl⟩

theorem followChange_sameLine (s : State) (was : Bool) : SameLine s (s.followChange was) :=
  ((SameLine.refl s).followReset true).ite (((SameLine.refl s).followReset false).ite (.refl s))

theorem SameLine.trans {a b c : State} (h : SameLine a b) (k : SameLine b c) : SameLine a c :=
  h.step k.dir k.sched k.salt k.hold

theorem toListen_sameLine (s : State) : SameLine s (s.toLine 1) := by
  by_cases h : s.lstate = 1
  · rw [show s.toLine 1 = s from if_pos (by simp [h])]
    exact .refl s
  · rw [toLine_listen h]
    have hbegun := ((listenShown_sameLine s).trans (followChange_sameLine _ s.following)).trans (listenBegun_sameLine _ s.lstate)
    exact ((hbegun.weirFollow 0).weirFollow 1).trans (relays_sameLine _)

/-! The yield -/

/-- A yield is recorded, and its directory and schedule are dropped. -/
def yieldNoted (s : State) : State :=
  ((s.record 0x3406 4 1 3 (s.get Reg.LSTART_STAT_TURNS)).modInaug fun i => { i with
    dir := none, newDir := none, lineView := none, joined := false, yielding := false, yieldNext := false, last := default, seen := default,
    retry := false, asking := none, stopReq := false, stopReqNext := false, h := [none, none], wave := [] }).modSynth fun y => { y with
    sched := none, newSched := none, running := false }

/-- The work of the line ends. -/
def yieldWorked (s : State) : State := s.freshPool.stopLayout.delayLimits.showHops.stopWork.flushLine.cancelRoll

/-- What the node shows of the line it has left, up to its phase. -/
def yieldPlace (s : State) : State :=
  ((((((s.set Reg.SYN_STAT_VALID [] 0).modKeys fun k => { k with salt := none }).set Reg.INAUG_POS_POSITION [] 0).set Reg.INAUG_POS_N [] 0).set
    Reg.INAUG_POS_CAR_NO [] 0).set Reg.INAUG_POS_CONSIST_NO [] 0).toPhase 5

/-- The root and the digest of the line go, and the cold start is held. -/
def yieldHeld (s : State) : State :=
  (((List.range 4).foldl (fun s k => s.set Reg.INAUG_DIGEST_k_BYTES [k] 0)
    ((s.set Reg.INAUG_ROOT_LO_ROOT [] 0).set Reg.INAUG_ROOT_HI_ROOT [] 0)).modStart fun x => { x with hold := 64 }).set Reg.LSTART_STAT_HOLD [] 1

theorem doYield_eq (s : State) : s.doYield = ((s.yieldNoted.yieldWorked.yieldPlace.yieldHeld).toLine 1).newTables := rfl

theorem yieldWorked_sameLine (s : State) : SameLine s s.yieldWorked :=
  ((SameLine.refl s).freshPool.stopLayout.delayLimits.showHops.stopWork.flushLine).cancelRoll

theorem yieldWorked_sorted {s : State} (hs : Sparse.sorted s.regs = true) : Sparse.sorted s.yieldWorked.regs = true :=
  (cancelRoll_keeps (flushLine_keeps (stopWork_keeps (showHops_keeps (delayLimits_keeps (stopLayout_keeps (freshPool_keeps (.refl s)))))))).regs hs

/-- The fields that a change of phase writes. -/
def phaseKeys : List Nat := [Reg.INAUG_STAT_PHASE.key [], Reg.INAUG_STAT_TURNS.key [], Reg.SYN_STAT_TABLES_WAIT.key []]

theorem toPhase_writes (s : State) (p : Nat) : WritesAt (· ∈ phaseKeys) s (s.toPhase p) :=
  ((WritesAt.refl s |>.set Reg.INAUG_STAT_PHASE [] p (by decide)).set Reg.INAUG_STAT_TURNS [] 0 (by decide)).flag
    Reg.SYN_STAT_TABLES_WAIT [] _ (by decide)

theorem toPhase_phase {s : State} (hs : Sparse.sorted s.regs = true) (p : Nat) : (s.toPhase p).phase = p % 2 ^ Reg.INAUG_STAT_PHASE.width :=
  (get_set_other _ _ _ _ _ _ (by decide)).trans ((get_set_other _ _ _ _ _ _ (by decide)).trans (get_set_same s _ _ p hs))

theorem toPhase_sameLine (s : State) (p : Nat) : SameLine s (s.toPhase p) := ⟨rfl, rfl, rfl, rfl⟩

/-- The places of the root, the digest and the hold. -/
def heldKeys : List Nat :=
  [Reg.INAUG_ROOT_LO_ROOT.key [], Reg.INAUG_ROOT_HI_ROOT.key [], Reg.LSTART_STAT_HOLD.key []] ++
    (List.range 4).map fun k => Reg.INAUG_DIGEST_k_BYTES.key [k]

theorem yieldHeld_writes (s : State) : WritesAt (· ∈ heldKeys) s s.yieldHeld := by
  have hroot := ((WritesAt.refl s).set Reg.INAUG_ROOT_LO_ROOT [] 0 (show _ ∈ heldKeys by decide)).set Reg.INAUG_ROOT_HI_ROOT [] 0 (by decide)
  have hdigest := hroot.foldl (List.range 4) (fun s k => s.set Reg.INAUG_DIGEST_k_BYTES [k] 0) fun k hk u =>
    (WritesAt.refl u).set _ _ _ (List.mem_append_right _ (List.mem_map_of_mem hk))
  exact (hdigest.other (c := State.modStart _ fun x => { x with hold := 64 }) rfl).set Reg.LSTART_STAT_HOLD [] 1 (by decide)

theorem yieldHeld_hold {s : State} (hs : Sparse.sorted s.regs = true) : s.yieldHeld.get Reg.LSTART_STAT_HOLD = 1 := by
  have hdigest : WritesAt (fun _ => True) s ((List.range 4).foldl (fun s k => s.set Reg.INAUG_DIGEST_k_BYTES [k] 0)
      ((s.set Reg.INAUG_ROOT_LO_ROOT [] 0).set Reg.INAUG_ROOT_HI_ROOT [] 0)) :=
    WritesAt.foldl (((WritesAt.refl s).set _ _ _ trivial).set _ _ _ trivial) _ _ fun _ _ u => (WritesAt.refl u).set _ _ _ trivial
  exact get_set_same _ _ _ 1 (hdigest.sorted hs)

theorem yieldPlace_sorted {s : State} (hs : Sparse.sorted s.regs = true) : Sparse.sorted s.yieldPlace.regs = true :=
  (toPhase_writes _ 5).sorted (sorted_set _ _ _ _ (sorted_set _ _ _ _ (sorted_set _ _ _ _ (sorted_set _ _ _ _
    (sorted_set s Reg.SYN_STAT_VALID [] 0 hs)))))

theorem yieldPlace_get {s : State} (hs : Sparse.sorted s.regs = true) :
    s.yieldPlace.get Reg.INAUG_POS_POSITION = 0 ∧ s.yieldPlace.phase = 5 := by
  have h1 := sorted_set s Reg.SYN_STAT_VALID [] 0 hs
  have h2 := sorted_set ((s.set Reg.SYN_STAT_VALID [] 0).modKeys fun k => { k with salt := none }) Reg.INAUG_POS_POSITION [] 0 h1
  refine ⟨?_, toPhase_phase (sorted_set _ _ _ _ (sorted_set _ _ _ _ (sorted_set _ _ _ _ h2))) 5⟩
  exact ((toPhase_writes _ 5).get Reg.INAUG_POS_POSITION [] (by decide)).trans ((get_set_other _ _ _ _ _ _ (by decide)).trans
    ((get_set_other _ _ _ _ _ _ (by decide)).trans ((get_set_other _ _ _ _ _ _ (by decide)).trans (get_set_same _ _ _ 0 h1))))

theorem yieldPlace_line (s : State) : s.yieldPlace.inaug.dir = s.inaug.dir ∧ s.yieldPlace.synth.sched = s.synth.sched ∧
    s.yieldPlace.keys.salt = none := ⟨rfl, rfl, rfl⟩

theorem yieldHeld_line (s : State) : s.yieldHeld.inaug.dir = s.inaug.dir ∧ s.yieldHeld.synth.sched = s.synth.sched ∧
    s.yieldHeld.keys.salt = s.keys.salt ∧ s.yieldHeld.start.hold = 64 := ⟨rfl, rfl, rfl, rfl⟩

theorem yieldNoted_line (s : State) : s.yieldNoted.inaug.dir = none ∧ s.yieldNoted.synth.sched = none := ⟨rfl, rfl⟩

theorem yieldNoted_sorted {s : State} (hs : Sparse.sorted s.regs = true) : Sparse.sorted s.yieldNoted.regs = true :=
  (record_keeps (.refl s) 0x3406 4 1 3 (s.get Reg.LSTART_STAT_TURNS)).regs hs

theorem newTables_regs (s : State) : s.newTables.regs = s.regs := rfl

theorem newTables_sameLine (s : State) : SameLine s s.newTables := ⟨rfl, rfl, rfl, rfl⟩

/-- What a node shows once it has left the line: LISTEN, phase 5, no position, and the hold. -/
theorem doYield_shows {s : State} (hs : Sparse.sorted s.regs = true) : s.doYield.lstate = 1 ∧ s.doYield.phase = 5 ∧
    s.doYield.get Reg.LSTART_STAT_HOLD = 1 ∧ s.doYield.get Reg.INAUG_POS_POSITION = 0 := by
  have hworked := yieldWorked_sorted (yieldNoted_sorted hs)
  have hplace := yieldPlace_sorted hworked
  obtain ⟨hpos, hphase⟩ := yieldPlace_get hworked
  have hheld := yieldHeld_writes s.yieldNoted.yieldWorked.yieldPlace
  have hlisten := toListen_writes s.yieldNoted.yieldWorked.yieldPlace.yieldHeld
  have hget (f : Fld) (ix : List Nat) : s.doYield.get f ix = (s.yieldNoted.yieldWorked.yieldPlace.yieldHeld.toLine 1).get f ix :=
    get_of_regs (newTables_regs _) f ix
  refine ⟨(hget _ _).trans (toListen_state (hheld.sorted hplace)), ?_, ?_, ?_⟩
  · exact (hget _ _).trans ((hlisten.get _ _ (by unfold ToListenPlace ListenPlace; decide)).trans ((hheld.get _ _ (by decide)).trans hphase))
  · exact (hget _ _).trans ((hlisten.get _ _ (by unfold ToListenPlace ListenPlace; decide)).trans (yieldHeld_hold hplace))
  · exact (hget _ _).trans ((hlisten.get _ _ (by unfold ToListenPlace ListenPlace; decide)).trans ((hheld.get _ _ (by decide)).trans hpos))

/-- What a node holds once it has left the line: no directory, no schedule, no salt, and 64 turns. -/
theorem doYield_holds (s : State) : s.doYield.inaug.dir = none ∧ s.doYield.synth.sched = none ∧ s.doYield.keys.salt = none ∧
    s.doYield.start.hold = 64 := by
  rw [doYield_eq]
  obtain ⟨hdir, hsched⟩ := yieldNoted_line s
  have hworked := yieldWorked_sameLine s.yieldNoted
  obtain ⟨hpdir, hpsched, hpsalt⟩ := yieldPlace_line s.yieldNoted.yieldWorked
  obtain ⟨hhdir, hhsched, hhsalt, hhhold⟩ := yieldHeld_line s.yieldNoted.yieldWorked.yieldPlace
  have hlast := (toListen_sameLine s.yieldNoted.yieldWorked.yieldPlace.yieldHeld).trans (newTables_sameLine _)
  exact ⟨hlast.dir.trans (hhdir.trans (hpdir.trans (hworked.dir.trans hdir))),
    hlast.sched.trans (hhsched.trans (hpsched.trans (hworked.sched.trans hsched))),
    hlast.salt.trans (hhsalt.trans hpsalt), hlast.hold.trans hhhold⟩

end State

/-- Settles O38: the work of a yield keeps what is dropped, and the start of LISTEN keeps what is shown. -/
theorem yieldLeavesTheLine : Obligations.YieldLeavesTheLine := by
  intro s hc ha hyield hfollow hcpu
  have hexec : exec .yield s = .next s.doYield := next_if_pos (by rw [ha, hyield, hfollow, hcpu]; rfl)
  obtain ⟨hstate, hphase, hhold, hpos⟩ := State.doYield_shows hc.regs
  obtain ⟨hdir, hsched, hsalt, hturns⟩ := State.doYield_holds s
  have hon : s.doYield.on Reg.LSTART_STAT_HOLD = true := by
    unfold State.on
    rw [hhold]
    rfl
  exact ⟨s.doYield, hexec, hstate, hphase, hturns, hon, hpos, hdir, hsched, hsalt⟩

end Sys2Proof.Machine

/-!
An idle step of a node whose gPTP relay asks for the delay of a link (R207, log 99).
-/

namespace Sys2Proof.Machine

/-- The state right after reset with consist port 0 up and gPTP on it: the relay's first request is due. -/
def gptpDue : State := (State.reset.set Reg.CPn_STAT_STATE [0] 2).set Reg.CPn_CTL_GPTP [0] 1

theorem gptpDue_sends : gptpDue.idle.out.length = 1 := by decide +kernel

/-- Refutes O2: with nothing waiting at the banks, in the consist switch or with the security engine, an idle step still puts out a frame
when the gPTP relay's request is due, which the statement's list of what changes leaves out. -/
theorem not_idleStepKeepsToTheTurn : ¬ Obligations.IdleStepKeepsToTheTurn := by
  intro h
  obtain ⟨t, hstep, -, -, hrest⟩ := h gptpDue rfl
  have ht : t = gptpDue.idle := (Host.Outcome.next.inj hstep).symm
  obtain ⟨hframe, -⟩ := hrest (by decide +kernel) rfl rfl rfl rfl rfl
  have hout := congrArg State.out hframe
  change t.out = gptpDue.out at hout
  have hsends := gptpDue_sends
  rw [← ht, hout] at hsends
  exact absurd hsends (by decide)

end Sys2Proof.Machine

/-!
The tick and the NIT (R79, R84), and frames of ROM recovery (R617).
-/

namespace Sys2Proof.Machine

namespace State

/-! Time passes -/

theorem ppsSettle_regs (s : State) : s.ppsSettle.regs = s.regs := by
  unfold ppsSettle
  split <;> rfl

theorem ppsSettle_tally (s : State) : s.ppsSettle.tally = s.tally := by
  unfold ppsSettle
  split <;> rfl

theorem pass_regs (s : State) (d : Nat) : (s.pass d).regs = s.regs := ppsSettle_regs _

theorem pass_tally (s : State) (d : Nat) : (s.pass d).tally = s.tally := ppsSettle_tally _

end State

/-- Settles O29: each command runs its parts in order once its guard holds. -/
theorem tickCommands : Obligations.TickCommands := by
  intro s hc
  refine ⟨fun loads armed crc par ha ht => next_if_pos (by rw [ha, ht]; rfl), fun loads armed crc par h => next_if_neg ?_,
    ⟨rfl, rfl, rfl, ?_, s.pass_regs _, s.pass_tally _⟩,
    fun ha hf hstage => next_if_pos ?_, fun ha ht hn => next_if_pos ?_⟩
  · obtain h | h := h <;> simp [h]
  · exact Nat.lt_of_lt_of_le Nat.one_pos (Nat.le_max_left ..)
  · rw [ha, hf, hstage]
    rfl
  · rw [ha, ht, hn]
    rfl

/-- Settles O19: the frame check decides between acknowledgement and refusal. -/
theorem recoveryFrames : Obligations.RecoveryFrames := by
  intro s l d w ha hstage
  have hguard : (s.alive && s.get Reg.BOOT_STAT_STAGE == 0xE) = true := by
    rw [ha, hstage]
    rfl
  refine ⟨fun hl => ?_, fun hl => (next_if_pos hguard).trans ?_⟩
  · refine ⟨(s.emit (.consoleByte 0x06)).modBoot fun b => { b with recovery := b.recovery ++ d }, (next_if_pos hguard).trans ?_, rfl, rfl, rfl⟩
    rw [hl]
  · rw [hl]
    rfl

end Sys2Proof.Machine

/-!
Power-on reset and the pins that follow it (R45, R51, R57, R62, R77, R100).
-/

namespace Sys2Proof.Machine

namespace State

theorem startWipe_frame (s : State) (cause : Nat) : { s.startWipe cause with regs := s.regs, sec := s.sec } = s := by
  unfold startWipe
  split <;> rfl

theorem startWipe_unpowered (s : State) (cause : Nat) : (s.startWipe cause).sec.unpowered = s.sec.unpowered := by
  unfold startWipe
  split <;> rfl

/-- Losing the always-on logic takes registers, the noted tamper events and the mark of the mill brake. -/
theorem loseAlwaysOn_eq (s : State) : ∃ r, s.loseAlwaysOn =
    { s with regs := r, sec := { s.sec with unpowered := [] }, dbg := { s.dbg with frozen := none } } := by
  unfold loseAlwaysOn
  extract_lets held wake s1 s2
  have h1 : RegsOnly s s1 := .foldl _ (fun _ _ _ h => h.set ..) _ (.refl s)
  have h2 : RegsOnly s s2 := .foldl _ (fun _ _ _ h => .foldl _ (fun _ _ _ h => h.set ..) _ h) _ h1
  clear_value s2
  obtain ⟨r, rfl⟩ := h2
  exact ⟨r, rfl⟩

/-- The supply is there: what the always-on logic held stays or is lost. -/
def supplied (s : State) (aoLost : Bool) : State :=
  let s := s.modPower fun p => { p with on := true, aoLost := aoLost }
  let s := s.modPins fun p => { p with resetOutLow := true, clkreqLow := [true, true], canStb := List.replicate 8 true }
  if aoLost then s.loseAlwaysOn else s

/-- The straps, the clocks and the supply show. -/
def suppliedShown (s : State) (pair chanB pref refclk aoLost vback : Bool) : State :=
  let s := s.latchStraps pair chanB pref
  let s := (s.flag Reg.CLK_STAT_REF_SRC [] refclk).set Reg.CLK_STAT_REF_OK [] 1
  let s := ((s.set Reg.CLK_STAT_XT32_OK [] 1).set Reg.CLK_STAT_GX_OK [] 1).set Reg.CLK_STAT_LOCK_GUARD [] 1
  let s := ((s.flag Reg.PWR_STAT_AO_COLD [] aoLost).flag Reg.PWR_STAT_VBACK_OK [] vback).set Reg.RST_CAUSE_POR [] 1
  s.set Reg.PWR_STAT_VOUT_OK [] 1

/-- Time continues, and nothing of the line is known. -/
def continued (s : State) : State :=
  (s.continueTime.modInaug fun i => { i with icountMax := 0 }).modClock fun c => { c with gxBad := false }

/-- The secure region is wiped, and the supply's events are recorded. -/
def powerRecorded (s : State) (aoLost : Bool) : State :=
  let s := ((s.set Reg.MEM_SEC_STAT_FAILED [] 0).modSec fun x => { x with locked := false }).startWipe 0
  let s := if aoLost then s.recordT 0x4004 4 powerSrc 0 0 else s
  match s.power.lostInSlack with
  | some (o, done, n) => (s.modPower fun p => { p with lostInSlack := none }).recordT 0x4002 4 powerSrc (o % 2 ^ 32)
      (o / 2 ^ 32 + 2 ^ 8 * b2n done + 2 ^ 16 * min n 65535)
  | none => s

theorem powerOn_eq (s : State) (pair chanB pref refclk aoLost vback : Bool) : s.powerOn pair chanB pref refclk aoLost vback =
    ((((s.supplied aoLost).suppliedShown pair chanB pref refclk aoLost vback).continued).powerRecorded aoLost).unpoweredEvents := rfl

theorem supplied_facts (s : State) (aoLost : Bool) (h : s.sec.unpowered = []) : (s.supplied aoLost).power.on = true ∧
    (s.supplied aoLost).tally = s.tally ∧ (s.supplied aoLost).sec.unpowered = [] := by
  cases aoLost
  · exact ⟨rfl, rfl, h⟩
  · obtain ⟨r, hr⟩ := loseAlwaysOn_eq ((s.modPower fun p => { p with on := true, aoLost := true }).modPins fun p =>
      { p with resetOutLow := true, clkreqLow := [true, true], canStb := List.replicate 8 true })
    rw [show s.supplied true = _ from hr]
    exact ⟨rfl, rfl, rfl⟩

theorem suppliedShown_eq (s : State) (pair chanB pref refclk aoLost vback : Bool) :
    ∃ r, s.suppliedShown pair chanB pref refclk aoLost vback =
      { s with regs := r, pins := { s.pins with strapPair := pair, strapChan := chanB, strapPref := pref } } := by
  have hstraps : RegsOnly (s.modPins fun p => { p with strapPair := pair, strapChan := chanB, strapPref := pref })
      (s.latchStraps pair chanB pref) :=
    (((((RegsOnly.refl _).flag ..).flag ..).flag ..).flag ..).flag .. |>.set ..
  have hclocks := ((((hstraps.flag Reg.CLK_STAT_REF_SRC [] refclk).set Reg.CLK_STAT_REF_OK [] 1).set Reg.CLK_STAT_XT32_OK [] 1).set
    Reg.CLK_STAT_GX_OK [] 1).set Reg.CLK_STAT_LOCK_GUARD [] 1
  exact (((hclocks.flag Reg.PWR_STAT_AO_COLD [] aoLost).flag Reg.PWR_STAT_VBACK_OK [] vback).set Reg.RST_CAUSE_POR [] 1).set
    Reg.PWR_STAT_VOUT_OK [] 1

theorem continued_facts (s : State) : s.continued.power = s.power ∧ s.continued.sec = s.sec ∧ s.continued.pins = s.pins ∧
    s.continued.clock.pcycle = min ((s.tally.stored.map fun x => x.2).getD 0 + 1) 0xFFFFFF := ⟨rfl, rfl, rfl, rfl⟩

theorem powerRecorded_facts (s : State) (aoLost : Bool) : (s.powerRecorded aoLost).power.on = s.power.on ∧
    (s.powerRecorded aoLost).sec.unpowered = s.sec.unpowered ∧ (s.powerRecorded aoLost).pins = s.pins ∧
    (s.powerRecorded aoLost).clock.pcycle = s.clock.pcycle := by
  unfold powerRecorded
  extract_lets wiped recorded
  have hwiped := startWipe_frame ((s.set Reg.MEM_SEC_STAT_FAILED [] 0).modSec fun x => { x with locked := false }) 0
  have hon : wiped.power.on = s.power.on := congrArg (fun u => u.power.on) hwiped
  have hpins : wiped.pins = s.pins := (congrArg State.pins hwiped :)
  have hclock : wiped.clock.pcycle = s.clock.pcycle := congrArg (fun u => u.clock.pcycle) hwiped
  have hsec : wiped.sec.unpowered = s.sec.unpowered := startWipe_unpowered _ 0
  clear_value wiped
  have hrecorded : recorded.power = wiped.power ∧ recorded.sec = wiped.sec ∧ recorded.pins = wiped.pins ∧
      recorded.clock.pcycle = wiped.clock.pcycle := by
    unfold recorded
    split
    · exact ⟨recordT_power .., recordT_sec .., recordT_pins .., by simp⟩
    · exact ⟨rfl, rfl, rfl, rfl⟩
  clear_value recorded
  obtain ⟨hrpower, hrsec, hrpins, hrclock⟩ := hrecorded
  rw [← hon, ← hsec, ← hpins, ← hclock, ← hrpower, ← hrsec, ← hrpins, ← hrclock]
  split
  · refine ⟨?_, ?_, recordT_pins .., by simp⟩
    · rw [recordT_power]
      rfl
    · rw [recordT_sec]
      rfl
  · exact ⟨rfl, rfl, rfl, rfl⟩

/-- Without noted tamper events, their handling at power-on changes nothing. -/
theorem unpoweredEvents_of_none {s : State} (h : s.sec.unpowered = []) : s.unpoweredEvents = s.modSec fun x => { x with unpowered := [] } := by
  unfold unpoweredEvents
  rw [h]
  rfl

theorem powerOn_facts {s : State} (h : s.sec.unpowered = []) (pair chanB pref refclk aoLost vback : Bool) :
    let t := s.powerOn pair chanB pref refclk aoLost vback
    t.power.on = true ∧ t.pins.strapPair = pair ∧ t.pins.strapChan = chanB ∧ t.pins.strapPref = pref ∧
      t.clock.pcycle = min ((s.tally.stored.map fun x => x.2).getD 0 + 1) 0xFFFFFF := by
  obtain ⟨hon, htally, hsec⟩ := supplied_facts s aoLost h
  obtain ⟨r, hshown⟩ := suppliedShown_eq (s.supplied aoLost) pair chanB pref refclk aoLost vback
  obtain ⟨hcpower, hcsec, hcpins, hcclock⟩ := continued_facts ((s.supplied aoLost).suppliedShown pair chanB pref refclk aoLost vback)
  obtain ⟨hrpower, hrsec, hrpins, hrclock⟩ := powerRecorded_facts
    ((s.supplied aoLost).suppliedShown pair chanB pref refclk aoLost vback).continued aoLost
  have hnone := unpoweredEvents_of_none ((hrsec.trans (congrArg Sec.unpowered hcsec)).trans
    ((congrArg (fun u => u.sec.unpowered) hshown).trans hsec))
  rw [powerOn_eq, hnone]
  refine ⟨(hrpower.trans (congrArg Power.on hcpower)).trans ((congrArg (fun u => u.power.on) hshown).trans hon), ?_, ?_, ?_, ?_⟩
  · exact (congrArg Pins.strapPair (hrpins.trans hcpins)).trans (congrArg (fun u => u.pins.strapPair) hshown)
  · exact (congrArg Pins.strapChan (hrpins.trans hcpins)).trans (congrArg (fun u => u.pins.strapChan) hshown)
  · exact (congrArg Pins.strapPref (hrpins.trans hcpins)).trans (congrArg (fun u => u.pins.strapPref) hshown)
  · refine (hrclock.trans hcclock).trans ?_
    rw [hshown]
    exact congrArg (fun u : Tally => min ((u.stored.map fun x => x.2).getD 0 + 1) 0xFFFFFF) htally

theorem relays_of_no_keepalive {s : State} (h : s.pins.keepalive = false) : s.relays.pins.bypassLow = false := by
  show s.relayCond = false
  unfold relayCond
  rw [h, Bool.and_false]

end State

/-- Settles O18: the registers that a power-on reset shows do not reach the parts named here, and the pins follow by their definitions. -/
theorem powerOnAndResetPins : Obligations.PowerOnAndResetPins := by
  intro s
  refine ⟨fun pair chanB pref refclk aoLost vback hoff hevents => ⟨⟨_, next_if_pos (by rw [hoff]; rfl), State.powerOn_facts hevents ..⟩,
      next_if_neg (by simp)⟩,
    fun hon hlow hsince => next_if_pos (by rw [hon, hlow, hsince]; rfl),
    fun ha => ⟨_, next_if_pos ha, rfl, State.relays_of_no_keepalive rfl, rfl⟩⟩

end Sys2Proof.Machine

/-!
Power domains that come up (R64), and the supervision of the clocks (R77, R81, R309).
-/

namespace Sys2Proof.Machine

/-! Bits -/

theorem bit_eq_testBit (x i : Nat) : bit x i = x.testBit i := by
  rw [Nat.testBit_eq_decide_div_mod_eq]
  rfl

theorem bit_xor_and_self (x i : Nat) : bit (x ^^^ (x &&& 2 ^ i)) i = false := by
  rw [bit_eq_testBit, Nat.testBit_xor, Nat.testBit_and, Nat.testBit_two_pow_self, Bool.and_true, Bool.xor_self]

theorem bit_or_self {x i w : Nat} (h : i < w) : bit ((x ||| 2 ^ i) % 2 ^ w) i = true := by
  rw [bit_eq_testBit, Nat.testBit_mod_two_pow, Nat.testBit_or, Nat.testBit_two_pow_self, Bool.or_true, decide_eq_true h, Bool.and_true]

namespace State

/-! PD9 comes up -/

/-- PD9 has no registers of its own in the configuration, and no ports. -/
theorem domainUp_9 (s : State) : s.domainUp 9 = (s.setBits Reg.PWR_STAT_PD_ON [] (2 ^ 9)).modPower fun p =>
    { p with rising := p.rising ^^^ (p.rising &&& 2 ^ 9) } := by
  unfold domainUp
  cases h : s.conf.active with
  | none => simp [modPower, setBits, set, h]
  | some c => simp [modPower, setBits, set, h]

theorem domainUp_9_on {s : State} (hs : Sparse.sorted s.regs = true) : (s.domainUp 9).domainOn 9 = true := by
  rw [domainUp_9]
  have hget := get_set_same s Reg.PWR_STAT_PD_ON [] (s.get Reg.PWR_STAT_PD_ON ||| 2 ^ 9) hs
  exact (congrArg (bit · 9) hget).trans (bit_or_self (by decide))

/-! A weir fails -/

/-- The fields of a weir's state, and the places of records. -/
def WeirPlace (k : Nat) : Prop :=
  k ∈ [Reg.WEIR_STAT_STATE.key [0], Reg.WEIR_STAT_STATE.key [1], Reg.WEIR_STAT_FAIL_WHY.key [0], Reg.WEIR_STAT_FAIL_WHY.key [1]] ∨
    recordKey k = true

theorem weirKeys : ∀ w : Fin 2, WeirPlace (Reg.WEIR_STAT_STATE.key [w.val]) ∧ WeirPlace (Reg.WEIR_STAT_FAIL_WHY.key [w.val]) ∧
    Reg.WEIR_STAT_STATE.key [w.val] ≠ Reg.WEIR_STAT_FAIL_WHY.key [w.val] ∧
    Reg.WEIR_STAT_STATE.key [0] ≠ Reg.WEIR_STAT_FAIL_WHY.key [w.val] ∧ recordKey (Reg.WEIR_STAT_STATE.key [w.val]) = false := by
  unfold WeirPlace
  decide

theorem setWst_writes {a b : State} (h : WritesAt WeirPlace a b) (w : Fin 2) (st : Nat) : WritesAt WeirPlace a (b.setWst w.val st) := by
  unfold setWst
  extract_lets old shown moved
  have hmoved : WritesAt WeirPlace a moved := (h.set _ _ _ (weirKeys w).1).other rfl
  split
  · exact hmoved.recordS (fun k hk => .inr hk) ..
  · exact hmoved

theorem setWst_wst {s : State} (hs : Sparse.sorted s.regs = true) (w : Fin 2) (st : Nat) :
    (s.setWst w.val st).wst w.val = st % 2 ^ Reg.WEIR_STAT_STATE.width := by
  obtain ⟨-, -, -, -, hkey⟩ := weirKeys w
  have hset := get_set_same s Reg.WEIR_STAT_STATE [w.val] st hs
  unfold setWst
  extract_lets old shown moved
  have hmoved : moved.wst w.val = st % 2 ^ Reg.WEIR_STAT_STATE.width := hset
  split
  · exact (recordS_get _ _ _ _ _ _ _ _ hkey).trans hmoved
  · exact hmoved

theorem weirFail_writes {a b : State} (h : WritesAt WeirPlace a b) (w : Fin 2) (why : Nat) : WritesAt WeirPlace a (b.weirFail w.val why) := by
  unfold weirFail
  split
  · exact h
  · exact (((setWst_writes h w 5).set _ _ _ (weirKeys w).2.1).recordS (fun k hk => .inr hk) ..).other rfl

theorem weirFail_wst {s : State} (hs : Sparse.sorted s.regs = true) (w : Fin 2) (why : Nat) : (s.weirFail w.val why).wst w.val = 5 := by
  obtain ⟨-, -, hkey, -, hrec⟩ := weirKeys w
  unfold weirFail
  split
  next h => exact beq_iff_eq.mp h
  next =>
    refine (recordS_get ((s.setWst w.val 5).set Reg.WEIR_STAT_FAIL_WHY [w.val] why) 0x3704 5 4 w.val why _ _ hrec).trans ?_
    exact (get_set_other _ _ _ _ _ _ hkey).trans (setWst_wst hs w 5)

theorem weirFail_wst_0 {s : State} (why : Nat) (h : s.wst 0 = 5) : (s.weirFail 1 why).wst 0 = 5 := by
  have hset : (s.setWst 1 5).wst 0 = s.wst 0 := by
    have hstate : (s.set Reg.WEIR_STAT_STATE [1] 5).get Reg.WEIR_STAT_STATE [0] = s.wst 0 := get_set_other _ _ _ _ _ _ (by decide)
    unfold setWst
    extract_lets old shown moved
    have hmoved : moved.wst 0 = s.wst 0 := hstate
    split
    · exact (recordS_get _ _ _ _ _ _ _ _ (by decide)).trans hmoved
    · exact hmoved
  unfold weirFail
  split
  · exact h
  · refine (recordS_get ((s.setWst 1 5).set Reg.WEIR_STAT_FAIL_WHY [1] why) 0x3704 5 4 1 why _ _ (by decide)).trans ?_
    exact (get_set_other _ _ _ _ _ _ (by decide)).trans (hset.trans h)

theorem weirsFail_writes (s : State) (why : Nat) : WritesAt WeirPlace s (s.weirsFail why) :=
  (weirFail_writes (weirFail_writes (.refl s) 0 why) 1 why).other rfl

theorem weirsFail_wst {s : State} (hs : Sparse.sorted s.regs = true) (why : Nat) :
    (s.weirsFail why).wst 0 = 5 ∧ (s.weirsFail why).wst 1 = 5 :=
  ⟨weirFail_wst_0 why (weirFail_wst hs 0 why), weirFail_wst ((weirFail_writes (.refl s) 0 why).sorted hs) 1 why⟩

theorem setWst_gxBad (s : State) (w st : Nat) : (s.setWst w st).clock.gxBad = s.clock.gxBad := by
  unfold setWst
  extract_lets old shown moved
  have hmoved : moved.clock.gxBad = s.clock.gxBad := rfl
  split
  · rw [recordS_clock_gxBad, hmoved]
  · exact hmoved

theorem weirFail_gxBad (s : State) (w why : Nat) : (s.weirFail w why).clock.gxBad = s.clock.gxBad := by
  unfold weirFail
  split
  · rfl
  · exact (recordS_clock_gxBad ..).trans (setWst_gxBad s w 5)

theorem weirsFail_gxBad (s : State) (why : Nat) : (s.weirsFail why).clock.gxBad = s.clock.gxBad :=
  (weirFail_gxBad _ 1 why).trans (weirFail_gxBad s 0 why)

/-! Operating time -/

theorem memAccess_optime (s : State) (m a : Nat) : (s.memAccess m a).clock.optime = s.clock.optime := by
  unfold memAccess memWait
  split
  · exact recordS_clock_optime ..
  · split <;> rfl

theorem sluiceGain_optime (s : State) (k : Nat) : (s.sluiceGain k).clock.optime = s.clock.optime := by
  unfold sluiceGain
  extract_lets cap tok b put acc given n
  have hgiven : given.clock.optime = s.clock.optime := rfl
  clear_value given
  split
  · split <;> rfl
  · split
    · rfl
    · split
      · exact hgiven
      · exact (enqueue_clock_optime ..).trans hgiven

/-- What every step of a fold keeps, the fold keeps. -/
theorem foldl_same {α β : Type} (p : State → β) (l : List α) (f : State → α → State) (hf : ∀ s x, p (f s x) = p s) (s : State) :
    p (l.foldl f s) = p s := by
  induction l generalizing s with
  | nil => rfl
  | cons x l ih => exact (ih (f s x)).trans (hf s x)

theorem sluiceTick_optime (s : State) : s.sluiceTick.clock.optime = s.clock.optime := by
  have hstep (s : State) (k : Nat) : (if s.get Reg.SLUk_B_CAP [k] == 0 then s else s.sluiceGain k).clock.optime = s.clock.optime := by
    split
    · rfl
    · exact sluiceGain_optime s k
  unfold sluiceTick
  generalize List.range 256 = l
  exact foldl_same (fun s => s.clock.optime) l _ hstep s

theorem sense_optime (s : State) (m : Sensed) : (s.sense m).clock.optime = s.clock.optime := by
  unfold sense
  refine (foldl_same (fun s => s.clock.optime) m.requests _ (fun s x => memAccess_optime s _ _) _).trans ?_
  split <;> rfl

end State

/-- Settles O22: a domain that has come up changes registers and the supply only. -/
theorem powerDomains : Obligations.PowerDomains := by
  intro s hc ha
  refine ⟨fun off hd => next_if_pos (by rw [ha, hd]; rfl),
    fun n hn hrise => ⟨s.domainUp n.val, next_if_pos (by rw [ha, hrise]; rfl), ?_, ?_, ?_⟩,
    fun n hrise => next_if_pos (by rw [ha, hrise]; rfl)⟩
  · rw [hn]
    exact State.domainUp_9_on hc.regs
  · rw [hn, State.domainUp_9]
    exact bit_xor_and_self _ _
  · rw [hn, State.domainUp_9]
    rfl

/-- Settles O23: both weirs fail on a bad oscillator, and the fields shown are read back after the record. -/
theorem clockSupervision : Obligations.ClockSupervision := by
  intro s hc ha
  refine ⟨?_, fun d hd => ?_, ?_, fun m => ?_⟩
  · have hlost := State.sorted_set _ Reg.CLK_STAT_LOCK_GUARD [] 0 (State.sorted_set s Reg.CLK_STAT_GX_OK [] 0 hc.regs)
    obtain ⟨h0, h1⟩ := State.weirsFail_wst hlost 1
    refine ⟨_, next_if_pos ha, h0, h1, ?_⟩
    refine ((State.weirsFail_writes _ 1).get Reg.CLK_STAT_GX_OK [] (by unfold State.WeirPlace; decide)).trans ?_
    exact (State.get_set_other _ _ _ _ _ _ (by decide)).trans (State.get_set_same s _ _ 0 hc.regs)
  · have hguard : (s.alive && (d > 3000 || d < -3000)) = true := by
      rw [ha, Bool.true_and, Bool.or_eq_true, decide_eq_true_eq, decide_eq_true_eq]
      exact hd
    have hdiff : Sparse.sorted (s.setInt Reg.CLK_GX_PPM_DIFF [] d).regs = true := State.sorted_set s _ _ _ hc.regs
    obtain ⟨h0, h1⟩ := State.weirsFail_wst (s := (s.setInt Reg.CLK_GX_PPM_DIFF [] d).modClock fun c => { c with gxBad := true }) hdiff 4
    exact ⟨_, next_if_pos hguard, h0, h1, State.weirsFail_gxBad _ 4⟩
  · have hok : Sparse.sorted (s.set Reg.CLK_STAT_XT32_LOST [] 1).regs = true := State.sorted_set s _ _ _ hc.regs
    refine ⟨_, next_if_pos ha, ?_, ?_, ?_⟩
    · exact (State.recordT_get _ _ _ _ _ _ _ _ (by decide)).trans ((State.get_set_other _ _ _ _ _ _ (by decide)).trans
        (State.get_set_same s _ _ 1 hc.regs))
    · exact (State.recordT_get _ _ _ _ _ _ _ _ (by decide)).trans (State.get_set_same _ _ _ 0 hok)
    · exact congrArg (fun u : State => { u with regs := s.regs })
        (State.recordT_frame ((s.set Reg.CLK_STAT_XT32_LOST [] 1).set Reg.CLK_STAT_XT32_OK [] 0) 0x4014 4 State.powerSrc _ 0)
  · have hon : s.power.on = true := (Bool.and_eq_true .. ▸ ha).1
    refine ⟨(s.countTime.sense m).sluiceTick, ?_, (State.sluiceTick_optime _).trans (State.sense_optime _ m)⟩
    exact (next_if_neg (by rw [hon]; decide)).trans (next_if_pos ha)

end Sys2Proof.Machine

/-!
Slack (R65, R67, R70 to R72, Table 3-3).
-/

namespace Sys2Proof.Machine

namespace State

theorem on_of_get_one {s : State} {f : Fld} {ix : List Nat} (h : s.get f ix = 1) : s.on f ix = true := by
  unfold on
  rw [h]
  rfl

theorem on_of_get_zero {s : State} {f : Fld} {ix : List Nat} (h : s.get f ix = 0) : s.on f ix = false := by
  unfold on
  rw [h]
  rfl

/-! Slack is entered -/

theorem enterSlack_facts {s : State} (hs : Sparse.sorted s.regs = true) (vin : Nat) :
    (s.enterSlack vin).inSlack = true ∧
      (s.enterSlack vin).get Reg.PWR_SLACK_CNT_ENTRIES =
        min (s.get Reg.PWR_SLACK_CNT_ENTRIES + 1) (2 ^ Reg.PWR_SLACK_CNT_ENTRIES.width - 1) := by
  have hvin : Sparse.sorted (s.measureVin vin vin).regs = true := sorted_set _ _ _ _ (sorted_set s _ _ _ hs)
  have hslack : Sparse.sorted ((s.measureVin vin vin).set Reg.PWR_STAT_SLACK [] 1).regs = true := sorted_set _ _ _ _ hvin
  constructor
  · exact on_of_get_one ((get_set_other _ _ _ _ _ _ (by decide)).trans (get_set_same _ _ _ 1 hvin))
  · have hentries : ((s.measureVin vin vin).set Reg.PWR_STAT_SLACK [] 1).get Reg.PWR_SLACK_CNT_ENTRIES = s.get Reg.PWR_SLACK_CNT_ENTRIES :=
      (get_set_other _ _ _ _ _ _ (by decide)).trans ((get_set_other _ _ _ _ _ _ (by decide)).trans (get_set_other _ _ _ _ _ _ (by decide)))
    rw [← hentries]
    exact get_inc_same hslack _ _ _

/-! The persist step -/

theorem deferUnits_zero (s : State) : s.deferUnits 0 = s := by
  have hnone (want : Nat) : min ((0 + 15) / 16) want = 0 := Nat.zero_min want
  unfold deferUnits
  simp only [hnone, List.replicate_zero, List.append_nil]
  rfl

theorem dropClears_writes (s : State) : WritesAt RingPlace s s.dropClears := by
  have hstart : WritesAt RingPlace s (s.modTally fun t => { t with clearReqs := [] }) := (WritesAt.refl s).other rfl
  refine hstart.foldl s.tally.clearReqs _ fun c _ u => ?_
  split
  · exact .refl u
  · exact WritesAt.complete (fun _ h => h) (.refl u) ..

theorem dropClears_power (s : State) : s.dropClears.power = s.power := by
  have hcomplete : HostOnly (s.modTally fun t => { t with clearReqs := [] }) s.dropClears :=
    (HostOnly.refl _).foldl _ _ fun _ _ hu => hu.ite (hu.complete ..)
  obtain ⟨_, _, _, h⟩ := hcomplete
  rw [h]
  rfl

theorem degrade_power (s : State) (why off : Nat) : (s.degrade why off).power = s.power := by
  unfold degrade
  split
  · rfl
  · exact (dropClears_power _).trans (recordT_power ..)

theorem degrade_inSlack (s : State) (why off : Nat) : (s.degrade why off).inSlack = s.inSlack := by
  unfold degrade
  split
  · rfl
  · refine congrArg (· != 0) (((dropClears_writes _).get Reg.PWR_STAT_SLACK [] (by unfold RingPlace; decide)).trans ?_)
    exact (recordT_get _ _ _ _ _ _ _ _ (by decide)).trans (get_set_other s Reg.TALLY_STAT_DEGRADED _ _ _ 1 (by decide))

theorem persistPtr_facts (s : State) (fail : Option Nat) :
    (s.persistPtr fail).power = s.power ∧ (s.persistPtr fail).inSlack = s.inSlack := by
  cases fail with
  | none => exact ⟨rfl, rfl⟩
  | some off => exact ⟨degrade_power _ 1 off, degrade_inSlack _ 1 off⟩

theorem flushDone_of_idle {s : State} (h : (s.job 6).run = none) : s.flushDone = s := if_neg (by rw [h]; simp)

/-- A node in slack about to write its pointers: no unit is due, and the step is noted. -/
def persisting (s : State) (good : Bool) : State :=
  (s.modTally fun t => { t with due := 0 }).modPower fun p => { p with persistAt := some (s.clock.optime, p.deferred.length, good) }

/-! Slack is left -/

/-- From `a` to `b` only the domains that rise change. -/
def RisingOnly (a b : State) : Prop := ∃ r, b = { a with power := { a.power with rising := r } }

theorem RisingOnly.askOn {a b : State} (h : RisingOnly a b) (n : Nat) : RisingOnly a (b.askOn n) := by
  unfold State.askOn
  split
  · exact h
  · obtain ⟨r, rfl⟩ := h
    exact ⟨_, rfl⟩

theorem RisingOnly.foldl {a b : State} (h : RisingOnly a b) (l : List Nat) (c : State → Nat → Bool) :
    RisingOnly a (l.foldl (fun s n => if c s n then s.askOn n else s) b) := by
  induction l generalizing b with
  | nil => exact h
  | cons n l ih =>
    refine ih ?_
    dsimp only
    split
    · exact h.askOn n
    · exact h

/-- The state of slack, trickle and shedding is cleared. -/
def slackShown (s : State) : State := ((s.set Reg.PWR_STAT_SLACK [] 0).set Reg.PWR_STAT_TRICKLE [] 0).set Reg.PWR_STAT_SHED [] 0

/-- Nothing is shed, and the persist step's mark is gone. -/
def slackCleared (s : State) : State := s.slackShown.modPower fun p => { p with shed := 0, persistAt := none }

theorem leaveSlack_eq (s : State) (low dur : Nat) : ∃ r, s.leaveSlack low dur =
    ((((s.slackCleared.modPower fun p => { p with rising := r }).inc Reg.PWR_SLACK_CNT_RECOVERED).set Reg.PWR_DIP_MIN [] low).set
      Reg.PWR_DIP_DURATION [] (min dur 65535)).recordT 0x4001 2 powerSrc low (min dur 65535) := by
  obtain ⟨r, hr⟩ := RisingOnly.foldl (a := s.slackCleared) ⟨s.slackCleared.power.rising, rfl⟩ [4, 5, 6, 7, 8, 9]
    fun u n => bit s.power.shed n && !bit (u.get Reg.PWR_SW_OFF) (n - 4)
  refine ⟨r, ?_⟩
  unfold leaveSlack
  exact congrArg (fun u : State => (((u.inc Reg.PWR_SLACK_CNT_RECOVERED).set Reg.PWR_DIP_MIN [] low).set
    Reg.PWR_DIP_DURATION [] (min dur 65535)).recordT 0x4001 2 powerSrc low (min dur 65535)) hr

theorem leaveSlack_facts {s : State} (hs : Sparse.sorted s.regs = true) (low dur : Nat) :
    (s.leaveSlack low dur).inSlack = false ∧ (s.leaveSlack low dur).power.persistAt = none ∧ (s.leaveSlack low dur).power.shed = 0 ∧
      (s.leaveSlack low dur).get Reg.PWR_DIP_MIN = low % 2 ^ Reg.PWR_DIP_MIN.width ∧
      (s.leaveSlack low dur).power.deferred = s.power.deferred := by
  obtain ⟨r, hr⟩ := leaveSlack_eq s low dur
  have hslack : Sparse.sorted (s.set Reg.PWR_STAT_SLACK [] 0).regs = true := sorted_set _ _ _ _ hs
  have hcleared : Sparse.sorted s.slackShown.regs = true :=
    sorted_set _ _ _ _ (sorted_set _ Reg.PWR_STAT_TRICKLE [] 0 hslack)
  have hget : s.slackShown.get Reg.PWR_STAT_SLACK = 0 :=
    (get_set_other _ _ _ _ _ _ (by decide)).trans ((get_set_other _ _ _ _ _ _ (by decide)).trans (get_set_same s _ _ 0 hs))
  have hinc : Sparse.sorted ((s.slackCleared.modPower fun p => { p with rising := r }).inc Reg.PWR_SLACK_CNT_RECOVERED).regs = true :=
    sorted_set _ _ _ _ hcleared
  rw [hr]
  refine ⟨on_of_get_zero ?_, ?_, ?_, ?_, ?_⟩
  · refine (recordT_get _ _ _ _ _ _ _ _ (by decide)).trans ((get_set_other _ _ _ _ _ _ (by decide)).trans
      ((get_set_other _ _ _ _ _ _ (by decide)).trans ((get_set_other _ Reg.PWR_SLACK_CNT_RECOVERED _ _ _ _ (by decide)).trans hget)))
  · exact (congrArg Power.persistAt (recordT_power ..)).trans rfl
  · exact (congrArg Power.shed (recordT_power ..)).trans rfl
  · exact (recordT_get _ _ _ _ _ _ _ _ (by decide)).trans ((get_set_other _ _ _ _ _ _ (by decide)).trans (get_set_same _ _ _ low hinc))
  · exact (congrArg Power.deferred (recordT_power ..)).trans rfl

/-! The trickle -/

theorem measureVin_aboveFloor (s : State) (vin x : Nat) : (s.measureVin x x).aboveFloor vin = s.aboveFloor vin := by
  have hwarn : (s.measureVin x x).get Reg.PWR_WARN_LEVEL = s.get Reg.PWR_WARN_LEVEL :=
    (get_set_other _ _ _ _ _ _ (by decide)).trans (get_set_other _ _ _ _ _ _ (by decide))
  unfold aboveFloor vinWarn
  rw [hwarn]

theorem trickle_of_below {s : State} {vin : Nat} (h : s.aboveFloor vin = false) (fail : Option Nat) :
    s.trickle vin fail = (s.measureVin vin vin).set Reg.PWR_STAT_TRICKLE [] 0 := by
  have hfloor := (measureVin_aboveFloor s vin vin).trans h
  exact if_pos (by rw [hfloor]; simp)

/-- The trickle's next unit is due. -/
def trickling (s : State) (vin : Nat) : State :=
  ((s.measureVin vin vin).set Reg.PWR_STAT_TRICKLE [] 1).modPower fun p => { p with trickleAt := s.clock.up }

theorem trickle_of_tables {s : State} {vin : Nat} (h : s.aboveFloor vin = true) {l : List MramWrite} (hl : s.power.deferred = .tables :: l)
    (hlen : 3072 ≤ s.power.deferred.length) (fail : Option Nat) :
    s.trickle vin fail = ((s.trickling vin).modPower fun p => { p with deferred := l }).modSynth fun y => { y with stored := y.cache } := by
  have hfloor := (measureVin_aboveFloor s vin vin).trans h
  have hmeasured : (s.measureVin vin vin).power.deferred = s.power.deferred := rfl
  have hdeferred : (s.trickling vin).power.deferred = .tables :: l := hl
  have hhead : (s.trickling vin).deferredHead fail =
      ((s.trickling vin).modPower fun p => { p with deferred := l }).modSynth fun y => { y with stored := y.cache } := by
    unfold deferredHead
    rw [hdeferred]
    rfl
  unfold trickle
  refine (if_neg ?_).trans ((if_neg ?_).trans hhead)
  · rw [hfloor, hmeasured]
    simp [hlen]
  · show ¬ (s.trickling vin).power.deferred.isEmpty = true
    rw [hdeferred]
    exact Bool.false_ne_true

theorem trickling_get {s : State} (hs : Sparse.sorted s.regs = true) (vin : Nat) : (s.trickling vin).get Reg.PWR_STAT_TRICKLE = 1 :=
  get_set_same _ _ _ 1 (sorted_set _ _ _ _ (sorted_set s Reg.PWR_VIN_VIN [] vin hs))

end State

/-- Settles O20: what each step of slack writes is read back outside the places of its record. -/
theorem slackCommands : Obligations.SlackCommands := by
  intro s hc ha
  have hon : s.power.on = true := (Bool.and_eq_true .. ▸ ha).1
  refine ⟨fun vin hslack hvin => ?_, fun fail hslack hpersist hdue hrun => ?_, fun hslack hsince => next_if_pos ?_,
    fun vin low dur hslack hvin => ?_, fun vin fail hslack hpersist hsince hfloor => ?_,
    fun vin fail l hslack hpersist hsince hfloor hl hlen => ?_⟩
  · obtain ⟨hin, hentries⟩ := State.enterSlack_facts hc.regs vin
    refine ⟨s.enterSlack vin, ?_, hin, rfl, hentries, rfl, rfl⟩
    exact (next_if_pos (by rw [hon, hslack, decide_eq_true hvin]; rfl)).trans (next_if_pos ha)
  · have hguard : (s.alive && s.inSlack && s.power.persistAt.isNone) = true := by
      rw [ha, hslack, hpersist]
      rfl
    have hdeferred : s.deferUnits s.tally.due = s := by rw [hdue, State.deferUnits_zero]
    have hflush : (s.modTally fun t => { t with due := 0 }).flushDone = s.modTally fun t => { t with due := 0 } :=
      State.flushDone_of_idle hrun
    obtain ⟨hpower, hin⟩ := State.persistPtr_facts (s.persisting fail.isNone) fail
    refine ⟨(s.persisting fail.isNone).persistPtr fail, (next_if_pos hguard).trans ?_, ?_, ?_, hin.trans hslack⟩
    · rw [hdeferred, hflush]
      rfl
    · rw [hpower]
      rfl
    · rw [hpower]
      rfl
  · rw [ha, hslack, hsince]
    rfl
  · refine ⟨s.leaveSlack low dur, ?_, State.leaveSlack_facts hc.regs low dur⟩
    exact (next_if_pos (by rw [hon, hslack, decide_eq_true hvin]; rfl)).trans (next_if_pos ha)
  · have hguard : (s.alive && s.inSlack && s.power.persistAt.isSome && s.since s.power.trickleAt State.trickleNs) = true := by
      rw [ha, hslack, hpersist, hsince]
      rfl
    refine ⟨_, (next_if_pos hguard).trans (congrArg _ (State.trickle_of_below hfloor fail)), ?_, rfl⟩
    exact State.get_set_same _ _ _ 0 (State.sorted_set _ _ _ _ (State.sorted_set s _ _ _ hc.regs))
  · have hguard : (s.alive && s.inSlack && s.power.persistAt.isSome && s.since s.power.trickleAt State.trickleNs) = true := by
      rw [ha, hslack, hpersist, hsince]
      rfl
    exact ⟨_, (next_if_pos hguard).trans (congrArg _ (State.trickle_of_tables hfloor hl hlen fail)), State.trickling_get hc.regs vin, rfl, rfl⟩

end Sys2Proof.Machine

/-!
The end of restarts and of firmware trials (R102, R106, R115, R116), and the stages of boot (R108, Table 5-3).
-/

namespace Sys2Proof.Machine

namespace State

/-! The certification status -/

/-- The fields of the certification status, and the places of records. -/
def CertPlace (k : Nat) : Prop := k ∈ [Reg.SEC_CERT_MISS_MISS.key [], Reg.SEC_STAT_CERTIFIED.key []] ∨ recordKey k = true

theorem WritesAt.recordT {P : Nat → Prop} {a b : State} (h : WritesAt P a b) (hP : ∀ k, recordKey k = true → P k)
    (code sev src p1 p2 : Nat) : WritesAt P a (b.recordT code sev src p1 p2) :=
  h.trans ⟨fun _ _ hg => recordT_get _ _ _ _ _ _ _ _ (Bool.eq_false_iff.mpr fun hk => hg (hP _ hk)),
    fun hs => (State.recordT_keeps (.refl b) code sev src p1 p2).regs hs⟩

theorem WritesAt.record {P : Nat → Prop} {a b : State} (h : WritesAt P a b) (hP : ∀ k, recordKey k = true → P k)
    (code sev src p1 p2 : Nat) : WritesAt P a (b.record code sev src p1 p2) :=
  h.trans ⟨fun _ _ hg => record_get _ _ _ _ _ _ _ _ (Bool.eq_false_iff.mpr fun hk => hg (hP _ hk)),
    fun hs => (State.record_keeps (.refl b) code sev src p1 p2).regs hs⟩

theorem certify_writes (s : State) : WritesAt CertPlace s s.certify := by
  unfold certify
  extract_lets st m was shown
  have hshown : WritesAt CertPlace s shown := ((WritesAt.refl s).set _ _ _ (.inl (by decide))).flag _ _ _ (.inl (by decide))
  split
  · exact .refl s
  · split
    · exact hshown.recordT (fun k hk => .inr hk) ..
    · exact hshown

/-- A record changes registers, tally book, clock and console. -/
theorem recordT_eq (s : State) (code sev src p1 p2 : Nat) :
    ∃ r t c o, s.recordT code sev src p1 p2 = { s with regs := r, tally := t, clock := c, out := o } := by
  have h := congrArg (fun u : State => { u with
    regs := (s.recordT code sev src p1 p2).regs, tally := (s.recordT code sev src p1 p2).tally,
    clock := (s.recordT code sev src p1 p2).clock, out := (s.recordT code sev src p1 p2).out }) (recordT_frame s code sev src p1 p2)
  exact ⟨_, _, _, _, h⟩

theorem certify_frame (s : State) : ∃ r t c o, s.certify = { s with regs := r, tally := t, clock := c, out := o } := by
  unfold certify
  extract_lets st m was shown
  have hshown : RegsOnly s shown := ((RegsOnly.refl s).set ..).flag ..
  clear_value shown
  obtain ⟨r, rfl⟩ := hshown
  split
  · exact ⟨_, _, _, _, rfl⟩
  · split
    · obtain ⟨_, _, _, _, h⟩ := recordT_eq { s with regs := r } 0x5030 4 12 m 0
      rw [h]
      exact ⟨_, _, _, _, rfl⟩
    · exact ⟨_, _, _, _, rfl⟩

theorem certify_boot (s : State) : s.certify.boot = s.boot := by
  obtain ⟨_, _, _, _, h⟩ := certify_frame s
  rw [h]

theorem certify_sec (s : State) : s.certify.sec = s.sec := by
  obtain ⟨_, _, _, _, h⟩ := certify_frame s
  rw [h]

theorem applyVfs_of_none {s : State} (h : s.host.vfWait = []) : s.applyVfs = s.modHost fun h => { h with vfWait := [] } := by
  unfold applyVfs
  rw [h]
  rfl

/-! The end of a firmware restart -/

/-- Firmware is up again, and its restart is recorded. -/
def restartEnded (s : State) : State :=
  let s := ((s.modBoot fun b => { b with restart := none }).set Reg.GLOBAL_STAT_FW_RESTART [] 0).set Reg.GLOBAL_STAT_FW_READY [] 1
  s.recordT 0x4011 3 bootSrc (s.causeWord / 32) (s.bankVersion (s.get Reg.BOOT_STAT_BANK))

theorem restartDone_of_same_bank {s : State} {c : FwCause} (h : s.boot.restart = some (c, none)) (hc : c ≠ .update)
    (hv : s.host.vfWait = []) : s.restartDone = (s.restartEnded.modHost fun h => { h with vfWait := [] }).certify := by
  have hwait : s.restartEnded.host.vfWait = [] := (congrArg HostIf.vfWait (recordT_host ..)).trans hv
  unfold restartDone
  rw [h]
  simp only [Option.any_none, Bool.false_eq_true, if_false, beq_iff_eq, hc]
  exact congrArg certify (applyVfs_of_none hwait)

theorem restartEnded_get {s : State} (hs : Sparse.sorted s.regs = true) :
    s.restartEnded.get Reg.GLOBAL_STAT_FW_RESTART = 0 ∧ s.restartEnded.get Reg.GLOBAL_STAT_FW_READY = 1 := by
  have h0 := get_set_same (s.modBoot fun b => { b with restart := none }) Reg.GLOBAL_STAT_FW_RESTART [] 0 hs
  have h1 := sorted_set (s.modBoot fun b => { b with restart := none }) Reg.GLOBAL_STAT_FW_RESTART [] 0 hs
  exact ⟨(recordT_get _ _ _ _ _ _ _ _ (by decide)).trans ((get_set_other _ _ _ _ _ _ (by decide)).trans h0),
    (recordT_get _ _ _ _ _ _ _ _ (by decide)).trans (get_set_same _ _ _ 1 h1)⟩

/-! A pair that mismatches -/

/-- The mismatch of pair i shows and is recorded. -/
def mismatchShown (s : State) (i : Nat) : State :=
  let s := (s.inc (if i == 0 then Reg.LS_STAT_PAIR0 else Reg.LS_STAT_PAIR1)).set (if i == 0 then Reg.RST_CAUSE_LS0 else Reg.RST_CAUSE_LS1) [] 1
  s.recordT 0x4012 4 (1 + i) i (s.get Reg.LS_STAT_PAIR0 + 256 * s.get Reg.LS_STAT_PAIR1)

theorem mismatchShown_boot (s : State) (i : Nat) : (s.mismatchShown i).boot = s.boot := recordT_boot ..

theorem mismatchShown_optime (s : State) (i : Nat) : (s.mismatchShown i).clock.optime = s.clock.optime := recordT_clock_optime ..

/-- Pair i notes its mismatch and stops. -/
def pairStopped (s : State) (i : Nat) : State :=
  ((s.modBoot fun b => { b with lsLast := listSet b.lsLast i (some s.clock.optime), lsTurn := listSet b.lsTurn i (some s.clock.turn) }).inc
    Reg.RST_CNT_LS).modBoot fun b => { b with lsStopped := listSet b.lsStopped i true }

theorem lockstep_of_first {s : State} (i : Fin 2) (hl : s.boot.lsLast = [none, none]) (ht : s.boot.lsTurn = [none, none]) :
    s.lockstep i.val = ((s.mismatchShown i.val).pairStopped i.val).when (i.val == 1) flushCut := by
  have hlast : s.boot.lsLast.getD i.val none = none := by
    rw [hl]
    fin_cases i <;> rfl
  have hother : s.boot.lsTurn.getD (1 - i.val) none = none := by
    rw [ht]
    fin_cases i <;> rfl
  unfold lockstep
  extract_lets shown last other again recorded both noted stopped
  have hagain : again = false := by
    unfold again last
    rw [show shown.boot.lsLast.getD i.val none = none from hlast]
  have hboth : both = false := by
    unfold both other
    rw [show shown.boot.lsTurn.getD (1 - i.val) none = none from hother]
    rfl
  rw [hagain, hboth]
  rfl

theorem pairStopped_boot {s : State} {i : Nat} (h : i < s.boot.lsStopped.length) (h' : i < s.boot.lsLast.length) :
    (s.pairStopped i).boot.lsStopped.getD i false = true ∧ (s.pairStopped i).boot.lsLast.getD i none = some s.clock.optime :=
  ⟨getD_listSet_same h _ _, getD_listSet_same h' _ _⟩

theorem when_flushCut_boot (s : State) (c : Bool) : (s.when c flushCut).boot = s.boot := by
  cases c <;> rfl

/-! The end of a firmware trial -/

/-- A trial without a fault at its end: its bank is active, and the fuses rise. -/
def trialKept (s : State) : State :=
  ((s.set Reg.FW_BANK_STAT_TRIAL [] 0).modBoot fun b => { b with active := s.get Reg.BOOT_STAT_BANK }).modSec fun x =>
    { x with fuses := max x.fuses (min 64 (s.boot.banks.getD (s.get Reg.BOOT_STAT_BANK) default).svn) }

theorem endTrial_of_good {s : State} (hf : s.trialFault = none) (he : s.boot.trialEnd ≤ s.clock.optime) (hw : s.mramWaits = false) :
    ∃ p1, s.endTrial = s.trialKept.showBanks.certify.record 0x6004 1 cfgSrc p1 1 := by
  unfold endTrial
  rw [hf]
  refine ⟨_, if_neg ?_⟩
  rw [hw, Bool.or_false, decide_eq_true_eq]
  exact Nat.not_lt_of_le he

theorem showBanks_regsOnly (s : State) : RegsOnly s s.showBanks := by
  unfold showBanks
  exact ((((((((RegsOnly.refl s).flag ..).flag ..).set ..).set ..).set ..).set ..).set ..).set .. |>.flag ..

/-! Stages of boot -/

theorem bootStep_0 {s : State} (b : BootSeen) (h : s.get Reg.BOOT_STAT_STAGE = 0) :
    s.bootStep b = if s.sec.wipe.isNone then s.bootRom b else s := by
  unfold bootStep
  rw [h]
  rfl

theorem bootStep_1 {s : State} (b : BootSeen) (h : s.get Reg.BOOT_STAT_STAGE = 1) : s.bootStep b = s.bootLoader b := by
  unfold bootStep
  rw [h]
  rfl

theorem bootStep_2 {s : State} (b : BootSeen) (h : s.get Reg.BOOT_STAT_STAGE = 2) : s.bootStep b = s.bootBank := by
  unfold bootStep
  rw [h]
  rfl

theorem bootStep_5 {s : State} (b : BootSeen) (h : s.get Reg.BOOT_STAT_STAGE = 5) :
    s.bootStep b = ((s.set Reg.BOOT_STAT_STAGE [] 6).set Reg.TN_STAT_PRESENT [16] 1).set Reg.TN_STAT_BME [16] 1 := by
  unfold bootStep
  rw [h]
  rfl

/-- The ROM's measurement, the weirs that fail and the level of FREEZE_N. -/
def romDone (s : State) (b : BootSeen) : State :=
  let s := (s.extend 0 (beBytes 48 Config.romDigest.toNat)).set Reg.BOOT_STAT_STAGE [] 1
  let s := if s.on Reg.CLK_STAT_GX_OK then s else s.weirsFail 1
  let s := (List.range 2).foldl (fun s w => if bit b.weirBad.val w then s.weirFail w 2 else s) s
  s.modPins fun p => { p with freezeLow := b.freezeLow }

theorem romDone_stage {s : State} (hs : Sparse.sorted s.regs = true) (b : BootSeen) : (s.romDone b).get Reg.BOOT_STAT_STAGE = 1 := by
  unfold romDone
  extract_lets staged weirs failed
  have hstaged : staged.get Reg.BOOT_STAT_STAGE = 1 :=
    get_set_same (s.extend 0 (beBytes 48 Config.romDigest.toNat)) Reg.BOOT_STAT_STAGE [] 1 hs
  have hweirs : WritesAt WeirPlace staged weirs := by
    unfold weirs
    split
    · exact .refl _
    · exact weirsFail_writes ..
  have hfailed : WritesAt WeirPlace staged failed := by
    refine hweirs.foldl _ _ fun w hw u => ?_
    split
    · exact weirFail_writes (.refl u) ⟨w, List.mem_range.mp hw⟩ 2
    · exact .refl u
  exact (hfailed.get Reg.BOOT_STAT_STAGE [] (by unfold WeirPlace; decide)).trans hstaged

theorem allowFreeze_of_high {s : State} (h : s.pins.freezeLow = false) (tear : Bool) :
    s.allowFreeze tear = s.set Reg.DIAG_STAT_FRZ_EN [] 1 := by
  have hpin : (s.set Reg.DIAG_STAT_FRZ_EN [] 1).pins.freezeLow = false := h
  exact if_neg (by rw [hpin, Bool.and_false]; exact Bool.false_ne_true)

theorem bootRom_stage {s : State} (hs : Sparse.sorted s.regs = true) {b : BootSeen} (h : b.freezeLow = false) :
    (s.bootRom b).get Reg.BOOT_STAT_STAGE = 1 := by
  have hdone := romDone_stage hs b
  have hpin : (s.romDone b).pins.freezeLow = false := h
  have hrom : s.bootRom b = if (s.romDone b).sec.lifecycle ≤ 1 then (s.romDone b).allowFreeze false else s.romDone b := rfl
  rw [hrom, allowFreeze_of_high hpin]
  split
  · exact (get_set_other _ _ _ _ _ _ (by decide)).trans hdone
  · exact hdone

/-- The fields of the key store. -/
def StorePlace (k : Nat) : Prop :=
  k ∈ [Reg.SEC_STAT_CFG_KEY.key [], Reg.SEC_STAT_MAINT_KEY.key [], Reg.SEC_STAT_FK_ACTIVE.key [], Reg.SEC_STAT_FK_STAGED.key [],
    Reg.SEC_FK_ACTIVE_ID.key [], Reg.SEC_FK_STAGED_ID.key [], Reg.SEC_STAT_STORE_OK.key []] ∨ recordKey k = true

theorem showKeys_writes {a b : State} (h : WritesAt StorePlace a b) : WritesAt StorePlace a b.showKeys :=
  (((h.flag _ _ _ (.inl (by decide))).flag _ _ _ (.inl (by decide))).flag _ _ _ (.inl (by decide))).flag _ _ _ (.inl (by decide))

theorem checkStore_writes (s : State) (bad : Nat) : WritesAt StorePlace s (s.checkStore bad) := by
  have hload : WritesAt StorePlace s (s.loadKeys bad) := by
    unfold loadKeys
    split
    · exact showKeys_writes (.refl s)
    · extract_lets st s1 s2
      have h2 : WritesAt StorePlace s s2 := (WritesAt.refl s).other rfl
      exact showKeys_writes ((h2.set _ _ _ (.inl (by decide))).set _ _ _ (.inl (by decide)))
  unfold checkStore
  extract_lets st had n s1
  have h1 : WritesAt StorePlace s s1 := (hload.other (c := (s.loadKeys bad).modSec fun x => { x with storeOk := n == 0 }) rfl).flag _ _ _
    (.inl (by decide))
  exact h1.foldl _ _ fun _ _ u => (WritesAt.refl u).recordT (fun k hk => .inr hk) ..

theorem bootLoader_of_copy0 {s : State} (b : BootSeen) {d : Nat} (h : s.boot.bl.getD 0 none = some d) :
    s.bootLoader b = ((s.set Reg.BOOT_STAT_STAGE [] 2).extend 1 (beBytes 48 d)).checkStore b.storeBad.val := by
  unfold bootLoader
  rw [h]

theorem bootLoader_of_none {s : State} (b : BootSeen) (h0 : s.boot.bl.getD 0 none = none) (h1 : s.boot.bl.getD 1 none = none) :
    s.bootLoader b = s.romRecovery := by
  unfold bootLoader
  rw [h0, h1]

theorem romRecovery_stage {s : State} (hs : Sparse.sorted s.regs = true) : s.romRecovery.get Reg.BOOT_STAT_STAGE = 0xE :=
  get_set_same s.lineOff Reg.BOOT_STAT_STAGE [] 0xE ((lineOff_keeps (.refl s)).regs hs)

/-- The bank that runs shows, and its image is measured. -/
def bankTaken (s : State) : State :=
  ((((s.set Reg.BOOT_STAT_BANK [] s.boot.active).flag Reg.BOOT_STAT_FALLBACK [] false).showBanks).measBank s.boot.active).set
    Reg.BOOT_STAT_STAGE [] 3

theorem bootBank_of_good {s : State} (h : s.bankGood s.boot.active = true) : s.bootBank =
    if s.bankTaken.on Reg.BOOT_STAT_BL_COPY || s.bankTaken.on Reg.BOOT_STAT_FALLBACK then
      s.bankTaken.recordT 0x4013 4 bootSrc s.bankTaken.bootWord (s.bankTaken.bankVersion s.boot.active) else s.bankTaken := by
  unfold bootBank
  simp only [h, Bool.not_true, Bool.false_and, Bool.false_eq_true, if_false, if_true, bne_self_eq_false]
  rfl

/-- The fields that show the banks. -/
def bankKeys : List Nat :=
  [Reg.FW_BANK_STAT_BANK0_VALID, Reg.FW_BANK_STAT_BANK1_VALID, Reg.FW_VER_0_VER, Reg.FW_VER_1_VER, Reg.FW_SVN_BANK0, Reg.FW_SVN_BANK1,
    Reg.FW_SVN_FUSE, Reg.FW_BANK_STAT_ACTIVE, Reg.FIRST_USE_NO_PREV_FW].map fun f => f.key []

theorem showBanks_writes (s : State) : WritesAt (· ∈ bankKeys) s s.showBanks := by
  have hat (f : Fld) (hf : f.key [] ∈ bankKeys) {u : State} (hu : WritesAt (· ∈ bankKeys) s u) (v : Nat) :
      WritesAt (· ∈ bankKeys) s (u.set f [] v) := hu.set _ _ _ hf
  unfold showBanks
  exact hat Reg.FIRST_USE_NO_PREV_FW (by decide) (hat Reg.FW_BANK_STAT_ACTIVE (by decide) (hat Reg.FW_SVN_FUSE (by decide)
    (hat Reg.FW_SVN_BANK1 (by decide) (hat Reg.FW_SVN_BANK0 (by decide) (hat Reg.FW_VER_1_VER (by decide) (hat Reg.FW_VER_0_VER (by decide)
    (hat Reg.FW_BANK_STAT_BANK1_VALID (by decide) (hat Reg.FW_BANK_STAT_BANK0_VALID (by decide) (.refl s) _) _) _) _) _) _) _) _) _

theorem measBank_regs (s : State) (k : Nat) : (s.measBank k).regs = s.regs := rfl

theorem bankTaken_get {s : State} (hs : Sparse.sorted s.regs = true) :
    s.bankTaken.get Reg.BOOT_STAT_STAGE = 3 ∧ s.bankTaken.get Reg.BOOT_STAT_FALLBACK = 0 := by
  have h1 := sorted_set s Reg.BOOT_STAT_BANK [] s.boot.active hs
  have h2 : ((s.set Reg.BOOT_STAT_BANK [] s.boot.active).flag Reg.BOOT_STAT_FALLBACK [] false).get Reg.BOOT_STAT_FALLBACK = 0 :=
    get_set_same _ Reg.BOOT_STAT_FALLBACK [] 0 h1
  have hshown := showBanks_writes ((s.set Reg.BOOT_STAT_BANK [] s.boot.active).flag Reg.BOOT_STAT_FALLBACK [] false)
  have h3 := hshown.sorted (sorted_set _ _ _ _ h1)
  exact ⟨get_set_same _ Reg.BOOT_STAT_STAGE [] 3 h3,
    (get_set_other _ Reg.BOOT_STAT_STAGE Reg.BOOT_STAT_FALLBACK [] [] 3 (by decide)).trans
      ((get_of_regs (measBank_regs _ _) _ _).trans ((hshown.get _ _ (by decide)).trans h2))⟩

end State

/-- Settles O16: the parts of a restart and of a trial as named states, each with what it writes. -/
theorem restartsAndTrialsEnd : Obligations.RestartsAndTrialsEnd := by
  intro s hc ha
  refine ⟨fun c hr hcause hv => ?_, fun i hup hstop hlen => ?_, fun i hup hstop hl ht hlen => ?_, fun hup hu hstand hslack => ?_,
    fun hcpu htrial hf he hw => ?_⟩
  · obtain ⟨h0, h1⟩ := State.restartEnded_get hc.regs
    have hcert := State.certify_writes (s.restartEnded.modHost fun h => { h with vfWait := [] })
    refine ⟨_, (next_if_pos ha).trans (congrArg _ (State.restartDone_of_same_bank hr hcause hv)), ?_, ?_, ?_⟩
    · rw [State.certify_boot]
      exact congrArg Boot.restart (State.recordT_boot ..)
    · exact (hcert.get _ _ (by unfold State.CertPlace; decide)).trans h0
    · exact (hcert.get _ _ (by unfold State.CertPlace; decide)).trans h1
  · refine ⟨_, next_if_pos (by rw [ha, hup, hstop]; rfl), ?_, rfl⟩
    show (s.fwUp && !((listSet s.boot.lsStopped i.val false).getD i.val false)) = true
    rw [hup, getD_listSet_same hlen]
    rfl
  · have hboot := State.mismatchShown_boot s i.val
    have hlen' : i.val < s.boot.lsLast.length := by
      rw [hl]
      exact i.isLt
    obtain ⟨hstopped, hlast⟩ := State.pairStopped_boot (s := s.mismatchShown i.val) (i := i.val)
      (by rw [hboot, hlen]; exact i.isLt) (by rw [hboot]; exact hlen')
    refine ⟨_, (next_if_pos (by rw [ha, hup, hstop]; rfl)).trans (congrArg _ (State.lockstep_of_first i hl ht)), ?_, ?_⟩
    · rw [State.when_flushCut_boot]
      exact hstopped
    · rw [State.when_flushCut_boot, hlast, State.mismatchShown_optime]
  · obtain ⟨r, hrestart, hregs, hboot, -, -⟩ := State.fwRestart_of_few (s := s) (cause := .update) (fun h => nomatch h) (some s.spareBank)
    refine ⟨r, (next_if_pos (by rw [ha, hup, hu, hstand, hslack]; rfl)).trans (congrArg _ hrestart), hboot, ?_⟩
    exact (State.get_of_regs hregs _ _).trans (State.restartRegs_get_ready hc.regs .update)
  · obtain ⟨p1, hend⟩ := State.endTrial_of_good hf he hw
    obtain ⟨r, hshown⟩ := State.showBanks_regsOnly s.trialKept
    refine ⟨_, (next_if_pos (by rw [ha, hcpu, htrial]; rfl)).trans (congrArg _ hend), ?_, ?_⟩
    · rw [State.record_boot, State.certify_boot, hshown]
      rfl
    · rw [State.record_sec, State.certify_sec, hshown]
      rfl

/-- Settles O17: one lemma for each boot stage. -/
theorem bootReachesItsMilestones : Obligations.BootReachesItsMilestones := by
  intro s b hc ha
  refine ⟨fun hstage hwipe hpin => ?_, fun w hstage hwipe => ?_, fun d hstage hd => ?_, fun hstage h0 h1 => ?_, fun hstage hgood => ?_,
    fun hstage => ?_⟩
  · refine ⟨_, (next_if_pos ha).trans (congrArg _ (State.bootStep_0 b hstage)), ?_⟩
    rw [hwipe]
    exact State.bootRom_stage hc.regs hpin
  · refine (next_if_pos ha).trans (congrArg _ ((State.bootStep_0 b hstage).trans ?_))
    rw [hwipe]
    rfl
  · refine ⟨_, (next_if_pos ha).trans (congrArg _ ((State.bootStep_1 b hstage).trans (State.bootLoader_of_copy0 b hd))), ?_⟩
    refine ((State.checkStore_writes _ _).get Reg.BOOT_STAT_STAGE [] (by unfold State.StorePlace; decide)).trans ?_
    exact State.get_set_same s Reg.BOOT_STAT_STAGE [] 2 hc.regs
  · exact ⟨_, (next_if_pos ha).trans (congrArg _ ((State.bootStep_1 b hstage).trans (State.bootLoader_of_none b h0 h1))),
      State.romRecovery_stage hc.regs⟩
  · obtain ⟨h3, hfall⟩ := State.bankTaken_get hc.regs
    refine ⟨_, (next_if_pos ha).trans (congrArg _ ((State.bootStep_2 b hstage).trans (State.bootBank_of_good hgood))), ?_, ?_⟩
    · split
      · exact (State.recordT_get _ _ _ _ _ _ _ _ (by decide)).trans h3
      · exact h3
    · split
      · exact (State.recordT_get _ _ _ _ _ _ _ _ (by decide)).trans hfall
      · exact hfall
  · have h6 := State.sorted_set s Reg.BOOT_STAT_STAGE [] 6 hc.regs
    refine ⟨_, (next_if_pos ha).trans (congrArg _ (State.bootStep_5 b hstage)), ?_, ?_, rfl⟩
    · exact (State.get_set_other _ _ _ _ _ _ (by decide)).trans ((State.get_set_other _ _ _ _ _ _ (by decide)).trans
        (State.get_set_same s _ _ 6 hc.regs))
    · exact (State.get_set_other _ _ _ _ _ _ (by decide)).trans (State.get_set_same _ _ _ 1 h6)

end Sys2Proof.Machine

/-!
Upkeep of the tally book (R528, R531, R535, R543), and its descriptors (R540 to R545).
-/

namespace Sys2Proof.Machine

namespace State

/-! What a record leaves of the book -/

theorem enqueue_clearReqs (s : State) (code sev src flags p0 p1 p2 : Nat) :
    (s.enqueue code sev src flags p0 p1 p2).tally.clearReqs = s.tally.clearReqs := by
  unfold enqueue
  split
  · have hcopy (u : State) (r : Rec) : (u.emerCopy r).tally.clearReqs = u.tally.clearReqs := by
      unfold emerCopy
      split
      · rfl
      · split <;> rfl
    rw [consoleLine_tally, hcopy]
    rfl
  · rfl

/-- A record with a place takes a sequence number. -/
theorem enqueue_seq_ne {s : State} (hs : Sparse.sorted s.regs = true) {code flags : Nat} (hp : s.hasPlace code flags = true)
    (sev src p0 p1 p2 : Nat) : (s.enqueue code sev src flags p0 p1 p2).get Reg.TALLY_SEQ_NEXT ≠ s.get Reg.TALLY_SEQ_NEXT := by
  rw [enqueue_get_of_hasPlace hp sev src p0 p1 p2 (by decide) (by decide) (by decide), queueRec_get_seq hs]
  show (s.get Reg.TALLY_SEQ_NEXT + 1) % 2 ^ 32 ≠ s.get Reg.TALLY_SEQ_NEXT
  omega

/-- The fields that an entry into the queue writes. -/
def enqueueKeys : List Nat :=
  [Reg.TALLY_SEQ_NEXT, Reg.TALLY_STAT_QUEUED, Reg.TALLY_EMER_COUNT, Reg.TALLY_EMER_DROPPED, Reg.DIAG_CNT_CON_DROP,
    Reg.TALLY_CNT_OVERFLOW].map fun f => f.key []

theorem enqueue_get_outside (s : State) (code sev src flags p0 p1 p2 : Nat) {g : Fld} {jx : List Nat} (h : g.key jx ∉ enqueueKeys) :
    (s.enqueue code sev src flags p0 p1 p2).get g jx = s.get g jx := by
  simp only [enqueueKeys, List.map_cons, List.map_nil, List.mem_cons, List.not_mem_nil, or_false, not_or] at h
  obtain ⟨hseq, hqueued, hcount, hdropped, hconsole, hoverflow⟩ := h
  cases hp : s.hasPlace code flags with
  | true =>
    rw [enqueue_get_of_hasPlace hp sev src p0 p1 p2 hcount hdropped hconsole]
    exact (get_set_other _ _ _ _ _ _ hqueued).trans (get_set_other _ _ _ _ _ _ hseq)
  | false =>
    rw [enqueue_of_not_hasPlace hp]
    exact get_set_other _ _ _ _ _ _ hoverflow

theorem anchor_get_outside (s : State) (cause : Nat) {g : Fld} {jx : List Nat} (h : g.key jx ∉ enqueueKeys) :
    (s.anchor cause).get g jx = s.get g jx := by
  unfold anchor
  split
  · exact enqueue_get_outside _ _ _ _ _ _ _ _ h
  · rfl

/-! Pointers, units, time of day and nonces -/

theorem mramWrite_of_not_waits {s : State} (hw : s.mramWaits = false) (w : MramWrite) (fail : Option Nat) :
    s.mramWrite w fail = s.mramApply w fail := if_neg (by rw [hw]; exact Bool.false_ne_true)

theorem deferred_of_not_mramWaits {s : State} (hw : s.mramWaits = false) : s.power.deferred = [] := by
  have h := (Bool.or_eq_false_iff.mp hw).2
  exact List.isEmpty_iff.mp (by simpa using h)

theorem not_inSlack_of_mayFlush {s : State} (h : s.mayFlush = true) : s.inSlack = false := by
  exact Bool.not_eq_true' _ ▸ ((Bool.and_eq_true ..).mp h).2

/-- A unit of a queue with a record and room in the areas takes 1 to 16 records. -/
theorem unitLen_bounds {s : State} {r : Rec} {l : List Rec} (hq : s.tally.queue = r :: l) (hcl : s.tally.clearReqs = [])
    (hh : s.get Reg.TALLY_CIRC_HEAD_HEAD < circCap) {left : Nat} (hleft : 0 < left) : 0 < s.unitLen left ∧ s.unitLen left ≤ 16 := by
  have hplain : 0 < (s.tally.queue.takeWhile fun r => !(s.tally.clearReqs.any fun c => c.seq == r.seq)).length := by
    rw [hq, hcl]
    exact Nat.succ_pos _
  unfold unitLen
  extract_lets perm room plain
  have hroom : 0 < room := by
    unfold room
    split <;> omega
  have hlen : 0 < plain.length := hplain
  omega

theorem storeRecs_tally (s : State) (toCirc : Bool) (l : List Place) :
    (s.storeRecs toCirc l).tally.queue = s.tally.queue ∧ (s.storeRecs toCirc l).tally.due = s.tally.due := by
  unfold storeRecs
  dsimp only
  split <;> exact ⟨rfl, rfl⟩

theorem advance_tally (s : State) (toCirc : Bool) (n : Nat) : (s.advance toCirc n).tally = s.tally := by
  unfold advance
  dsimp only
  split <;> rfl

theorem writeUnit_tally {s : State} {r : Rec} {l : List Rec} (hq : s.tally.queue = r :: l) (hcl : s.tally.clearReqs = []) (left : Nat) :
    (s.writeUnit left none).tally.queue = s.tally.queue.drop (s.unitLen left) ∧
      (s.writeUnit left none).tally.due = s.tally.due - s.unitLen left := by
  obtain ⟨hqueue, hdue⟩ := storeRecs_tally s false ((s.tally.queue.take (s.unitLen left)).map Place.good)
  have hadvance := advance_tally (s.storeRecs false ((s.tally.queue.take (s.unitLen left)).map Place.good)) false (s.unitLen left)
  unfold writeUnit
  rw [hq]
  simp only [hcl, List.find?_nil, ← hq]
  constructor
  · exact congrArg (List.drop (s.unitLen left)) ((congrArg Tally.queue hadvance).trans hqueue)
  · exact congrArg (· - s.unitLen left) ((congrArg Tally.due hadvance).trans hdue)

theorem flushDone_tally (s : State) : s.flushDone.tally = s.tally := by
  unfold flushDone
  split <;> rfl

theorem unitDone_of_due {s : State} (hd : s.power.deferred = []) (hdue : 0 < s.tally.due) (hm : s.mayFlush = true) :
    s.unitDone none = (s.writeUnit s.tally.due none).flushDone := by
  unfold unitDone
  rw [if_neg (by rw [not_inSlack_of_mayFlush hm]; exact Bool.false_ne_true), hd]
  exact if_pos (by rw [hm, decide_eq_true hdue]; rfl)

theorem writeUtc_get {s : State} (hs : Sparse.sorted s.regs = true) (valid : Bool) (off : Fin 65536) :
    (s.writeUtc valid off.val).get Reg.TALLY_UTC_VALID = b2n valid ∧ (s.writeUtc valid off.val).get Reg.TALLY_UTC_OFFSET = off.val := by
  have hvalid := get_set_same s Reg.TALLY_UTC_VALID [] (b2n valid) hs
  have hb : b2n valid % 2 ^ Reg.TALLY_UTC_VALID.width = b2n valid := by cases valid <;> rfl
  have hset := sorted_set s Reg.TALLY_UTC_VALID [] (b2n valid) hs
  have hoff : off.val % 2 ^ Reg.TALLY_UTC_OFFSET.width = off.val := Nat.mod_eq_of_lt off.isLt
  unfold writeUtc
  extract_lets shown cleared
  have hcleared : cleared.regs = shown.regs := by
    unfold cleared
    split <;> rfl
  constructor
  · refine (anchor_get_outside _ 2 (by decide)).trans ((get_of_regs hcleared _ _).trans ?_)
    exact (get_set_other _ Reg.TALLY_UTC_OFFSET _ _ _ _ (by decide)).trans (hvalid.trans hb)
  · refine (anchor_get_outside _ 2 (by decide)).trans ((get_of_regs hcleared _ _).trans ?_)
    exact (get_set_same _ Reg.TALLY_UTC_OFFSET _ _ hset).trans hoff

/-- The nonce shows in its registers. -/
def nonceShown (s : State) (t : Nat) : State :=
  (List.range 8).foldl (fun u k => u.set Reg.TCL_NONCE_k_BYTES [t, k] (leAt (s.takeRandom 32).1 (4 * k) 4)) (s.takeRandom 32).2

theorem newNonce_eq (s : State) (t : Nat) : s.newNonce t = ((s.nonceShown t).set Reg.TCL_CTL_VALID [t] 1).modTally fun x =>
    { x with nonces := Sparse.put t ⟨slice (s.takeRandom 32).1 0 32, (s.nonceShown t).clock.optime⟩ x.nonces } := rfl

theorem nonceShown_regsOnly (s : State) (t : Nat) : RegsOnly (s.takeRandom 32).2 (s.nonceShown t) :=
  .foldl _ (fun _ _ _ h => h.set ..) _ (.refl _)

theorem nonceShown_sorted {s : State} (hs : Sparse.sorted s.regs = true) (t : Nat) : Sparse.sorted (s.nonceShown t).regs = true := by
  have htaken : WritesAt (fun _ => True) s (s.takeRandom 32).2 := (WritesAt.refl s).other rfl
  have hshown : WritesAt (fun _ => True) s (s.nonceShown t) :=
    htaken.foldl (List.range 8) _ fun k _ u => (WritesAt.refl u).set Reg.TCL_NONCE_k_BYTES [t, k] _ trivial
  exact hshown.sorted hs

theorem newNonce_facts {s : State} (hs : Sparse.sorted s.regs = true) (t : Nat) : (s.newNonce t).get Reg.TCL_CTL_VALID [t] = 1 ∧
    Sparse.find t (s.newNonce t).tally.nonces = some ⟨slice (s.takeRandom 32).1 0 32, s.clock.optime⟩ ∧
    (s.newNonce t).tally.queue = s.tally.queue := by
  obtain ⟨r, hr⟩ := nonceShown_regsOnly s t
  have hclock : (s.nonceShown t).clock.optime = s.clock.optime := congrArg (fun u => u.clock.optime) hr
  have hqueue : (s.nonceShown t).tally.queue = s.tally.queue := congrArg (fun u => u.tally.queue) hr
  have hset := get_set_same (s.nonceShown t) Reg.TCL_CTL_VALID [t] 1 (nonceShown_sorted hs t)
  rw [newNonce_eq, hclock]
  exact ⟨(get_of_regs (modTally_regs ..) _ _).trans hset, Sparse.find_put_same .., hqueue⟩

/-! Descriptors -/

/-- A read of an area with a record: what it writes, and how many records. -/
theorem tallyRead_of_area {s : State} {t q i : Nat} {d : Desc} (ha : d.arg0 % 16 ≤ 4) (hmod : d.len % 32 = 0) (hlo : 64 ≤ d.len)
    (hhi : d.len ≤ 2 ^ 20) (hwin : inWin t d.buf d.len = true) (hrec : ∃ x ∈ s.areaOf (d.arg0 % 16), x.2.seq.isSome = true) :
    ∃ bytes n, s.tallyRead t q i d [] = (s.memWrite t d.buf bytes).complete t q i 0 (32 + 32 * n) n ∧ 32 + 32 * n ≤ d.len := by
  have hguard : ¬ (decide (d.arg0 % 16 > 4) || d.len % 32 != 0 || decide (d.len < 64) || decide (d.len > 2 ^ 20) ||
      !inWin t d.buf d.len) = true := by
    simp [hmod, hwin]
    omega
  obtain ⟨x, hx, hsome⟩ := hrec
  have hfound : ((s.areaOf (d.arg0 % 16)).find? fun x => x.2.seq.isSome).isSome = true := List.find?_isSome.mpr ⟨x, hx, hsome⟩
  obtain ⟨y, hy⟩ := Option.isSome_iff_exists.mp hfound
  have hyseq : y.2.seq.isSome = true := List.find?_some (p := fun x : Nat × Place => x.2.seq.isSome) hy
  unfold tallyRead
  extract_lets a hit area l start oldest newest fromOld gap rest out next skipped
  rw [if_neg hguard]
  have harea : area = s.areaOf (d.arg0 % 16) := by
    unfold area hit
    simp only [List.any_nil, Bool.and_false, Bool.false_eq_true, if_false, List.map_id']
    rfl
  have holdest : oldest.isNone = false := by
    unfold oldest
    rw [harea, hy]
    exact Option.isNone_eq_false_iff.mpr hyseq
  have hout : out.length ≤ (d.len - 32) / 32 := List.length_take_le ..
  simp only [holdest, Bool.false_eq_true, if_false]
  exact ⟨_, out.length, rfl, by omega⟩

theorem sluiced_of_free {s : State} {code : Nat} (h : s.sluiceEntry code = none) (sev src p0 p1 p2 : Nat) :
    s.sluiced code sev src p0 p1 p2 = s.enqueue code sev src 0 p0 p1 p2 := by
  unfold sluiced
  rw [h]

/-- A mark that no sluice entry governs, with a place. -/
theorem tallyMark_of_place {s : State} (hs : Sparse.sorted s.regs = true) {t q i : Nat} {d : Desc} (hsev : d.arg0 / 2 ^ 16 % 8 ≤ 3)
    (hfree : s.sluiceEntry (0x8000 + d.arg0 % 4096) = none) (hp : s.hasPlace (0x8000 + d.arg0 % 4096) 0 = true) :
    s.tallyMark t q i d = (s.enqueue (0x8000 + d.arg0 % 4096) (d.arg0 / 2 ^ 16 % 8) (15 + t) 0 (d.arg1 % 2 ^ 32)
      (d.arg1 / 2 ^ 32) (d.arg0 / 2 ^ 32)).complete t q i 0 0 (s.get Reg.TALLY_SEQ_NEXT) := by
  have hfree := sluiced_of_free hfree (d.arg0 / 2 ^ 16 % 8) (15 + t) (d.arg1 % 2 ^ 32) (d.arg1 / 2 ^ 32) (d.arg0 / 2 ^ 32)
  have hseq := enqueue_seq_ne hs hp (d.arg0 / 2 ^ 16 % 8) (15 + t) (d.arg1 % 2 ^ 32) (d.arg1 / 2 ^ 32) (d.arg0 / 2 ^ 32)
  rw [← hfree] at hseq ⊢
  exact (if_neg (Nat.not_lt_of_le hsev)).trans (if_pos (bne_iff_ne.mpr hseq))

theorem clearKeys : ∀ n : Fin 17, Reg.TCL_CTL_VALID.key [n.val] ∉ enqueueKeys ∧
    Reg.TCL_CTL_VALID.key [n.val] ≠ Reg.TALLY_CLR_REFUSED.key [] ∧
    Reg.TALLY_CLR_REFUSED.key [] ≠ Reg.TCL_CTL_VALID.key [n.val] ∧ Reg.TALLY_STAT_DEGRADED.key [] ≠ Reg.TCL_CTL_VALID.key [n.val] ∧
    Reg.TALLY_SEQ_NEXT.key [] ≠ Reg.TCL_CTL_VALID.key [n.val] := by decide

theorem takeBuf_clearFault (s : State) (t : Nat) (d d' : Desc) (given tok : List Byte) (sig : Bool) :
    (s.takeBuf t d given).2.clearFault t d' tok sig = s.clearFault t d' tok sig := by
  unfold takeBuf
  dsimp only
  split <;> rfl

theorem takeBuf_tally (s : State) (t : Nat) (d : Desc) (given : List Byte) : (s.takeBuf t d given).2.tally = s.tally := by
  unfold takeBuf
  dsimp only
  split <;> rfl

/-- A clear whose token has been read, and whose nonce is used up. -/
def clearTaken (s : State) (t : Nat) (d : Desc) (data : List Byte) : State := (s.takeBuf t d data).2.dropNonce t

section
variable {s : State} (hs : Sparse.sorted s.regs = true) {t : Fin 17} (d : Desc) (data : List Byte)
include hs

theorem clearTaken_sorted : Sparse.sorted (s.clearTaken t.val d data).regs = true :=
  sorted_set (s.takeBuf t.val d data).2 Reg.TCL_CTL_VALID [t.val] 0 (by rw [takeBuf_regs]; exact hs)

theorem clearTaken_valid : (s.clearTaken t.val d data).get Reg.TCL_CTL_VALID [t.val] = 0 :=
  get_set_same (s.takeBuf t.val d data).2 Reg.TCL_CTL_VALID [t.val] 0 (by rw [takeBuf_regs]; exact hs)

end

theorem clearTaken_get (s : State) (t : Fin 17) (d : Desc) (data : List Byte) {g : Fld} {jx : List Nat}
    (h : g.key jx ≠ Reg.TCL_CTL_VALID.key [t.val]) : (s.clearTaken t.val d data).get g jx = s.get g jx :=
  (get_set_other (s.takeBuf t.val d data).2 Reg.TCL_CTL_VALID g [t.val] jx 0 h).trans (get_of_regs (takeBuf_regs ..) _ _)

theorem clearTaken_queue (s : State) (t : Nat) (d : Desc) (data : List Byte) : (s.clearTaken t d data).tally.queue = s.tally.queue :=
  (congrArg Tally.queue (takeBuf_tally s t d data) :)

theorem clearTaken_clearReqs (s : State) (t : Nat) (d : Desc) (data : List Byte) :
    (s.clearTaken t d data).tally.clearReqs = s.tally.clearReqs := (congrArg Tally.clearReqs (takeBuf_tally s t d data) :)

theorem tallyClear_of_read {s : State} {t q i : Nat} {d : Desc} {data : List Byte} (hwin : inWin t d.buf d.len = true)
    (hbuf : bufWaits t d data = false) (sig : Bool) : s.tallyClear t q i d data sig =
      match s.clearFault t d (s.takeBuf t d data).1 sig with
      | some why => (((s.clearTaken t d data).recordT 0x2011 3 0 t why).inc Reg.TALLY_CLR_REFUSED).complete t q i 5 0 0
      | none =>
        if (s.clearTaken t d data).on Reg.TALLY_STAT_DEGRADED then (s.clearTaken t d data).complete t q i 7 0 0
        else
          let n := (s.clearTaken t d data).get Reg.TALLY_SEQ_NEXT
          let u := ((s.clearTaken t d data).startWork t q i).recordT 0x2010 3 0 0 (sha384 (s.takeBuf t d data).1 / 2 ^ 352)
          if u.get Reg.TALLY_SEQ_NEXT == n then u.complete t q i 7 0 0
          else u.modTally fun x => { x with clearReqs := x.clearReqs ++ [⟨t, q, i, n, false⟩] } := by
  rw [← takeBuf_clearFault s t d d data]
  unfold tallyClear
  rw [if_neg (by rw [hwin]; exact Bool.false_ne_true), if_neg (by rw [hbuf]; exact Bool.false_ne_true)]
  rfl

/-- The clear waits for its record to be written. -/
def clearWaits (s : State) (t q i : Nat) (tok : List Byte) : State :=
  ((s.startWork t q i).recordT 0x2010 3 0 0 (sha384 tok / 2 ^ 352)).modTally fun x =>
    { x with clearReqs := x.clearReqs ++ [⟨t, q, i, s.get Reg.TALLY_SEQ_NEXT, false⟩] }

/-- The request of a clear takes a sequence number of its own. -/
theorem clearRecord_seq_ne {s : State} (hs : Sparse.sorted s.regs = true) (hp : s.hasPlace 0x2010 0 = true) (t q i p2 : Nat) :
    ((s.startWork t q i).recordT 0x2010 3 0 0 p2).get Reg.TALLY_SEQ_NEXT ≠ s.get Reg.TALLY_SEQ_NEXT :=
  enqueue_seq_ne (s := s.startWork t q i) hs hp 3 0 _ 0 p2

theorem tallyClear_of_good {s : State} {t q i : Nat} {d : Desc} {data : List Byte} {sig : Bool} (hwin : inWin t d.buf d.len = true)
    (hbuf : bufWaits t d data = false) (hfault : s.clearFault t d (s.takeBuf t d data).1 sig = none)
    (hs : Sparse.sorted (s.clearTaken t d data).regs = true) (hd : (s.clearTaken t d data).on Reg.TALLY_STAT_DEGRADED = false)
    (hp : (s.clearTaken t d data).hasPlace 0x2010 0 = true) :
    s.tallyClear t q i d data sig = (s.clearTaken t d data).clearWaits t q i (s.takeBuf t d data).1 := by
  rw [tallyClear_of_read hwin hbuf, hfault]
  unfold clearWaits
  generalize sha384 (s.takeBuf t d data).1 / 2 ^ 352 = p2
  have hseq := clearRecord_seq_ne hs hp t q i p2
  exact (if_neg (by rw [hd]; exact Bool.false_ne_true)).trans (if_neg fun h => hseq (beq_iff_eq.mp h))

theorem clearWaits_get (s : State) (t q i : Nat) (tok : List Byte) {g : Fld} {jx : List Nat} (h : g.key jx ∉ enqueueKeys) :
    (s.clearWaits t q i tok).get g jx = s.get g jx := enqueue_get_outside (s.startWork t q i) _ _ _ _ _ _ _ h

theorem clearWaits_clearReqs (s : State) (t q i : Nat) (tok : List Byte) :
    (s.clearWaits t q i tok).tally.clearReqs = s.tally.clearReqs ++ [⟨t, q, i, s.get Reg.TALLY_SEQ_NEXT, false⟩] :=
  congrArg (· ++ [(⟨t, q, i, s.get Reg.TALLY_SEQ_NEXT, false⟩ : ClearReq)]) (enqueue_clearReqs (s.startWork t q i) ..)

/-- A refused clear is recorded and counted. -/
def clearRefused (s : State) (t why : Nat) : State := (s.recordT 0x2011 3 0 t why).inc Reg.TALLY_CLR_REFUSED

theorem clearRefused_clearReqs (s : State) (t why : Nat) : (s.clearRefused t why).tally.clearReqs = s.tally.clearReqs :=
  enqueue_clearReqs ..

theorem clearRefused_get {s : State} (hs : Sparse.sorted s.regs = true) (t why : Nat) : (s.clearRefused t why).get Reg.TALLY_CLR_REFUSED =
    min (s.get Reg.TALLY_CLR_REFUSED + 1) (2 ^ Reg.TALLY_CLR_REFUSED.width - 1) := by
  have hrec := (recordT_keeps (.refl s) 0x2011 3 0 t why).regs hs
  have hget : (s.recordT 0x2011 3 0 t why).get Reg.TALLY_CLR_REFUSED = s.get Reg.TALLY_CLR_REFUSED :=
    enqueue_get_outside _ _ _ _ _ _ _ _ (by decide)
  rw [← hget]
  exact get_inc_same hrec _ _ _

end State

/-- Settles O24: what enters the queue is read off `enqueue`, and everything outside its fields stays. -/
theorem tallyUpkeep : Obligations.TallyUpkeep := by
  intro s hc ha
  refine ⟨fun o p hready hw hh ho => ?_, fun hutc hset => (next_if_pos ha).trans (congrArg _ ?_), fun r l hq hcl hd hdue hm hhead => ?_,
    fun port valid off hdom => ?_, fun n hdom => ?_, fun n x hx hborn => ?_⟩
  · have hdeferred := State.deferred_of_not_mramWaits hw
    let t := s.modTally fun t => { t with header := some (s.clock.optime, s.clock.pcycle) }
    have hwaits : t.mramWaits = false := hw
    refine ⟨t.writePtr, _, ?_, rfl, rfl, rfl, rfl, rfl, rfl, rfl⟩
    change execPointerPersist none s = _
    unfold execPointerPersist
    rw [hh]
    refine (next_if_pos ?_).trans (congrArg _ (State.mramWrite_of_not_waits hwaits .pointers none))
    rw [ha, hready, decide_eq_true ho, hdeferred]
    rfl
  · unfold State.anchorTick
    rw [hutc, hset]
    rfl
  · obtain ⟨hpos, hmax⟩ := State.unitLen_bounds hq hcl hhead hdue
    obtain ⟨hqueue, hleft⟩ := State.writeUnit_tally hq hcl s.tally.due
    refine ⟨_, s.unitLen s.tally.due, (next_if_pos ha).trans (congrArg _ (State.unitDone_of_due hd hdue hm)), hpos, hmax, ?_, ?_⟩
    · rw [State.flushDone_tally, hqueue]
    · rw [State.flushDone_tally, hleft]
  · obtain ⟨hvalid, hoff⟩ := State.writeUtc_get hc.regs valid off
    exact ⟨_, next_if_pos (by rw [ha, hdom, decide_eq_true port.isLt]; rfl), hvalid, hoff⟩
  · obtain ⟨hvalid, hnonce, hqueue⟩ := State.newNonce_facts hc.regs n.val
    exact ⟨_, _, next_if_pos (by rw [ha, hdom]; rfl), hvalid, hnonce, hqueue⟩
  · refine ⟨s.dropNonce n.val, ?_, State.get_set_same _ _ _ 0 hc.regs, rfl⟩
    change execClearNonceExpiry n s = _
    unfold execClearNonceExpiry
    rw [hx]
    exact next_if_pos (by rw [ha, decide_eq_true hborn]; rfl)

/-- Settles O25: each descriptor takes the branch that its check leaves. -/
theorem tallyDescriptors : Obligations.TallyDescriptors := by
  intro s t q i d hc ha
  refine ⟨fun hr harg hmod hlo hhi hwin hrec => ?_, fun hr harg => ?_, fun hr hsev hfree hp => ?_,
    fun data hr hwin hbuf hfault hd hp => ?_, fun data sig why hr hwin hbuf hfault => ?_⟩
  · obtain ⟨bytes, n, hread, hn⟩ := State.tallyRead_of_area (q := q.val) (i := i) harg hmod hlo hhi hwin hrec
    refine ⟨bytes, n, (next_if_neg (by rw [ha]; decide)).trans ?_, hn⟩
    rw [hr]
    exact congrArg _ hread
  · refine (next_if_neg (by rw [ha]; decide)).trans ?_
    rw [hr]
    exact congrArg _ (if_pos (by simp [harg]))
  · refine (next_if_neg (by rw [ha]; decide)).trans ?_
    rw [hr]
    exact congrArg _ (State.tallyMark_of_place hc.regs hsev hfree hp)
  · obtain ⟨hkey, -, -, hkd, hks⟩ := State.clearKeys t
    have hsorted := State.clearTaken_sorted hc.regs (t := t) d data
    have hdegraded : (s.clearTaken t.val d data).on Reg.TALLY_STAT_DEGRADED = false :=
      (congrArg (· != 0) (State.clearTaken_get s t d data hkd)).trans hd
    have hseq := State.clearTaken_get s t d data hks
    have hplace : (s.clearTaken t.val d data).hasPlace 0x2010 0 = true := by
      unfold State.hasPlace
      rw [hdegraded, State.clearTaken_queue, ← hd]
      exact hp
    refine ⟨(s.clearTaken t.val d data).clearWaits t.val q.val i (s.takeBuf t.val d data).1, (next_if_neg (by rw [ha]; decide)).trans ?_, ?_, ?_⟩
    · rw [hr]
      exact congrArg _ (State.tallyClear_of_good hwin hbuf hfault hsorted hdegraded hplace)
    · exact (State.clearWaits_get _ _ _ _ _ hkey).trans (State.clearTaken_valid hc.regs d data)
    · rw [State.clearWaits_clearReqs, State.clearTaken_clearReqs, hseq]
  · obtain ⟨-, -, hkr, -, -⟩ := State.clearKeys t
    have hsorted := State.clearTaken_sorted hc.regs (t := t) d data
    refine ⟨(s.clearTaken t.val d data).clearRefused t.val why, (next_if_neg (by rw [ha]; decide)).trans ?_, ?_, ?_⟩
    · rw [hr]
      refine congrArg _ ((State.tallyClear_of_read hwin hbuf sig).trans ?_)
      rw [hfault]
      rfl
    · rw [State.clearRefused_clearReqs, State.clearTaken_clearReqs]
    · rw [State.clearRefused_get hsorted, State.clearTaken_get s t d data hkr]

end Sys2Proof.Machine

/-!
Reads of registers with fixed values (R12).
-/

namespace Sys2Proof.Machine

theorem State.readAccess_cpu (s : State) (i : Nat) : s.readAccess (.cpu i) false 0 4 = s.readReg (.cpu i) 0 := by
  unfold State.readAccess
  exact if_neg (by decide)

theorem State.readReg_fst (s : State) (r : Requester) (off : Nat) : (s.readReg r off).1 = s.readWord r.code off := rfl

/-- A CPU pair's read of a register answers its word. -/
theorem exec_readClear_cpu {s : State} (ha : s.alive = true) (i : Fin 2) :
    exec (.readClear (.cpu i.val) false 0 4) s =
      .next ((s.readReg (.cpu i.val) 0).2.emit (.read (.cpu i.val) 0 (BitVec.ofNat 32 (s.readReg (.cpu i.val) 0).1))) := by
  have hreach : (s.alive && s.reaches (.cpu i.val) false) = true := by
    rw [ha]
    have hi := i.isLt
    simp [State.reaches]
    omega
  change execReadClear (.cpu i.val) false 0 4 s = _
  unfold execReadClear
  rw [if_pos hreach, State.readAccess_cpu]

/-- A state whose register file lists another part number than the one IDENT has after reset. -/
def otherIdent : State := State.reset.set Reg.IDENT_PART [] 0

theorem otherIdent_reads : BitVec.ofNat 32 (otherIdent.readWord (Requester.cpu (0 : Fin 2).val).code 0) = (0x4C4A0000 : Word) := by decide +kernel

theorem otherIdent_canon : otherIdent.Canon := 
  ⟨State.sorted_set _ _ _ _ resetCanon.regs, resetCanon.window, resetCanon.tally⟩

/-- Refutes O26: a read of IDENT answers what the register file lists for it, and a state in canonical form may list another value. -/
theorem not_registerCommands : ¬ Obligations.RegisterCommands := by
  intro h
  obtain ⟨-, -, hread, -⟩ := h otherIdent otherIdent_canon (by decide +kernel)
  have hexec := (exec_readClear_cpu (by decide +kernel) 0).symm.trans (hread 0)
  have hout := congrArg State.out (Host.Outcome.next.inj hexec)
  have hword := (Out.read.inj (List.cons.inj hout).1).2.2
  rw [State.readReg_fst] at hword
  exact absurd (otherIdent_reads.symm.trans hword) (by decide)

end Sys2Proof.Machine

/-!
Units that degrade and are restored, and credits (R24, R91 to R94).
-/

namespace Sys2Proof.Machine

theorem bit_clear_mod (x i w : Nat) : bit ((x ^^^ (x &&& 2 ^ i)) % 2 ^ w) i = false := by
  rw [bit_eq_testBit, Nat.testBit_mod_two_pow, ← bit_eq_testBit, bit_xor_and_self, Bool.and_false]

namespace State

/-- The field of TURN_OVR that shows whether a unit is degraded, and its bit there. -/
def degField (u : Nat) : Fld := if unitJob u == 3 then Reg.TURN_OVR_DEG_PORT else Reg.TURN_OVR_DEGRADED

def degBit (u : Nat) : Nat := if unitJob u == 3 then unitPort u else u

theorem degraded_eq (s : State) (u : Fin 10) : s.degraded u.val = bit (s.get (degField u.val)) (degBit u.val) := by
  fin_cases u <;> rfl

theorem degBit_lt : ∀ u : Fin 10, degBit u.val < (degField u.val).width := by decide

/-- Bits of a field are set or cleared. -/
def putBits (s : State) (f : Fld) (m : Nat) (on : Bool) : State := if on then s.setBits f [] m else s.clrBits f [] m

theorem putBits_bit {s : State} (hs : Sparse.sorted s.regs = true) {f : Fld} {i : Nat} (h : i < f.width) (on : Bool) :
    bit ((s.putBits f (2 ^ i) on).get f) i = on := by
  cases on
  · exact (congrArg (bit · i) (get_set_same s f [] _ hs)).trans (bit_clear_mod _ _ _)
  · exact (congrArg (bit · i) (get_set_same s f [] _ hs)).trans (bit_or_self h)

theorem putBits_regsOnly {a b : State} (h : RegsOnly a b) (f : Fld) (m : Nat) (on : Bool) : RegsOnly a (b.putBits f m on) := by
  cases on
  · exact h.set ..
  · exact h.set ..

theorem showDegraded_eq (s : State) (u : Nat) (on : Bool) : s.showDegraded u on =
    if unitJob u == 3 then
      (let t := s.putBits Reg.TURN_OVR_DEG_PORT (2 ^ unitPort u) on
       if t.get Reg.TURN_OVR_DEG_PORT == 0 then t.clrBits Reg.TURN_OVR_DEGRADED [] 8 else t.setBits Reg.TURN_OVR_DEGRADED [] 8)
    else s.putBits Reg.TURN_OVR_DEGRADED (2 ^ u) on := rfl

theorem showDegraded_regsOnly (s : State) (u : Nat) (on : Bool) : RegsOnly s (s.showDegraded u on) := by
  have hput (f : Fld) (m : Nat) := putBits_regsOnly (.refl s) f m on
  rw [showDegraded_eq]
  split
  · dsimp only
    split
    · exact (hput _ _).set ..
    · exact (hput _ _).set ..
  · exact hput _ _

theorem showDegraded_degraded {s : State} (hs : Sparse.sorted s.regs = true) (u : Fin 10) (on : Bool) :
    (s.showDegraded u.val on).degraded u.val = on := by
  have hlt := degBit_lt u
  rw [degraded_eq, showDegraded_eq]
  unfold degField degBit at *
  split
  next h =>
    rw [if_pos h, if_pos h] at hlt
    have hbit := putBits_bit hs hlt on
    dsimp only
    split
    · exact (congrArg (bit · _) (get_set_other _ _ _ _ _ _ (by decide))).trans hbit
    · exact (congrArg (bit · _) (get_set_other _ _ _ _ _ _ (by decide))).trans hbit
  next h =>
    rw [if_neg h, if_neg h] at hlt
    exact putBits_bit hs hlt on

/-- A record changes registers, tally book, clock and console. -/
theorem record_eq (s : State) (code sev src p1 p2 : Nat) :
    ∃ r t c o, s.record code sev src p1 p2 = { s with regs := r, tally := t, clock := c, out := o } := by
  have h := congrArg (fun u : State => { u with
    regs := (s.record code sev src p1 p2).regs, tally := (s.record code sev src p1 p2).tally,
    clock := (s.record code sev src p1 p2).clock, out := (s.record code sev src p1 p2).out }) (record_frame s code sev src p1 p2)
  exact ⟨_, _, _, _, h⟩

/-- A record leaves what shows the degraded units. -/
theorem record_degraded (s : State) (code sev src p1 p2 : Nat) (u : Fin 10) :
    (s.record code sev src p1 p2).degraded u.val = s.degraded u.val := by
  rw [degraded_eq, degraded_eq, record_get]
  revert u
  decide

theorem record_job (s : State) (code sev src p1 p2 u : Nat) : (s.record code sev src p1 p2).job u = s.job u := by
  unfold job
  rw [record_clock_jobs]

theorem modJob_job {s : State} {u : Nat} (h : u < s.clock.jobs.length) (f : Job → Job) : (s.modJob u f).job u = f (s.job u) :=
  getD_listMod_same h f default

/-- A unit's degradation changed, and recorded: what shows, and what else changes. -/
theorem degradedRecord_facts {s : State} (hs : Sparse.sorted s.regs = true) (u : Fin 10) (hu : u.val < s.clock.jobs.length) (on : Bool)
    (f : Job → Job) (code sev src p1 p2 : Nat) :
    let t := ((s.showDegraded u.val on).modJob u.val f).record code sev src p1 p2
    t.degraded u.val = on ∧ t.job u.val = f (s.job u.val) ∧ { t with regs := s.regs, clock := s.clock, tally := s.tally, out := s.out } = s := by
  obtain ⟨r, hr⟩ := showDegraded_regsOnly s u.val on
  refine ⟨?_, ?_, ?_⟩
  · rw [record_degraded]
    exact showDegraded_degraded hs u on
  · rw [record_job, hr]
    exact modJob_job hu f
  · obtain ⟨_, _, _, _, hrec⟩ := record_eq ((s.showDegraded u.val on).modJob u.val f) code sev src p1 p2
    rw [hrec, hr]
    rfl

end State

/-- Settles O30: a degradation shows in its bit of TURN_OVR, and a record leaves that register. -/
theorem jobCommands : Obligations.JobCommands := by
  intro s hc ha
  refine ⟨fun u h2 hovers hlen hdeg => ?_, fun u hdeg hgood hlen => ?_, fun u l h k h6 hrun hk hheld => ?_, next_if_pos ha,
    fun n hm => (next_if_pos ha).trans (congrArg _ (if_neg ?_))⟩
  · obtain ⟨hon, hjob, hframe⟩ := State.degradedRecord_facts hc.regs u hlen true
      (fun j => { j with degSince := some s.clock.turn, good := 0 }) (0x3020 + State.unitJob u.val) 4 (unitSrc u.val) 3 (unitPort u.val)
    have hexec : exec (.jobDegraded u) s = _ := next_if_pos (by rw [ha, hdeg, bne_iff_ne.mpr h2, decide_eq_true hovers]; rfl)
    exact ⟨_, hexec, hon, congrArg Job.degSince hjob, congrArg Job.good hjob, hframe⟩
  · obtain ⟨hoff, hjob, hframe⟩ := State.degradedRecord_facts hc.regs u hlen false
      (fun j => { j with degSince := none, good := 0, overs := 0 }) (0x3030 + State.unitJob u.val) 1 (unitSrc u.val)
      (s.clock.turn - (s.job u.val).degSince.getD s.clock.turn) (unitPort u.val)
    have hexec : exec (.jobRestored u) s = _ := next_if_pos (by rw [ha, hdeg, decide_eq_true hgood]; rfl)
    exact ⟨_, hexec, hoff, congrArg Job.degSince hjob, congrArg Job.overs hjob, hframe⟩
  · refine (next_if_pos ?_).trans (congrArg _ ?_)
    · rw [ha, hrun, Option.any_some, Bool.true_and]
      exact bne_iff_ne.mpr hk
    · unfold State.finishJob
      rw [if_neg (by simp [h6]), hheld]
  · rw [hm]
    exact Bool.false_ne_true

end Sys2Proof.Machine

/-!
Time of day and synchronisation (R197, R198, R203, R205 to R209).
-/

namespace Sys2Proof.Machine

namespace State

/-! SYNCED after SELF_SILENT -/

/-- A node about to be SYNCED shows its new state. -/
def syncedShown (s : State) : State :=
  (((s.set Reg.LSTART_STAT_PREV [] s.lstate).set Reg.LSTART_STAT_STATE [] 4).set Reg.LSTART_STAT_TURNS [] 0).set
    Reg.TURN_STAT_SRC [] (tickSource 4 (s.lstate != 0))

/-- SYNCED itself. -/
def syncedBegun (s : State) (old : Nat) : State :=
  (s.flag Reg.SYNC_STAT_SELF_SILENT [] false).modRed fun r => { r with noneSince := if old == 0 then some s.clock.up else r.noneSince }

theorem toLine_synced {s : State} (h : s.lstate ≠ 4) :
    s.toLine 4 = ((s.syncedShown.followChange s.following).syncedBegun s.lstate).weirsFollow.relays := by
  unfold toLine
  exact (if_neg (by simp [h])).trans rfl

theorem syncedShown_writes (s : State) : WritesAt ToListenPlace s s.syncedShown :=
  (((WritesAt.refl s |>.set Reg.LSTART_STAT_PREV [] _ (.inl (.inl (by decide)))).set Reg.LSTART_STAT_STATE [] _ (.inr rfl)).set
    Reg.LSTART_STAT_TURNS [] _ (.inl (.inl (by decide)))).set Reg.TURN_STAT_SRC [] _ (.inl (.inl (by decide)))

theorem syncedBegun_writes {a b : State} (h : WritesAt ListenPlace a b) (old : Nat) : WritesAt ListenPlace a (b.syncedBegun old) :=
  (h.flag Reg.SYNC_STAT_SELF_SILENT [] false (.inl (by decide))).other rfl

theorem toSynced_icount {s : State} (h : s.lstate ≠ 4) : (s.toLine 4).icount = s.icount := by
  rw [toLine_synced h]
  have hbegun := syncedBegun_writes ((WritesAt.refl s.syncedShown).followChange s.following) s.lstate
  have hall := ((syncedShown_writes s).trans (hbegun.weirsFollow.mono fun _ => .inl)).other (relays_regs _)
  exact hall.get Reg.INAUG_ICOUNT_ICOUNT [] (by unfold ToListenPlace ListenPlace; decide)

/-! The pulse -/

/-- A pulse that has just risen does not end yet. -/
theorem ppsSettle_of_rising {s : State} (he : s.clock.up < s.sync.ppsEnd) (hen : s.on Reg.SYNC_CTL_PPS_OUT_EN = true) : s.ppsSettle = s := by
  refine if_neg ?_
  rw [hen, decide_eq_false (Nat.not_le_of_lt he)]
  simp

theorem lt_inNs (s : State) {ns : Nat} (h : 0 < ns) : s.clock.up < s.inNs ns :=
  Nat.lt_add_of_pos_right (Nat.mul_pos h (Nat.two_pow_pos 32))

/-! Arming and time messages -/

/-- The body of a time message. -/
def timeBody (s : State) : List Byte :=
  beBytes 8 (s.clock.turn + 4) ++ beBytes 8 ((s.clock.ntime - s.clock.phase) / nsUnit + 4 * s.turnNs) ++
    beBytes 1 (s.get Reg.TIME_STAT_ORIGIN) ++ beBytes 7 0

end State

theorem exec_ppsOutPulse {s : State} (ha : s.alive = true) (hen : s.on Reg.SYNC_CTL_PPS_OUT_EN = true)
    (hsec : s.nowNs / 1000000000 ≠ s.sync.ppsSec)
    (hw : s.nowNs % 1000000000 < max 1 (s.get Reg.SYNC_CTL_PPS_W) * 1000000) : exec .ppsOutPulse s =
      .next ((s.modSync fun y => { y with
        ppsSec := s.nowNs / 1000000000
        ppsEnd := s.inNs (max 1 (s.get Reg.SYNC_CTL_PPS_W) * 1000000 - s.nowNs % 1000000000) }).modPins fun p => { p with ppsOut := true }) := by
  have hpos : 0 < max 1 (s.get Reg.SYNC_CTL_PPS_W) * 1000000 - s.nowNs % 1000000000 := Nat.sub_pos_of_lt hw
  have hguard : (s.alive && s.on Reg.SYNC_CTL_PPS_OUT_EN && s.nowNs / 1000000000 != s.sync.ppsSec) = true := by
    rw [ha, hen, bne_iff_ne.mpr hsec]
    rfl
  exact (next_if_pos hguard).trans (congrArg _ (State.ppsSettle_of_rising (s.lt_inNs hpos) hen))

theorem exec_gptpAlign {s : State} {ns : Nat} (ha : s.alive = true) (hup : s.fwUp = true) (hgm : s.gmSelected = true)
    (hat : ∀ t, s.sync.gptpAt = some t → s.since t 1000000000 = true) :
    exec (.gptpAlign ns) s = .next ((s.modSync fun y => { y with gptpAt := some s.clock.up }).alignTime ns 2) := by
  have hall : (s.sync.gptpAt.all fun t => s.since t 1000000000) = true := by
    cases h : s.sync.gptpAt with
    | none => exact Option.all_none
    | some t => rw [Option.all_some, hat t h]
  have hguard : (s.alive && s.fwUp && s.gmSelected && s.sync.gptpAt.all fun t => s.since t 1000000000) = true := by
    rw [ha, hup, hgm, hall]
    rfl
  exact next_if_pos hguard

theorem exec_timeMessageSend {s : State} (ha : s.alive = true) (hcpu : s.cpuUp 0 = true) (hsrc : s.ownSource = true)
    (hturn : s.clock.turn % 64 = 0) (hout : s.outranked = false) (hsent : s.sync.timeSent ≠ some s.clock.turn) :
    exec .timeMessageSend s = .next (({ (s.modSync fun y => { y with timeSent := some s.clock.turn }) with
      free := s.free + 1 }).lineOut 4 0xFFFF 2 ((Config.freeValue s.free).toNat % 2 ^ 16) 0 s.timeBody none).2 := by
  have hguard : (s.alive && s.cpuUp 0 && s.ownSource && s.clock.turn % 64 == 0 && !s.outranked &&
      s.sync.timeSent != some s.clock.turn) = true := by
    rw [ha, hcpu, hsrc, hturn, hout, bne_iff_ne.mpr hsent]
    rfl
  change execTimeMessageSend s = _
  unfold execTimeMessageSend
  rw [if_pos hguard]
  rfl

/-- Settles O31: one lemma for each command whose guard asks for a time. -/
theorem timeCommands : Obligations.TimeCommands := by
  intro s hc ha
  refine ⟨fun hl hgood hdec hic => ?_, fun hwide hsince => ?_, fun hconv hcount => ?_, fun hen hsec hw => ?_, ?_, fun harmed => ?_,
    fun harm hnot => ?_, fun ns hup hgm hat => ?_, fun hcpu hsrc hturn hout hsent => ?_, fun sender body hcpu => ?_, fun t o halign => ?_⟩
  · have hicount : ((s.toLine 4).record 0x3302 1 3 s.sync.silentTurns (s.get Reg.SYNC_OFFSET_OFFSET)).icount = s.icount :=
      (State.record_get _ _ _ _ _ _ _ _ (by decide)).trans (State.toSynced_icount (by rw [hl]; decide))
    refine (next_if_pos ?_).trans (congrArg _ (if_neg ?_))
    · rw [ha, hl, hdec, decide_eq_true hgood]
      rfl
    · rw [hicount]
      simpa using hic
  · refine ⟨_, next_if_pos ?_, State.get_set_same s _ _ 0 hc.regs, rfl⟩
    rw [ha, hwide, decide_eq_true hsince]
    rfl
  · refine ⟨_, next_if_pos ?_, rfl⟩
    rw [ha, hconv, decide_eq_true hcount]
    rfl
  · exact ⟨_, exec_ppsOutPulse ha hen hsec hw, rfl, rfl, rfl, rfl⟩
  · exact ⟨s.armTai, next_if_pos ha, State.get_set_same s _ _ 1 hc.regs, rfl⟩
  · have hset : (s.set Reg.TAI_CTL_ARM [] 0).get Reg.TAI_SET_SEC_SEC = s.get Reg.TAI_SET_SEC_SEC := State.get_set_other _ _ _ _ _ _ (by decide)
    refine (next_if_pos (by rw [ha, harmed]; rfl)).trans ?_
    rw [← hset]
    rfl
  · have hmissed := State.sorted_set s Reg.TAI_CTL_ARM [] 0 hc.regs
    refine ⟨((s.set Reg.TAI_CTL_ARM [] 0).set Reg.TAI_CTL_MISSED [] 1).modSync fun y => { y with armed := none },
      next_if_pos (by rw [ha, harm, hnot]; rfl), ?_, State.get_set_same (s.set Reg.TAI_CTL_ARM [] 0) Reg.TAI_CTL_MISSED [] 1 hmissed, rfl⟩
    exact (State.get_set_other (s.set Reg.TAI_CTL_ARM [] 0) Reg.TAI_CTL_MISSED Reg.TAI_CTL_ARM [] [] 1 (by decide)).trans
      (State.get_set_same s _ _ 0 hc.regs)
  · exact exec_gptpAlign ha hup hgm hat
  · refine ⟨_, s.timeBody, exec_timeMessageSend ha hcpu hsrc hturn hout hsent, ?_, Nat.mod_lt _ (by decide)⟩
    unfold State.timeBody
    rw [List.append_assoc, List.append_assoc, beAt_front]
    exact congrArg ((s.clock.turn + 4) % ·) (by decide : 256 ^ 8 = 2 ^ 64)
  · exact next_if_pos (by rw [ha, hcpu]; rfl)
  · change execTaiAlignAtTick s = _
    unfold execTaiAlignAtTick
    rw [halign]
    refine congrArg _ ((if_neg ?_).trans (if_pos ?_))
    · simp [ha]
    · exact beq_self_eq_true _

end Sys2Proof.Machine

/-!
Line frames received (R150, R155, R171, R174).
-/

namespace Sys2Proof.Machine

namespace State

theorem weirRef_regs (s : State) (port phase slot hops : Nat) (corr : Int) : (s.weirRef port phase slot hops corr).regs = s.regs := by
  unfold weirRef
  dsimp only
  split <;> rfl

/-- A node that does not follow the line relays nothing. -/
theorem rxRelay_good_following {s u : State} {n : Nat} {f : Frame} {w : RelayWord} {c : RxCheck} (h : s.rxRelay n f w c = (.good, u)) :
    s.following = true := by
  cases hf : s.following with
  | true => rfl
  | false =>
    unfold rxRelay at h
    extract_lets t tag at h
    have ht : t.following = false := by
      unfold t
      split
      · exact (congrArg (fun x => x == 3 || x == 4 || x == 5) (get_of_regs (weirRef_regs ..) Reg.LSTART_STAT_STATE [])).trans hf
      · exact hf
    rw [ht, if_neg Bool.false_ne_true] at h
    split at h
    · exact absurd (congrArg Prod.fst h) (by simp)
    · dsimp only at h
      split at h
      · exact absurd (congrArg Prod.fst h) (by simp)
      · exact absurd (congrArg Prod.fst h) (by simp)

theorem lstate_ne_one_of_following {s : State} (h : s.following = true) : (s.lstate == 1) = false := by
  cases h1 : s.lstate == 1 with
  | false => rfl
  | true =>
    unfold following at h
    rw [beq_iff_eq.mp h1] at h
    exact absurd h (by decide)

/-- A sound frame passes the reception of a crosslink. -/
theorem rxX_of_sound {s : State} {n : Nat} {f : Frame} {c : RxCheck} (h : s.rxSound f c true = true) : s.rxX n f c = (true, s) := by
  unfold rxSound at h
  simp only [Bool.and_eq_true] at h
  obtain ⟨⟨⟨hfcs, hform⟩, hhcrc⟩, -⟩ := h
  simp [rxX, rxCheck, hfcs, hform, hhcrc]

theorem rxStaticX_of_sound {s : State} {n : Nat} {f : Frame} {c : RxCheck} {ps : List Parcel} (hp : f.payload = .parcels ps)
    (h : s.rxSound f c true = true) (hf : s.following = true) (hsend : f.hdr.sender ≠ s.ownPos) (hslot : s.slotArmed f.hdr.slot = true) :
    s.rxStaticX n f c = (s.storeCopy f.hdr.slot f (readParcels ps)).witnessHome (!s.pins.strapChan) f := by
  unfold rxStaticX
  rw [hp]
  dsimp only
  rw [rxX_of_sound h]
  exact if_pos (by rw [hf, hslot, bne_iff_ne.mpr hsend]; rfl)

theorem rxConfirm_of_good {s u : State} {n : Nat} {f : Frame} {w : RelayWord} {b : Confirm} {c : RxCheck}
    (hsound : s.rxSound f c (s.tagOk n f) = true) (h : (s.readConfirm n f b).rxRelay n f w c = (.good, u)) :
    s.rxConfirm n f w b c = (((u.storeConfirm (n / 2) f b).witness1 (n % 2 == 1) f).toPartner f).relayOn n f w c false
      ((s.readConfirm n f b).mergeConfirm b != b) fun w => .confirm w ((s.readConfirm n f b).mergeConfirm b) := by
  have hsolo := lstate_ne_one_of_following (rxRelay_good_following h)
  unfold rxConfirm
  simp only [hsound, when, if_true, h, hsolo, Bool.false_and, Bool.false_eq_true, if_false]

theorem rxClaim_of_good {s u : State} {n : Nat} {f : Frame} {w : RelayWord} {b : Claim} {c : RxCheck}
    (h : s.rxRelay n f w c = (.good, u)) : s.rxClaim n f w b c =
      (((u.storeClaim b).noteOwnClaim).toPartner f).relayOn n f w c false (s.mergeClaim b != b) fun w => .claim w (s.mergeClaim b) := by
  unfold rxClaim
  rw [h]

theorem rxService_of_good {s u : State} {n : Nat} {f : Frame} {w : RelayWord} {b : Service} {c : RxCheck}
    (h : s.rxRelay n f w c = (.good, u)) : s.rxService n f w b c =
      ((u.storeService n b).toPartner f).relayOn n f w c false (s.mergeService b != b) fun w => .service w (s.mergeService b) := by
  have hf := rxRelay_good_following h
  unfold rxService
  simp only [h, hf, when, Bool.not_true, Bool.false_and, Bool.false_eq_true, if_false]

theorem rxDirectoryX_of_sound {s : State} {n : Nat} {f : Frame} {e : DirEntry} {c : RxCheck} (h : s.rxSound f c true = true)
    (hf : s.following = true) (hphase : s.phase = 2)
    (hnew : (s.inaug.wave.any fun x => x.1 == b2n c.end2 && x.2.1 == f.hdr.slot) = false) :
    s.rxDirectoryX n f e c = { s with inaug := { s.inaug with wave := s.inaug.wave ++ [(b2n c.end2, f.hdr.slot, e)] } } := by
  unfold rxDirectoryX
  rw [rxX_of_sound h]
  simp [hf, storeEntry, hphase, hnew, modInaug]

end State

/-- Settles O34: a sound frame passes its reception checks unchanged and then goes to the branch of its kind. -/
theorem framesReceived : Obligations.FramesReceived := by
  intro s n f c ha
  have hlive : ¬ (!s.alive) = true := by rw [ha]; decide
  have hup (h4 : s.pst n.val = 4) : ¬ (!s.alive || s.pst n.val != 4) = true := by rw [ha, h4]; decide
  refine ⟨fun k hx hp => (next_if_neg hlive).trans ?_, fun q h hp => (next_if_neg hlive).trans ?_,
    fun d hx hp => (next_if_neg hlive).trans ?_, fun d hx h4 hp => (next_if_neg hlive).trans ?_, fun hk hx => (next_if_neg ?_).trans ?_,
    fun ps hk hx h4 hp hsound hf hsend hslot => (next_if_neg ?_).trans ?_,
    fun w b u h4 hx hp hsound hr => ⟨_, (next_if_neg (hup h4)).trans ?_, rfl⟩,
    fun w b u h4 hx hp hr => (next_if_neg (hup h4)).trans ?_, fun w b u h4 hx hp hr => (next_if_neg (hup h4)).trans ?_,
    fun w e h4 hx hphase hf hp hsound hnew => (next_if_neg (hup h4)).trans ?_⟩
  · rw [hp]
    exact next_if_neg (by rw [hx]; decide)
  · rw [hp]
  · rw [hp]
    exact next_if_neg (by rw [hx]; decide)
  · rw [hp]
    exact (next_if_pos hx).trans (next_if_pos (by rw [h4]; rfl))
  · rw [ha, hk]
    decide
  · exact next_if_neg (by rw [hx]; decide)
  · rw [ha, hk]
    decide
  · exact ((next_if_pos hx).trans (next_if_pos (by rw [h4]; rfl))).trans (congrArg _ (State.rxStaticX_of_sound hp hsound hf hsend hslot))
  · rw [hp]
    exact (next_if_neg (by rw [hx]; decide)).trans (congrArg _ (State.rxConfirm_of_good hsound hr))
  · rw [hp]
    exact (next_if_neg (by rw [hx]; decide)).trans (congrArg _ (State.rxClaim_of_good hr))
  · rw [hp]
    exact (next_if_neg (by rw [hx]; decide)).trans (congrArg _ (State.rxService_of_good hr))
  · rw [hp]
    exact (next_if_pos hx).trans (congrArg _ (State.rxDirectoryX_of_sound hsound hf hphase hnew))

end Sys2Proof.Machine

/-!
Line frames sent (R174, R175, R199, R218, R318).
-/

namespace Sys2Proof.Machine

namespace State

theorem recordS_eq (s : State) (code sev src p1 p2 : Nat) :
    ∃ r t c o, s.recordS code sev src p1 p2 = { s with regs := r, tally := t, clock := c, out := o } := by
  have h := congrArg (fun u : State => { u with
    regs := (s.recordS code sev src p1 p2).regs, tally := (s.recordS code sev src p1 p2).tally,
    clock := (s.recordS code sev src p1 p2).clock, out := (s.recordS code sev src p1 p2).out }) (recordS_frame s code sev src p1 p2)
  exact ⟨_, _, _, _, h⟩

/-- From `a` to `b` only registers, weirs, the tally book, the clock and what is put out change. -/
def SendOnly (a b : State) : Prop := ∃ r w t c o, b = { a with regs := r, weirs := w, tally := t, clock := c, out := o }

namespace SendOnly

variable {a b c : State}

theorem refl (a : State) : SendOnly a a := ⟨_, _, _, _, _, rfl⟩

theorem trans (h : SendOnly a b) (k : SendOnly b c) : SendOnly a c := by
  obtain ⟨_, _, _, _, _, rfl⟩ := h
  obtain ⟨_, _, _, _, _, rfl⟩ := k
  exact ⟨_, _, _, _, _, rfl⟩

theorem cast_snd {α : Type} {p : α × State} {x : α} {u : State} (h : SendOnly a p.2) (hp : p = (x, u)) : SendOnly a u := by
  subst hp
  exact h

theorem set (s : State) (f : Fld) (ix : List Nat) (v : Nat) : SendOnly s (s.set f ix v) := ⟨_, _, _, _, _, rfl⟩

theorem modWeirs (s : State) (f : Weirs → Weirs) : SendOnly s (s.modWeirs f) := ⟨_, _, _, _, _, rfl⟩

theorem weirCount (s : State) (w sender row : Nat) : SendOnly s (s.weirCount w sender row) := modWeirs s _

theorem recordS (s : State) (code sev src p1 p2 : Nat) : SendOnly s (s.recordS code sev src p1 p2) := by
  obtain ⟨_, _, _, _, h⟩ := recordS_eq s code sev src p1 p2
  exact ⟨_, _, _, _, _, h⟩

theorem ownBlock (s : State) (w port row slot : Nat) : SendOnly s (s.ownBlock w port row slot) :=
  ((modWeirs s _).trans (set ..)).trans (recordS ..)

theorem weirCheck (s : State) (port phase : Nat) (fwd : Bool) (f : Frame) : SendOnly s (s.weirCheck port phase fwd f).2 := by
  unfold State.weirCheck
  extract_lets w e st x own start now sender staleBlock counts
  split
  split
  · split
    · exact weirCount s w f.hdr.sender 2
    · exact refl s
  · split
    · exact ⟨_, _, _, _, _, rfl⟩
    · split
      extract_lets passed judged row
      have hjudged : SendOnly s judged := modWeirs s _
      clear_value judged row
      cases row with
      | none => exact hjudged
      | some r =>
        have hcounted := hjudged.trans (weirCount judged w sender r)
        dsimp only
        split
        · exact hcounted.trans (ownBlock ..)
        · exact hcounted

theorem transmit (s : State) (port phase : Nat) (fwd stomp : Bool) (f : Frame) : SendOnly s (s.transmit port phase fwd stomp f) := by
  have h := weirCheck s port phase fwd f
  unfold State.transmit
  split
  next u hu => exact (h.cast_snd hu).trans ⟨_, _, _, _, _, rfl⟩
  next u hu => exact (h.cast_snd hu).trans ⟨_, _, _, _, _, rfl⟩
  next u hu => exact h.cast_snd hu

end SendOnly

theorem range_four : List.range 4 = [0, 1, 2, 3] := rfl

end State

open State

/-- A node in COLDSTART with its floor written counts its KICKOFF, and sends it on its line ports. -/
theorem exec_kickoffSend {s : State} (ha : s.alive = true) (hl : s.lstate = 2) (hf : s.start.floorWait = false)
    (ht : s.todo .kickoff = true) :
    ∃ t, exec .kickoffSend s = .next t ∧ t.start.kcount = min 65535 (s.start.kcount + 1) ∧
      { t with regs := s.regs, start := s.start, weirs := s.weirs, tally := s.tally, clock := s.clock, out := s.out } = s := by
  have hk : s.kicks = true := by unfold kicks; rw [hl, hf]; rfl
  refine ⟨_, next_if_pos (by rw [ha, hk, ht]; rfl), ?_⟩
  extract_lets u k
  have hsend : SendOnly u ((List.range 4).foldl (fun s n => if s.lineUp n && !(s.port n).newlink && !(s.port n).foreign then
      s.transmit n (tenths (s.prof.guard / 2)) false false (s.tagged n ⟨.kickoff, s.header 0 0 0 0, .kickoff k, 0, 0⟩) else s) u) := by
    refine List.foldlRecOn _ _ (SendOnly.refl u) fun b h n _ => ?_
    split
    · exact h.trans (.transmit ..)
    · exact h
  obtain ⟨_, _, _, _, _, h⟩ := hsend
  rw [h]
  exact ⟨rfl, rfl⟩

/-- At the end of the line without an UP line port no relay frame goes out. -/
theorem exec_relayOriginate_none {s : State} (ha : s.alive = true) {slot : Fin 67} {corr : Int} (hm : s.mayOriginate = true)
    (h0 : slot.val ≠ 0) (ht : s.todo (.relay slot.val) = true) (hup : ∀ n : Fin 4, s.lineUp n.val = false) :
    exec (.relayOriginate slot corr) s = .next (s.did s.clock.turn (.relay slot.val)) := by
  refine (next_if_pos (by rw [ha, hm, ht, bne_iff_ne.mpr h0]; rfl)).trans (congrArg _ ?_)
  generalize hu : s.did s.clock.turn (.relay slot.val) = u
  have h (n : Fin 4) : u.lineUp n.val = false := hu ▸ hup n
  simp only [range_four, List.foldl_cons, List.foldl_nil, show u.lineUp 0 = false from h 0, show u.lineUp 1 = false from h 1,
    show u.lineUp 2 = false from h 2, show u.lineUp 3 = false from h 3, Bool.false_and, Bool.false_eq_true, if_false]

/-- At the end of the line the relay frame goes out on the one UP line port. -/
theorem exec_relayOriginate_one {s : State} (ha : s.alive = true) {slot : Fin 67} {corr : Int} (hm : s.mayOriginate = true)
    (h0 : slot.val ≠ 0) (ht : s.todo (.relay slot.val) = true) (h3 : s.lineUp 3 = true) (hup : ∀ m : Fin 3, s.lineUp m.val = false)
    (hnew : (s.port 3).newlink = false) (hslot : slot.val ≤ 3 ∨ (s.port 3).foreign = false) (hend : s.endNbr 0 = false) :
    exec (.relayOriginate slot corr) s =
      .next (((s.did s.clock.turn (.relay slot.val)).learnH 0 0).sendRelay 3 slot.val false corr) := by
  refine (next_if_pos (by rw [ha, hm, ht, bne_iff_ne.mpr h0]; rfl)).trans (congrArg _ ?_)
  generalize hu : s.did s.clock.turn (.relay slot.val) = u
  have h (n : Fin 3) : u.lineUp n.val = false := hu ▸ hup n
  have h3' : u.lineUp 3 = true := hu ▸ h3
  have hnew' : (u.port 3).newlink = false := hu ▸ hnew
  have hslot' : (decide (slot.val ≤ 3) || !(u.port 3).foreign) = true := by
    subst hu
    rcases hslot with h | h
    · rw [decide_eq_true h]
      rfl
    · rw [show (!((s.did s.clock.turn (.relay slot.val)).port 3).foreign) = true from congrArg (! ·) h, Bool.or_true]
  have hend' : u.endNbr 0 = false := hu ▸ hend
  simp only [range_four, List.foldl_cons, List.foldl_nil, show u.lineUp 0 = false from h 0, show u.lineUp 1 = false from h 1,
    show u.lineUp 2 = false from h 2, Bool.false_and, Bool.false_eq_true, if_false]
  simp [h3', hnew', hend', hslot']

/-- Behind a silent neighbour the relay frame with MID goes on across. -/
theorem exec_relayMidOriginate {s : State} (ha : s.alive = true) {n slot : Fin 4} {corr : Int} (hm : s.mayOriginate = true)
    (h0 : slot.val ≠ 0) (hn : s.nbrPort n.val = true) (hup : s.lineUp (State.across n.val) = true)
    (hnew : (s.port (State.across n.val)).newlink = false) (hrelay : ((s.port n.val).relay.any fun r => r.1 == slot.val) = false)
    (hrun : (s.port (State.across n.val)).midRun.contains slot.val = true)
    (hnow : (s.port (State.across n.val)).midNow.contains slot.val = false) :
    exec (.relayMidOriginate n slot corr) s =
      .next ((s.modPort (State.across n.val) fun p => { p with midNow := slot.val :: p.midNow }).sendRelay (State.across n.val) slot.val
        true corr) := by
  refine (next_if_pos (by rw [ha, hm, hn, hup, hnew, hrelay, hnow, bne_iff_ne.mpr h0]; rfl)).trans (congrArg _ ?_)
  dsimp only
  rw [if_pos hrun]

/-- In a gap of the dynamic segment a HOP frame more goes out. -/
theorem exec_hopExtraSend {s : State} (ha : s.alive = true) {n : Fin 4} (ht : s.ticking = true) (hp : s.pst n.val = 4)
    (hf : (List.range 10).foldl (fun a c => a + Config.hopShare c) 0 ≤ 4 * (s.port n.val).freed) (he : (s.port n.val).extra < 7)
    (hg : s.inGap n.val = true) :
    exec (.hopExtraSend n) s = .next ((s.modPort n.val fun p => { p with
      extra := p.extra + 1, poolAt := some (s.nowTenths + wireTime (s.rate n.val) 64) }).sendHop n.val s.clock.phase) := by
  have hguard : (s.alive && s.ticking && s.pst n.val == 4 &&
      decide (4 * (s.port n.val).freed ≥ (List.range 10).foldl (fun a c => a + Config.hopShare c) 0) &&
      decide ((s.port n.val).extra < 7) && s.inGap n.val) = true := by
    rw [ha, ht, hp, hg, decide_eq_true hf, decide_eq_true he]
    rfl
  exact next_if_pos hguard

/-- Every 1 ms in IDENTIFY a HOP frame goes out. -/
theorem exec_hopPeriodicSend {s : State} (ha : s.alive = true) {n : Fin 4} (hp : s.pst n.val = 3)
    (hat : ∀ t, (s.port n.val).hopAt = some t → s.since t 1000000 = true) :
    exec (.hopPeriodicSend n) s = .next ((s.modPort n.val fun p => { p with hopAt := some s.clock.up }).sendHop n.val s.clock.phase) := by
  have hall : ((s.port n.val).hopAt.all fun t => s.since t 1000000) = true := by
    cases h : (s.port n.val).hopAt with
    | none => exact Option.all_none
    | some t => rw [Option.all_some, hat t h]
  have hguard : (s.alive && (s.pst n.val == 3 || (!s.ticking && (s.pst n.val == 4 || s.pst n.val == 5))) &&
      ((s.port n.val).hopAt.all fun t => s.since t 1000000)) = true := by
    rw [ha, hp, hall]
    simp
  change execHopPeriodicSend n s = _
  unfold execHopPeriodicSend
  rw [if_pos hguard]

/-- The dynamic segment is worked port after port. -/
theorem exec_dynamicSegment {s : State} (ha : s.alive = true) (ht : s.ticking = true) (hd : s.todo .dynamic = true) :
    exec .dynamicSegment s = .next ((List.range 4).foldl (fun s n =>
      if s.pst n == 4 || s.pst n == 5 then s.dynSegment n else s) (s.did s.clock.turn .dynamic).sendWitness) := by
  have hguard : (s.alive && s.ticking && s.todo .dynamic) = true := by rw [ha, ht, hd]; rfl
  exact next_if_pos hguard

/-- Settles O35: what a weir does with a frame changes only registers, weirs, tally book, clock and outputs; every other clause is its guard. -/
theorem framesSent : Obligations.FramesSent := by
  intro s ha
  refine ⟨exec_kickoffSend ha, fun slot corr hm h0 ht hup => exec_relayOriginate_none ha hm h0 ht hup,
    fun slot corr hm h0 ht h3 hup hnew hslot hend => exec_relayOriginate_one ha hm h0 ht h3 hup hnew hslot hend,
    fun n slot corr hm h0 hn hup hnew hrelay hrun hnow => exec_relayMidOriginate ha hm h0 hn hup hnew hrelay hrun hnow,
    fun n ht hp hf he hg => exec_hopExtraSend ha ht hp hf he hg, fun n hp hat => exec_hopPeriodicSend ha hp hat,
    exec_dynamicSegment ha, fun n => next_if_pos ha, ?_⟩
  exact next_if_pos ha

end Sys2Proof.Machine

/-!
Start of the line (R214 to R226).
-/

namespace Sys2Proof.Machine

open State

/-- The KICKOFF floor at a turn, with its write no longer waiting. -/
def State.floorAt (s : State) (v : Nat) : State :=
  ((s.set Reg.SEC_KICK_FLOOR_LO_TURN [] (v % 2 ^ 32)).set Reg.SEC_KICK_FLOOR_HI_TURN [] (v / 2 ^ 32)).modStart fun x =>
    { x with floorWait := false }

theorem State.floorAt_facts {s : State} (hs : Sparse.sorted s.regs = true) {v : Nat} (hv : v < 2 ^ 64) :
    (s.floorAt v).get Reg.SEC_KICK_FLOOR_LO_TURN + 2 ^ 32 * (s.floorAt v).get Reg.SEC_KICK_FLOOR_HI_TURN = v ∧
      (s.floorAt v).start.floorWait = false ∧ { s.floorAt v with regs := s.regs, start := s.start } = s := by
  have hlo : (s.floorAt v).get Reg.SEC_KICK_FLOOR_LO_TURN = v % 2 ^ 32 % 2 ^ 32 :=
    (get_set_other (s.set Reg.SEC_KICK_FLOOR_LO_TURN [] (v % 2 ^ 32)) _ _ [] [] _ (by decide)).trans (get_set_same s _ _ _ hs)
  have hhi : (s.floorAt v).get Reg.SEC_KICK_FLOOR_HI_TURN = v / 2 ^ 32 % 2 ^ 32 :=
    get_set_same (s.set Reg.SEC_KICK_FLOOR_LO_TURN [] (v % 2 ^ 32)) _ [] _ (sorted_set s _ _ _ hs)
  refine ⟨?_, rfl, rfl⟩
  rw [hlo, hhi]
  omega

/-- The KICKOFF floor moves 2^20 turns ahead. -/
theorem exec_kickoffFloorPersist {s : State} (ha : s.alive = true) (hw : s.start.floorWait = true)
    (hfloor : s.get Reg.SEC_KICK_FLOOR_LO_TURN + 2 ^ 32 * s.get Reg.SEC_KICK_FLOOR_HI_TURN ≤ s.clock.turn)
    (hm : s.mramWaits = false) : exec .kickoffFloorPersist s = .next (s.floorAt (s.clock.turn + 2 ^ 20)) := by
  change execKickoffFloorPersist s = _
  unfold execKickoffFloorPersist
  extract_lets floor v
  have hguard : (s.alive && s.start.floorWait && decide (floor ≤ s.clock.turn) && !s.mramWaits) = true := by
    rw [ha, hw, hm, decide_eq_true hfloor]
    simp
  rw [if_pos hguard]
  rfl

/-- The hold of a node's cold start ended, with a new end of its LISTEN. -/
def State.holdEnded (s : State) (l : Nat) : State :=
  (s.set Reg.LSTART_STAT_HOLD [] 0).modStart fun x => { x with listenEnd := l }

theorem State.holdEnded_facts {s : State} (hs : Sparse.sorted s.regs = true) (l : Nat) :
    (s.holdEnded l).get Reg.LSTART_STAT_HOLD = 0 ∧ (s.holdEnded l).start.listenEnd = l ∧
      { s.holdEnded l with regs := s.regs, start := s.start } = s :=
  ⟨get_set_same s _ _ 0 hs, rfl, rfl⟩

/-- A held node that need not hold any more listens afresh. -/
theorem exec_yieldHoldEnd {s : State} (ha : s.alive = true) (hon : s.on Reg.LSTART_STAT_HOLD = true) (hhold : s.start.hold = 0) :
    exec .yieldHoldEnd s = .next (s.holdEnded (s.inNs (s.tListen * 1000))) := by
  have hguard : (s.alive && s.on Reg.LSTART_STAT_HOLD && s.start.hold == 0) = true := by
    rw [ha, hon, hhold]
    rfl
  change execYieldHoldEnd s = _
  unfold execYieldHoldEnd
  rw [if_pos hguard]
  rfl

/-- The second turn of answers with 0 integrates from COLDSTART. -/
def State.startsKicking (s : State) : State :=
  ((s.toLine 3).modStart fun x => { x with kicking := true, kickLuid := none }).set Reg.LSTART_STAT_SRC_KIND [] 0

theorem State.startsKicking_source {s : State} (hs : Sparse.sorted s.regs = true) :
    s.startsKicking.get Reg.LSTART_STAT_SRC_KIND = 0 :=
  get_set_same ((s.toLine 3).modStart fun x => { x with kicking := true, kickLuid := none }) _ [] 0
    ((State.toLine_keeps (.refl s) 3).regs hs)

/-- The line is lost from a following node that found no midpoint. -/
theorem exec_lineLost_noMid {s : State} (ha : s.alive = true) (hfw : s.lineUpFw = true) (hl : s.lstate = 4 ∨ s.lstate = 5)
    (hmid : 16 ≤ s.sync.noMid) (ht : 1 ≤ s.get Reg.LSTART_STAT_TURNS) : exec .lineLost s = .next (s.loseLine 0) := by
  have h3 : (s.lstate == 3) = false := by rcases hl with h | h <;> rw [h] <;> rfl
  have hfol : s.following = true := by unfold following; rcases hl with h | h <;> rw [h] <;> rfl
  change execLineLost s = _
  unfold execLineLost
  dsimp only
  rw [h3, hfol, ha, hfw, decide_eq_true (p := _ ≥ 1) ht, decide_eq_true (p := _ ≥ 16) hmid]
  rfl

/-- The line is lost from INTEGRATE without convergence. -/
theorem exec_lineLost_integrate {s : State} (ha : s.alive = true) (hfw : s.lineUpFw = true) (hl : s.lstate = 3)
    (hconv : s.on Reg.SYNC_STAT_CONVERGED = false) (ht : 64 ≤ s.get Reg.LSTART_STAT_TURNS) :
    exec .lineLost s = .next (s.loseLine 1) := by
  change execLineLost s = _
  unfold execLineLost
  dsimp only
  rw [hl, hconv, ha, hfw, decide_eq_true (p := _ ≥ 64) ht]
  rfl

/-- The line is lost from COLDSTART without an answer. -/
theorem exec_lineLost_coldstart {s : State} (ha : s.alive = true) (hfw : s.lineUpFw = true) (hl : s.lstate = 2)
    (hz : s.start.zeroRun < 2) (hu : s.start.unanswered < 16) (ht : 128 ≤ s.get Reg.LSTART_STAT_TURNS) :
    exec .lineLost s = .next (s.loseLine 2) := by
  have hfol : s.following = false := by unfold following; rw [hl]; rfl
  change execLineLost s = _
  unfold execLineLost
  dsimp only
  rw [hl, hfol, ha, hfw, decide_eq_true (p := _ ≥ 128) ht, decide_eq_true hz, decide_eq_true hu]
  rfl

/-- Settles O36: every command takes the branch of its line state, and a change of the line state keeps the register file in order. -/
theorem lineStartCommands : Obligations.LineStartCommands := by
  intro s hc ha hfw
  have hcpu : s.cpuUp 0 = true := (Bool.and_eq_true_iff.mp hfw).2
  refine ⟨fun hl hhold hend hvalid => ?_, fun o n hl hvalid => ?_,
    fun hw hfloor hm hturn => ⟨_, exec_kickoffFloorPersist ha hw hfloor hm, State.floorAt_facts hc.regs hturn⟩, fun hl hz => ?_,
    fun hl hz hu => ?_, fun hl hsolo hp => ?_, fun hl hmid ht => exec_lineLost_noMid ha hfw hl hmid ht,
    fun hl hconv ht => exec_lineLost_integrate ha hfw hl hconv ht, fun hl hz hu ht => exec_lineLost_coldstart ha hfw hl hz hu ht,
    fun hon hhold => ⟨_, exec_yieldHoldEnd ha hon hhold, State.holdEnded_facts hc.regs _⟩⟩
  · exact next_if_pos (by rw [ha, hl, hhold, hfw, decide_eq_true hend, hvalid]; rfl)
  · refine (next_if_pos (by rw [ha, hl, hfw]; rfl)).trans (congrArg _ ?_)
    rw [hvalid]
  · have hexec : exec .coldstartIntegrate s = _ := next_if_pos (by rw [ha, hl, hfw, decide_eq_true (p := _ ≥ 2) hz]; rfl)
    exact ⟨s.startsKicking, hexec, rfl, State.startsKicking_source hc.regs, rfl⟩
  · exact next_if_pos (by rw [ha, hl, hfw, decide_eq_true hz, decide_eq_true (p := _ ≥ 16) hu]; rfl)
  · exact next_if_pos (by rw [ha, hl, hsolo, hcpu, bne_iff_ne.mpr hp]; rfl)

end Sys2Proof.Machine

/-!
Inputs, triggers and phases of inauguration (R44, R230 to R250, R263).
-/

namespace Sys2Proof.Machine

namespace State

/-! Inputs of the node -/

theorem pinsLive_of_alive {s : State} (ha : s.alive = true) : s.pinsLive = true := (Bool.and_eq_true_iff.mp ha).1

/-- The bit of INAUG_STAT that shows a coupler input. -/
def cplField (e : Nat) : Fld := if e == 0 then Reg.INAUG_STAT_CPL_E1 else Reg.INAUG_STAT_CPL_E2

/-- A coupler input taken and shown. -/
def cplShown (s : State) (e : Nat) (level : Bool) : State :=
  (s.modPins fun p => { p with cpl := listSet p.cpl e level }).flag (cplField e) [] level

theorem state_ne_cplField : ∀ (e : Fin 2) (n : Fin 4), Reg.LPn_STAT_STATE.key [n.val] ≠ (cplField e.val).key [] := by decide

theorem cplShown_pst (s : State) (e : Fin 2) (level : Bool) (n : Fin 4) : (s.cplShown e.val level).pst n.val = s.pst n.val :=
  get_set_other (s.modPins fun p => { p with cpl := listSet p.cpl e.val level }) _ _ _ _ _ (state_ne_cplField e n)

theorem partnerUp_of_down {s : State} (h : ∀ n : Fin 4, s.pst n.val = 0) : s.partnerUp = [] := by
  have hnone : s.xlinks = [] := by
    refine List.filter_eq_nil_iff.mpr fun n hn => ?_
    rw [h ⟨n, List.mem_range.mp hn⟩]
    simp
  have hx : s.xlinkUp = false := by
    unfold xlinkUp
    rw [hnone]
    rfl
  unfold partnerUp
  rw [hx, Bool.and_false]
  rfl

/-- Without a link at the end a rise of its coupler input waits. -/
theorem couplerMoves_of_down {s : State} (h : ∀ n : Fin 4, s.pst n.val = 0) (e : Fin 2) :
    s.couplerMoves e.val true = s.modStart fun x => { x with cplWait := listSet x.cplWait e.val (some (s.inNs 5000000000)) } := by
  have hdown (n : Nat) (hn : n ∈ [2 * e.val, 2 * e.val + 1]) : s.pst n = 0 := by
    have hlt : n < 4 := by fin_cases e <;> simp at hn <;> omega
    exact h ⟨n, hlt⟩
  unfold couplerMoves
  extract_lets ports held nbr
  have hports : (ports.any fun n => s.pst n == 4 || held n) = false := by
    rw [List.any_eq_false]
    intro n hn
    rw [show held n = (s.pst n == 5 && s.get Reg.LPn_STAT_HELD_WHY [n] == 9) from rfl, hdown n (List.mem_of_mem_filter hn)]
    simp
  have hnbr : nbr = false := by
    rw [show nbr = ((ports.any fun n => s.pst n == 4 || held n) || s.partnerUp.any fun x => x.1 / 2 == e.val) from rfl, hports,
      partnerUp_of_down h]
    rfl
  rw [hnbr]
  rfl

/-! Inhibit -/

/-- A rise of the inhibit input taken and shown. -/
def inhibitShown (s : State) : State :=
  ((s.modPins fun p => { p with inhibit := true }).set Reg.INAUG_STAT_INHIBIT [] 1).modInaug fun i =>
    { i with yieldNext := i.yieldNext || i.yielding, yielding := false }

/-- A fall of the inhibit input taken and shown, and the ends shown without new links. -/
def inhibitLifted (s : State) : State :=
  ((List.range 4).foldl (fun s n => s.modPort n fun p => { p with newlink := false })
    ((s.modPins fun p => { p with inhibit := false }).set Reg.INAUG_STAT_INHIBIT [] 0)).showEnds

/-- The registers that show the ends of the line. -/
def endKeys : List Nat := [Reg.LINE_DEPLOY_END1_NBR.key [], Reg.LINE_DEPLOY_END2_NBR.key [], Reg.LINE_DEPLOY_LINK_MIN.key [],
  Reg.INAUG_STAT_FOREIGN_E1.key [], Reg.INAUG_STAT_FOREIGN_E2.key [], Reg.INAUG_STAT_NEWLINK_E1.key [],
  Reg.INAUG_STAT_NEWLINK_E2.key [], Reg.LSTART_UID_LO_UID.key [], Reg.LSTART_UID_HI_UID.key []]

theorem showEnds_writes (s : State) : WritesAt (· ∈ endKeys) s s.showEnds :=
  ((((((((WritesAt.refl s).flag Reg.LINE_DEPLOY_END1_NBR [] _ (by decide)).flag Reg.LINE_DEPLOY_END2_NBR [] _ (by decide)).set
    Reg.LINE_DEPLOY_LINK_MIN [] _ (by decide)).flag Reg.INAUG_STAT_FOREIGN_E1 [] _ (by decide)).flag
    Reg.INAUG_STAT_FOREIGN_E2 [] _ (by decide)).flag Reg.INAUG_STAT_NEWLINK_E1 [] _ (by decide)).flag
    Reg.INAUG_STAT_NEWLINK_E2 [] _ (by decide)).showLuid (by decide) (by decide)

theorem showEnds_regsOnly (s : State) : RegsOnly s s.showEnds :=
  ((((((((RegsOnly.refl s).flag ..).flag ..).set ..).flag ..).flag ..).flag ..).flag ..).showLuid

/-- Without a pending trigger there is none after the inhibit input has fallen either. -/
theorem inhibitLifted_pending (s : State) : s.inhibitLifted.on Reg.INAUG_STAT_PENDING = s.on Reg.INAUG_STAT_PENDING := by
  refine congrArg (· != 0) (((showEnds_writes _).get _ _ (by decide)).trans ?_)
  exact get_set_other (s.modPins fun p => { p with inhibit := false }) Reg.INAUG_STAT_INHIBIT Reg.INAUG_STAT_PENDING [] [] 0 (by decide)

theorem inhibitLifted_frame (s : State) : s.inhibitLifted.pins.inhibit = false ∧ s.inhibitLifted.inaug = s.inaug ∧
    s.inhibitLifted.tally = s.tally := by
  unfold inhibitLifted
  obtain ⟨r, hr⟩ := showEnds_regsOnly ((List.range 4).foldl (fun s n => s.modPort n fun p => { p with newlink := false })
    ((s.modPins fun p => { p with inhibit := false }).set Reg.INAUG_STAT_INHIBIT [] 0))
  rw [hr]
  exact ⟨rfl, rfl, rfl⟩

end State

open State

theorem exec_couplerInputChange {s : State} (hs : Sparse.sorted s.regs = true) (ha : s.alive = true) {e : Fin 2}
    (hlow : s.pins.cpl.getD e.val false = false) (hpins : s.pins.cpl.length = 2) (hdown : ∀ n : Fin 4, s.pst n.val = 0)
    (hwait : s.start.cplWait.length = 2) :
    ∃ t, exec (.couplerInputChange e true) s = .next t ∧ t.pins.cpl.getD e.val false = true ∧
      t.start.cplWait.getD e.val none = some (s.inNs 5000000000) ∧
      t.get (if e.val = 0 then Reg.INAUG_STAT_CPL_E1 else Reg.INAUG_STAT_CPL_E2) = 1 ∧ t.tally = s.tally := by
  have hguard : ¬ (!s.pinsLive || s.pins.cpl.getD e.val false == true) = true := by
    rw [pinsLive_of_alive ha, hlow]
    simp
  have hexec : exec (.couplerInputChange e true) s = .next ((s.cplShown e.val true).couplerMoves e.val true) :=
    (next_if_neg hguard).trans (congrArg _ (if_pos ha))
  refine ⟨_, hexec.trans (congrArg _ (couplerMoves_of_down (fun n => (cplShown_pst s e true n).trans (hdown n)) e)), ?_, ?_, ?_, rfl⟩
  · exact getD_listSet_same (e.isLt.trans_eq hpins.symm) true false
  · exact getD_listSet_same (e.isLt.trans_eq hwait.symm) _ none
  · have hget : (s.cplShown e.val true).get (cplField e.val) = 1 := by
      refine (get_set_same (s.modPins fun p => { p with cpl := listSet p.cpl e.val true }) _ [] 1 hs).trans ?_
      fin_cases e <;> rfl
    fin_cases e
    · exact hget
    · exact hget

theorem exec_cabActiveChange {s : State} (hs : Sparse.sorted s.regs = true) (ha : s.alive = true) (level : Bool) :
    ∃ t, exec (.cabActiveChange level) s = .next t ∧ t.pins.cab = level ∧ t.get Reg.INAUG_STAT_CAB = b2n level ∧
      { t with regs := s.regs, pins := s.pins } = s := by
  refine ⟨(s.modPins fun p => { p with cab := level }).flag Reg.INAUG_STAT_CAB [] level,
    (next_if_pos (pinsLive_of_alive ha)).trans (congrArg _ (if_pos ha)), rfl, ?_, rfl⟩
  refine (get_set_same (s.modPins fun p => { p with cab := level }) Reg.INAUG_STAT_CAB [] (b2n level) hs).trans ?_
  cases level <;> rfl

theorem exec_inaugInhibitRise {s : State} (ha : s.alive = true) (hlow : s.pins.inhibit = false) (hask : s.inaug.asking = none) :
    exec .inaugInhibitRise s = .next s.inhibitShown := by
  have hguard : ¬ (!s.pinsLive || s.pins.inhibit) = true := by
    rw [pinsLive_of_alive ha, hlow]
    simp
  refine (next_if_neg hguard).trans (congrArg _ ((if_pos ha).trans ?_))
  extract_lets t
  have hask' : t.inaug.asking = none := hask
  rw [hask']
  rfl

theorem exec_inaugInhibitFall {s : State} (ha : s.alive = true) (hhigh : s.pins.inhibit = true)
    (hpend : s.on Reg.INAUG_STAT_PENDING = false) : exec .inaugInhibitFall s = .next s.inhibitLifted := by
  have hguard : ¬ (!s.pinsLive || !s.pins.inhibit) = true := by
    rw [pinsLive_of_alive ha, hhigh]
    simp
  refine (next_if_neg hguard).trans (congrArg _ ((if_pos ha).trans ?_))
  extract_lets t u
  have hoff : u.on Reg.INAUG_STAT_PENDING = false := (inhibitLifted_pending s).trans hpend
  rw [hoff]
  rfl

/-- Only port 3 leads to a neighbour, and that is not SYNCED: it is held out. -/
theorem exec_stopHoldOut {s : State} (ha : s.alive = true) (hp : s.phase = 1) (ht : 64 ≤ s.get Reg.INAUG_STAT_TURNS)
    (hnone : ∀ n : Fin 3, s.nbrPort n.val = false) (h3 : s.nbrPort 3 = true) (hls : (s.port 3).nbrLs % 16 ≠ 4) :
    exec .stopHoldOut s = .next ((s.hold 3 10).record 0x3508 4 1 3 (s.get Reg.LPn_NBR_LO_UID [3])) := by
  refine (next_if_pos (by rw [ha, hp, decide_eq_true (p := _ ≥ 64) ht]; rfl)).trans (congrArg _ ?_)
  have hls' : ((s.port 3).nbrLs % 16 == 4) = false := beq_eq_false_iff_ne.mpr hls
  simp only [range_four, List.foldl_cons, List.foldl_nil, show s.nbrPort 0 = false from hnone 0, show s.nbrPort 1 = false from hnone 1,
    show s.nbrPort 2 = false from hnone 2, Bool.false_and, Bool.false_eq_true, if_false, h3, hls', Bool.not_false, Bool.and_self, if_true]

theorem exec_pendingTriggerAct {s : State} (ha : s.alive = true) (hl : s.lstate = 4) (hpend : s.on Reg.LSTART_STAT_PENDING = true)
    (hcpu : s.cpuUp 0 = true) (hlow : s.pins.inhibit = false) (h1 : s.phase ≠ 1) (h4 : s.phase ≠ 4) (hsynced : 64 ≤ s.start.synced) :
    exec .pendingTriggerAct s = .next ((s.set Reg.LSTART_STAT_PENDING [] 0).record 0x3501 1 1 8 0xFF).actPending := by
  have hguard : (s.alive && s.lstate == 4 && s.on Reg.LSTART_STAT_PENDING && s.cpuUp 0 && !s.pins.inhibit &&
      ((decide (s.start.synced ≥ 8) && s.nbrsSynced) || decide (s.start.synced ≥ 64))) = true := by
    rw [ha, hl, hpend, hcpu, hlow, decide_eq_true (p := _ ≥ 64) hsynced, Bool.or_true]
    rfl
  change execPendingTriggerAct s = _
  unfold execPendingTriggerAct
  extract_lets p
  rw [if_pos hguard]
  rw [beq_eq_false_iff_ne.mpr (show p ≠ 1 from h1), beq_eq_false_iff_ne.mpr (show p ≠ 4 from h4)]
  rfl

theorem exec_adoption {s : State} {d : Directory} (ha : s.alive = true) (hd : s.inaug.newDir = some d) (hp : s.phase = 4)
    (hsched : s.synth.newSched.isSome = true) (ht : d.adopt ≤ s.clock.turn)
    (hagreed : s.lstate = 6 ∨ (s.inaug.last.mismatch = false ∧ s.inaug.last.notReady = false ∧ s.inaug.last.stopReq = false))
    (hrules : s.rulesAgreed (d.nodes.map fun x => x.entry) = false) :
    exec .adoption s = .next s.adoptLine.flushLine.releaseHeld.gwRestart := by
  have hline : (s.lstate == 6 || !(s.inaug.last.mismatch || s.inaug.last.notReady || s.inaug.last.stopReq)) = true := by
    rcases hagreed with h | ⟨hm, hn, hr⟩
    · rw [h]
      rfl
    · rw [hm, hn, hr]
      exact Bool.or_true _
  have hguard : (s.alive && s.phase == 4 && s.synth.newSched.isSome && decide (d.adopt ≤ s.clock.turn) &&
      (s.lstate == 6 || !(s.inaug.last.mismatch || s.inaug.last.notReady || s.inaug.last.stopReq))) = true := by
    rw [hline, ha, hp, hsched, decide_eq_true ht]
    rfl
  change execAdoption s = _
  unfold execAdoption
  rw [hd]
  dsimp only
  rw [if_pos hguard, hrules]
  rfl

/-- Settles O37: inputs are read back from the fields that show them, and every other clause is its guard. -/
theorem inaugurationCommands : Obligations.InaugurationCommands := by
  intro s hc ha
  refine ⟨fun e hlow hpins hdown _ hwait => exec_couplerInputChange hc.regs ha hlow hpins hdown hwait, fun e x hx ht => ?_,
    exec_cabActiveChange hc.regs ha, fun hlow hask => ⟨_, exec_inaugInhibitRise ha hlow hask, rfl, ?_, rfl, rfl, rfl⟩,
    fun hhigh hpend => ⟨_, exec_inaugInhibitFall ha hhigh hpend, inhibitLifted_frame s⟩,
    fun hl hpend hcpu hlow h1 h4 hsynced => exec_pendingTriggerAct ha hl hpend hcpu hlow h1 h4 hsynced, fun hf hcpu h1 hreq => ?_,
    fun hf hcpu => ?_, fun hp ht hnone h3 hls => exec_stopHoldOut ha hp ht hnone h3 hls, fun n hp hwhy hsynced => ?_,
    fun hy hf hcpu => ?_, fun d hd hp hsched ht hagreed hrules => exec_adoption ha hd hp hsched ht hagreed hrules⟩
  · have hguard : (s.alive && decide (x ≤ s.clock.up)) = true := by rw [ha, decide_eq_true ht]; rfl
    change execCouplerNoLink e s = _
    unfold execCouplerNoLink
    rw [hx]
    exact congrArg _ (if_pos hguard)
  · exact get_set_same (s.modPins fun p => { p with inhibit := true }) _ [] 1 hc.regs
  · exact next_if_pos (by rw [ha, hf, hcpu, hreq, bne_iff_ne.mpr h1]; rfl)
  · exact next_if_pos (by rw [ha, hf, hcpu]; rfl)
  · exact next_if_pos (by rw [ha, hp, hwhy, decide_eq_true (p := _ ≥ 8) hsynced]; rfl)
  · exact next_if_pos (by rw [ha, hy, hf, hcpu]; rfl)

end Sys2Proof.Machine

/-!
Tables, synthesis and the spare pool (R280 to R289).
-/

namespace Sys2Proof.Machine

namespace State

/-! Synthesis -/

/-- A synthesis is over, and a schedule for it stored. -/
def Synthesised (s : State) : Prop := s.synth.running = false ∧ s.synth.newSched.isSome = true

namespace Synthesised

variable {s t : State}

theorem of_synth (h : s.Synthesised) (ht : t.synth = s.synth) : t.Synthesised := by
  unfold Synthesised
  rw [ht]
  exact h

theorem flag (h : s.Synthesised) (f : Fld) (ix : List Nat) (b : Bool) : (s.flag f ix b).Synthesised := h

theorem record (h : s.Synthesised) (code sev src p1 p2 : Nat) : (s.record code sev src p1 p2).Synthesised :=
  h.of_synth (record_synth ..)

theorem keepTable (h : s.Synthesised) (t : FuncTable) : (s.keepTable t).Synthesised := by
  unfold State.keepTable mramWrite
  split
  · exact h
  · exact h

theorem ite {p : Prop} [Decidable p] (hs : s.Synthesised) (ht : t.Synthesised) : (if p then s else t).Synthesised := by
  split
  · exact hs
  · exact ht

end Synthesised

/-- A table that a consist declares is kept where the cache does hold it. -/
theorem Synthesised.keepDeclared {s : State} (h : s.Synthesised) (m : Option Numbered) :
    (match m with
      | some m => (match s.tableOf m.entry.ftDigest with
        | some t => if (s.synth.cache.any fun x => x.digest == t.digest) then s.keepTable t else s
        | none => s)
      | none => s).Synthesised := by
  split
  · split
    · exact (h.keepTable _).ite h
    · exact h
  · exact h

theorem synthNow_synthesised {s : State} {d : Directory} (hd : s.inaug.newDir = some d) : s.synthNow.Synthesised := by
  unfold synthNow
  rw [hd]
  dsimp only
  generalize synthesise _ _ _ _ = sched
  refine List.foldlRecOn (motive := Synthesised) _ _ (.flag ?_ ..) fun b h g _ => h.record ..
  generalize hkept : List.foldl _ _ (consistsOf d) = kept
  have h : kept.Synthesised := by
    rw [← hkept]
    exact List.foldlRecOn (motive := Synthesised) _ _ ⟨rfl, rfl⟩ fun b h c _ => h.keepDeclared (declaring d c)
  exact (((h.flag ..).flag ..).record ..).ite ((h.flag ..).flag ..)

/-- What is shown of a schedule and its duration. -/
def synthTimed (s : State) (us : Nat) : State :=
  let s := (s.synthNow).set Reg.SYN_TIME_US [] (min us (2 ^ 32 - 1))
  if s.lstate == 6 then
    (s.modInaug fun i => { i with newDir := i.newDir.map fun d => { d with adopt := s.clock.turn + 1 } }).set
      Reg.INAUG_ADOPT_TURN [] (s.clock.turn + 1) else s

theorem synthTimed_facts {s : State} (hs : Sparse.sorted s.regs = true) {d : Directory} (hd : s.inaug.newDir = some d) (us : Nat) :
    (s.synthTimed us).Synthesised ∧ (s.synthTimed us).get Reg.SYN_TIME_US = min us (2 ^ 32 - 1) := by
  have hsyn := synthNow_synthesised hd
  have hsorted : Sparse.sorted s.synthNow.regs = true := (synthNow_keeps (.refl s)).regs hs
  unfold synthTimed
  generalize s.synthNow = u at *
  have hget : (u.set Reg.SYN_TIME_US [] (min us (2 ^ 32 - 1))).get Reg.SYN_TIME_US = min us (2 ^ 32 - 1) :=
    (get_set_same u _ [] _ hsorted).trans (Nat.mod_eq_of_lt (show min us (2 ^ 32 - 1) < 2 ^ 32 by omega))
  dsimp only
  split
  · exact ⟨hsyn, (get_set_other _ _ _ _ _ _ (by decide)).trans hget⟩
  · exact ⟨hsyn, hget⟩

/-! The spare pool -/

theorem poolResets_of_none {s : State} (h : s.synth.resetAt = []) : s.poolResets = s := by
  unfold poolResets
  rw [h]
  exact congrArg (fun l => s.modSynth fun y => { y with resetAt := l }) (show s.synth.resetAt.filter _ = s.synth.resetAt by rw [h]; rfl)

/-- The pool emptied by one reset, and counted. -/
def poolEmptied (s : State) (k : List (Nat × Bool)) : State :=
  ((s.modSynth fun y => { y with resetAt := k }).emptyPool).inc Reg.SYN_POOL_CNT_RESETS

theorem poolResets_of_one {s : State} {k : Nat} {own : Bool} (h : s.synth.resetAt = [(k, own)]) (hk : k ≤ s.clock.turn) :
    ∃ crc, s.poolResets = (s.poolEmptied []).record 0x3607 3 1 (b2n !own) crc := by
  have hdue : (s.synth.resetAt.filter fun r => decide (r.1 ≤ s.clock.turn)) = [(k, own)] := by rw [h]; simp [hk]
  have hrest : (s.synth.resetAt.filter fun r => decide (s.clock.turn < r.1)) = [] := by rw [h]; simp [hk]
  unfold poolResets
  rw [hdue]
  exact ⟨(s.modSynth fun y => { y with resetAt := [] }).poolCrc, congrArg (fun l => (s.poolEmptied l).record 0x3607 3 1 (b2n !own)
    (s.modSynth fun y => { y with resetAt := l }).poolCrc) hrest⟩

/-- The registers that show a schedule. -/
def schedKeys : List Nat := [Reg.SYN_OWN_HOME.key [], Reg.SYN_OWN_SLOTS.key [], Reg.SYN_UNSAT_TRAIN.key [], Reg.SYN_UNSAT_OWN.key [],
  Reg.SYN_CLAIM_GRANTED.key [], Reg.SYN_CLAIM_FIRST.key []]

theorem showSched_writes (s : State) : WritesAt (· ∈ schedKeys) s s.showSched := by
  unfold showSched
  extract_lets own home s1 s2 s3 s4
  have h4 : WritesAt (· ∈ schedKeys) s s4 := ((((WritesAt.refl s).set Reg.SYN_OWN_HOME [] _ (by decide)).set
    Reg.SYN_OWN_SLOTS [] _ (by decide)).set Reg.SYN_UNSAT_TRAIN [] _ (by decide)).set Reg.SYN_UNSAT_OWN [] _ (by decide)
  clear_value s4
  split
  · exact (h4.set Reg.SYN_CLAIM_GRANTED [] _ (by decide)).set Reg.SYN_CLAIM_FIRST [] _ (by decide)
  · exact (h4.set Reg.SYN_CLAIM_GRANTED [] _ (by decide)).set Reg.SYN_CLAIM_FIRST [] _ (by decide)

theorem showSched_synth (s : State) : s.showSched.synth = s.synth := by
  unfold showSched
  extract_lets own home s1 s2 s3 s4
  split
  · rfl
  · rfl

theorem poolEmptied_resets {s : State} (hs : Sparse.sorted s.regs = true) (k : List (Nat × Bool)) :
    (s.poolEmptied k).get Reg.SYN_POOL_CNT_RESETS =
      min (s.get Reg.SYN_POOL_CNT_RESETS + 1) (2 ^ Reg.SYN_POOL_CNT_RESETS.width - 1) := by
  have hshown := showSched_writes ((s.modSynth fun y => { y with resetAt := k }).modSynth fun y => { y with grants := [] })
  refine (get_inc_same (hshown.sorted hs) _ _ _).trans ?_
  rw [hshown.get _ _ (by decide)]
  rfl

theorem poolEmptied_synth (s : State) (k : List (Nat × Bool)) :
    (s.poolEmptied k).synth = { s.synth with resetAt := k, grants := [] } := showSched_synth _

/-- The grant of a claim's lowest slots. -/
def poolGrant (s : State) (c : Schedule) (r : ClaimRec) : Grant :=
  ⟨r.uid, match s.inaug.dir with
      | some d => ((d.nodes.find? fun x => x.entry.luid == r.uid).map fun x => x.pos).getD 0
      | none => 0,
    (List.range r.count).map fun i => c.poolFirst + i, r.home, s.clock.turn + 2⟩

/-- The claims of the turn before taken, with one grant more. -/
def claimGranted (s : State) (g : Grant) : State :=
  (s.modSynth fun y => { y with prevClaims := [] }).modSynth fun y => { y with grants := y.grants ++ [g] }

theorem resolveClaims_one {s : State} {c : Schedule} {r : ClaimRec} (hclaims : s.synth.prevClaims = [r]) (hreset : s.synth.prevReset = false)
    (hgrants : s.synth.grants = []) (hother : r.uid ≠ s.lineUid) (hfits : r.count ≤ c.sSyn - c.poolFirst) :
    ∃ p2, s.resolveClaims c = ((s.claimGranted (s.poolGrant c r)).inc Reg.SYN_POOL_CNT_GRANTS).record 0x3606 1 1 (r.uid % 2 ^ 32) p2 := by
  have hfree : ((List.range (c.sSyn - c.poolFirst)).map fun i => c.poolFirst + i).filter (fun x => !([] : List Nat).contains x) =
      (List.range (c.sSyn - c.poolFirst)).map fun i => c.poolFirst + i := List.filter_eq_self.mpr fun _ _ => rfl
  have htake : ((List.range (c.sSyn - c.poolFirst)).map fun i => c.poolFirst + i).take r.count =
      (List.range r.count).map fun i => c.poolFirst + i := by
    rw [← List.map_take, List.take_range, Nat.min_eq_left hfits]
  have hlen : ((List.range (c.sSyn - c.poolFirst)).map fun i => c.poolFirst + i).length = c.sSyn - c.poolFirst := by simp
  unfold resolveClaims
  rw [hreset, hclaims, hgrants]
  simp only [Bool.false_eq_true, if_false, List.filter, List.any, Bool.not_false, sortBy, insertBy, List.foldl_cons, List.foldl_nil]
  unfold claimGranted poolGrant
  generalize hu : (s.modSynth fun y => { y with prevClaims := [] }) = u
  have hnone : u.synth.grants.flatMap (fun g => g.first) = [] := by
    rw [← hu, show (s.modSynth _).synth.grants = s.synth.grants from rfl, hgrants]
    rfl
  have hluid (f : Synth → Synth) : (u.modSynth f).lineUid = s.lineUid := hu ▸ rfl
  have hdir : u.inaug.dir = s.inaug.dir := hu ▸ rfl
  have hturn : u.clock.turn = s.clock.turn := hu ▸ rfl
  have hfits' : r.count ≤ ((List.range (c.sSyn - c.poolFirst)).map fun i => c.poolFirst + i).length := hlen.symm ▸ hfits
  have hforeign (f : Synth → Synth) : ¬ (r.uid == (u.modSynth f).lineUid) = true := by
    rw [hluid]
    exact fun h => hother (beq_iff_eq.mp h)
  rw [hnone, hfree, htake, if_pos hfits', if_neg (hforeign _), hdir, hturn]
  exact ⟨_, rfl⟩

end State

open State

theorem exec_tableFragmentReceive {s : State} (ha : s.alive = true) {body data : List Byte} (h0 : beAt body 16 2 = 0)
    (hlen : beAt body 18 2 ≤ 2048) (hdata : data = (body.drop 24).take (beAt body 18 2))
    (hnew : (s.tableOf (beAt body 0 16)).isSome = false)
    (hfirst : (s.synth.parts.find? fun x => x.1 == beAt body 0 16) = none) :
    exec (.tableFragmentReceive body) s = .next
      (if data.length == beAt body 18 2 then
        (let s := s.modSynth fun y => { y with parts := s.synth.parts.filter fun x => x.1 != beAt body 0 16 }
         (if tableDigest data == beAt body 0 16 then s.keepTable (parseTable data (beAt body 0 16)) else s).showTables)
      else s.modSynth fun y => { y with
        parts := (beAt body 0 16, beAt body 18 2, [(0, data)]) :: s.synth.parts.filter fun x => x.1 != beAt body 0 16 }) := by
  have hguard : ¬ (!s.alive || decide (beAt body 18 2 > 2048) || (s.tableOf (beAt body 0 16)).isSome) = true := by
    rw [ha, hnew, decide_eq_false (p := _ > 2048) (by omega)]
    simp
  change execTableFragmentReceive body s = _
  unfold execTableFragmentReceive
  rw [h0]
  extract_lets dg off tlen piece old pieces whole rest
  have hold : old = [] := congrArg (fun o => (Option.map (fun x => x.2.2) o).getD []) hfirst
  have hpieces : pieces = [(0, data)] := by
    rw [show pieces = Sparse.put 0 piece old from rfl, hold, hdata]
    rfl
  have hwhole : whole = data := by
    rw [show whole = pieces.foldl _ [] from rfl, hpieces]
    rfl
  rw [if_neg hguard, hpieces, hwhole]

theorem exec_synthesisComplete {s : State} (ha : s.alive = true) (hrun : s.synth.running = true) (hcpu : s.cpuUp 0 = true) (us : Nat) :
    ∃ un, exec (.synthesisComplete us) s = .next ((s.synthTimed us).record 0x3601 1 1 us un) := by
  have hguard : (s.alive && s.synth.running && s.cpuUp 0) = true := by rw [ha, hrun, hcpu]; rfl
  change ∃ un, execSynthesisComplete us s = _
  unfold execSynthesisComplete
  rw [if_pos hguard]
  exact ⟨_, rfl⟩

theorem exec_spareClaim {s : State} (hs : Sparse.sorted s.regs = true) (ha : s.alive = true) {r : ClaimRec} (hr : s.ownClaim = some r) :
    ∃ t, exec .spareClaim s = .next t ∧ r ∈ t.synth.claims ∧ t.get Reg.SYN_CLAIM_PENDING = 1 ∧
      t.get Reg.SYN_CLAIM_REQUEST = r.count % 2 ^ Reg.SYN_CLAIM_REQUEST.width ∧ { t with regs := s.regs, synth := s.synth } = s := by
  have hexec : exec .spareClaim s = .next s.noteOwnClaim := next_if_pos ha
  unfold noteOwnClaim at hexec
  rw [hr] at hexec
  refine ⟨_, hexec, ?_, ?_, get_set_same _ _ _ _ (sorted_set s Reg.SYN_CLAIM_PENDING [] 1 hs), rfl⟩
  · show r ∈ if s.synth.claims.contains r then s.synth.claims else s.synth.claims ++ [r]
    split
    next h => exact List.contains_iff_mem.mp h
    next => simp
  · exact (get_set_other (s.set Reg.SYN_CLAIM_PENDING [] 1) _ _ [] [] _ (by decide)).trans (get_set_same s _ _ 1 hs)

theorem exec_claimResolve {s : State} (ha : s.alive = true) {c : Schedule} {r : ClaimRec} (hsched : s.synth.sched = some c)
    (hclaims : s.synth.prevClaims = [r]) (hat : s.synth.resetAt = []) :
    exec .claimResolve s = .next (s.resolveClaims c) := by
  have hguard : (s.alive && !s.synth.prevClaims.isEmpty) = true := by rw [ha, hclaims]; rfl
  change execClaimResolve s = _
  unfold execClaimResolve
  rw [hsched]
  dsimp only
  rw [if_pos hguard, poolResets_of_none hat]

/-- Settles O39: a synthesis stores its schedule whatever tables are kept, and a lone claim finds the whole pool free. -/
theorem synthesisCommands : Obligations.SynthesisCommands := by
  intro s hc ha
  refine ⟨fun body data h0 hlen hdata hnew hfirst => ⟨fun hshort => ?_, fun hwhole hdigest => ?_⟩,
    fun d hp hrun hnone hcpu hd hlack => ?_, fun d us hrun hcpu hd _ => ?_, fun r hr => exec_spareClaim hc.regs ha hr,
    fun c r hsched hclaims hreset hat hgrants hother hfits => ?_, fun g hg heff => ?_, fun k own hat hk => ?_⟩
  · exact (exec_tableFragmentReceive ha h0 hlen hdata hnew hfirst).trans
      (congrArg _ (if_neg fun h => absurd (beq_iff_eq.mp h) (Nat.ne_of_lt hshort)))
  · refine (exec_tableFragmentReceive ha h0 hlen hdata hnew hfirst).trans
      (congrArg _ ((if_pos (beq_iff_eq.mpr hwhole)).trans ?_))
    exact congrArg showTables (if_pos (beq_iff_eq.mpr hdigest))
  · refine next_if_pos ?_
    rw [ha, hp, hrun, hnone, hcpu, hd]
    dsimp only
    rw [hlack]
    rfl
  · obtain ⟨un, hexec⟩ := exec_synthesisComplete ha hrun hcpu us
    obtain ⟨hsyn, hget⟩ := synthTimed_facts hc.regs hd us
    obtain ⟨hover, hstored⟩ := hsyn.record 0x3601 1 1 us un
    exact ⟨_, hexec, hover, hstored, (record_get _ _ _ _ _ _ _ _ (by decide)).trans hget⟩
  · obtain ⟨p2, hp2⟩ := resolveClaims_one hclaims hreset hgrants hother hfits
    have hexec := (exec_claimResolve ha hsched hclaims hat).trans (congrArg _ hp2)
    refine ⟨_, s.poolGrant c r, hexec, ?_, ?_, rfl, rfl, rfl⟩
    · rw [record_synth]
      rfl
    · rw [record_synth]
      exact congrArg (· ++ [s.poolGrant c r]) hgrants
  · have hany : (s.synth.grants.any fun g => g.effect == s.clock.turn) = true := List.any_eq_true.mpr ⟨g, hg, beq_iff_eq.mpr heff⟩
    exact next_if_pos (by rw [ha, hany]; rfl)
  · obtain ⟨crc, hcrc⟩ := poolResets_of_one hat hk
    have hsynth := (record_synth (s.poolEmptied []) 0x3607 3 1 (b2n !own) crc).trans (poolEmptied_synth s [])
    exact ⟨_, (next_if_pos ha).trans (congrArg _ hcrc), congrArg Synth.grants hsynth, (congrArg Synth.claims hsynth :),
      (congrArg Synth.prevClaims hsynth :), congrArg Synth.resetAt hsynth,
      (record_get _ _ _ _ _ _ _ _ (by decide)).trans (poolEmptied_resets hc.regs [])⟩

end Sys2Proof.Machine

/-!
The millpond: own frames, publish fetches, images and subscriptions (R322, R349 to R360).
-/

namespace Sys2Proof.Machine

namespace State

/-! Tenants' images -/

theorem modImage_image (s : State) (t : Nat) (f : Image → Image) : (s.modImage t f).image t = f (s.image t) := by
  show (Sparse.find t (Sparse.put t _ s.host.images)).getD default = _
  rw [Sparse.find_put_same]
  rfl

theorem image_of_host {s u : State} (h : u.host = s.host) (t : Nat) : u.image t = s.image t := by
  unfold image
  rw [h]

theorem showReads_image (s : State) (t : Nat) : s.showReads.image t = s.image t := image_of_host rfl t

/-! A built frame kept -/

theorem storeOwn_eq (s : State) (b : Built) : ∃ m l, s.storeOwn b = { s with mill := m, inaug := { s.inaug with latest := l } } := by
  unfold storeOwn noteHeartbeat
  extract_lets old
  split
  exact ⟨_, _, rfl⟩

/-- What a slot's transmission asks for stays when the own frame is kept. -/
theorem slotStored_facts (s : State) (slot : Nat) (b : Built) :
    let u := (s.did s.clock.turn (.slot slot)).storeOwn b
    u.stopped = s.stopped ∧ u.inaug.joined = s.inaug.joined ∧ u.mayOriginate = s.mayOriginate ∧ u.degraded 1 = s.degraded 1 ∧
      ∀ n, u.nbrPort n = s.nbrPort n := by
  obtain ⟨m, l, h⟩ := storeOwn_eq (s.did s.clock.turn (.slot slot)) b
  rw [h]
  exact ⟨rfl, rfl, rfl, rfl, fun _ => rfl⟩

/-- Four bytes of a value in little-endian order are read back modulo 2^32. -/
theorem leNat_slice_leBytes (v : Nat) : leNat (slice (leBytes 4 v) 0 4) = v % 2 ^ 32 := by
  rw [show slice (leBytes 4 v) 0 4 = leBytes 4 v from rfl, leNat_leBytes]
  rfl

end State

open State

theorem exec_frameBuild {s : State} (ha : s.alive = true) {slot : Nat} (ht : s.ticking = true) (h4 : 4 ≤ slot)
    (hown : (s.ownSlots s.clock.turn).contains slot = true) (hbuilds : s.buildsOwn = true) (harmed : s.slotArmed slot = true)
    (hdue : s.firstTx slot ≤ s.nowTenths + 10000) (hnew : (s.mill.built.any fun b => b.slot == slot) = false)
    (hsingle : s.paired = false) :
    exec (.frameBuild slot) s = .next (((s.lateFetches slot).buildSlot slot false).handOff slot) := by
  have hahead : s.buildAhead = 10000 := by
    unfold buildAhead
    rw [hsingle]
    rfl
  have hguard : (!s.alive || !s.ticking || decide (slot < 4) || !(s.ownSlots s.clock.turn).contains slot || !s.buildsOwn ||
      !s.slotArmed slot || decide (s.nowTenths + s.buildAhead < s.firstTx slot) ||
      s.mill.built.any fun b => b.slot == slot) = false := by
    rw [ha, ht, hown, hbuilds, harmed, hnew, hahead, decide_eq_false (p := slot < 4) (by omega),
      decide_eq_false (p := _ < s.firstTx slot) (by omega)]
    simp
  change execFrameBuild slot s = _
  unfold execFrameBuild
  rw [hguard, hsingle]
  rfl

theorem exec_staticSlotTransmit {s : State} (ha : s.alive = true) {slot : Nat} (corr : Int) {b : Built}
    (hb : (s.mill.built.find? fun b => b.slot == slot) = some b) (harmed : s.slotArmed slot = true)
    (htodo : s.todo (.slot slot) = true) :
    let u := (s.did s.clock.turn (.slot slot)).storeOwn b
    exec (.staticSlotTransmit slot corr) s = .next
      (if u.stopped || u.inaug.joined || !u.mayOriginate || u.degraded 1 then u
        else (List.range 4).foldl (fun s n =>
          if s.nbrPort n then
            s.transmit n ((tenths (s.schedT slot (s.txH n)) : Int) + corr * 2 ^ 16).toNat false false (s.tagged n (s.builtFrame b corr))
          else s) u) := by
  have hguard : ¬ (!s.alive || !s.slotArmed slot || !s.todo (.slot slot)) = true := by
    rw [ha, harmed, htodo]
    simp
  change execStaticSlotTransmit slot corr s = _
  unfold execStaticSlotTransmit
  rw [hb]
  dsimp only
  rw [if_neg hguard]

theorem exec_staticSlotTransmit_stopped {s : State} (ha : s.alive = true) {slot : Nat} (corr : Int) {b : Built}
    (hb : (s.mill.built.find? fun b => b.slot == slot) = some b) (harmed : s.slotArmed slot = true)
    (htodo : s.todo (.slot slot) = true) (hstop : s.stopped = true) :
    exec (.staticSlotTransmit slot corr) s = .next ((s.did s.clock.turn (.slot slot)).storeOwn b) := by
  obtain ⟨hstopped, -⟩ := slotStored_facts s slot b
  refine (exec_staticSlotTransmit ha corr hb harmed htodo).trans (congrArg _ (if_pos ?_))
  rw [hstopped, hstop]
  rfl

theorem exec_staticSlotTransmit_one {s : State} (ha : s.alive = true) {slot : Nat} (corr : Int) {b : Built}
    (hb : (s.mill.built.find? fun b => b.slot == slot) = some b) (harmed : s.slotArmed slot = true)
    (htodo : s.todo (.slot slot) = true) (hstop : s.stopped = false) (hjoined : s.inaug.joined = false) (hmay : s.mayOriginate = true)
    (hdeg : s.degraded 1 = false) (hnone : ∀ n : Fin 3, s.nbrPort n.val = false) (h3 : s.nbrPort 3 = true) {u : State}
    (hu : (s.did s.clock.turn (.slot slot)).storeOwn b = u) :
    exec (.staticSlotTransmit slot corr) s = .next (u.transmit 3
      ((tenths (u.schedT slot (u.txH 3)) : Int) + corr * 2 ^ 16).toNat false false (u.tagged 3 (u.builtFrame b corr))) := by
  obtain ⟨hst, hj, hm, hd, hn⟩ := slotStored_facts s slot b
  refine (exec_staticSlotTransmit ha corr hb harmed htodo).trans (congrArg _ ?_)
  rw [hst, hj, hm, hd, hstop, hjoined, hmay, hdeg]
  rw [hu] at *
  have hno (n : Fin 3) : u.nbrPort n.val = false := (hn n.val).trans (hnone n)
  simp only [range_four, List.foldl_cons, List.foldl_nil, show u.nbrPort 0 = false from hno 0, show u.nbrPort 1 = false from hno 1,
    show u.nbrPort 2 = false from hno 2, show u.nbrPort 3 = true from (hn 3).trans h3, Bool.not_true, Bool.or_self, Bool.false_eq_true,
    if_false, if_true]

theorem exec_staticHandoffReceive {s : State} (ha : s.alive = true) {n : Fin 4} {f : Frame} {ps : List Parcel} {c : RxCheck}
    (hf : f.payload = .parcels ps) (hx : s.isXlink n.val = true) (hp : s.pst n.val = 4) (hfol : s.isFollower = true)
    (hsound : s.rxSound f c.stamp true = true) (hphase : c.phase ≤ tenths (s.handoffBy f.hdr.slot)) (hsender : f.hdr.sender = s.ownPos)
    (hnew : (s.mill.built.any fun b => b.slot == f.hdr.slot) = false) :
    exec (.staticHandoffReceive n f c) s = .next { s with
      mill := { s.mill with built := s.asFollower f ps :: s.mill.built }, red := { s.red with handed := f.hdr.slot :: s.red.handed } } := by
  have hguard : ¬ (!s.alive || !s.isXlink n.val || s.pst n.val != 4) = true := by
    rw [ha, hx, hp]
    simp
  have htaken : ¬ (!true || !s.isFollower || f.hdr.sender != s.ownPos || decide (c.phase > tenths (s.handoffBy f.hdr.slot)) ||
      s.mill.built.any fun b => b.slot == f.hdr.slot) = true := by
    rw [hfol, hsender, hnew, decide_eq_false (p := _ > _) (Nat.not_lt.mpr hphase)]
    simp
  change execStaticHandoffReceive n f c s = _
  unfold execStaticHandoffReceive
  rw [hf]
  dsimp only
  rw [if_neg hguard, rxX_of_sound hsound]
  dsimp only
  rw [if_neg htaken]
  rfl

/-- The reads of a publish buffer: its FLIP word, and the buffer it names. -/
def State.publishReads (s : State) (t fl : Nat) : State :=
  (s.emit (.hostRead t (s.image t).pubBase 4)).emit
    (.hostRead t ((s.image t).pubBase + 64 + fl % 2 * (64 * (s.image t).pubSize)) (64 * (s.image t).pubSize))

theorem exec_publishFetch {s : State} (ha : s.alive = true) {n : Fin 16} {flip turn : Nat} (hdue : s.fetchDue n.val = some turn)
    (hup : s.hostUp = true) (hen : s.on Reg.TI_CTL_PUB_EN [n.val] = true) (hright : s.on Reg.TN_RIGHTS_IMAGE [n.val] = true)
    (hbme : s.bme n.val = true) (hfree : (s.image n.val).fetch = none) :
    exec (.publishFetch ⟨n.val, by omega⟩ flip) s = .next ((((s.publishReads n.val (flip % 2 ^ 32)).modImage n.val fun y =>
      { y with fetch := some (flip % 2 ^ 32, turn) }).did turn (.fetch n.val)).showReads) := by
  have hguard : (s.alive && s.hostUp && s.on Reg.TI_CTL_PUB_EN [n.val] && s.on Reg.TN_RIGHTS_IMAGE [n.val] && s.bme n.val &&
      (s.image n.val).fetch.isNone) = true := by
    rw [ha, hup, hen, hright, hbme, hfree]
    rfl
  have h16 : (n.val == 16) = false := beq_eq_false_iff_ne.mpr (by omega)
  have hflip (a : Nat) : leNat (s.memIn n.val a 4 (leBytes 4 flip)) = flip % 2 ^ 32 := by
    unfold memIn
    rw [h16]
    exact leNat_slice_leBytes flip
  change execPublishFetch ⟨n.val, _⟩ flip s = _
  unfold execPublishFetch
  dsimp only
  rw [hdue]
  dsimp only
  rw [if_pos hguard, hflip, h16]
  rfl

/-- What a publish fetch notes and has put out. -/
theorem publishFetched_facts (s : State) (n fl turn : Nat) :
    let t := (((s.publishReads n fl).modImage n fun y => { y with fetch := some (fl, turn) }).did turn (.fetch n)).showReads
    (t.image n).fetch = some (fl, turn) ∧
      t.out = .hostRead n ((s.image n).pubBase + 64 + fl % 2 * (64 * (s.image n).pubSize)) (64 * (s.image n).pubSize) ::
        .hostRead n (s.image n).pubBase 4 :: s.out := by
  refine ⟨?_, rfl⟩
  have himage := modImage_image (s.publishReads n fl) n fun y => { y with fetch := some (fl, turn) }
  exact (congrArg Image.fetch ((image_of_host rfl n).trans himage) :)

/-- A publish buffer of size 0 holds nothing that is passed on. -/
theorem exec_publishFetchDone {s : State} (ha : s.alive = true) {n : Fin 17} (data : List Byte) {fl turn : Nat}
    (hf : (s.image n.val).fetch = some (fl, turn)) (hsize : (s.image n.val).pubSize = 0) :
    exec (.publishFetchDone n data) s = .next
      (((s.modImage n.val fun y => { y with fetch := none }).showReads).memWrite n.val ((s.image n.val).pubBase + 4) (leBytes 4 fl)) := by
  have halive : ¬ (!s.alive) = true := by rw [ha]; exact Bool.false_ne_true
  change execPublishFetchDone n data s = _
  unfold execPublishFetchDone
  dsimp only
  rw [hf]
  dsimp only
  rw [if_neg halive, hsize]
  refine congrArg _ (if_neg ?_)
  show ¬ (_ && !List.isEmpty []) = true
  rw [List.isEmpty_nil, Bool.not_true, Bool.and_false]
  exact Bool.false_ne_true

theorem enKey_ne_activeKey : ∀ n : Fin 17, Reg.TI_CTL_EN.key [n.val] ≠ Reg.TI_STAT_ACTIVE.key [n.val] := by decide

/-- An image taken with its subscription list, and shown enabled. -/
theorem enableImage_facts {s : State} (hs : Sparse.sorted s.regs = true) {n : Fin 17} (list : List Byte)
    (hoff : s.on Reg.TI_CTL_EN [n.val] = false) (hright : s.on Reg.TN_RIGHTS_IMAGE [n.val] = true) :
    let t := s.enableImage n.val list
    t.get Reg.TI_CTL_EN [n.val] = 1 ∧ t.get Reg.TI_STAT_ACTIVE [n.val] = 1 ∧ (t.image n.val).resolve = some (s.clock.turn + 1) := by
  have hguard : ¬ (s.on Reg.TI_CTL_EN [n.val] || !s.on Reg.TN_RIGHTS_IMAGE [n.val]) = true := by
    rw [hoff, hright]
    simp
  unfold enableImage
  rw [if_neg hguard]
  extract_lets addr m sub read subs taken shown
  have hread : read.regs = s.regs ∧ read.clock = s.clock := by
    show (if n.val == 16 then s else _).regs = _ ∧ (if n.val == 16 then s else _).clock = _
    split
    · exact ⟨rfl, rfl⟩
    · exact ⟨rfl, rfl⟩
  have hsorted : Sparse.sorted shown.regs = true := sorted_set _ _ _ _ (sorted_set taken _ _ _ (hread.1.symm ▸ hs))
  have himage : (taken.image n.val).resolve = some (s.clock.turn + 1) := by
    show ((read.modImage n.val _).image n.val).resolve = _
    rw [modImage_image, ← hread.2]
  have hshown : shown.image n.val = taken.image n.val := image_of_host rfl n.val
  clear_value shown
  refine ⟨?_, get_set_same _ _ _ _ (sorted_set shown _ _ _ hsorted), ?_⟩
  · exact (get_set_other (shown.set Reg.TI_CTL_EN [n.val] 1) _ _ _ _ _ (enKey_ne_activeKey n)).trans (get_set_same shown _ _ 1 hsorted)
  · exact (congrArg Image.resolve (((image_of_host rfl n.val).trans hshown)) :).trans himage

theorem resolveSubs_facts {s : State} {c : Schedule} (hsched : s.synth.sched = some c) (n : Nat) :
    ((s.resolveSubs n).image n).resolve = none ∧ ((s.resolveSubs n).image n).icount = s.icount := by
  unfold resolveSubs
  split
  next h => exact absurd (hsched.symm.trans h) (Option.some_ne_none c)
  next d _ =>
    extract_lets x all kept trunc resolved shown
    have h : (shown.image n).resolve = none ∧ (shown.image n).icount = s.icount := by
      have himage : shown.image n = resolved.image n := image_of_host rfl n
      rw [himage, show resolved.image n = _ from modImage_image s n _]
      exact ⟨rfl, rfl⟩
    clear_value shown
    split
    · rw [image_of_host (s := shown.set Reg.TI_STAT_TRUNC [n] 1) (recordS_host ..)]
      exact h
    · exact h

/-- Settles O41: an image is read back from what was put for its tenant, and keeping an own frame leaves what its transmission asks for. -/
theorem millpondCommands : Obligations.MillpondCommands := by
  intro s hc ha
  refine ⟨fun slot ht h4 hown hbuilds harmed hdue hnew hsingle => exec_frameBuild ha ht h4 hown hbuilds harmed hdue hnew hsingle,
    fun slot corr b hb harmed htodo hstop => exec_staticSlotTransmit_stopped ha corr hb harmed htodo hstop,
    fun slot corr b u hb harmed htodo hstop hjoined hmay hdeg hnone h3 hu =>
      exec_staticSlotTransmit_one ha corr hb harmed htodo hstop hjoined hmay hdeg hnone h3 hu,
    fun n f ps c hf hx hp hfol hsound hphase hsender hnew => exec_staticHandoffReceive ha hf hx hp hfol hsound hphase hsender hnew,
    fun n flip turn hdue hup hen hright hbme hfree =>
      ⟨_, exec_publishFetch ha hdue hup hen hright hbme hfree, publishFetched_facts s n.val (flip % 2 ^ 32) turn⟩,
    fun n data fl turn hf hsize => ⟨_, exec_publishFetchDone ha data hf hsize, ?_, rfl⟩,
    fun n list hopen hoff hright => ⟨_, next_if_pos (by rw [ha, hopen]; rfl), enableImage_facts hc.regs list hoff hright⟩,
    fun n hright list => ?_, fun n c k hsched hen hres hk => ⟨_, next_if_pos ?_, resolveSubs_facts hsched n.val⟩⟩
  · rw [showReads_image, modImage_image]
  · have hnone : s.enableImage n.val list = s := if_pos (by rw [hright]; exact Bool.or_true _)
    change execTiEnable n list s = _
    unfold execTiEnable
    rw [hnone, ite_self]
  · rw [ha, hen, hres, Option.any_some, decide_eq_true hk]
    rfl

end Sys2Proof.Machine

/-!
The pair: messages, roles, epochs and swaps (R321, R325 to R341).
-/

namespace Sys2Proof.Machine

namespace State

/-! Role and epoch -/

theorem mramWrite_epoch_regs (s : State) (e : Nat) : (s.mramWrite (.takeoverEpoch e)).regs = s.regs := by
  unfold mramWrite
  split
  · rfl
  · rfl

theorem setEpoch_epoch {s : State} (hs : Sparse.sorted s.regs = true) (e : Nat) : (s.setEpoch e).epoch = e % 65536 := by
  unfold setEpoch
  dsimp only
  split
  next h => exact beq_iff_eq.mp h
  next =>
    refine (get_of_regs (mramWrite_epoch_regs ..) _ _).trans ((get_set_same s _ _ _ hs).trans ?_)
    exact Nat.mod_mod _ _

theorem setRole_writes (s : State) (r : Nat) : WritesAt (· = Reg.GLOBAL_STAT_ROLE.key []) s (s.setRole r) := by
  have hset := (WritesAt.refl s).set (P := (· = Reg.GLOBAL_STAT_ROLE.key [])) Reg.GLOBAL_STAT_ROLE [] r rfl
  unfold setRole
  split
  · exact .refl s
  · dsimp only
    split
    · exact hset.other rfl
    · exact hset.other rfl

theorem setRole_role {s : State} (hs : Sparse.sorted s.regs = true) {r : Nat} (hr : r < 2 ^ Reg.GLOBAL_STAT_ROLE.width) :
    (s.setRole r).get Reg.GLOBAL_STAT_ROLE = r := by
  have hset := (get_set_same s Reg.GLOBAL_STAT_ROLE [] r hs).trans (Nat.mod_eq_of_lt hr)
  unfold setRole
  split
  next h => exact beq_iff_eq.mp h
  next =>
    dsimp only
    split
    · exact hset
    · exact hset

/-- A device takes a role with an epoch. -/
def takesRole (s : State) (e r : Nat) : State := (s.setEpoch e).setRole r

theorem takesRole_facts {s : State} (hs : Sparse.sorted s.regs = true) (e : Nat) {r : Nat} (hr : r < 2 ^ Reg.GLOBAL_STAT_ROLE.width) :
    (s.takesRole e r).get Reg.GLOBAL_STAT_ROLE = r ∧ (s.takesRole e r).get Reg.RED_STAT_EPOCH = e % 65536 :=
  ⟨setRole_role ((setEpoch_keeps (.refl s) e).regs hs) hr,
    ((setRole_writes _ _).get _ _ (by decide)).trans (setEpoch_epoch hs e)⟩

/-- The far queue emptied. -/
def farEmptied (s : State) : State := (s.modFar fun f => { f with tqueue := [] }).showFar

theorem farEmptied_get (s : State) {f : Fld} {ix : List Nat} (ht : f.key ix ≠ Reg.FAR_STAT_TAGS.key [])
    (hq : f.key ix ≠ Reg.FAR_STAT_TQUEUE.key []) : s.farEmptied.get f ix = s.get f ix :=
  (get_set_other ((s.modFar fun f => { f with tqueue := [] }).set Reg.FAR_STAT_TAGS [] _) _ _ _ _ _ hq).trans
    (get_set_other (s.modFar fun f => { f with tqueue := [] }) _ _ _ _ _ ht)

/-! A partner's state taken -/

/-- From `a` to `b` what is known of the partner's state stays. -/
def SamePartner (a b : State) : Prop := b.red.partner = a.red.partner ∧ b.red.psNow = a.red.psNow

namespace SamePartner

variable {a b c : State}

theorem of_red (h : b.red = a.red) : SamePartner a b := by
  unfold SamePartner
  rw [h]
  exact ⟨rfl, rfl⟩

theorem trans (h : SamePartner a b) (k : SamePartner b c) : SamePartner a c := ⟨k.1.trans h.1, k.2.trans h.2⟩

theorem ite {p : Prop} [Decidable p] (hb : SamePartner a b) (hc : SamePartner a c) : SamePartner a (if p then b else c) := by
  split
  · exact hb
  · exact hc

theorem setWst (s : State) (w st : Nat) : SamePartner s (s.setWst w st) := by
  unfold State.setWst
  extract_lets old s1 s2
  exact .ite (.of_red (recordS_red ..)) (.of_red rfl)

theorem weirFollow (s : State) (w : Nat) : SamePartner s (s.weirFollow w) :=
  .ite (.of_red rfl) (.ite (.ite (.of_red rfl) (setWst ..)) (.ite (.ite (setWst s w 2) (.of_red rfl)) (.ite (.of_red rfl) (setWst ..))))

theorem followChange (s : State) (was : Bool) : SamePartner s (s.followChange was) :=
  .ite (.of_red rfl) (.ite (.of_red rfl) (.of_red rfl))

theorem listenShown (s : State) : SamePartner s s.listenShown := ⟨rfl, rfl⟩

theorem listenBegun (s : State) (old : Nat) : SamePartner s (s.listenBegun old) := ⟨rfl, rfl⟩

theorem relays (s : State) : SamePartner s s.relays := ⟨rfl, rfl⟩

theorem toListen (s : State) : SamePartner s (s.toLine 1) := by
  by_cases h : s.lstate = 1
  · rw [show s.toLine 1 = s from if_pos (by simp [h])]
    exact .of_red rfl
  · rw [toLine_listen h]
    have hbegun : SamePartner s ((s.listenShown.followChange s.following).listenBegun s.lstate) :=
      ((listenShown s).trans (followChange ..)).trans (listenBegun ..)
    exact ((hbegun.trans (weirFollow _ 0)).trans (weirFollow _ 1)).trans (relays _)

theorem leaveSolo (s : State) (port : Nat) : SamePartner s (s.leaveSolo port) :=
  .ite ((toListen s).trans (.of_red (record_red ..))) (.of_red rfl)

end SamePartner

theorem leaveSolo_get (s : State) (port : Nat) {f : Fld} {ix : List Nat} (h : ¬ ToListenPlace (f.key ix)) (hr : recordKey (f.key ix) = false) :
    (s.leaveSolo port).get f ix = s.get f ix := by
  unfold leaveSolo
  split
  · exact (record_get _ _ _ _ _ _ _ _ hr).trans ((toListen_writes s).get _ _ h)
  · rfl

/-- A partner's state and identity noted. -/
def partnerNoted (s : State) (p : PairState) : State :=
  ((s.set Reg.RED_PARTNER_LO_UID [] (p.uid % 2 ^ 32)).set Reg.RED_PARTNER_HI_UID [] (p.uid / 2 ^ 32)).modRed fun r => { r with
    partner := some p, partnerPorts := p.ports, psNow := true, noneSince := r.noneSince.map fun _ => s.clock.up }

theorem partnerNoted_role (s : State) (p : PairState) : (s.partnerNoted p).get Reg.GLOBAL_STAT_ROLE = s.get Reg.GLOBAL_STAT_ROLE :=
  (get_set_other (s.set Reg.RED_PARTNER_LO_UID [] (p.uid % 2 ^ 32)) _ _ _ _ _ (by decide)).trans
    (get_set_other s _ _ _ _ _ (by decide))

theorem partnerNoted_uid {s : State} (hs : Sparse.sorted s.regs = true) (p : PairState) :
    (s.partnerNoted p).get Reg.RED_PARTNER_LO_UID = p.uid % 2 ^ 32 ∧
      (s.partnerNoted p).get Reg.RED_PARTNER_HI_UID = p.uid / 2 ^ 32 % 2 ^ 32 :=
  ⟨(get_set_other (s.set Reg.RED_PARTNER_LO_UID [] (p.uid % 2 ^ 32)) _ _ _ _ _ (by decide)).trans
      ((get_set_same s _ _ _ hs).trans (Nat.mod_mod _ _)),
    get_set_same (s.set Reg.RED_PARTNER_LO_UID [] (p.uid % 2 ^ 32)) _ _ _ (sorted_set s _ _ _ hs)⟩

/-- A follower has no role to settle and takes nothing from a message without lists. -/
theorem settleRole_of_follower {s : State} (h : s.get Reg.GLOBAL_STAT_ROLE = 2) (p : PairState) :
    (((s.settleRole p).takePublished []).takeCans []).takeReports [] = s := by
  have hsettled : s.settleRole p = s := if_pos (by rw [h]; rfl)
  rw [hsettled]
  have hpub : s.takePublished [] = s := ite_self s
  have hcan : s.takeCans [] = s := ite_self s
  rw [hpub, hcan]
  exact ite_self s

end State

open State

theorem exec_pairStateReceive {s : State} (ha : s.alive = true) (hpair : s.paired = true) (p : PairState) (hx : s.xlinks ≠ [])
    (hfol : s.isFollower = true) :
    ∃ rose : Bool, exec (.pairStateReceive p [] [] []) s = .next
      (((((if rose && (s.partnerNoted p).lineUpFw then (s.partnerNoted p).leaveSolo 0xFF else s.partnerNoted p).partnerSays p
        (s.delay (s.xlinks.headD 0))).followPartner p (s.delay (s.xlinks.headD 0))).splitsFrom s).showEnds) := by
  have hrole : (s.partnerNoted p).get Reg.GLOBAL_STAT_ROLE = 2 := (partnerNoted_role s p).trans (beq_iff_eq.mp hfol)
  have hlead : (s.partnerNoted p).isLeader = false := by
    unfold isLeader
    rw [hrole]
    rfl
  have hguard : ¬ (!s.alive || !s.paired || s.xlinks.isEmpty) = true := by
    rw [ha, hpair, List.isEmpty_eq_false_iff.mpr hx]
    simp
  change ∃ rose : Bool, execPairStateReceive p [] [] [] s = _
  unfold execPairStateReceive
  rw [if_neg hguard]
  extract_lets old d s1 s2 s3 s4 rose s5
  have h3 : s3 = s.partnerNoted p := settleRole_of_follower hrole p
  have h4 : s4 = s.partnerNoted p := by
    show (if s3.isLeader && p.role == 1 then _ else s3) = _
    rw [h3, hlead]
    rfl
  refine ⟨rose, ?_⟩
  show Host.Outcome.next ((((if rose && s4.lineUpFw then s4.leaveSolo 0xFF else s4).partnerSays p d).followPartner p d).splitsFrom old).showEnds = _
  clear_value rose
  rw [h4]

theorem exec_pairStateSend {s : State} (ha : s.alive = true) (hpair : s.paired = true) (hx : s.xlinks ≠ []) (hdue : s.pairStateDue = true) :
    exec .pairStateSend s = .next (((s.emit (.pairState s.pairState)).modRed fun r =>
      { r with psSent := some (s.clock.turn, s.clock.up) }).modInaug fun i => { i with asking := if s.decides then i.asking else none }) := by
  have hguard : (s.alive && s.paired && !s.xlinks.isEmpty && s.pairStateDue) = true := by
    rw [ha, hpair, hdue, List.isEmpty_eq_false_iff.mpr hx]
    rfl
  exact next_if_pos hguard

theorem exec_roleTimeout {s : State} (ha : s.alive = true) (hpair : s.paired = true) {k : Nat} (hk : s.red.noneSince = some k)
    (hrole : s.get Reg.GLOBAL_STAT_ROLE = 3) (hl : s.lstate ≠ 0) (hcpu : s.cpuUp 0 = true) (hsince : s.since k 2000000000 = true) :
    exec .roleTimeout s = .next (s.carDefaults.lead (s.epoch + 1) s.clock.turn).settled := by
  have hguard : (s.alive && s.paired && s.cpuUp 0 && s.get Reg.GLOBAL_STAT_ROLE == 3 && s.lstate != 0 && s.since k 2000000000) = true := by
    rw [ha, hpair, hcpu, hrole, hsince, bne_iff_ne.mpr hl]
    rfl
  change execRoleTimeout s = _
  unfold execRoleTimeout
  rw [hk]
  dsimp only
  rw [if_pos hguard]

theorem exec_epochSnapshot {s : State} (ha : s.alive = true) {e : EpochImage} (he : s.red.snap = some e) (hlead : s.isLeader = true)
    (hcpu : s.cpuUp 0 = true) (hswap : s.red.swap = none) :
    exec .epochSnapshot s = .next ((s.sendEpoch s.turn32 false e).modRed fun r => { r with snap := none }) := by
  have hguard : (s.alive && s.isLeader && s.cpuUp 0 && !(s.red.swap.any fun x => x.w == s.clock.turn)) = true := by
    rw [ha, hlead, hcpu, hswap]
    rfl
  change execEpochSnapshot s = _
  unfold execEpochSnapshot
  rw [he]
  dsimp only
  rw [if_pos hguard]

/-- What an epoch's chunk is checked by. -/
def chunkBytes (num index count : Nat) (data : List Byte) : List Byte :=
  beBytes 4 num ++ beBytes 2 index ++ beBytes 2 count ++ slice data 0 1024

theorem exec_epochChunkReceive_first {s : State} (ha : s.alive = true) {num index count : Nat} {data : List Byte} (hfol : s.isFollower = true)
    (hcpu : s.cpuUp 0 = true) (hshadow : s.red.shadow = none) (hindex : index < count) (hcount : count ≤ 160) :
    exec (.epochChunkReceive num index count (crc32c (beBytes 4 num ++ beBytes 2 index ++ beBytes 2 count ++ slice data 0 1024)) data) s =
      .next (s.modRed fun r => { r with shadow := some ⟨num, count, [(index, slice data 0 1024)]⟩ }) := by
  have hguard : ¬ (!s.alive || !s.isFollower || !s.cpuUp 0) = true := by
    rw [ha, hfol, hcpu]
    simp
  have hplace : (decide (index < count) && decide (count ≤ 160)) = true := by
    rw [decide_eq_true hindex, decide_eq_true hcount]
    rfl
  change execEpochChunkReceive num index count _ data s = _
  unfold execEpochChunkReceive
  generalize crc32c (beBytes 4 num ++ beBytes 2 index ++ beBytes 2 count ++ slice data 0 1024) = c
  have hcrc : ¬ (c != c) = true := by simp
  rw [if_neg hguard, if_neg hcrc, hshadow]
  dsimp only
  rw [if_pos hplace, hshadow]
  rfl

theorem exec_epochChunkReceive_bad {s : State} (ha : s.alive = true) {num index count ccrc : Nat} {data : List Byte}
    (hfol : s.isFollower = true) (hcpu : s.cpuUp 0 = true)
    (hbad : crc32c (beBytes 4 num ++ beBytes 2 index ++ beBytes 2 count ++ slice data 0 1024) ≠ ccrc) :
    exec (.epochChunkReceive num index count ccrc data) s = .next (s.inc Reg.RED_EPOCH_CNT_CHUNK_ERR) := by
  have hguard : ¬ (!s.alive || !s.isFollower || !s.cpuUp 0) = true := by
    rw [ha, hfol, hcpu]
    simp
  change execEpochChunkReceive num index count ccrc data s = _
  unfold execEpochChunkReceive
  rw [if_neg hguard, if_pos (bne_iff_ne.mpr hbad)]

theorem commitEpoch_swap (s : State) (num : Nat) (data : List Byte) : (s.commitEpoch num data).red.swap = s.red.swap := by
  unfold commitEpoch
  extract_lets n taken shown
  split
  · rfl
  · rfl

theorem exec_epochEndMarkerReceive {s : State} (ha : s.alive = true) {h : Shadow} {all : List Byte} {dlen : Nat} (hfol : s.isFollower = true)
    (hcpu : s.cpuUp 0 = true) (hshadow : s.red.shadow = some h) (hall : State.shadowData h = some all) (hnew : s.red.committed = none)
    (hver : (Config.epochParse (all.take dlen)).version % 2 ^ 32 = s.get Reg.CFG_VER_ACTIVE_VER) (hswap : s.red.swap = none) :
    exec (.epochEndMarkerReceive h.enum h.count dlen (crc64 (all.take dlen)) false) s = .next (s.commitEpoch h.enum (all.take dlen)) := by
  have hguard : ¬ (!s.alive || !s.isFollower || !s.cpuUp 0) = true := by
    rw [ha, hfol, hcpu]
    simp
  change execEpochEndMarkerReceive h.enum h.count dlen _ false s = _
  unfold execEpochEndMarkerReceive
  rw [if_neg hguard, hshadow]
  dsimp only
  rw [hall, hnew]
  dsimp only
  generalize crc64 (all.take dlen) = c
  have htaken : ¬ (h.enum != h.enum || h.count != h.count || c != c || !true) = true := by simp
  have hsame : ¬ ((Config.epochParse (all.take dlen)).version % 2 ^ 32 != s.get Reg.CFG_VER_ACTIVE_VER) = true := by
    rw [hver, bne_self_eq_false]
    exact Bool.false_ne_true
  rw [if_neg htaken, if_neg hsame, commitEpoch_swap, hswap]

theorem exec_witnessReceive {s : State} (ha : s.alive = true) (hpair : s.paired = true) (sender : Nat) {body : List Byte}
    (hpos : s.ownPos = beAt body 0 1) (hA : bit (beAt body 2 1) 0 = false) (hB : bit (beAt body 2 1) 1 = false) :
    ∃ t w, exec (.witnessReceive sender body) s = .next t ∧ t.red.witnesses = w :: s.red.witnesses ∧ w.subject = beAt body 0 1 ∧
      w.sender = sender ∧ { t with red := s.red } = s := by
  change ∃ t w, execWitnessReceive sender body s = .next t ∧ _
  unfold execWitnessReceive
  extract_lets seen claim w t partnerB claims e pref
  have hsubject : (w.subject != s.ownPos) = false := by rw [hpos]; exact bne_self_eq_false _
  have hguard : ¬ (!s.alive || !s.paired || (s.ownPos != 0 && w.subject != s.ownPos)) = true := by
    rw [ha, hpair, hsubject]
    simp
  have hclaims (b : Bool) : (if b then w.claimB else w.claimA) = false := by
    cases b
    · exact hA
    · exact hB
  rw [if_neg hguard]
  have hnone : (!claims) = true := by
    rw [show claims = false from hclaims partnerB]
    rfl
  rw [if_pos hnone]
  exact ⟨t, w, rfl, rfl, rfl, rfl, rfl⟩

theorem exec_takeover {s : State} (ha : s.alive = true) {k code : Nat} (hk : s.red.takeover = some (k, code)) (hlt : k < s.clock.turn)
    (hfol : s.isFollower = true) (hcpu : s.cpuUp 0 = true) : exec .takeover s = .next (s.takeOver code) := by
  have hguard : (s.alive && s.isFollower && s.cpuUp 0 && decide (k < s.clock.turn)) = true := by
    rw [ha, hfol, hcpu, decide_eq_true hlt]
    rfl
  change execTakeover s = _
  unfold execTakeover
  rw [hk]
  dsimp only
  rw [if_pos hguard]

/-- A leader that a later claim beats, as a follower with that epoch, before its work goes. -/
def State.yielded (s : State) (e : Nat) : State := ((s.takesRole e 2).modRed fun r => { r with claim := none }).farEmptied

theorem exec_leaderYield {s : State} (ha : s.alive = true) {k e : Nat} (hk : s.red.claim = some (k, e)) (hlead : s.isLeader = true)
    (hcpu : s.cpuUp 0 = true) (hlt : k < s.clock.turn) :
    exec .leaderYield s = .next ((((s.yielded e).roleWork true).inc Reg.RED_TAKE_CNT_YIELDS).recordS 0x3805 4 1 s.epoch e) := by
  have hguard : (s.alive && s.isLeader && s.cpuUp 0 && decide (k < s.clock.turn)) = true := by
    rw [ha, hlead, hcpu, decide_eq_true hlt]
    rfl
  change execLeaderYield s = _
  unfold execLeaderYield
  rw [hk]
  dsimp only
  rw [if_pos hguard]
  rfl

theorem State.yielded_facts {s : State} (hs : Sparse.sorted s.regs = true) (e : Nat) :
    (s.yielded e).get Reg.GLOBAL_STAT_ROLE = 2 ∧ (s.yielded e).get Reg.RED_STAT_EPOCH = e % 65536 ∧ (s.yielded e).far.tqueue = [] := by
  obtain ⟨hrole, hepoch⟩ := takesRole_facts hs e (r := 2) (by decide)
  exact ⟨(farEmptied_get _ (by decide) (by decide)).trans hrole, (farEmptied_get _ (by decide) (by decide)).trans hepoch, rfl⟩

/-- Settles O42: role and epoch are read back after they are set, and leaving SOLITARY keeps what is known of the partner. -/
theorem pairCommands : Obligations.PairCommands := by
  intro s hc ha hpair
  refine ⟨fun hx hdue => ⟨_, exec_pairStateSend ha hpair hx hdue, rfl, rfl, rfl⟩, fun p hx hfol => ?_,
    fun k hk hrole hl hcpu hsince => exec_roleTimeout ha hpair hk hrole hl hcpu hsince,
    fun e he hlead hcpu hswap => exec_epochSnapshot ha he hlead hcpu hswap,
    fun num index count data hfol hcpu hshadow hindex hcount => exec_epochChunkReceive_first ha hfol hcpu hshadow hindex hcount,
    fun num index count ccrc data hfol hcpu hbad => exec_epochChunkReceive_bad ha hfol hcpu hbad,
    fun h all dlen hfol hcpu hshadow hall hnew hver hswap => exec_epochEndMarkerReceive ha hfol hcpu hshadow hall hnew hver hswap,
    fun sender body hpos hA hB => exec_witnessReceive ha hpair sender hpos hA hB,
    fun k code hk hlt hfol hcpu => exec_takeover ha hk hlt hfol hcpu,
    fun k e hk hlead hcpu hlt => ⟨_, exec_leaderYield ha hk hlead hcpu hlt, State.yielded_facts hc.regs e⟩⟩
  obtain ⟨rose, hexec⟩ := exec_pairStateReceive ha hpair p hx hfol
  obtain ⟨hlo, hhi⟩ := partnerNoted_uid hc.regs p
  refine ⟨_, hexec, ?_⟩
  generalize hn : s.partnerNoted p = n at *
  have hpartner : n.red.partner = some p ∧ n.red.psNow = true := hn ▸ ⟨rfl, rfl⟩
  clear hn
  split
  · obtain ⟨hp, hnow⟩ := SamePartner.leaveSolo n 0xFF
    exact ⟨hp.trans hpartner.1, hnow.trans hpartner.2,
      (leaveSolo_get n 0xFF (by unfold ToListenPlace ListenPlace; decide) (by decide)).trans hlo,
      (leaveSolo_get n 0xFF (by unfold ToListenPlace ListenPlace; decide) (by decide)).trans hhi⟩
  · exact ⟨hpartner.1, hpartner.2, hlo, hhi⟩

end Sys2Proof.Machine

/-!
A commanded role swap (R340, R341).
-/

namespace Sys2Proof.Machine

open State

theorem exec_swapMessageReceive {s : State} (ha : s.alive = true) {w : Nat} (hpair : s.paired = true) (hfol : s.isFollower = true)
    (hswap : s.red.swap = none) (hw : s.clock.turn < w) : exec (.swapMessageReceive w) s = .next (s.beginSwap w none) := by
  have hguard : (s.alive && s.paired && (s.isLeader || s.isFollower) && s.red.swap.isNone && decide (s.clock.turn < w)) = true := by
    rw [ha, hpair, hfol, hswap, decide_eq_true hw, Bool.or_true]
    rfl
  change execSwapMessageReceive w s = _
  unfold execSwapMessageReceive
  rw [if_pos hguard]

/-- The leader's snapshot sent, and its swap done. -/
def State.snapshotDone (s : State) (x : Swap) : State :=
  (s.sendEpoch s.turn32 true (s.red.snap.getD s.epochImage)).modRed fun r => { r with snap := none, swap := some { x with done := true } }

theorem exec_swapEpochSnapshot {s : State} (ha : s.alive = true) (hcpu : s.cpuUp 0 = true) {x : Swap} (hx : s.red.swap = some x)
    (hlead : x.leader = true) (hw : x.w = s.clock.turn) (haborted : x.aborted = false) (hdone : x.done = false) :
    exec .swapEpochSnapshot s = .next ((List.range 8).foldl (fun s n => s.canPark n) (s.snapshotDone x)) := by
  have hguard : (s.alive && x.leader && s.cpuUp 0 && x.w == s.clock.turn && !x.aborted && !x.done) = true := by
    rw [ha, hlead, hcpu, haborted, hdone, beq_iff_eq.mpr hw]
    rfl
  change execSwapEpochSnapshot s = _
  unfold execSwapEpochSnapshot
  rw [hx]
  dsimp only
  rw [if_pos hguard]
  rfl

theorem exec_swapCommitDeadline {s : State} (ha : s.alive = true) (hcpu : s.cpuUp 0 = true) {x : Swap} (hx : s.red.swap = some x)
    (hw : x.w = s.clock.turn) (hlate : 200000 ≤ s.phaseNs) (haborted : x.aborted = false) (hlead : x.leader = false) (hdone : x.done = false) :
    exec (.swapCommitDeadline false) s = .next (((s.endSwap x 7 0).recordS 0x3807 3 1 (x.w % 2 ^ 32)
      ((s.red.shadow.map fun h => h.chunks.length).getD 0)).swapJobs) := by
  have hguard : (s.alive && s.cpuUp 0 && (decide (x.w < s.clock.turn) || (x.w == s.clock.turn && decide (s.phaseNs ≥ 200000))) &&
      !x.aborted && !(if x.leader then false else x.done)) = true := by
    rw [ha, hcpu, haborted, hlead, hdone, beq_iff_eq.mpr hw, decide_eq_true (p := _ ≥ 200000) hlate, Bool.and_self, Bool.or_true]
    rfl
  change execSwapCommitDeadline false s = _
  unfold execSwapCommitDeadline
  rw [hx]
  dsimp only
  rw [if_pos hguard, hlead]
  rfl

/-- The roles exchanged with the next epoch, before the work of the old role goes. -/
def State.exchanged (s : State) (x : Swap) : State :=
  let e := (s.epoch + 1) % 65536
  if x.leader then (s.takesRole e 2).farEmptied else s.lead e s.clock.turn

theorem exec_swapRoleExchange {s : State} (ha : s.alive = true) (hcpu : s.cpuUp 0 = true) {x : Swap} (hx : s.red.swap = some x)
    (hw : x.w < s.clock.turn) (hdone : x.done = true) :
    exec .swapRoleExchange s = .next (((((s.exchanged x).roleWork x.leader).inc Reg.RED_TAKE_CNT_SWAPS).recordS 0x3806 1 1 (x.w % 2 ^ 32)
      ((s.epoch + 1) % 65536)).endSwap x 0 x.w) := by
  have hguard : (s.alive && s.cpuUp 0 && decide (x.w < s.clock.turn) && x.done) = true := by
    rw [ha, hcpu, hdone, decide_eq_true hw]
    rfl
  change execSwapRoleExchange s = _
  unfold execSwapRoleExchange
  rw [hx]
  dsimp only
  rw [if_pos hguard]
  unfold exchanged
  cases h : x.leader
  · rfl
  · rfl

theorem State.exchanged_facts {s : State} (hs : Sparse.sorted s.regs = true) (x : Swap) :
    (s.exchanged x).get Reg.GLOBAL_STAT_ROLE = (if x.leader then 2 else 1) ∧
      (s.exchanged x).get Reg.RED_STAT_EPOCH = (s.epoch + 1) % 65536 := by
  unfold exchanged
  cases h : x.leader
  · obtain ⟨hrole, hepoch⟩ := takesRole_facts hs ((s.epoch + 1) % 65536) (r := 1) (by decide)
    exact ⟨hrole, hepoch.trans (Nat.mod_mod _ _)⟩
  · obtain ⟨hrole, hepoch⟩ := takesRole_facts hs ((s.epoch + 1) % 65536) (r := 2) (by decide)
    exact ⟨(farEmptied_get _ (by decide) (by decide)).trans hrole,
      (farEmptied_get _ (by decide) (by decide)).trans (hepoch.trans (Nat.mod_mod _ _))⟩

/-- Settles O43: the roles after an exchange are read back behind the emptied far queue. -/
theorem swapCommands : Obligations.SwapCommands := by
  intro s hc ha hcpu
  exact ⟨fun w hpair hfol hswap hw => ⟨_, exec_swapMessageReceive ha hpair hfol hswap hw, get_set_same s _ _ 1 hc.regs, rfl, rfl⟩,
    fun x hx hlead hw haborted hdone => ⟨_, exec_swapEpochSnapshot ha hcpu hx hlead hw haborted hdone, rfl, rfl⟩,
    fun x hx hw hlate haborted hlead hdone => exec_swapCommitDeadline ha hcpu hx hw hlate haborted hlead hdone,
    fun x hx hw hdone => ⟨_, exec_swapRoleExchange ha hcpu hx hw hdone, State.exchanged_facts hc.regs x⟩⟩

end Sys2Proof.Machine

/-!
The security engine: attestation, keys, life cycle, tamper and the fleet key (R557 to R582).
-/

namespace Sys2Proof.Machine

namespace State

/-! Descriptors of the security engine -/

theorem attest_of_bad {s : State} {n q i f : Nat} {d : Desc} (h : attestArgs n f d = false) (given : List Byte) :
    s.attest n q i d f given = s.failCheck n q i 6 := if_pos (by rw [h]; rfl)

theorem attest_report {s : State} {n q i : Nat} {d : Desc} {nonce : List Byte} (hargs : attestArgs n 0 d = true)
    (hbuf : bufWaits n d nonce = false) (hlocal : (if n = 16 then s else s.emit (.hostRead n d.buf 32)).attLocal d = true) :
    s.attest n q i d 0 nonce =
      (let p := (if n = 16 then s else s.emit (.hostRead n d.buf 32)).makeReport (s.memIn n d.buf 32 nonce) 0
       p.2.attestDone n q i d 0 p.1) := by
  have hgood : ¬ (!attestArgs n 0 d) = true := by rw [hargs]; exact Bool.false_ne_true
  have hread : ¬ (0 == 0 && bufWaits n d nonce) = true := by rw [hbuf]; simp
  have hif : (if (n == 16) = true then s else s.emit (.hostRead n d.buf 32)) =
      if n = 16 then s else s.emit (.hostRead n d.buf 32) := by simp only [beq_iff_eq]
  unfold attest
  rw [if_neg hgood, if_neg hread]
  dsimp only
  rw [hif]
  exact (if_pos hlocal).trans rfl

theorem attest_chain {s : State} {n q i : Nat} {d : Desc} (hargs : attestArgs n 1 d = true) (hlocal : s.attLocal d = true) :
    s.attest n q i d 1 [] = s.attestDone n q i d 1 s.chainBytes := by
  have hgood : ¬ (!attestArgs n 1 d) = true := by rw [hargs]; exact Bool.false_ne_true
  unfold attest
  rw [if_neg hgood]
  exact (if_pos hlocal).trans rfl

theorem attestImport_of_good {s : State} {n q i : Nat} {d : Desc} {data : List Byte} {sig gcm : Bool} (hwin : inWin n d.buf d.len = true)
    (hbuf : bufWaits n d data = false) (hgood : (s.takeBuf n d data).2.importFault d.len (s.takeBuf n d data).1 sig gcm = none)
    (key : BitVec 256) :
    s.attestImport n q i d data sig gcm key =
      (((s.takeBuf n d data).2.takeKey (beAt (s.takeBuf n d data).1 0 1) (beAt (s.takeBuf n d data).1 4 4) key).recordT 0x5002 2 12
        (beAt (s.takeBuf n d data).1 0 1) (beAt (s.takeBuf n d data).1 4 4)).complete n q i 0 0 (beAt (s.takeBuf n d data).1 4 4) := by
  have hin : ¬ (!inWin n d.buf d.len) = true := by rw [hwin]; exact Bool.false_ne_true
  have hread : ¬ bufWaits n d data = true := by rw [hbuf]; exact Bool.false_ne_true
  unfold attestImport
  rw [if_neg hin, if_neg hread]
  generalize s.takeBuf n d data = p at *
  dsimp only
  rw [hgood]

theorem attestCycle_of_good {s : State} {n q i : Nat} {d : Desc} {token : List Byte} {sig : Bool} (hlen : d.len = 120)
    (hwin : inWin n d.buf d.len = true) (hbuf : bufWaits n d token = false)
    (hgood : (s.takeBuf n d token).2.tokenFault (s.takeBuf n d token).1 sig = none) :
    s.attestCycle n q i d token sig = (s.takeBuf n d token).2.transition (beAt (s.takeBuf n d token).1 0 1) := by
  have hin : ¬ (d.len != 120 || !inWin n d.buf d.len) = true := by rw [hwin, hlen]; simp
  have hread : ¬ bufWaits n d token = true := by rw [hbuf]; exact Bool.false_ne_true
  unfold attestCycle
  rw [if_neg hin, if_neg hread]
  generalize s.takeBuf n d token = p at *
  dsimp only
  rw [hgood]

/-! Tamper -/

/-- A tamper event shown and counted. -/
def tamperShown (s : State) (src now : Nat) : State :=
  ((((s.setBits Reg.SEC_TAMPER_STAT_EVENT [] (2 ^ src)).set Reg.SEC_TAMPER_STAT_NOW [] now).set Reg.SEC_STAT_TAMPER [] 1).inc
    Reg.SEC_CNT_TAMPER).modSec fun x => { x with tamperBoot := true }

theorem tamper_of_no_wipe {s : State} {src now : Nat} (h : s.tamperResp src < 2) :
    s.tamper src now = if (s.tamperShown src now).alive then (s.tamperShown src now).recordT 0x5010 5 12 src (s.tamperResp src)
      else s.tamperShown src now := if_neg (Nat.not_le.mpr h)

theorem tamperShown_get {s : State} (hs : Sparse.sorted s.regs = true) (src : Nat) {now : Nat} (hnow : now < 64) :
    (s.tamperShown src now).get Reg.SEC_STAT_TAMPER = 1 ∧ (s.tamperShown src now).get Reg.SEC_TAMPER_STAT_NOW = now := by
  have hevent := sorted_set s Reg.SEC_TAMPER_STAT_EVENT [] (s.get Reg.SEC_TAMPER_STAT_EVENT ||| 2 ^ src) hs
  unfold tamperShown setBits
  generalize s.set Reg.SEC_TAMPER_STAT_EVENT [] (s.get Reg.SEC_TAMPER_STAT_EVENT ||| 2 ^ src) = u at *
  have hset := sorted_set u Reg.SEC_TAMPER_STAT_NOW [] now hevent
  have hinc (f : Fld) (hf : f.key [] ≠ Reg.SEC_CNT_TAMPER.key []) :
      (((u.set Reg.SEC_TAMPER_STAT_NOW [] now).set Reg.SEC_STAT_TAMPER [] 1).inc Reg.SEC_CNT_TAMPER).get f =
        ((u.set Reg.SEC_TAMPER_STAT_NOW [] now).set Reg.SEC_STAT_TAMPER [] 1).get f := get_set_other _ _ _ _ _ _ hf
  refine ⟨(hinc _ (by decide)).trans (get_set_same _ _ _ 1 hset), (hinc _ (by decide)).trans ?_⟩
  exact (get_set_other (u.set Reg.SEC_TAMPER_STAT_NOW [] now) _ _ _ _ _ (by decide)).trans
    ((get_set_same u _ _ now hevent).trans (Nat.mod_eq_of_lt hnow))

theorem alive_flag {s : State} {f : Fld} {b : Bool} (h : Reg.DIAG_STAT_FROZEN.key [] ≠ f.key []) : (s.flag f [] b).alive = s.alive :=
  congrArg (fun x => s.power.on && !(x != 0)) (get_set_other s _ _ _ _ _ h)

/-! The fleet key -/

/-- The staged fleet key active at a turn, and the old one kept for 256 turns. -/
def keySwitched (s : State) (r : Nat) : State :=
  ((((s.modKeys fun k => { k with
    active := k.staged, staged := none, roll := none, retired := k.active.map fun a => (a, r, r + 256) }).set
    Reg.SEC_FK_ACTIVE_ID [] (s.get Reg.SEC_FK_STAGED_ID)).set Reg.SEC_FK_STAGED_ID [] 0).set Reg.SEC_STAT_ROLL_PENDING [] 0)

/-- The switch of the fleet key stored and recorded. -/
def keyStored (s : State) (r : Nat) : State :=
  ((s.keySwitched r).mramWrite .keys).showKeys.recordT 0x5005 2 12 (s.get Reg.SEC_FK_STAGED_ID) (s.get Reg.SEC_FK_ACTIVE_ID)

theorem mramWrite_keys_keys (s : State) : (s.mramWrite .keys).keys = s.keys := by
  unfold mramWrite
  split
  · rfl
  · rfl

theorem keyStored_keys (s : State) (r : Nat) : (s.keyStored r).keys = (s.keySwitched r).keys :=
  (recordT_keys ..).trans (mramWrite_keys_keys _)

end State

open State

theorem not_not_alive {s : State} (ha : s.alive = true) : ¬ (!s.alive) = true := by
  rw [ha]
  exact Bool.false_ne_true

theorem exec_attestReport {s : State} (ha : s.alive = true) (n : Fin 17) (q : Fin 16) {i : Nat} (nonce : List Byte) {d : Desc}
    (hd : readyAttest s n.val q.val i 0 = some d) : exec (.attestReport n q i nonce) s = .next (s.attest n.val q.val i d 0 nonce) := by
  change execAttestReport n q i nonce s = _
  unfold execAttestReport
  rw [if_neg (not_not_alive ha), hd]

theorem exec_attestChain {s : State} (ha : s.alive = true) (n : Fin 17) (q : Fin 16) {i : Nat} {d : Desc}
    (hd : readyAttest s n.val q.val i 1 = some d) : exec (.attestChain n q i) s = .next (s.attest n.val q.val i d 1 []) := by
  change execAttestChain n q i s = _
  unfold execAttestChain
  rw [if_neg (not_not_alive ha), hd]

theorem exec_attestImport {s : State} (ha : s.alive = true) (n : Fin 17) (q : Fin 16) {i : Nat} (data : List Byte) (sig gcm : Bool)
    (key : BitVec 256) {d : Desc} (hd : s.ready n.val q.val i 0x30 = some d) (h2 : d.arg0 % 16 = 2) :
    exec (.attestImport n q i data sig gcm key) s = .next (s.attestImport n.val q.val i d data sig gcm key) := by
  change execAttestImport n q i data sig gcm key s = _
  unfold execAttestImport
  rw [if_neg (not_not_alive ha), hd]
  exact congrArg _ (if_pos (beq_iff_eq.mpr h2))

theorem exec_attestLifecycle {s : State} (ha : s.alive = true) (n : Fin 17) (q : Fin 16) {i : Nat} (token : List Byte) (sig : Bool) {d : Desc}
    (hd : readyAttest s n.val q.val i 3 = some d) :
    exec (.attestLifecycle n q i token sig) s = .next (s.attestCycle n.val q.val i d token sig) := by
  change execAttestLifecycle n q i token sig s = _
  unfold execAttestLifecycle
  rw [if_neg (not_not_alive ha), hd]

theorem exec_attestRequestReceive {s : State} (ha : s.alive = true) (sender : Nat) (waiting : Fin 5) (body : List Byte)
    (hcpu : s.cpuUp 1 = true) (hfree : s.sec.asked = []) :
    exec (.attestRequestReceive sender waiting body) s = .next (s.attRequest sender waiting.val body) := by
  have hserves : (s.cpuUp 1 && s.sec.asked.isEmpty) = true := by rw [hcpu, hfree]; rfl
  change execAttestRequestReceive sender waiting body s = _
  unfold execAttestRequestReceive
  dsimp only
  rw [if_neg (not_not_alive ha), if_pos hserves]

theorem exec_attestTimeout {s : State} (ha : s.alive = true) {k g q : Nat} {r : AttReq} (hr : s.sec.requests[k]? = some r)
    (hsent : r.sent = some (g, q)) (hlate : s.attDeadline r q ≤ s.clock.turn) :
    exec (.attestTimeout k) s = .next (s.attEnd r fun s => s.complete r.desc.1 r.desc.2.1 r.desc.2.2 4 0 0) := by
  have hguard : (s.alive && decide (s.attDeadline r q ≤ s.clock.turn)) = true := by rw [ha, decide_eq_true hlate]; rfl
  change execAttestTimeout k s = _
  unfold execAttestTimeout
  rw [hr]
  dsimp only
  rw [hsent]
  exact congrArg _ (if_pos hguard)

theorem exec_tamperEvent {s : State} (hs : Sparse.sorted s.regs = true) (ha : s.alive = true) (src : Fin 6) (now : Fin 64)
    (hresp : s.tamperResp src.val < 2) :
    ∃ t, exec (.tamperEvent src now) s = .next t ∧ t.get Reg.SEC_STAT_TAMPER = 1 ∧ t.get Reg.SEC_TAMPER_STAT_NOW = now.val ∧
      t.sec.tamperBoot = true ∧ t.keys = s.keys := by
  have hon : s.power.on = true := (Bool.and_eq_true_iff.mp ha).1
  obtain ⟨htamper, hnow⟩ := tamperShown_get hs src.val now.isLt
  refine ⟨_, (next_if_pos hon).trans (congrArg _ (tamper_of_no_wipe hresp)), ?_⟩
  generalize hu : s.tamperShown src.val now.val = u at *
  have hboot : u.sec.tamperBoot = true := hu ▸ rfl
  have hkeys : u.keys = s.keys := hu ▸ rfl
  clear hu
  split
  · exact ⟨(recordT_get _ _ _ _ _ _ _ _ (by decide)).trans htamper, (recordT_get _ _ _ _ _ _ _ _ (by decide)).trans hnow,
      (congrArg Sec.tamperBoot (recordT_sec ..)).trans hboot, (recordT_keys ..).trans hkeys⟩
  · exact ⟨htamper, hnow, hboot, hkeys⟩

theorem exec_fleetKeySwitch {s : State} (ha : s.alive = true) {r : Nat} {k : BitVec 256} (hroll : s.keys.roll = some r) (hr : r ≤ s.clock.turn)
    (hstaged : s.keys.staged = some k) : exec .fleetKeySwitch s = .next (s.keyStored r).measKeys.certify := by
  have hguard : ¬ (!s.alive || decide (s.clock.turn < r) || s.keys.staged.isNone) = true := by
    rw [ha, hstaged, decide_eq_false (Nat.not_lt.mpr hr)]
    simp
  change execFleetKeySwitch s = _
  unfold execFleetKeySwitch
  rw [hroll]
  dsimp only
  rw [if_neg hguard]
  rfl

/-- Settles O56: each descriptor takes the branch that its check leaves, and what shows is read back outside the places of its record. -/
theorem securityCommands : Obligations.SecurityCommands := by
  intro s hc ha
  refine ⟨fun n q i nonce d hd hargs => (exec_attestReport ha n q nonce hd).trans (congrArg _ (attest_of_bad hargs nonce)),
    fun n q i nonce d hd hargs hbuf hlocal => ?_,
    fun n q i d hd hargs hlocal => (exec_attestChain ha n q hd).trans (congrArg _ (attest_chain hargs hlocal)),
    fun n q i data sig gcm key d hd h2 hwin hbuf hgood =>
      ⟨_, (exec_attestImport ha n q data sig gcm key hd h2).trans (congrArg _ (attestImport_of_good hwin hbuf hgood key)), rfl⟩,
    fun n q i token sig d hd hlen hwin hbuf hgood =>
      (exec_attestLifecycle ha n q token sig hd).trans (congrArg _ (attestCycle_of_good hlen hwin hbuf hgood)),
    fun sender waiting body hcpu hfree => exec_attestRequestReceive ha sender waiting body hcpu hfree,
    fun sender body => next_if_pos ha, fun k r g q hr hsent hlate => exec_attestTimeout ha hr hsent hlate,
    fun src now hresp => exec_tamperEvent hc.regs ha src now hresp, fun b => next_if_pos ((alive_flag (by decide)).trans ha),
    fun r k hroll hr hstaged => ⟨_, exec_fleetKeySwitch ha hroll hr hstaged, ?_⟩, fun k a e hk he => ?_⟩
  · refine ⟨_, _, (exec_attestReport ha n q nonce hd).trans (congrArg _ (attest_report hargs hbuf ?_)), rfl⟩
    split
    · exact hlocal
    · exact hlocal
  · rw [keyStored_keys]
    exact ⟨hstaged, rfl, rfl, rfl⟩
  · have hguard : (s.alive && decide (e ≤ s.clock.turn)) = true := by rw [ha, decide_eq_true he]; rfl
    change execRetiredKeyErase s = _
    unfold execRetiredKeyErase
    rw [hk]
    exact congrArg _ (if_pos hguard)

end Sys2Proof.Machine
